-- ==== Sys2Proof/Word.lean ====
section
/-!
DEFINITION. Words and bytes of the block, and reading a field of a word. Bit 0 is the least significant bit, a range
[msb:lsb] includes both ends and multi-byte fields are little-endian (R7).
-/
namespace Sys2Proof

/-- One byte of memory, of an entry or of a frame (R7). -/
abbrev Byte := BitVec 8
/-- One 32-bit register word of BAR0 (R382). -/
abbrev Word := BitVec 32
/-- A 64-bit word: a router slot word, a lane of the accumulator file, a bus address. -/
abbrev DWord := BitVec 64

/-- Sparse data by key: a list of key and value pairs, keys strictly rising. -/
abbrev Map (α : Type) := List (Nat × α)

/-- The `len`-bit field of a number that starts at bit `lo` (R7). -/
def bitsOf (v lo len : Nat) : Nat := (v >>> lo) % 2 ^ len

/-- Put `x` into the `len`-bit field at bit `lo` of a number (R7). -/
def putBits (v lo len x : Nat) : Nat :=
  v - (bitsOf v lo len <<< lo) + ((x % 2 ^ len) <<< lo)

/-- The little-endian number of a byte list (R7). -/
def leNat : List Byte → Nat
  | [] => 0
  | b :: bs => b.toNat + 256 * leNat bs

/-- The `n` little-endian bytes of a number (R7). -/
def leBytes : Nat → Nat → List Byte
  | 0, _ => []
  | n + 1, v => BitVec.ofNat 8 v :: leBytes n (v / 256)

/-- Bytes `off` to `off + n - 1` of a block; bytes past its end read as zero. -/
def sliceBytes (bs : List Byte) (off n : Nat) : List Byte :=
  let r := (bs.drop off).take n
  r ++ List.replicate (n - r.length) 0

/-- The little-endian field of `n` bytes at `off` of a block (R7). -/
def fieldAt (bs : List Byte) (off n : Nat) : Nat := leNat ((bs.drop off).take n)

/-- A number read as a two's-complement value of `w` bits. -/
def signedOf (w v : Nat) : Int :=
  let u := v % 2 ^ w
  if 2 * u < 2 ^ w then (u : Int) else (u : Int) - (2 ^ w : Nat)

/-- A signed value as the two's-complement bits of a `w`-bit field. -/
def unsignedOf (w : Nat) (v : Int) : Nat := (v % ((2 ^ w : Nat) : Int)).toNat

/-- Ceiling of a quotient (the spec's ⌈a ÷ b⌉). -/
def ceilDiv (a b : Nat) : Nat := if b = 0 then 0 else (a + b - 1) / b

/-- Addition that saturates at a maximum (the spec's saturating counters). -/
def satAdd (top a b : Nat) : Nat := min top (a + b)

/-- A value held within two bounds. -/
def clampInt (lo hi v : Int) : Int := if v < lo then lo else if hi < v then hi else v

end Sys2Proof
end

