-- ==== Sys2Proof/Config.lean ====
section
/-!
DEFINITION. What an implementation fixes: the counts of the levels of the design (00_scope, 05 R154, 06 R214), and
the free values, each an opaque constant that nothing in Lean can evaluate.
-/
namespace Sys2Proof.Config

/-- Physical tiles of the device (the seven levels; R61). -/
def tiles : Nat := 10560
/-- Rows of the device (R61). -/
def rows : Nat := 160
/-- Physical columns of a row (R61). -/
def cols : Nat := 66
/-- Ethernet lanes (R335). -/
def lanes : Nat := 32
/-- Frames of 2 MiB in HBM (R214). -/
def frames : Nat := 294912
/-- First frame that is not in a fixed reserved region (R234). -/
def firstFreeFrame : Nat := 11520
/-- The allocation reserve, in frames (R234). -/
def allocReserve : Nat := 1024
/-- Entries of the sequence table (R244). -/
def seqEntries : Nat := 4096
/-- Entries of the directory of shared blocks (R223). -/
def dirEntries : Nat := 65536
/-- Bytes of one frame, 2 MiB (R214). -/
def frameBytes : Nat := 2097152
/-- The greatest position index (headline figures; R244). -/
def maxPosition : Nat := 4194304

/-- FREE VALUE (log 7). The last-place rounding that R90, R115 and R445 leave open: whether a value that is not exact
in the register's format is stored rounded up. Applied to the operands that the value depends on. -/
opaque roundUp : Nat → Nat → Bool
/-- FREE VALUE (log 9). Bytes of a message, an identity or a block that the spec names but whose encoding it does not
fix (the PLDM response bodies of R402, the reading of a coolant-loss record). Applied to a request number and an index. -/
opaque openByte : Nat → Nat → Byte
/-- FREE VALUE (log 77). FINAL of an EXPIRED or EVICTED record and FIRST_POS of a record without tokens, which R274 leaves open. Applied to
the record's KIND, entry and tag. -/
opaque openRecord : Nat → Nat → Nat → Bool × Nat
/-- FREE VALUE (log 111). Which of the conditions of R264 that hold together for a delivered token gives the reason. Applied to the bit
mask of their codes. -/
opaque finishPick : Nat → Nat
/-- FREE VALUE (log 10). Which of its half's 48 thermal diodes is nearest to a tile: R58, R90 and R105 name the nearest
sensor, and the spec places no diode. Applied to the tile and taken modulo 48. -/
opaque nearestDiode : Nat → Nat

/-- FREE VALUE (log 158). The temperature, in sixteenths of a degree, that a diode's code stands for: R456 converts by coefficients fused for
each diode and gives neither them nor their form. Applied to the diode and the code. -/
opaque diodeTemp : Nat → Nat → Int

/-- FREE VALUE (log 13). What the quantisers and comparisons of R25, R86, R208 and R209 give for a NaN or for a quotient by
a zero scale, which the spec states no result for. Applied to the FP32 word. -/
opaque nanQuant : Nat → Nat

/-- FREE VALUE (log 118). The trim pair of the exact set that R93 fits to code parities which are not balanced at every count: the
rule says what the fit aims at and gives no formula. Applied to the pair in force, the parities of the column (count + 32, odd,
even) and those of its pair's reference columns. -/
opaque exactFit : Nat → List (Nat × Nat × Nat) → List (List (Nat × Nat × Nat)) → Nat

/-- FREE VALUE (log 124). Element `i` of a function of FP32 vectors whose arithmetic the spec does not give: the normalisations, the
rotary encoding, SiLU and GELU, and a product with the LM head (R24). `kind` tells them apart; the lists are the operands. -/
opaque openFp (kind : Nat) (xs ys : List Nat) (i : Nat) : Nat

/-- FREE VALUE (log 128). A correction of R459 below 0 °C or above 110 °C, where its table has no points. Applied to the table and the
temperature in sixteenths of a degree. -/
opaque compensationBeyond (table : Nat) (temp : Int) : Int

end Sys2Proof.Config
end

