-- ==== Sys2Proof/Syntax.lean ====
section
/-!
DEFINITION. The commands of the block: one constructor of `Instr` for each row of spec/opcode_table.json, with the
operands that the row's rule names. A mailbox command carries the 64-byte entry of R387 as fetched; what the device
reads by DMA or RDMA while it runs (a record, a manifest, a cue sheet) is an operand too, and `none` is a transfer that
met a poisoned or unsuccessful completion (R380). An event carries what the environment supplies: analogue levels, sensor
readings, received frames, the outcome of the self-test (log 3).
-/
namespace Sys2Proof

/-- A submission entry as fetched from ring `ring`: 64 bytes (R387). -/
structure Entry where
  ring : Nat
  bytes : List Byte
  deriving DecidableEq, Repr

/-- What a DMA or RDMA read returned; `none` is a failed transfer (R380). -/
abbrev Dma := Option (List Byte)

/-- The model envelope of R24 as the manifest header carries it (R287): window 0 is a global layer. -/
structure Model where
  windows : List Nat
  kvWidth : Nat
  headDim : Nat
  vocab : Nat
  specHeads : Nat
  /-- Hidden size, and query heads per KV head. -/
  hidden : Nat := 1024
  queryHeads : Nat := 1
  /-- Feed-forward: 0 plain, 1 gated with SiLU, 2 gated with GELU, 3 mixture of experts; its experts, those that a token selects, and the
  shared ones. -/
  feedForward : Nat := 0
  experts : Nat := 0
  selected : Nat := 0
  sharedExperts : Nat := 0
  /-- Format codes (R283) of the projections, and of the embedding and the LM head. -/
  projection : Nat := 1
  tables : Nat := 8
  /-- LayerNorm, not RMSNorm. -/
  layerNorm : Bool := false
  positions : Nat := 4194304
  deriving DecidableEq, Repr

/-- A tensor record (R288) with its outlier list. -/
structure Tensor where
  layer : Nat
  kind : Nat
  format : Nat
  expert : Nat
  layout : Nat
  rowsI : Nat
  colsO : Nat
  firstSeg : Nat
  segCount : Nat
  outliers : List Nat
  /-- Offset of the outlier list in the manifest, or 0. -/
  listAt : Nat := 0
  deriving DecidableEq, Repr

/-- A segment record (R289). -/
structure SegRec where
  stored : Nat
  digest : Nat
  encrypted : Bool
  keySlot : Nat
  tensor : Nat
  firstGroup : Nat
  iv : List Byte
  deriving DecidableEq, Repr

/-- A manifest as PRODUCTION_OPEN reads it (R287 to R290): its bytes, what the model envelope of bytes 24 to 87 says, whose encoding
the manual leaves to Jigiene's tool (log 4). -/
structure ManifestIn where
  bytes : List Byte
  model : Model
  deriving DecidableEq, Repr

/-- A manifest as the device holds it (R287 to R290). `identity` is the SHAKE256-256 digest over all its bytes (R291), `keyDigest`
that of the publisher key. -/
structure Manifest where
  magicOk : Bool
  minor : Nat
  major : Nat
  headerLen : Nat
  length : Nat
  epoch : Nat
  tromal : Bool
  reservedZero : Bool
  model : Model
  keyDigest : Nat
  identity : Nat
  tensors : List Tensor
  segments : List SegRec
  /-- Bytes that were read for it. -/
  held : Nat := length
  deriving DecidableEq, Repr

/-- One segment as it arrives at the loader (R286, R289, R293): its index and its bytes as stored. -/
structure SegArrival where
  seg : Nat
  stored : List Byte
  deriving DecidableEq, Repr

/-- A chunk of a cue sheet body as its header gives it (R168), with what its checks find: the CRC-32C of its payload, the header's
zero field and the length against the counts of its layout and of the cue sheet header, and the payload's reserved fields. -/
structure Chunk where
  kind : Nat
  target : Nat
  crcOk : Bool
  lengthOk : Bool
  reservedOk : Bool
  deriving DecidableEq, Repr

/-- A variant record of the section table (R255). -/
structure Variant where
  capacity : Nat
  seqLimit : Nat
  first : Nat
  count : Nat
  length : Nat
  interval : Nat
  deriving DecidableEq, Repr

/-- A section record of the section table (R255). -/
structure Section where
  start : Nat
  length : Nat
  layer : Nat
  tag : Nat
  deriving DecidableEq, Repr

/-- A footlight call (R53): the home tile index of a logical position, the schedule cycle at which it acts and the one
until which it holds. -/
structure FlCall where
  tile : Nat
  act : Nat
  until_ : Nat
  deriving DecidableEq, Repr

/-- The close targets of R129; `int8` carries its BF16 factor. -/
inductive CloseTarget where
  | int32 | fp32 | bf16 | e4m3 | e5m2 | int8 (factor : Nat)
  deriving DecidableEq, Repr

/-- An array MVM that the engine program of a position schedules (R34, R49, R55). `start` and `deliver` are offsets from the
start of its section. `row` is the scene row that it serves; in the slots of a placed expert it counts the rows that selected
the expert (R25). The vector of row r is that of layer input `input`: its elements begin at `acts + stride * r` of tile SRAM,
and their high bytes, where it took a format encore, at `high + stride * r` (R88). `lane` is where its results go. -/
structure MvmSlot where
  tile : Nat
  array : Nat
  sec : Nat
  start : Nat
  deliver : Nat
  groupRows : Nat
  row : Nat
  input : Nat
  acts : Nat
  high : Nat
  stride : Nat
  lane : Nat
  expert : Option Nat
  deriving DecidableEq, Repr

/-- Where a scene row's activation vector lies in tile SRAM (R86, R88): the number of the layer input, the address of its elements'
low bytes and that of their high bytes. -/
structure VecRef where
  row : Nat
  input : Nat
  acts : Nat
  high : Nat
  deriving DecidableEq, Repr

/-- An accumulation group that the engine program opens and closes (R125, R128, R129): slot, format, section, lanes, open
span, and what its close writes: target, SRAM address, the scene row of its key, site, and the element index of its first
lane within the vector that the site closes (R132). -/
structure GroupSlot where
  tile : Nat
  slot : Nat
  fp : Bool
  sec : Nat
  base : Nat
  count : Nat
  opens : Nat
  closes : Nat
  target : CloseTarget
  addr : Nat
  row : Nat
  site : Nat
  element : Nat
  deriving DecidableEq, Repr

/-- A placement record of a tile image (R298). -/
structure Placement where
  tile : Nat
  array : Nat
  tensor : Nat
  rowBlock : Nat
  colBlock : Nat
  reversed : Bool
  scaleAddr : Nat
  outlierAddr : Nat
  slots : List Nat
  deriving DecidableEq, Repr

/-- Where a wing line's data come from or go to (R171, R173): a byte address of HBM; 64 bytes of a collective step of the scene, by
the step's number among the cue sheet's and an offset in its data (R359); or the PCIe endpoint, whose data the transfer
brings. -/
inductive LineEnd where
  | hbm (addr : Nat) | chorus (step offset : Nat) | outside
  deriving DecidableEq, Repr

/-- A line that a wing program drives or receives (R171): its section, the offset in it of its counter value T, the line, its
direction, the sideband with which an inbound line leaves, and its other end. -/
structure WingLine where
  rowEnd : Nat
  sec : Nat
  at_ : Nat
  line : Nat
  inbound : Bool
  side : Nat
  other : LineEnd
  deriving DecidableEq, Repr

/-- A check block among the lines of a wing (R470, R472): its data lines in order, its trailer line, its buffer identity and
its index in the buffer. -/
structure LineBlock where
  rowEnd : Nat
  lines : List Nat
  trailer : Nat
  buffer : Nat
  index : Nat
  deriving DecidableEq, Repr

/-- A router's slot program and its start address for each section (R160, R257). -/
structure SlotProgram where
  tile : Nat
  words : List DWord
  starts : List Nat
  deriving DecidableEq, Repr

/-- The operand pairings of the MAC block (R120). -/
inductive MacMode where
  | int8 | int4x8 | fp8 (aE5 bE5 : Bool) | bf16
  deriving DecidableEq, Repr

/-- Where the local output of a router goes in its tile (R126, R159): lanes of an accumulation group, or tile SRAM. -/
inductive LocalDest where
  | lanes (lane : Nat) | sram (addr : Nat)
  deriving DecidableEq, Repr

/-- Elementwise functions of the digital side on FP32 vectors (R24): residual and gate arithmetic, and the two activations. -/
inductive VecOp where
  | add | mul | silu | gelu
  deriving DecidableEq, Repr

/-- An operation of an engine program (04, 06; the encoding is not documented, log 4). Addresses are in the SRAM of the tile
that serves the position; a vector of FP32 elements takes 4 bytes each. `row` is a row of the scene: a position that one of
its members works on. Where a scene has no such row the operation is an empty slot. -/
inductive Work where
  /-- One issue of the MAC block on 16 lanes: A at `a` by rows of K elements, B at `b` by K rows of four (R120). -/
  | mac (lane : Nat) (mode : MacMode) (a b : Nat)
  /-- Scale-add of a closed INT32 value at `n` by the BF16 factors at `fa` and `fb` (R124). -/
  | scaleAdd (lane n fa fb : Nat)
  /-- Scale-add of a row's closed array result at `n` by the factor at `fa` and the weight scale of a column of an array: that of
  the epoch of the row's sequence (R89, R124, R285, R301). -/
  | scaleColumn (row lane array col n fa : Nat)
  /-- Outlier contribution of a row's slots of an array to lanes of consecutive columns, with the weights of the epoch of the row's
  sequence; the slot channels' FP32 values at `x` (R89, R301). -/
  | outlier (row lane array col count x : Nat)
  /-- Build the table of four activations from element `first` of a vector on, and the table after it in a format encore (R134 to
  R136). -/
  | build (table first : Nat) (vec : VecRef)
  /-- Sixteen lookups for a vector of a scene row in a table for the four rows from `group * 4` on of a tensor block, columns from
  `col` on (R135, R136). -/
  | lookup (table lane tensor rowBlock colBlock group col : Nat) (vec : VecRef)
  /-- Quantise `n` FP32 elements at `src` to a vector with the scale at `scale`; slot channels, range factor (R86 to R88). -/
  | quantise (src n : Nat) (vec : VecRef) (scale : Nat) (slotRows : List Nat) (k : Nat)
  /-- RMSNorm or LayerNorm of `n` elements with the BF16 parameters at `param` (R24). -/
  | normalise (layer : Bool) (src n param dst : Nat)
  /-- Rotary position encoding of the head vector at `src` for a row's position (R24). -/
  | rotary (row src n dst : Nat)
  /-- An elementwise function of one or two vectors (R24). -/
  | vector (op : VecOp) (a b n dst : Nat)
  /-- Embedding row of a scene row's token, from the packed copy in HBM (R24). -/
  | embed (row tensor n dst : Nat)
  /-- Logits of a scene row from the LM head in HBM; `head` 0 is the verified one, h a speculative head's (R24, R259). -/
  | lmHead (row head tensor src n : Nat)
  /-- Router scores of a layer's experts in compensated lanes from `lane` on: the top k serve the row (R25). -/
  | expert (row lane count k dst : Nat)
  /-- An empty softmax triple of `dim` elements at `tri` (R139). -/
  | clearTriple (tri dim : Nat)
  /-- Quantise a row's key or value of a KV head, FP32 elements at `src` with the attention record at `rec`, into the area of the
  scene's own rows: at `own + stride * row` its keys, its values and the scales of its block (R207, R208). -/
  | kvQuantise (row rec head : Nat) (value : Bool) (src own stride : Nat)
  /-- A row's keys and values in that area go to its page or candidate record, where this member owns the block (R205, R220,
  R230). -/
  | kvWrite (row rec head own stride : Nat)
  /-- Block attention of a row's query at `q` over the blocks that this cast member owns (R205 to R213). -/
  | attend (tri row rec head q own stride : Nat)
  /-- The merge of a level of the cast's tree, where the member has one there: the triple at `src` into that at `dst` (R140, R212). -/
  | mergeTriple (rec level dst src : Nat)
  /-- The o lanes of a triple reach compensated lanes of the accumulator file (R126, R127). -/
  | addTriple (lane tri dim : Nat)
  /-- Output of a triple, closed with the key of a row, site and first element index (R132, R141). -/
  | output (tri dim addr : Nat) (target : CloseTarget) (row site element : Nat)
  /-- A flit of the 64 bytes at `addr` leaves for the router with a sideband (R156, R159). -/
  | inject (side addr : Nat)
  /-- A flit that the router delivers in this cycle goes there (R126, R159). -/
  | receive (dest : LocalDest)
  /-- Write the trailer word of a check block of `lines` lines at `addr`, or check it (R470, R472). -/
  | sealBlock (addr lines buffer index : Nat)
  | checkBlock (addr lines buffer index : Nat)
  deriving DecidableEq, Repr

/-- A scheduled action of an engine program: its section, the offset in it and the home tile of its position. -/
structure Act where
  sec : Nat
  at_ : Nat
  tile : Nat
  work : Work
  deriving DecidableEq, Repr

/-- A collective step that a cue sheet runs in a section (R356, R359, R364): the offset of its first wing line, its kind (0
all-reduce, 1 reduce-scatter, 2 all-gather, 3 broadcast, 4 barrier, 5 handoff), the bytes of its vector, the root or sending
member, a handoff's receiver and the FORMAT of its lanes (R354). -/
structure StepSlot where
  sec : Nat
  at_ : Nat
  collective : Nat
  bytes : Nat
  root : Nat
  peer : Nat
  format : Nat
  deriving DecidableEq, Repr

/-- What the chunks that the manual does not document compile to (log 4): engine programs of positions and wing programs, and the
footlight calls, whose fields R53 names without their bytes. -/
structure Compiled where
  acts : List Act
  mvms : List MvmSlot
  groups : List GroupSlot
  calOffsets : Map Nat
  calls : List FlCall
  wingLines : List WingLine
  blocks : List LineBlock
  steps : List StepSlot
  deriving DecidableEq, Repr

/-- A cue sheet as read by CUESHEET_LOAD: the bytes of header and body (R167, R168), and what its undocumented chunks compile to. -/
structure SheetIn where
  bytes : List Byte
  compiled : Compiled
  deriving DecidableEq, Repr

/-- A cue sheet as the store holds it (R167, R168, R255, R257), read from its bytes by Machine/CueParse.lean. -/
structure CueSheet where
  magicOk : Bool
  minor : Nat
  major : Nat
  headerLen : Nat
  bodyLen : Nat
  identity : Nat
  epoch : Nat
  flags : Nat
  budget : Nat
  members : Nat
  member : Nat
  tagCount : Nat
  lookahead : Nat
  calPeriod : Nat
  routeBudget : Nat
  barrier : Nat
  callCount : Nat
  sectionCount : Nat
  /-- Phase tag table: tag number and first section of each of the 16 entries. -/
  tags : List (Nat × Nat)
  kvLayout : Nat
  build : Nat
  reservedZero : Bool
  digestOk : Bool
  digest : Nat
  chunks : List Chunk
  variants : List Variant
  sections : List Section
  programs : List SlotProgram
  calls : List FlCall
  placements : List Placement
  /-- Payload of a position's tile image, by home tile (R168, R298). -/
  images : Map (List Byte)
  compiled : Compiled
  deriving DecidableEq, Repr

/-- A green-room image as read back by SEQ_RESUME (R269, R271). -/
structure Image where
  /-- Bytes 0 to H − 1. -/
  header : List Byte
  /-- The page records, 2,109,440 bytes each. -/
  records : List (List Byte)
  /-- The token inputs of the sequence, from TOKEN_SRC (R245). -/
  tokens : List Nat
  deriving DecidableEq, Repr

/-- The MVM that a phase window opens (R34 to R36): a slot of the active cue sheet for a scene, or one of the additional slots
of an expert's excess rows, in the order in which they wait (R26). -/
inductive MvmRef where
  | slot (index scene : Nat) | excess
  deriving DecidableEq, Repr

/-- An MVM as it runs: array, activations by row (0 outside the placed rows), zeroed outlier rows, planes, group size, the
scene that consumes it, the section and first lane of its results, and the counter value of its delivery slot (R49). -/
structure MvmStart where
  array : Nat
  acts : List Int
  outlierRows : List Nat
  fmt16 : Bool
  groupRows : Nat
  sec : Nat
  scene : Nat
  lane : Nat
  deliver : Nat
  deriving DecidableEq, Repr

/-- What the analogue side supplies in one phase window (R38 to R46): the level of each column at its converter before the
trims act, in units of 2^-16 converter code from the level of count 0; whether a droop alarm met the phase; and the row
whose word of the row-sum store read uncorrectable, if one did (R81). -/
structure PhaseIn where
  levels : List Int
  alarm : Bool
  storeUe : Option Nat
  deriving DecidableEq, Repr

/-- One window of a calibration run (R93): the levels of the 1,024 weight columns and the 16 reference columns, as in a phase. -/
structure CalWindow where
  levels : List Int
  deriving DecidableEq, Repr

/-- A flit: sideband and 512-bit payload (R154, R156). -/
structure Flit where
  side : Nat
  payload : Nat
  deriving DecidableEq, Repr

/-- An error that the environment brings while a section runs: of an SRAM word, a slot word, a row link domain or an HBM
access (R144, R190, R195, R475), or a silent change of a byte of HBM or tile SRAM, of a page descriptor or of a directory
entry, which a check value may find (R236, R470), or ledger writes, so many of whose next attempts read back wrong (R501). -/
inductive SecError where
  | sram (tile word : Nat) (ue : Bool)
  | slot (tile addr : Nat) (ue : Bool)
  | rowLink (row : Nat)
  | hbm (addr : Nat) (ue : Bool)
  | flipHbm (addr : Nat)
  | flipSram (tile addr : Nat)
  | flipDescriptor (frame : Nat)
  | flipDirectory (entry : Nat)
  | ledger (attempts : Nat)
  deriving DecidableEq, Repr

/-- Place of a packet in its message (R350). -/
inductive PacketPart where
  | first | middle | last | only
  deriving DecidableEq, Repr

/-- A queue pair packet as received, with its packet sequence number (R350 to R353). -/
inductive RocePacket where
  | badIcrc
  | read (psn addr len rkey : Nat)
  /-- Address, length and R_Key of the message stand in its first or only packet. -/
  | write (psn : Nat) (part : PacketPart) (addr len rkey : Nat) (data : List Byte)
  /-- A packet of a SEND. The last one brings the page set that the SEND announces: KV layout identity, the byte offset of its page
  records in the transfer staging frames, and the layer, plane and page of each (R229; the encoding of an announcement is not in
  the spec, log 133). -/
  | send (psn : Nat) (part : PacketPart) (data : List Byte) (pageSet : Option (Nat × Nat × List (Nat × Nat × Nat)))
  | ack (psn : Nat)
  | nak (psn : Nat)
  /-- The responder was not ready: the request is sent again (R353). -/
  | rnrNak (psn : Nat)
  | cnp
  | unsupported
  deriving DecidableEq, Repr

/-- The fields of a Chorus frame's header, its payload and its digest (R354). -/
structure ChorusFrame where
  op : Nat
  group : Nat
  src : Nat
  dst : Nat
  stepNo : Nat
  alive : Nat
  offset : Nat
  length : Nat
  last : Bool
  retransmit : Bool
  format : Nat
  extend : Nat
  payload : List Byte
  digest : Nat
  deriving DecidableEq, Repr

/-- A write of PCIe configuration space (R376, R377, R379, R380): Bus Master Enable, the D-state, Device Control, the BAR2 size, MSI-X
Enable and Function Mask, the ASPM control of Link Control, ECRC generation and checking, the AER uncorrectable mask, and the
bases of BAR0 and BAR2. -/
inductive CfgWrite where
  | busMaster (on : Bool) | dState (d3hot : Bool) | devControl (v : Nat) | bar2Size (log2 : Nat)
  | msix (enable mask : Bool) | aspm (v : Nat) | ecrc (generate check : Bool) | aerMask (v : Nat) | bar0 (v : Nat) | bar2 (v : Nat)
  deriving DecidableEq, Repr

/-- A sideband request (R402). -/
inductive SmbusRequest where
  | control (code : Nat) (data : List Byte) | pldmBase (code : Nat) | pdrInfo | getPdr (id : Nat) | numericSensor (id : Nat)
  | stateSensor (id : Nat) | other (code : Nat)
  deriving DecidableEq, Repr

/-- A command or an event of the block, one constructor for each row of the table of operations. -/
inductive Instr where
  | echo (e : Entry)
  | queryInfo (e : Entry)
  | playbill (e : Entry)
  | productionOpen (e : Entry) (m : Option ManifestIn)
  | productionFetch (e : Entry) (arrived : Option (List SegArrival))
  | productionPush (e : Entry) (arrived : Option (List SegArrival))
  | productionSeal (e : Entry)
  | recastRolling (e : Entry)
  | recastAbort (e : Entry)
  | keyUnwrap (e : Entry) (rec : Dma)
  | cuesheetLoad (e : Entry) (sheet : Option SheetIn)
  | cuesheetActivate (e : Entry)
  | seqAdmit (e : Entry) (rec : Dma) (tokens : List Nat)
  | seqAppend (e : Entry) (tokens : List Nat)
  | seqCancel (e : Entry)
  | seqPause (e : Entry)
  | seqResume (e : Entry) (image : Option Image)
  | seqEvict (e : Entry)
  | prefixPin (e : Entry)
  | prefixUnpin (e : Entry)
  | calRun (e : Entry)
  | calExport (e : Entry)
  | calImport (e : Entry) (records : Dma)
  | tileFence (e : Entry)
  | tileRestore (e : Entry)
  | rehearse (e : Entry)
  | rehearseRotation (e : Entry)
  | patternInstall (e : Entry) (pack : Dma)
  | unitTuneTrim (e : Entry)
  | unitTuneStep (e : Entry)
  | capSet (e : Entry)
  | thermalSet (e : Entry)
  | chorusGroupSet (e : Entry) (records : Dma)
  | portMode (e : Entry)
  | qpEstablish (e : Entry)
  | qpDestroy (e : Entry)
  | portAddr (e : Entry)
  | hostRing (e : Entry)
  | counterSnapshot (e : Entry)
  | ledgerRead (e : Entry)
  | faultPolicySet (e : Entry)
  | unsupportedOpcode (e : Entry)
  | mbxSqTail (ring : Nat) (value : Word) (fetched : List Entry)
  | mbxCqHead (ring : Nat) (value : Word)
  | ringEnable (ring : Nat) (value : Word)
  | ringDisable (ring : Nat) (value : Word)
  | flHoldForce (tile : Nat) (value : Word)
  | calDataWrite (tile : Nat) (value : Word)
  | calDataRead (tile : Nat)
  | autoEn (value : Word)
  | shadowLoRead (offset : Nat)
  | rcRead (offset : Nat) (size : Nat := 4)
  | prmSeqSelect (value : Word)
  | ptpStepHi (value : Word)
  | glbResetChip (value : Word) (selfTestOk identityOk : Bool) (boot : List Byte)
  | glbResetBlock (value : Word)
  | fwsLength (value : Word)
  | fwsPiece (value : Word)
  | swTrigger (half : Nat) (value : Word)
  | cntClear (value : Word)
  | cntBwCfg (window : Nat) (value : Word)
  | chkRunWrite (offset : Nat) (value : Word)
  | chkModeWrite (engine : Nat) (value : Word)
  | netHostTxTail (value : Word) (descriptors : List (List Byte))
  | netHostRxTail (value : Word) (descriptors : List (List Byte))
  | laneCtrl (lane : Nat) (value : Word)
  | registerWrite (offset : Nat) (value : Word) (size : Nat := 4) (high : Word := 0)
  | bar2Access (offset : Nat) (write : Option (List Byte)) (length : Nat)
  | coldReset (selfTestOk identityOk : Bool) (boot : List Byte)
  | fundamentalReset (sysRst : Bool)
  | hotReset
  | flr
  | chipReset (selfTestOk identityOk : Bool) (boot : List Byte)
  | blockReset (kind index : Nat)
  | blockResetEnd (kind index : Nat) (digests : Map (List Nat))
  | powerDown
  | railLoss
  | coolantLoss
  | pllUnlock
  | droop (row : Nat)
  | droopRecovery
  | hkmPass (half : Nat) (codes : List Nat)
  | hbmSensorRead (temps : List Int)
  | throttleLimitStep
  | thermtripTimeout
  | injectedSequence (half : Nat) (codes : List Nat)
  | controlInterval (onDie : Nat)
  | bubbleBlock
  | rampStep (idle : Bool)
  | avsTelemetry (milliwatts : List Nat)
  | avsFault (rail : Nat)
  | ageColumnCrossing (hours : Nat)
  | stepChangeProceed (expired : Bool)
  | regulatorReached
  | stepSwitch
  | sectionStart (index scene : Nat) (errors : List SecError)
  | phaseWindow (tile : Nat) (start : Option MvmRef) (input : PhaseIn)
  | mvmDelivery (tile : Nat)
  | groupClose (tile slot : Nat)
  | footlightCall (call : FlCall)
  | flSettled (tile : Nat)
  | flPowerdown (tile : Nat)
  | statWindowEnd (tile : Nat)
  | calTrigger (half : Nat)
  | calSlot (tile : Nat) (windows : List CalWindow)
  | calRunComplete (tile : Nat) (windows : List CalWindow)
  | wingSourceIssue (rowEnd line target at_ : Nat)
  | wingLineReady (rowEnd line : Nat) (data : List Byte)
  | wingReadyTest (rowEnd at_ : Nat)
  | wingStall (rowEnd : Nat)
  | stepDescriptorCompletion (rowEnd target alive line : Nat)
  | sceneForm
  | sceneChange
  | emptySceneChange
  | understudyPrepared (tile : Nat)
  | understudyArraysReady (row : Nat) (east : Bool)
  | faultQuiet (source : Nat)
  | fwWatchdog
  | arrayProgrammed (tile array : Nat) (verified : Bool) (readbacks : List Nat)
  | drainTimeout
  | drainComplete
  | bootVerify (digests : Map (List Nat))
  | wearUpdate
  | pauseCopyDone (entry : Nat)
  | resumeComplete (entry : Nat)
  | greenRoomExpiry (entry : Nat)
  | fwsPieceCopied
  | firmwareVerified
  | mbxReady
  | laneSignalDetect (lane : Nat)
  | trainingFrame (lane control : Nat) (ready : Bool) (snr : Nat)
  | trainingTimeout (lane : Nat)
  | trainingRetry (lane : Nat)
  | laneLockLoss (lane : Nat)
  | chorusFrame (ce fcsOk : Bool) (bytes : List Byte)
  | rocePacket (qp port : Nat) (ce : Bool) (packet : RocePacket) (frame : List Byte)
  | pfcFrame (port classes quanta : Nat)
  | pauseFrame (port : Nat)
  | hostFrameReceive (port : Nat) (frame : List Byte)
  | pfcXoffRepeat (port cls occupancy : Nat)
  | preemptVerify (port : Nat) (responded : Bool)
  | roceAckTimeout (qp : Nat)
  | roceRateIncrease (qp : Nat)
  | chorusStepOpen (index scene : Nat)
  | chorusRetxTimer (stepNo : Nat)
  | chorusDeadline (stepNo : Nat)
  | lateNotice (stepNo : Nat)
  | chorusFrameRelease (stepNo : Nat)
  | smbusMessage (address : Nat) (request : SmbusRequest)
  | pldmSensorRefresh
  | dmaCompletion (ring tag : Nat) (poisoned : Bool)
  | completionPost (ring : Nat)
  | coalTimer (ring : Nat)
  | bwWindowEnd (window bytesA bytesB : Nat)
  | rehearsalDone (result first set : Nat) (digests : Map (List Nat))
  | rotationStep
  | patternWriteDone (ok : Bool)
  | mgmtRefresh
  | pcsAlignment (port : Nat) (locked : Bool)
  | pfcPauseExpiry (port cls : Nat)
  | coolantOkRestored
  | perstNDeassert (sysRst selfTestOk identityOk : Bool) (boot : List Byte)
  | pcieConfigWrite (write : CfgWrite)
  | pcieLinkError (bit : Nat)
  | sramScrubAccess (tile ecc : Nat)
  | wingOutboundDrain (rowEnd : Nat)
  | counterSaturated (index : Nat)
  | hostFrameTransmitted (frame : List Byte)
  deriving DecidableEq, Repr

end Sys2Proof
end

