-- ==== Sys2Proof/WellFormed.lean ====
section
/-!
DEFINITION. The commands that can be sent: entries of 64 bytes on one of 16 rings (R386, R387), and operands that name a
unit, register or lane which the block has (00_scope, R61, R335, R351, R381, R518). A command that is not well formed is
no command of the hardware; its meaning is the fault `noSuchUnit` wherever the unit is looked up.
-/
namespace Sys2Proof

/-- A ring entry: 64 bytes on one of the 16 ring pairs (R386, R387). -/
def entryWf (e : Entry) : Bool := decide (e.ring < 16) && decide (e.bytes.length = 64)

/-- A physical tile of the device (R61). -/
def tileWf (t : Nat) : Bool := decide (t < Config.tiles)

/-- A row end: row × 2, plus 1 for the east end (R157). -/
def rowEndWf (r : Nat) : Bool := decide (r < 2 * Config.rows)

/-- A register offset: a multiple of four within the 64 MiB of BAR0 (R7, R375, R381). -/
def offsetWf (o : Nat) : Bool := decide (o % 4 = 0) && decide (o < 67108864)

/-- The unit that a block reset names: 0 a tile, 1 a row, 2 a port die, 3 an HBM stack (R430). -/
def blockWf (kind index : Nat) : Bool :=
  match kind with
  | 0 => decide (index < Config.tiles)
  | 1 => decide (index < Config.rows)
  | 2 => decide (index < 2)
  | 3 => decide (index < 12)
  | _ => false

/-- Whether a command is one that the block's environment can send. -/
def Instr.wellFormed : Instr → Bool
  | .echo e => entryWf e
  | .queryInfo e => entryWf e
  | .playbill e => entryWf e
  | .productionOpen e _ => entryWf e
  | .productionFetch e _ => entryWf e
  | .productionPush e _ => entryWf e
  | .productionSeal e => entryWf e
  | .recastRolling e => entryWf e
  | .recastAbort e => entryWf e
  | .keyUnwrap e _ => entryWf e
  | .cuesheetLoad e _ => entryWf e
  | .cuesheetActivate e => entryWf e
  | .seqAdmit e _ _ => entryWf e
  | .seqAppend e _ => entryWf e
  | .seqCancel e => entryWf e
  | .seqPause e => entryWf e
  | .seqResume e _ => entryWf e
  | .seqEvict e => entryWf e
  | .prefixPin e => entryWf e
  | .prefixUnpin e => entryWf e
  | .calRun e => entryWf e
  | .calExport e => entryWf e
  | .calImport e _ => entryWf e
  | .tileFence e => entryWf e
  | .tileRestore e => entryWf e
  | .rehearse e => entryWf e
  | .rehearseRotation e => entryWf e
  | .patternInstall e _ => entryWf e
  | .unitTuneTrim e => entryWf e
  | .unitTuneStep e => entryWf e
  | .capSet e => entryWf e
  | .thermalSet e => entryWf e
  | .chorusGroupSet e _ => entryWf e
  | .portMode e => entryWf e
  | .qpEstablish e => entryWf e
  | .qpDestroy e => entryWf e
  | .portAddr e => entryWf e
  | .hostRing e => entryWf e
  | .counterSnapshot e => entryWf e
  | .ledgerRead e => entryWf e
  | .faultPolicySet e => entryWf e
  | .unsupportedOpcode e => entryWf e
  | .mbxSqTail ring _ fetched => decide (ring < 16) && fetched.all entryWf
  | .mbxCqHead ring _ => decide (ring < 16)
  | .ringEnable ring _ => decide (ring < 16)
  | .ringDisable ring _ => decide (ring < 16)
  | .flHoldForce tile _ => tileWf tile
  | .calDataWrite tile _ => tileWf tile
  | .calDataRead tile => tileWf tile
  | .autoEn _ => true
  | .shadowLoRead offset => offsetWf offset
  | .rcRead offset _ => decide (offset < 67108864)
  | .prmSeqSelect _ => true
  | .ptpStepHi _ => true
  | .glbResetChip _ _ _ _ => true
  | .glbResetBlock _ => true
  | .fwsLength _ => true
  | .fwsPiece _ => true
  | .swTrigger half _ => decide (half < 2)
  | .cntClear _ => true
  | .cntBwCfg window _ => decide (window < 22)
  | .chkRunWrite offset _ => offsetWf offset
  | .chkModeWrite engine _ => decide (engine < 24)
  | .netHostTxTail _ descriptors => descriptors.all (fun d => decide (d.length = 32))
  | .netHostRxTail _ descriptors => descriptors.all (fun d => decide (d.length = 32))
  | .laneCtrl lane _ => decide (lane < Config.lanes)
  | .registerWrite offset _ _ _ => decide (offset < 67108864)
  | .bar2Access _ _ _ => true
  | .coldReset _ _ _ => true
  | .fundamentalReset _ => true
  | .hotReset => true
  | .flr => true
  | .chipReset _ _ _ => true
  | .blockReset kind index => blockWf kind index
  | .blockResetEnd kind index _ => blockWf kind index
  | .powerDown => true
  | .railLoss => true
  | .coolantLoss => true
  | .pllUnlock => true
  | .droop row => decide (row < Config.rows)
  | .droopRecovery => true
  | .hkmPass half codes => decide (half < 2) && decide (codes.length = 64)
  | .hbmSensorRead temps => decide (temps.length = 12)
  | .throttleLimitStep => true
  | .thermtripTimeout => true
  | .injectedSequence half codes => decide (half < 2) && decide (codes.length = 8)
  | .controlInterval _ => true
  | .bubbleBlock => true
  | .rampStep _ => true
  | .avsTelemetry _ => true
  | .avsFault rail => decide (rail < 8)
  | .ageColumnCrossing _ => true
  | .stepChangeProceed _ => true
  | .regulatorReached => true
  | .stepSwitch => true
  | .sectionStart _ _ _ => true
  | .phaseWindow tile _ input => tileWf tile && decide (input.levels.length = 1024)
  | .mvmDelivery tile => tileWf tile
  | .groupClose tile slot => tileWf tile && decide (slot < 8)
  | .footlightCall call => tileWf call.tile
  | .flSettled tile => tileWf tile
  | .flPowerdown tile => tileWf tile
  | .statWindowEnd tile => tileWf tile
  | .calTrigger half => decide (half < 2)
  | .calSlot tile windows => tileWf tile && decide (windows.length ≤ 64) && windows.all (fun w => decide (w.levels.length = 1040))
  | .calRunComplete tile windows => tileWf tile && windows.all (fun w => decide (w.levels.length = 1040))
  | .wingSourceIssue rowEnd line target _ => rowEndWf rowEnd && decide (line < 4096) && decide (target < 15)
  | .wingLineReady rowEnd line data => rowEndWf rowEnd && decide (line < 4096) && decide (data.length = 64)
  | .wingReadyTest rowEnd _ => rowEndWf rowEnd
  | .wingStall rowEnd => rowEndWf rowEnd
  | .stepDescriptorCompletion rowEnd target _ line => rowEndWf rowEnd && decide (target < 15) && decide (line < 4096)
  | .sceneForm => true
  | .sceneChange => true
  | .emptySceneChange => true
  | .understudyPrepared tile => tileWf tile
  | .understudyArraysReady row _ => decide (row < Config.rows)
  | .faultQuiet source => decide (source < 512)
  | .fwWatchdog => true
  | .arrayProgrammed tile array _ _ => tileWf tile && decide (array < 8)
  | .drainTimeout => true
  | .drainComplete => true
  | .bootVerify _ => true
  | .wearUpdate => true
  | .pauseCopyDone entry => decide (entry < Config.seqEntries)
  | .resumeComplete entry => decide (entry < Config.seqEntries)
  | .greenRoomExpiry entry => decide (entry < Config.seqEntries)
  | .fwsPieceCopied => true
  | .firmwareVerified => true
  | .mbxReady => true
  | .laneSignalDetect lane => decide (lane < Config.lanes)
  | .trainingFrame lane _ _ _ => decide (lane < Config.lanes)
  | .trainingTimeout lane => decide (lane < Config.lanes)
  | .trainingRetry lane => decide (lane < Config.lanes)
  | .laneLockLoss lane => decide (lane < Config.lanes)
  | .chorusFrame _ _ _ => true
  | .rocePacket qp port _ _ _ => decide (qp < 2 ^ 24) && decide (port < 16)
  | .pfcFrame port _ _ => decide (port < 16)
  | .pauseFrame port => decide (port < 16)
  | .hostFrameReceive port _ => decide (port < 16)
  | .pfcXoffRepeat port cls _ => decide (port < 16) && decide (cls < 2)
  | .preemptVerify port _ => decide (port < 16)
  | .roceAckTimeout qp => decide (qp < 4096)
  | .roceRateIncrease qp => decide (qp < 4096)
  | .chorusStepOpen _ _ => true
  | .chorusRetxTimer _ => true
  | .chorusDeadline _ => true
  | .lateNotice _ => true
  | .chorusFrameRelease _ => true
  | .smbusMessage address _ => decide (address < 128)
  | .pldmSensorRefresh => true
  | .dmaCompletion ring _ _ => decide (ring < 16)
  | .completionPost ring => decide (ring < 16)
  | .coalTimer ring => decide (ring < 16)
  | .bwWindowEnd window _ _ => decide (window < 22)
  | .rehearsalDone result _ _ _ => decide (result < 3)
  | .rotationStep => true
  | .patternWriteDone _ => true
  | .mgmtRefresh => true
  | .pcsAlignment port _ => decide (port < 16)
  | .pfcPauseExpiry port cls => decide (port < 16) && decide (cls < 2)
  | .coolantOkRestored => true
  | .perstNDeassert _ _ _ _ => true
  | .pcieConfigWrite _ => true
  | .pcieLinkError bit => decide (bit < 32)
  | .sramScrubAccess tile _ => tileWf tile
  | .wingOutboundDrain rowEnd => rowEndWf rowEnd
  | .counterSaturated index => decide (index < 65536)
  | .hostFrameTransmitted _ => true

end Sys2Proof
end

