-- ==== Sys2Proof/Decode.lean ====
section
/-!
DEFINITION. Commands spelled by words: the table of operations gives no row any bits, so no word spells a command.
-/
namespace Sys2Proof

/-- The command that a word spells: none, since spec/opcode_table.json gives no row a field. -/
def decodeTableWord (_nbits _w : Nat) : Option Instr := none

end Sys2Proof
end

