-- ==== Sys2Proof/Machine/State.lean ====
section
/-!
DEFINITION. The state of the block as plain data, the reasons a step can stop, and the state after a cold reset with the
package just powered. A structure's field defaults are its reset values. A `Map` is a list of key and value pairs with
rising keys, in which a key that is not listed has the default value that its accessor names. Every register that is
not a view of a named field lives in `State.regs`, keyed by its BAR0 offset (R381); its reset value stands in
Machine/Registers.lean, and an unlisted offset holds it.
-/
namespace Sys2Proof.Machine

/-- Why a step stops. -/
inductive Fault where
  /-- Raised by every event whose operand names a unit that the levels of the design do not have (a tile above 10,559, a
  row end above 319, a lane above 31, a stack above 11, a sequence entry above 4,095). Safe: no such event exists, and
  the model stops where the hardware has nothing. -/
  | noSuchUnit
  deriving DecidableEq, Repr

/-- Why a command has no meaning here. -/
inductive Refusal where
  /-- Raised by an arm of `exec` whose command has no meaning yet; the mnemonic is the table's. Safe: the model stops. -/
  | notModelled (mnemonic : String)
  deriving DecidableEq, Repr

/-- States of a tile's footlights (R52). -/
inductive FlState where
  | off | settling | ready
  deriving DecidableEq, Repr

/-- A tile's footlights: settle timer, idle counter and armed holds (R52 to R57). -/
structure Footlight where
  state : FlState := .off
  settle : Nat := 0
  idle : Nat := 0
  /-- Last schedule cycle of each hold that a call armed (R53). -/
  holds : List Nat := []
  /-- A hold that lasts until the first call addressed to the position (R57). -/
  untilCall : Bool := false
  /-- The device's own hold for a repeated MVM (R56). -/
  repeatHold : Bool := false
  deriving DecidableEq, Repr

/-- A half of a group encore that waits for its window (R77, R79, R80). -/
structure Piece where
  lo : Nat
  rows : Nat
  plane : Nat
  group : Nat
  known : Nat
  encore : Nat
  extension : Bool
  deriving DecidableEq, Repr

/-- The MVM in progress on a tile (R34 to R37, R77 to R83). -/
structure Mvm where
  start : MvmStart
  performance : Bool
  /-- Counter value at which its base window begins. -/
  begun : Nat := 0
  phase : Nat := 0
  /-- Windows behind it, and how many of them ran in a hold. -/
  windows : Nat := 0
  held : Nat := 0
  acc : List Int
  pieces : List Piece := []
  encores : Nat := 0
  extEncores : List Nat := []
  extended : Bool := false
  skipped : Nat := 0
  tainted : Bool := false
  /-- It runs once more under R82, or under R56. -/
  secondRun : Bool := false
  earlyRaised : Bool := false
  /-- ARRAY_MVMS has counted it (R56). -/
  counted : Bool := false
  /-- It is one of an expert's excess rows (R26). -/
  excess : Bool := false
  /-- The slot of the cue sheet that opened it, and its scene row (R188). -/
  slot : Nat := 0
  row : Nat := 0
  /-- Its results are complete, or it will deliver none (`dead`); its reserve windows may still run. -/
  complete : Bool := false
  dead : Bool := false
  deriving DecidableEq, Repr

/-- Column results of one MVM that wait in the output register for their delivery slot (R48, R49). -/
structure OutReg where
  array : Nat
  sec : Nat
  scene : Nat
  lane : Nat
  deliver : Nat
  acc : List Int
  /-- Results of an expert's excess row (R26). -/
  excess : Bool := false
  slot : Nat := 0
  row : Nat := 0
  /-- Column results of an MVM that ran on the LUT engine (R188). -/
  streamed : Option (List Int) := none
  deriving DecidableEq, Repr

/-- What one pass of a calibration run has gathered on one column (R93): on the exact set, by count + 32, how many codes were odd
and even; on the performance set the sums of a least-squares line of residual over count: how many, Σn, Σn², Σr and Σn·r. -/
structure ColFit where
  odd : Map Nat := []
  even : Map Nat := []
  num : Nat := 0
  sumN : Int := 0
  sumNN : Int := 0
  sumR : Int := 0
  sumNR : Int := 0
  deriving DecidableEq, Repr

/-- A calibration run in progress (R93, R94, R98, R99): the arrays still to do, the one under calibration first, the phase window
that it has reached, whether it runs directly, and the columns' sums of pass A and pass B. -/
structure CalRunState where
  arrays : List Nat
  window : Nat := 0
  direct : Bool
  passA : Map ColFit := []
  passB : Map ColFit := []
  /-- True counts of the stimulus that its exact window gave, for the performance window after it. -/
  counts : List Int := []
  deriving DecidableEq, Repr

/-- An accumulation group slot (R125, R151). -/
structure AccGroup where
  isOpen : Bool := false
  fp : Bool := false
  sec : Nat := 0
  base : Nat := 0
  count : Nat := 0
  /-- Where its close writes and with which key (R129, R132), and the scene that it belongs to. -/
  target : CloseTarget := .int32
  addr : Nat := 0
  key : List Byte := []
  element : Nat := 0
  scene : Nat := 0
  /-- Its close has come: blocks of 16 lanes that have drained (R128). -/
  draining : Option Nat := none
  deriving DecidableEq, Repr

/-- Producers of contributions in the order in which one lane takes them in a stage cycle (R127). -/
inductive Producer where
  | array | mac | lut | smu | router
  deriving DecidableEq, Repr

/-- What a contribution does to its lane: adds an integer, adds FP32 values one after the other, or adds a compensated lane. -/
inductive Addend where
  | int (v : Int) | floats (xs : List Nat) | lane (w : Nat)
  deriving DecidableEq, Repr

/-- Contributions of one operation that reach their lanes in the present stage cycle: producer, section, format, scene, and the
addends by lane (R126, R127). -/
structure Arrival where
  producer : Producer
  sec : Nat
  fp : Bool
  scene : Nat
  adds : List (Nat × Addend)
  deriving DecidableEq, Repr

/-- An MVM that a tile runs on its LUT engine (R188, R301): its slot, scene row and scene, the first lane of its results, the counter
value of its delivery slot, the stage cycles left of it, and whether it is of an expert's excess row (R26). -/
structure StreamRun where
  slot : Nat
  row : Nat
  scene : Nat
  lane : Nat
  deliver : Nat
  left : Nat
  excess : Bool := false
  deriving DecidableEq, Repr

/-- A compensated lane: FP32 sum and error term (R123). -/
structure Lane where
  s : Word := 0
  e : Word := 0
  deriving DecidableEq, Repr

/-- Router modes (R184, R197). -/
inductive RouterMode where
  | normal | relay | bypass
  deriving DecidableEq, Repr

/-- A slot sequencer with its ALU (R160 to R162, R165, R182): of a router, or of an understudy's station unit. -/
structure Sequencer where
  pc : Nat := 0
  idle : Bool := true
  repeatLeft : Nat := 0
  counters : Map Nat := []
  alu : Option Flit := none
  contexts : Map (Nat × Nat) := []
  deriving DecidableEq, Repr

/-- A router, and an understudy's station unit beside it (R154, R160, R161, R163, R165, R182). -/
structure Router where
  mode : RouterMode := .normal
  fenced : Bool := false
  seq : Sequencer := {}
  slots : Map DWord := []
  starts : List Nat := []
  /-- The station unit: its slot memory, its start addresses and its own sequencer. -/
  station : Map DWord := []
  stationStarts : List Nat := []
  stationActive : Bool := false
  stn : Sequencer := {}
  /-- Flits on the links toward the input registers: source code of the input, the scheduled cycle of capture, flit (R159). -/
  inbox : List (Nat × Nat × Flit) := []
  /-- Flits in the delay lines: output code, the scheduled cycle in which they leave, flit (R163). -/
  delay : List (Nat × Nat × Flit) := []
  faulty : Bool := false
  deriving DecidableEq, Repr

/-- One physical tile (R61) with its router. -/
structure Tile where
  fl : Footlight := {}
  valid : Nat := 0
  /-- Array cells, key array × 2^20 + row × 1,024 + column, in the 2-bit encoding of R300 (R29). -/
  cells : Map Nat := []
  mvm : Option Mvm := none
  /-- Results that wait for their delivery slots, in the order in which they became complete (R48, R49). -/
  outs : List OutReg := []
  lastArray : Nat := 0
  /-- Group size of the last phase (R65). -/
  lastRows : Nat := 32
  skipping : Bool := false
  /-- Trims in force and trims installed for the next MVM, key set × 8,320 + array × 1,040 + column (R92, R96). -/
  trims : Map Word := []
  newTrims : Map Word := []
  trimsValid : Nat := 0
  calDisagree : Nat := 0
  calRun : Option CalRunState := none
  calQueued : Bool := false
  /-- An array of the tile has been programmed, and its calibration run is still to be queued (R304). -/
  runDue : Bool := false
  /-- Counter value from which a run of it takes calibration slots: none that began before it was placed in them, and none twice
  (R98). -/
  calFrom : Nat := 0
  calPending : Bool := false
  calMean : Int := 0
  /-- Corrections in force of its footlight references and integrator bias currents, in 160ths of a table unit (R459). -/
  flReference : Int := 0
  integratorBias : Int := 0
  statSum : Int := 0
  statSquares : Nat := 0
  statGroups : Nat := 0
  /-- Monitor windows of 2^20 groups that have ended, oldest first: Σd, Σd² and the array of the last group (R90). -/
  statEnded : List (Int × Nat × Nat) := []
  /-- Recent conversions and weighted encores of an array, newest first (R105). -/
  trend : Map (List (Nat × Nat)) := []
  lanes : Map DWord := []
  groups : Map AccGroup := []
  /-- Contributions of the present stage cycle (R127). -/
  arrivals : List Arrival := []
  /-- The LUT engine's table buffer: 41 entries each (R134, R135). -/
  tables : Map (List Int) := []
  sram : List Host.Cell := []
  /-- SRAM words of 16 bytes that read uncorrectable until they are written whole (R142, R144). -/
  badWords : List Nat := []
  /-- Scenes in which this tile has reported a NaN, and an INT32 saturation (R119, R122). -/
  nanScenes : List Nat := []
  satScenes : List Nat := []
  /-- Units with work issued in the present cycle: bit 1 MAC, bit 2 softmax and merge, bit 3 LUT (R149). -/
  active : Nat := 0
  /-- MVMs on the LUT engine, the one that runs first. -/
  streams : List StreamRun := []
  scrubAt : Nat := 0
  router : Router := {}
  /-- A block reset in progress: 0 none, 1 of the tile domain, 2 of its row (R62). -/
  inReset : Nat := 0
  programming : Option Nat := none
  deriving DecidableEq, Repr

/-- A substitution in force (R183, R184). -/
structure Subst where
  home : Nat
  under : Nat
  bypass : Bool
  streamed : Bool
  deriving DecidableEq, Repr

/-- A cut-over that waits for a scene change (R187, R190, R191, R492). -/
structure Cutover where
  home : Nat
  under : Nat
  restore : Bool
  copy : Bool
  bypass : Bool
  auto : Bool
  prepared : Bool
  /-- Job of the command that asked for it, where one did, and the fence epoch that it expects (R194). -/
  job : Option Nat
  expect : Option Nat := none
  /-- The tile that the cut-over marks fenced, or a restore marks fit again. -/
  mark : Option Nat := none
  /-- Whether a rehearsal follows (R491). -/
  rehearse : Bool := false
  deriving DecidableEq, Repr

/-- A line that waits in a wing's outbound store: its line number, destination, scene and data (R173). -/
structure OutLine where
  line : Nat
  dest : LineEnd
  scene : Nat
  data : List Byte
  deriving DecidableEq, Repr

/-- A wing (R157, R171, R173): the 64-byte lines whose data have arrived, ready bits, the outbound store oldest first, and the
lines for which it holds the counter. -/
structure Wing where
  lines : Map (List Byte) := []
  ready : List Nat := []
  outbound : List OutLine := []
  awaited : List Nat := []
  inCause : Bool := false
  outCause : Bool := false
  /-- Counter value T of the last source transfer issued; transfers go in ascending T (R172). -/
  issued : Nat := 0
  deriving DecidableEq, Repr

/-- What a flit in an understudy lane is (R184): an injection of the understudy's engine, which waits at its end of the lane for the
home router's local input; a local output on its way to that engine; the copy of an input on its way to the station unit; a
flit on its way to the output of the home column. -/
inductive LaneWay
  | inject
  | out
  | copy
  | back
  deriving DecidableEq, Repr

/-- A flit in an understudy lane (R181, R183, R184): home tile of its position, its way, its sub-lane by the code of the output or
input (R160), the scheduled cycle of the selection or capture that sends it, and the cycle in which it leaves the lane. -/
structure LaneFlit where
  home : Nat
  way : LaneWay
  sub : Nat
  entry : Nat
  due : Nat
  flit : Flit
  deriving DecidableEq, Repr

/-- A section that runs: its index, its scene and the counter value of its start (R162). -/
structure RunSec where
  index : Nat
  scene : Nat
  start : Nat
  deriving DecidableEq, Repr

/-- An MVM of an expert's excess row that waits for its additional slot (R26): slot that it repeats, scene, scene row. -/
structure Excess where
  slot : Nat
  scene : Nat
  row : Nat
  deriving DecidableEq, Repr

/-- The fabric: schedule counter, hold, cue sheets, substitutions and wings (05). -/
structure Fabric where
  counter : Nat := 0
  causes : Nat := 0
  history1 : Nat := 0
  history2 : Nat := 0
  active : Option CueSheet := none
  loaded : Option CueSheet := none
  oldSheet : Option CueSheet := none
  /-- Compiled forms of the cue sheets that the device has read, by digest (log 4). -/
  forms : Map Compiled := []
  storeLost : Bool := false
  epoch : Nat := 0
  substs : List Subst := []
  cutovers : List Cutover := []
  unavailable : List Nat := []
  rowFaults : List Nat := []
  wings : Map Wing := []
  /-- Understudy lanes of a row end (R181). -/
  lanes : Map (List LaneFlit) := []
  running : List RunSec := []
  excess : List Excess := []
  /-- Stage cycles of the FORMAT hold that remain, and counter values at which one was taken (R88). -/
  formatLeft : Nat := 0
  formatAt : Option Nat := none
  /-- Barrier tokens that reached a wing: row end and token (R179). -/
  tokens : List (Nat × Nat) := []
  stepIssued : Map Nat := []
  stepExpected : Map Nat := []
  phaseTag : Nat := 0
  /-- Firmware's copy of the state vector: tile and its mode, fence and valid word (R193). -/
  mgmt : Map Nat := []
  mgmtEpoch : Nat := 0
  /-- Stage cycles of the handover hold that remain, and what completes after them: job and result (R187). -/
  handover : Nat := 0
  completing : List (Nat × List Byte) := []
  /-- A loaded cue sheet whose activation waits for the scenes in flight (R170). -/
  activating : Option CueSheet := none
  /-- Tiles whose direct runs precede the first scene of a cue sheet (R99, R170). -/
  firstRuns : List Nat := []
  deriving DecidableEq, Repr

/-- Frame states (R218). -/
inductive FrameState where
  | free | reserved | priv | shared | ring | candidate | inTransit | quarantine
  deriving DecidableEq, Repr

/-- A page descriptor (R217), with ANNEX_CRC and DESC_CRC as they were last written. -/
structure Frame where
  state : FrameState := .free
  plane : Nat := 0
  layer : Nat := 0
  firstPos : Nat := 0
  owner : Nat := 0xFFFF
  written : Nat := 0
  next : Nat := 0xFFFFFFFF
  entry : Nat := 0xFFFFFFFF
  epoch : Nat := 0
  annexCrc : Nat := 0
  descCrc : Nat := 0
  /-- The 32 bytes that BAR2 left, where they are not what the fields above say (R378). -/
  raw : Option (List Byte) := none
  deriving DecidableEq, Repr

/-- An entry of the directory of shared blocks (R223). -/
structure DirEntry where
  hash : Nat := 0
  confirm : Nat := 0
  parent : Nat := 0xFFFFFFFF
  depth : Nat := 0
  refs : Nat := 0
  pins : Nat := 0
  valid : Bool := false
  tombstone : Bool := false
  window : Bool := false
  globalFrames : List Nat := []
  windowFrames : List Nat := []
  children : Nat := 0
  lastUse : Nat := 0
  /-- ENTRY_CRC as it was last written. -/
  crc : Nat := 0
  /-- The 64 bytes that BAR2 left, where they are not what the fields above say (R378). -/
  raw : Option (List Byte) := none
  deriving DecidableEq, Repr

/-- Key/value cache and directory (06). HBM bytes that are not listed read as zero (log 5). -/
structure Kv where
  laidOut : Bool := false
  frames : Map Frame := []
  dir : Map DirEntry := []
  /-- Page map of each sequence entry: key (layer × 4 + plane) × N + k to frame (R219). -/
  pageMaps : Map (Map Nat) := []
  hbm : List Host.Cell := []
  /-- Frames that a block reset of their stack lost since the last scene change (R237). -/
  lostFrames : List Nat := []
  /-- Entries that lookups have hit since the last scene change, each with its HASH: its step 11 sets their LAST_USE (R223, R265). -/
  hits : List (Nat × Nat) := []
  /-- Bytes of the transfer staging frames that changed after their block's check value was made (R378, R471). -/
  unchecked : List Nat := []
  deriving DecidableEq, Repr

/-- Scoreboard states (R247). -/
inductive SeqState where
  | queued | prefill | decode | idle | pausing | paused | resuming | finishing
  deriving DecidableEq, Repr

/-- What a SEQ_APPEND in progress brings at the next scene change (R273). -/
structure Append where
  tokens : List Nat
  maxNew : Nat
  stops : List Nat
  source : Nat
  qp : Nat
  key : Nat := 0
  deriving DecidableEq, Repr

/-- A sequence table entry that is not FREE (R244), with the work the prompter keeps beside it. -/
structure Seq where
  state : SeqState := .queued
  cand : Bool := false
  starved : Bool := false
  cls : Nat := 0
  cancelPend : Bool := false
  pausePend : Bool := false
  keep : Bool := false
  logits : Nat := 0
  ring : Nat := 0
  retry : Nat := 0
  nodes : Nat := 1
  tag : Nat := 0
  seed : Nat := 0
  epoch : Nat := 0
  tokenLen : Nat := 0
  kvLen : Nat := 0
  prefillEnd : Nat := 0
  maxNew : Nat := 0
  generated : Nat := 0
  temperature : Nat := 0
  topP : Nat := 0x3F80
  topK : Nat := 0
  hitDepth : Nat := 0
  candFrames : List Nat := []
  mapFrames : List Nat := []
  lastServed : Nat := 0
  stops : List Nat := []
  pendingToken : Nat := 0
  tree : List Nat := []
  logitSlots : Nat := 0
  logitBuf : Nat := 0
  deadline : Nat := 0
  tokenSrc : Nat := 0
  srcQp : Nat := 0xFFFF
  srcBase : Nat := 0
  /-- Admission order (R235, R253). -/
  order : Nat := 0
  /-- The token inputs, as the device reads them from TOKEN_SRC (R245). -/
  tokens : List Nat := []
  /-- Directory entries that the sequence references (R225). -/
  refs : List Nat := []
  /-- Candidate token of each node i + 1 (R259); 0xFFFF_FFFF is no proposal. -/
  candidates : List Nat := []
  /-- Appends that are pending, in the order of their commands (R273). -/
  append : List Append := []
  /-- Destination, its length, queue pair and time to live of a pause (R269). -/
  pauseTo : Nat × Nat × Nat × Nat := (0, 0, 0, 0)
  /-- R_KEY of that destination, and that of TOKEN_SRC (R395, R396, R398). -/
  pauseKey : Nat := 0
  srcKey : Nat := 0
  /-- State before the pause, restored at resume (R271). -/
  former : SeqState := .idle
  /-- Page records that a resume brings back: layer, plane, page or ring slot, and the record (R269, R271). -/
  fetched : List ((Nat × Nat × Nat) × List Byte) := []
  /-- Reason with which a FINISHING sequence ends (R264), and the status of its FAILED record, 0 where it has none. -/
  cancelReason : Nat := 0
  failStatus : Nat := 0
  /-- It ends because the runs of its scene are exhausted (R265 step 1, R267). -/
  exhausted : Bool := false
  /-- A member of a failed scene, placed first in the next scenes (R265 step 1). -/
  front : Bool := false
  deriving DecidableEq, Repr

/-- The work of a sequence in a scene (R251). -/
inductive WorkKind where
  | decode | verify | chunk (first last : Nat)
  deriving DecidableEq, Repr

/-- A member of a scene (R251, R253). -/
structure Member where
  entry : Nat
  work : WorkKind
  nodes : Nat
  /-- Admission order of the sequence, which tells it from a later one in the same entry. -/
  order : Nat := 0
  deriving DecidableEq, Repr

/-- Blocks that a cast member has processed for a sequence and KV head in a scene, those of them that are significant for some row,
and the residual slot pairs that it took beyond its own (R211). -/
structure Fetched where
  tile : Nat
  entry : Nat
  layer : Nat
  head : Nat
  blocks : List Nat := []
  significant : List Nat := []
  extra : Nat := 0
  deriving DecidableEq, Repr

/-- Slices of a position of a prefill chunk that wait for the reads of their layer, with the block's scale at an anchor (R220). -/
structure KvPut where
  entry : Nat
  layer : Nat
  plane : Nat
  head : Nat
  pos : Nat
  slices : List Byte
  scale : Option Nat
  deriving DecidableEq, Repr

/-- A scene in flight (R252, R256). `failed` carries the number of the failing source. -/
structure Scene where
  id : Nat
  start : Nat
  variant : Nat
  members : List Member
  positions : Nat
  failed : Option Nat := none
  /-- Experts that a row selected in a layer, best first: layer, row, experts (R25). -/
  experts : List (Nat × Nat × List Nat) := []
  /-- Logits that the LM head has given: row, head, FP32 words by token (R259). -/
  logits : List (Nat × Nat × List Word) := []
  fetched : List Fetched := []
  puts : List KvPut := []
  /-- Activation vectors that took a format encore: scene row and number of the layer input (R87, R88). -/
  wide : List (Nat × Nat) := []
  deriving DecidableEq, Repr

/-- The prompter (07). -/
structure Prompter where
  seqs : Map Seq := []
  /-- The table as it stood after the last scene change (R281). -/
  settled : Map Seq := []
  window : List Byte := []
  scenes : List Scene := []
  nextScene : Nat := 0
  lastStart : Option (Nat × Nat) := none
  order : Nat := 0
  scCount : Nat := 0
  epoch : Nat := 0
  lastVariant : Nat := 0
  lastPositions : Nat := 0
  pointerDue : Option Nat := none
  deriving DecidableEq, Repr

/-- Loader states (R295). -/
inductive LdrState where
  | idle | opened | staged | sealing
  deriving DecidableEq, Repr

/-- A packed copy of a production (R295, R297): its bytes lie in its frames of HBM. -/
structure Copy where
  man : Manifest
  frames : List Nat
  accepted : List Nat
  /-- Content keys by slot (R292, R294). -/
  keys : Map (List Byte)
  deriving DecidableEq, Repr

/-- A journal slot (R315). -/
structure JournalSlot where
  seq : Nat := 0
  epoch : Nat := 0
  identity : Nat := 0
  digest : Nat := 0
  recasts : Nat := 0
  inProgress : Bool := false
  valid : Bool := false
  tromal : Bool := false
  failed : Bool := false
  format : Nat := 0
  crcOk : Bool := false
  deriving DecidableEq, Repr

/-- A wear record (R325). -/
structure WearRecord where
  trend : Nat := 0
  trendRef : Nat := 0
  hours : Nat := 0
  margin : Nat := 0
  marginRef : Nat := 0
  /-- Earlier service hours with their TREND and MARGIN, newest first, from which the references are taken (R325). -/
  past : List (Nat × Nat × Nat) := []
  deriving DecidableEq, Repr

/-- A seal in progress (R306, R307). -/
structure SealRun where
  copy : Copy
  job : Nat
  drainMs : Nat
  draining : Bool
  /-- A production was active when it began: a full recast (R307). -/
  full : Bool
  /-- The cue sheet that its step 5 activates, and whose placement programs the arrays (R306, R307). -/
  sheet : CueSheet
  /-- Arrays that its step 4 has still to program, each by its home tile and its index. -/
  left : List (Nat × Nat)
  programmed : Nat := 0
  unchanged : Nat := 0
  substituted : Nat := 0
  deriving DecidableEq, Repr

/-- A rolling recast in progress (R308 to R313): layers still to rewrite in order, the one being rewritten, and the
scene id below which no scene may still be in flight before programming starts (R310). -/
structure Recast where
  copy : Copy
  back : Bool := false
  /-- Whether PRM_EPOCH has switched (R309). -/
  started : Bool := false
  todo : List Nat
  current : Option Nat := none
  /-- Arrays of the current layer that are still to be programmed, each by its home tile and its index. -/
  left : List (Nat × Nat) := []
  barrier : Nat := 0
  finished : List Nat := []
  deriving DecidableEq, Repr

/-- The loader, the resident productions, journals and wear (08). -/
structure Loader where
  state : LdrState := .idle
  current : Option Copy := none
  bootVerified : Bool := false
  /-- Sealed productions that the arrays hold: identity and epoch (R170, R320). -/
  resident : List (Nat × Nat) := []
  serving : Option Copy := none
  sealRun : Option SealRun := none
  recast : Option Recast := none
  old : Option Copy := none
  /-- Copies whose segments a stack reset lost (R319), the one that is being fetched again first, each with whether it is in
  service or being programmed. -/
  refill : List (Copy × Bool) := []
  budget : Nat := 0
  /-- Two slots for each array, key tile × 8 + array (R315). -/
  journal : Map (JournalSlot × JournalSlot) := []
  /-- Wear records by array; one that is not listed has the service hours of the last update and no trend or margin. -/
  wear : Map WearRecord := []
  wearHours : Nat := 0
  /-- Placed rows and columns of what each array holds, in the layout of ARR_INFO_n, by array; 0 for one that the last seal left
  unused (R71). -/
  shapes : Map Nat := []
  /-- The model envelopes of manifests that the device has read, by production identity (log 4). -/
  envelopes : Map Model := []
  deriving DecidableEq, Repr

/-- A status code of R401. -/
inductive Status where
  | ok | busy | staleEpoch | badSignature | crcFail | aliveRepeat | noSpace | notReady | invalid | timeout | fenced
  | expired | encoreExhausted
  deriving DecidableEq, Repr

/-- A completion or record that waits for a slot of its ring (R388, R391, R275). -/
structure Completion where
  tag : Nat
  status : Status
  isRecord : Bool
  result : List Byte
  /-- It completes a SEQ_ADMIT, whose sequence's records come after it (R393). -/
  admits : Bool := false
  deriving DecidableEq, Repr

/-- A ring pair (R386 to R392); its base, size and coalescing words are registers. -/
structure Ring where
  enabled : Bool := false
  gen : Nat := 0
  sqHead : Nat := 0
  cqTail : Nat := 0
  phase : Bool := true
  expected : Nat := 0
  compAlive : Nat := 0
  staged : List Entry := []
  /-- Entries of a doorbell that are still to be fetched, as the function may issue no request (R380, R389). -/
  unfetched : List Entry := []
  waiting : List Completion := []
  unsignalled : Nat := 0
  deriving DecidableEq, Repr

/-- What a command in progress waits for. -/
inductive JobKind where
  | production | activate | fence (tile : Nat) | restore (tile : Nat) | rehearse (tile : Nat) | step (old : Nat)
  | snapshot (count : Nat) | patternInstall (version : Nat)
  deriving DecidableEq, Repr

/-- A command in progress (R392 to R394). -/
structure Job where
  id : Nat
  ring : Nat
  gen : Nat
  tag : Nat
  kind : JobKind
  deriving DecidableEq, Repr

/-- The mailbox (10). -/
structure Mailbox where
  rings : Map Ring := []
  jobs : List Job := []
  nextJob : Nat := 0
  ready : Bool := false
  deriving DecidableEq, Repr

/-- The PCIe function: what configuration space holds beside its fixed values (R376, R377, R379, R380). -/
structure Pcie where
  busMaster : Bool := false
  d3hot : Bool := false
  devControl : Nat := 0x2810
  bar2Log2 : Nat := 28
  bar0 : Nat := 0
  bar2 : Nat := 0
  msixEnable : Bool := false
  msixMask : Bool := false
  aspm : Nat := 0
  ecrcGenerate : Bool := false
  ecrcCheck : Bool := false
  aerMask : Nat := 0
  deriving DecidableEq, Repr

/-- Training states of a lane (R339). -/
inductive TrainState where
  | off | signalWait | training | locked | failed
  deriving DecidableEq, Repr

/-- An Ethernet lane (R339 to R341). -/
structure EthLane where
  train : TrainState := .off
  signal : Bool := false
  precode : Bool := false
  partnerReady : Bool := false
  selfReady : Bool := false
  /-- Sequence number of the last request applied from the partner, once one was. -/
  lastApplied : Option Nat := none
  snr : Nat := 0
  /-- Reads of LANE_STATUS since reset, which number the free counts of pattern symbol errors (R341; log 156). -/
  checks : Nat := 0
  deriving DecidableEq, Repr

/-- A message of RDMA WRITE that has begun and not ended: the offset of its next byte in the staging frames, and its bytes still to come
(R350). -/
structure Inbound where
  at_ : Nat
  count : Nat
  deriving DecidableEq, Repr

/-- What the device has sent on a port or the sideband. -/
inductive Sent where
  /-- A Chorus frame without its FCS (R354). -/
  | chorus (port : Nat) (frame : List Byte)
  /-- A frame of a traffic class with its PCP, DSCP and ECN codes (R342, R345). -/
  | inClass (pcp dscp ecn : Nat) (x : Sent)
  | pfc (port classes quanta : Nat)
  | cnp (qp : Nat)
  | roceNak (qp code : Nat)
  | roceAck (qp psn : Nat)
  /-- A READ request, a packet of a WRITE, and one of the response to a READ (R350). -/
  | roceRead (qp psn addr len rkey : Nat)
  | roceWrite (qp psn : Nat) (part : PacketPart) (addr len rkey : Nat) (data : List Byte)
  | roceResponse (qp psn : Nat) (part : PacketPart) (data : List Byte)
  | pageSet (qp : Nat) (status : Status)
  /-- A host frame with its FCS (R349). -/
  | hostFrame (port : Nat) (frame : List Byte)
  | verify (port : Nat)
  | smbus (bytes : List Byte)
  | sensor (id : Nat) (value : Int)
  /-- A record of the PDR repository: sensor ID, unit and number of states (R403). -/
  | pdr (id unit states : Nat)
  | handshake (lane control : Nat)
  deriving DecidableEq, Repr

/-- A port (R335, R343, R344). -/
structure Port where
  up : Bool := false
  preempt : Bool := false
  attempts : Nat := 0
  paused : Nat := 0
  xoff : Nat := 0
  mac : Nat := 0
  ip : Nat := 0
  ipVersion : Nat := 0
  ipBits : Nat := 0
  pauseFrames : Nat := 0
  overlong : Nat := 0
  /-- Frames of the classes CHORUS, 0, and ROCE, 1, that wait while their class is paused, and the bytes of each class sent since the
  last time that none waited (R342, R343). -/
  waiting : List (Nat × Sent) := []
  shares : Nat × Nat := (0, 0)
  deriving DecidableEq, Repr

/-- A queue pair (R351 to R353). `rate` is in bits per second; `lastCnp` is the housekeeping time of the last CNP sent. -/
structure QueuePair where
  port : Nat
  ipVersion : Nat
  mac : Nat
  ip : Nat
  peer : Nat
  mtu : Nat
  sendPsn : Nat
  recvPsn : Nat
  ackedPsn : Nat
  timeoutExp : Nat
  rkey : Nat
  error : Bool := false
  retries : Nat := 0
  rnrRetries : Nat := 0
  /-- Request packets that are not acknowledged, by packet sequence number, oldest first (R353). -/
  unacked : List (Nat × Sent) := []
  inbound : Option Inbound := none
  rate : Nat
  lastCnp : Option Nat := none
  badPackets : Nat := 0
  deriving DecidableEq, Repr

/-- What a sequence command does that is accepted, with the entry that it concerns and what it read while it ran (R358). A resume names the
completion ring of a fresh entry. -/
inductive Relay where
  | enter (index tag : Nat) (fields : List Byte) (tokens : List Nat)
  | append (index : Nat) (a : Append)
  | cancel (index : Nat)
  | pause (index : Nat) (dest : Nat × Nat × Nat × Nat) (key : Nat)
  | resume (index : Nat) (ring : Option Nat) (image : Image)
  | evict (index : Nat)
  deriving DecidableEq, Repr

/-- What a scene's descriptor says: its variant, its members and positions, and the commands whose effect it carries (R357, R358). -/
structure SceneDesc where
  variant : Nat := 0
  members : List Member := []
  positions : Nat := 0
  relays : List Relay := []
  deriving DecidableEq, Repr, Inhabited

/-- A Chorus group slot: the member records of R400, the next counter to each member and the last accepted from each (R356,
R362). -/
structure ChorusGroup where
  identity : Nat
  size : Nat
  own : Nat
  members : List (List Byte)
  sendAlive : Map Nat := []
  recvAlive : Map Nat := []
  gaps : Nat := 0
  deriving DecidableEq, Repr

/-- A range of a step's vector that is held: which frame kind brought it, from whom, its offset and bytes (R359, R360). -/
structure Frag where
  op : Nat
  src : Nat
  offset : Nat
  data : List Byte
  deriving DecidableEq, Repr

/-- A frame that a sender keeps for its step (R363). -/
structure Kept where
  op : Nat
  dst : Nat
  offset : Nat
  last : Bool
  alive : Nat
  payload : List Byte
  deriving DecidableEq, Repr

/-- A collective that has opened (R359): its number among the cue sheet's steps, what the sheet says of it, the scene that holds it,
and the member's own data once its schedule has brought them. -/
structure StepPlan where
  index : Nat
  collective : Nat
  bytes : Nat
  root : Nat
  peer : Nat
  format : Nat
  scene : Nat
  own : Option (List Byte)
  deriving DecidableEq, Repr

/-- A collective step that has opened at this member (R359 to R365). -/
structure Step where
  number : Nat
  plan : StepPlan
  /-- Lines of the member's own data that have left a wing for the step, by offset (R359). -/
  ownLines : Map (List Byte) := []
  closed : Bool := false
  failed : Bool := false
  frags : List Frag := []
  /-- The own shard once it is reduced (R360). -/
  result : List Byte := []
  /-- Its own data are sent, and what it owes once it holds the others' is sent. -/
  sent : Bool := false
  gathered : Bool := false
  kept : List Kept := []
  extensions : Nat := 0
  lateIgnored : Nat := 0
  notices : Nat := 0
  /-- The counter has stopped since the step opened for a cause other than WING_IN or WING_OUT (R365). -/
  stalled : Bool := false
  /-- CHORUS_CONFIG.DEADLINE as it stood at the opening, and the deadline in force, in microseconds from the opening
  (R364, R372). -/
  base : Nat
  deadline : Nat
  /-- CHORUS_CONFIG.UDP_PORT as it stood at the opening (R372). -/
  udpPort : Nat := 0xB0C0
  deriving DecidableEq, Repr

/-- A host frame ring (R349). -/
structure HostRing where
  base : Nat := 0
  count : Nat := 0
  head : Nat := 0
  tail : Nat := 0
  queue : List (List Byte) := []
  /-- Descriptors handed over that are still to be read, as the function may issue no request (R380). -/
  unread : List (List Byte) := []
  dropped : Bool := false
  deriving DecidableEq, Repr

/-- The network (09). -/
structure Net where
  lanes : Map EthLane := []
  ports : Map Port := []
  qps : Map QueuePair := []
  groups : Map ChorusGroup := []
  bound : Option Nat := none
  steps : List Step := []
  nextStep : Nat := 0
  /-- Steps of the scenes in flight that have opened: number among the cue sheet's, and scene (R356). -/
  opened : List (Nat × Nat) := []
  /-- Frames of steps that have not opened here, by step number (R360, R365). -/
  early : Map (List ChorusFrame) := []
  /-- Ranges already requested, and ranges whose digest failed once: step number, source and offset (R361, R363). -/
  requested : List (Nat × Nat × Nat) := []
  mismatched : List (Nat × Nat × Nat) := []
  /-- Scene descriptors that a member other than member 0 has been sent, each with its frame's alive counter (R357). -/
  sceneQueue : List (Nat × List Byte) := []
  /-- SCENE frames that member 0 has sent, with their step number and UDP port, kept to be sent again (R363). -/
  scenesSent : List (Nat × Nat × Kept) := []
  /-- What the sequence commands did that member 0 has accepted since its last SCENE step (R358). -/
  relays : List Relay := []
  /-- Host frames received that wait to be written, as the function may issue no request: port, timestamp, frame (R380). -/
  arrived : List (Nat × Nat × List Byte) := []
  txRing : HostRing := {}
  rxRing : HostRing := {}
  ceMarks : Nat := 0
  badFrames : Nat := 0
  ptpNs : Nat := 0
  ptpFraction : Nat := 0
  ptpSet : Bool := false
  deriving DecidableEq, Repr

/-- ROM and firmware states (R412, R429). -/
inductive FwsState where
  | romInit | wait | receiving | verifying | running
  deriving DecidableEq, Repr

/-- What is fused at manufacture, test or installation (R410, R414, R416, R417, R436). Values are this model's
(log 11): the manual gives none. -/
structure Fuses where
  variant : Nat := 0x41
  serial : Nat := 1
  operatorRoot : Option Nat := none
  configKeys : List Nat := []
  firmwareKeys : List Nat := []
  patternKeys : List Nat := []
  minSvn : Nat := 0
  voltages : List Nat := List.replicate 16 800
  /-- The seed, and the PUF response that the ROM reconstructs from the helper data (R416). -/
  seed : List Byte := List.replicate 32 0
  puf : List Byte := List.replicate 32 0
  idSignature : List Byte := []
  romDigest : Nat := 0
  /-- Temperature factor of R105 in thousandths, by whole °C; 1,000 where none is listed. -/
  tempFactor : Map Nat := []
  /-- Compensation tables of R459, 12 points each: root PLL VCO bias, footlight reference, integrator bias, housekeeping reference. -/
  compensation : List (List Int) := List.replicate 4 (List.replicate 12 0)
  deriving DecidableEq, Repr

/-- A boot configuration that the ROM has accepted (R409, R410). -/
structure BootConfig where
  smbusAddr : Nat
  minSvn : Nat
  publisherKeys : List Nat
  firmwareKeys : List Nat
  patternKeys : List Nat
  digest : Nat
  deriving DecidableEq, Repr

/-- The firmware image that runs: its line, build number and security version, and its digest (R413, R418). -/
structure FwImage where
  line : Nat
  build : Nat
  svn : Nat
  digest : Nat
  deriving DecidableEq, Repr

/-- The state that a playbill describes, latched at a scene change (R420). -/
structure Playbill where
  time : Nat := 0
  count : Nat := 0
  epoch : Nat := 0
  fence : Nat := 0
  sheet : Nat := 0
  production : Nat := 0
  chain : List Byte := List.replicate 64 0
  chainCount : Nat := 0
  rolling : Bool := false
  pack : Nat := 0
  deriving DecidableEq, Repr

/-- Boot, firmware staging, measurements and pattern packs (11). -/
structure Boot where
  fuses : Fuses := {}
  fws : FwsState := .romInit
  length : Nat := 0
  pieceIndex : Nat := 0
  busy : Bool := false
  /-- Firmware has stopped under R415, R453 or R454. -/
  stopped : Bool := false
  pieces : List Nat := []
  window : List Host.Cell := []
  image : Map (List Byte) := []
  config : Option BootConfig := none
  firmware : Option FwImage := none
  chain : List Byte := List.replicate 64 0
  chainCount : Nat := 0
  sheetDigest : Nat := 0
  packVersion : Nat := 0
  packDigest : Nat := 0
  packSlot : Nat := 0
  /-- A pattern pack that is being written: its version, its digest and its bytes (R422). -/
  installing : Option (Nat × Nat × List Byte) := none
  /-- The boot flash: boot configuration and pattern pack slots (R408); an unlisted byte reads as zero (log 5). -/
  flash : List Host.Cell := []
  /-- The state that the next playbill describes (R420). -/
  latched : Playbill := {}
  deriving DecidableEq, Repr

/-- Where a change of the stage clock step stands (R434). -/
inductive StepPhase where
  | waiting | voltage | switching
  deriving DecidableEq, Repr

/-- Power, clocks and thermal control (12). -/
structure Power where
  step : Nat := 0
  /-- A change of the step: the step it changes to, where it stands, and the command's job (R434). -/
  change : Option (Nat × StepPhase × Option Nat) := none
  /-- Hold cycles that have passed since the switch cause was raised (R434, R435). -/
  switchHeld : Nat := 0
  stageStopped : Bool := true
  allStopped : Bool := false
  pllLocked : Bool := false
  powerGood : Bool := false
  perst : Bool := false
  sysRst : Bool := false
  coolantOk : Bool := false
  thermtrip : Bool := false
  shutdownDue : Bool := false
  rowTrims : Map Nat := []
  /-- What the VDD_STAGE regulator was last set to, in mV; 0 until the device first writes it (R438). -/
  regulator : Nat := 0
  /-- The rails are up (R531 to R533). -/
  rails : Bool := true
  hours : Nat := 0
  ageColumn : Nat := 0
  avsFaults : List Nat := []
  telemetry : Map Nat := []
  energy : Nat := 0
  samples : List Nat := []
  cap : Nat := 1350
  throttle : Option Nat := none
  capDemand : Nat := 0
  throttleDemand : Nat := 0
  atLimit : Nat := 0
  ceiling : Nat := 4
  /-- Bubble target of the block in progress, and the bubbles of the last block (R442). -/
  target : Nat := 0
  bubbles : Nat := 0
  /-- Phase tag that has been in force, with a scene in flight, since the last control interval ended (R445). -/
  steady : Option Nat := none
  learned : Map (Nat × Nat) := []
  debt : Nat := 0
  droopActive : Bool := false
  droopQuiet : Bool := true
  rerunsLeft : Nat := 0
  /-- Housekeeping time of the last raise of DROOP (R450). -/
  droopRaised : Option Nat := none
  dieTemps : Map Int := []
  hbmTemps : Map Int := []
  /-- Corrections in force of the root PLL and of the two housekeeping converters, in 160ths of a table unit (R459). -/
  pllBias : Int := 0
  hkmReference : Map Int := []
  dieWarn : Bool := false
  dieThrottle : Bool := false
  hbmWarn : Bool := false
  hbmThrottle : Bool := false
  /-- Sensors whose last reading was at or above the shutdown threshold: zone × 128 + sensor (R453). -/
  overShutdown : List Nat := []
  deriving DecidableEq, Repr

/-- One half's housekeeping monitor (R456 to R458). -/
structure Monitor where
  regIndex : Nat := 0
  passes : Nat := 0
  injActive : Nat := 0
  injPending : Nat := 0
  deriving DecidableEq, Repr

/-- A rehearsal in progress (R490 to R492, R494): its tile, the command's job, the trims saved, whether the tile has passed
and waits to be restored, and the version of its pack. -/
structure Rehearsal where
  tile : Nat
  job : Option Nat
  trims : Map Word
  passed : Bool
  pack : Nat
  deriving DecidableEq, Repr

/-- Integrity and the fault collector (13). -/
structure Integrity where
  fatalStop : Bool := false
  traps : Nat := 0
  chipReset : Bool := false
  blockResets : List (Nat × Nat) := []
  /-- Elapsed time of the housekeeping clock since the package was powered, in microseconds (R495). -/
  clock : Nat := 0
  /-- Times of a row's suspicion events, and the scene-change count of its last one plus one (R495). -/
  suspicion : Map (List Nat) := []
  lastSuspicion : Map Nat := []
  rehearsal : Option Rehearsal := none
  lastRotated : Nat := 10559
  /-- Firmware's copy of the fault summary: sensor 17 (R403, R489). -/
  firmwareCopy : Nat := 0
  /-- Numeric sensors of the sideband as last refreshed, by sensor id (R403). -/
  sensors : Map Int := []
  /-- MCTP endpoint ID of the sideband, 0 until one is set (R402). -/
  endpointId : Nat := 0
  deriving DecidableEq, Repr

/-- The ledger's event records and tuning slots (R498, R499). -/
structure Ledger where
  records : List (Nat × List Byte) := []
  next : Nat := 0
  tuneSeq : Nat := 0
  tuneStep : Nat := 0
  tuneTrims : Map Nat := []
  tuneValid : Bool := false
  /-- Coming write attempts that will read back wrong, and writes that failed and are not raised yet (R501). -/
  badWrites : Nat := 0
  unraised : Nat := 0
  deriving DecidableEq, Repr

/-- Performance counters (14). A value at 0xFFFF_FFFF_FFFF has OVF set (R512). -/
structure Counters where
  live : Map Nat := []
  snap : Map Nat := []
  snapHeld : Bool := false
  snapSc : Nat := 0
  snapTime : Nat := 0
  snapStep : Nat := 0
  saturated : List Nat := []
  deriving DecidableEq, Repr

/-- What the device has driven out of itself: writes to host memory (unlisted bytes read as zero, log 5), the data of
the last register or BAR2 read, messages, MSI-X messages, newest first. -/
structure Outside where
  hostMem : List Host.Cell := []
  readData : Nat := 0
  sent : List Sent := []
  msix : List Nat := []
  /-- ERR_N driven low by R411 or R454, beside the collector's own reaction. -/
  errLow : Bool := false
  deriving DecidableEq, Repr

/-- The state of the block. -/
structure State where
  /-- Commands that wait, first in, first out. -/
  pending : List Instr := []
  /-- Registers that are not views of a field below, by BAR0 offset. -/
  regs : Map Word := []
  /-- HI words latched by a read of LO, by offset of HI (R112, R280, R373, R463). -/
  shadows : Map Word := []
  tiles : Map Tile := []
  fabric : Fabric := {}
  kv : Kv := {}
  prm : Prompter := {}
  ldr : Loader := {}
  mbx : Mailbox := {}
  pcie : Pcie := {}
  net : Net := {}
  boot : Boot := {}
  pwr : Power := {}
  hkm : Map Monitor := []
  integ : Integrity := {}
  ledger : Ledger := {}
  cnt : Counters := {}
  outside : Outside := {}
  /-- Housekeeping clock in microseconds at the start of each half's last calibration run, and the sum of its 48 sensors then, in
  sixteenths of a degree (R97). -/
  calStart : Map Nat := []
  calReference : Map Int := []
  deriving DecidableEq, Repr

/-- The block as the package is first powered, before power-good: every field at its reset value (R411, R424). -/
def State.reset : State := {}

end Sys2Proof.Machine

namespace Sys2Proof.Config

/-- FREE VALUE (log 9). The 64-bit words of a scene's descriptor, which firmware defines (R355). -/
opaque describeScene : Machine.SceneDesc → List Nat
/-- FREE VALUE (log 9). What a member's firmware reads from the bytes of a descriptor (R355, R357). -/
opaque readDescriptor : List Byte → Machine.SceneDesc
/-- FREE VALUE (log 156). Pattern symbol errors that a lane's receiver has counted since the last read of LANE_STATUS (R341). Applied to
the lane and the number of that read. -/
opaque patternErrors : Nat → Nat → Nat

end Sys2Proof.Config
end

