-- ==== Sys2Proof/Machine/Crc.lean ====
section
/-!
DEFINITION. The check values: CRC-32C (R468) and the CRC-64 of a Chorus payload (R361), over numbers so that Lean's kernel
evaluates them.
-/
namespace Sys2Proof.Machine

/-- `n` bit steps of a reflected CRC register. -/
def crcBits (poly : Nat) : Nat → Nat → Nat
  | 0, c => c
  | n + 1, c => crcBits poly n (if c % 2 = 1 then (c >>> 1) ^^^ poly else c >>> 1)

/-- The CRC-32C register after some bytes; the reflected polynomial of 0x1EDC_6F41 (R468, R478). -/
def crc32cRun (c : Nat) (bs : List Byte) : Nat :=
  bs.foldl (fun c b => crcBits 0x82F63B78 8 (c ^^^ b.toNat)) c

/-- CRC-32C of a byte list (R468). -/
def crc32c (bs : List Byte) : Nat := crc32cRun 0xFFFFFFFF bs ^^^ 0xFFFFFFFF

/-- A block whose last four bytes hold the CRC-32C of the bytes before them (R395). -/
def crcTrailed (bs : List Byte) : Bool :=
  decide (4 ≤ bs.length) && decide (fieldAt bs (bs.length - 4) 4 = crc32c (bs.take (bs.length - 4)))

/-- A block followed by the CRC-32C of its bytes, little-endian. -/
def withCrc (bs : List Byte) : List Byte := bs ++ leBytes 4 (crc32c bs)

/-- `n` bit steps of the unreflected CRC-64 register. -/
def crc64Bits : Nat → Nat → Nat
  | 0, c => c
  | n + 1, c =>
    crc64Bits n (if 2 ^ 63 ≤ c then ((c * 2) % 2 ^ 64) ^^^ 0x42F0E1EBA9EA3693 else (c * 2) % 2 ^ 64)

/-- CRC-64/ECMA-182 of a payload: initial value 0, no reflection, no final XOR (R361). -/
def crc64 (bs : List Byte) : Nat :=
  bs.foldl (fun c b => crc64Bits 8 (c ^^^ (b.toNat <<< 56))) 0

/-- `n` bit steps of the unreflected CRC-16 register. -/
def crc16Bits : Nat → Nat → Nat
  | 0, c => c
  | n + 1, c => crc16Bits n (if 2 ^ 15 ≤ c then ((c * 2) % 2 ^ 16) ^^^ 0x1021 else (c * 2) % 2 ^ 16)

/-- CRC-16 of a training control word: polynomial 0x1021, initial value 0xFFFF, over bits 15 to 0 from the most significant
one on (R339). -/
def controlCrc (control : Nat) : Nat := crc16Bits 16 (0xFFFF ^^^ (control % 2 ^ 16))

end Sys2Proof.Machine
end

