-- ==== Sys2Proof/Machine/Ops.lean ====
section
/-!
DEFINITION. The named operations over maps, byte memories, tiles and registers. Every meaning reaches the state through
them. A `Map` is kept with rising keys; a byte memory lists no zero byte, so that equal memories are equal data.
-/
namespace Sys2Proof

/-- The entry of a map at a key. -/
def Map.get? {α : Type} : Map α → Nat → Option α
  | [], _ => none
  | (k, v) :: m, i => if k = i then some v else Map.get? m i

/-- The entry of a map at a key, or a default. -/
def Map.getD {α : Type} (m : Map α) (i : Nat) (d : α) : α := (Map.get? m i).getD d

/-- A map with one entry put in place, keys rising. -/
def Map.put {α : Type} : Map α → Nat → α → Map α
  | [], i, v => [(i, v)]
  | (k, w) :: m, i, v =>
    if i < k then (i, v) :: (k, w) :: m else if i = k then (i, v) :: m else (k, w) :: Map.put m i v

/-- A map without the entry at a key. -/
def Map.erase {α : Type} (m : Map α) (i : Nat) : Map α := m.filter (fun e => e.1 ≠ i)

/-- A map without the entries whose key satisfies a test. -/
def Map.dropKeys {α : Type} (m : Map α) (p : Nat → Bool) : Map α := m.filter (fun e => !p e.1)

/-- The values of a map changed in place. -/
def Map.mapVals {α β : Type} (m : Map α) (f : Nat → α → β) : Map β := m.map (fun e => (e.1, f e.1 e.2))

/-- The keys of a map. -/
def Map.keys {α : Type} (m : Map α) : List Nat := m.map (fun e => e.1)

/-- Membership of a number in a list, as a Bool. -/
def has (xs : List Nat) (x : Nat) : Bool := xs.any (fun y => y == x)

/-- A list of numbers with one more, in rising order and without repeats. -/
def insertNat (x : Nat) : List Nat → List Nat
  | [] => [x]
  | y :: ys => if x < y then x :: y :: ys else if x = y then y :: ys else y :: insertNat x ys

/-- A list without a number. -/
def without (xs : List Nat) (x : Nat) : List Nat := xs.filter (fun y => y ≠ x)

end Sys2Proof

namespace Sys2Proof.Machine

/-- An unlisted byte of host memory, HBM or tile SRAM reads as zero (log 5). -/
def memRead : List Host.Cell → Nat → Byte
  | [], _ => 0
  | (k, v) :: m, a => if k = a then v else memRead m a

/-- A memory without the byte at an address. -/
def memErase (m : List Host.Cell) (a : Nat) : List Host.Cell := m.filter (fun e => e.1 ≠ a)

/-- A listed byte put in place, addresses rising. -/
def memInsert : List Host.Cell → Nat → Byte → List Host.Cell
  | [], a, b => [(a, b)]
  | (k, v) :: m, a, b =>
    if a < k then (a, b) :: (k, v) :: m else if a = k then (a, b) :: m else (k, v) :: memInsert m a b

/-- Write one byte; a zero byte is not listed. -/
def memWrite (m : List Host.Cell) (a : Nat) (b : Byte) : List Host.Cell :=
  if b = 0 then memErase m a else memInsert m a b

/-- Write consecutive bytes from an address on. -/
def memWriteList (m : List Host.Cell) (a : Nat) : List Byte → List Host.Cell
  | [] => m
  | b :: bs => memWriteList (memWrite m a b) (a + 1) bs

/-- Read consecutive bytes from an address on. -/
def memReadList (m : List Host.Cell) (a : Nat) : Nat → List Byte
  | 0 => []
  | n + 1 => memRead m a :: memReadList m (a + 1) n

/-- The canonical form of a byte memory: addresses strictly rising and no zero byte listed. -/
def memWf : List Host.Cell → Bool
  | [] => true
  | [(_, v)] => v != 0
  | (a, v) :: (b, w) :: m => v != 0 && decide (a < b) && memWf ((b, w) :: m)

/-- A physical tile; one that is not listed holds its reset values. -/
def State.tile (s : State) (t : Nat) : Tile := Map.getD s.tiles t {}

/-- Put a tile in place. -/
def State.setTile (s : State) (t : Nat) (x : Tile) : State := { s with tiles := Map.put s.tiles t x }

/-- Change one tile. -/
def State.modTile (s : State) (t : Nat) (f : Tile → Tile) : State := s.setTile t (f (s.tile t))

/-- Change every tile that is listed. -/
def State.mapTiles (s : State) (f : Nat → Tile → Tile) : State := { s with tiles := Map.mapVals s.tiles f }

/-- An event whose operands name a unit that the block has; another stops the run (`noSuchUnit`). -/
def withUnit (ok : Bool) (s : State) : Host.Outcome State Fault Refusal :=
  if ok then .next s else .fault .noSuchUnit

/-- A ring pair (R386). -/
def State.ring (s : State) (r : Nat) : Ring := Map.getD s.mbx.rings r {}

/-- Change one ring pair. -/
def State.modRing (s : State) (r : Nat) (f : Ring → Ring) : State :=
  { s with mbx := { s.mbx with rings := Map.put s.mbx.rings r (f (s.ring r)) } }

/-- A port of the network (R335). -/
def State.port (s : State) (p : Nat) : Port := Map.getD s.net.ports p {}

/-- Change one port. -/
def State.modPort (s : State) (p : Nat) (f : Port → Port) : State :=
  { s with net := { s.net with ports := Map.put s.net.ports p (f (s.port p)) } }

/-- An Ethernet lane (R339). -/
def State.lane (s : State) (n : Nat) : EthLane := Map.getD s.net.lanes n {}

/-- Change one lane. -/
def State.modLane (s : State) (n : Nat) (f : EthLane → EthLane) : State :=
  { s with net := { s.net with lanes := Map.put s.net.lanes n (f (s.lane n)) } }

/-- A frame's descriptor (R217). One that is not listed is FREE, or RESERVED in the fixed regions once firmware has laid
them out (R234, R237). -/
def State.frame (s : State) (f : Nat) : Frame :=
  match Map.get? s.kv.frames f with
  | some x => x
  | none => if s.kv.laidOut && decide (f < Config.firstFreeFrame) then { state := .reserved } else {}

/-- Code of a frame state (R218). -/
def FrameState.code : FrameState → Nat
  | .free => 0
  | .reserved => 1
  | .priv => 2
  | .shared => 3
  | .ring => 4
  | .candidate => 5
  | .inTransit => 6
  | .quarantine => 7

/-- Bytes 0 to 27 of a page descriptor (R217). -/
def Frame.bytes (x : Frame) : List Byte :=
  leBytes 1 x.state.code ++ leBytes 1 x.plane ++ leBytes 2 x.layer ++ leBytes 4 x.firstPos ++ leBytes 2 x.owner ++
    leBytes 2 x.written ++ leBytes 4 x.next ++ leBytes 4 x.entry ++ leBytes 4 x.epoch ++ leBytes 4 x.annexCrc

/-- The 32 bytes of a page descriptor (R217). -/
def Frame.image (x : Frame) : List Byte := x.raw.getD (x.bytes ++ leBytes 4 x.descCrc)

/-- Put a frame's descriptor in place, with its DESC_CRC (R217). -/
def State.setFrame (s : State) (f : Nat) (x : Frame) : State :=
  { s with kv := { s.kv with frames := Map.put s.kv.frames f { x with descCrc := crc32c x.bytes, raw := none } } }

/-- A sequence table entry; `none` is FREE (R247). -/
def State.seq? (s : State) (e : Nat) : Option Seq := Map.get? s.prm.seqs e

/-- Put a sequence table entry in place. -/
def State.setSeq (s : State) (e : Nat) (q : Seq) : State :=
  { s with prm := { s.prm with seqs := Map.put s.prm.seqs e q } }

/-- Change a sequence table entry, where there is one. -/
def State.modSeq (s : State) (e : Nat) (f : Seq → Seq) : State :=
  match s.seq? e with
  | some q => s.setSeq e (f q)
  | none => s

/-- Change a scene in flight. -/
def State.modScene (s : State) (scene : Nat) (f : Scene → Scene) : State :=
  { s with prm := { s.prm with scenes := s.prm.scenes.map (fun c => if c.id = scene then f c else c) } }

/-- Record what the device has driven out on a port or the sideband. -/
def State.send (s : State) (x : Sent) : State :=
  { s with outside := { s.outside with sent := x :: s.outside.sent } }

/-- Whether the device issues PCIe requests: Bus Master Enable is 1 and the function is in D0 (R380). -/
def State.mayRequest (s : State) : Bool := s.pcie.busMaster && !s.pcie.d3hot

/-- Write bytes to host memory. -/
def State.hostWrite (s : State) (a : Nat) (bs : List Byte) : State :=
  { s with outside := { s.outside with hostMem := memWriteList s.outside.hostMem a bs } }

end Sys2Proof.Machine
end

