-- ==== Sys2Proof/Machine/Registers.lean ====
section
/-!
DEFINITION. The registers that are held as words (R381, R382): one row for each register table of the spec, with its
offset, its writable, write-1-to-clear and read-to-clear bits (R9), its reset value and the resets that leave it (R11,
R424). A read of such a register returns its word; the registers that report state held elsewhere are composed in
Machine/HostAccess.lean.
-/
namespace Sys2Proof.Machine

/-- Which resets return a register to its reset value (R11, R424). -/
inductive Survival where
  /-- Reset by every reset but a block reset (R11). -/
  | plain
  /-- Keeps its value across hot reset and FLR. -/
  | warm
  /-- Configuration and function state: kept by a chip reset, cleared by every other (R379, R424). -/
  | function
  /-- Cleared by no reset (R116). -/
  | always
  deriving DecidableEq, Repr

/-- A register or an array of registers: `n1` groups at stride `s1` of `n2` words at stride `s2`. The reset value is
`reset` + group × `r1` + word × `r2`. A field at bit `lo` of `len` bits outside `[least, most]` is not written. -/
structure RegRow where
  base : Nat
  s1 : Nat := 0
  n1 : Nat := 1
  s2 : Nat := 4
  n2 : Nat := 1
  rw : Nat := 0
  w1c : Nat := 0
  rc : Nat := 0
  reset : Nat := 0
  r1 : Nat := 0
  r2 : Nat := 0
  life : Survival := .plain
  guards : List (Nat × Nat × Nat × Nat) := []

/-- The group and word of a row that an offset names, if it does. -/
def RegRow.index? (r : RegRow) (o : Nat) : Option (Nat × Nat) :=
  if o < r.base then none
  else
    let d := o - r.base
    let i := if r.s1 = 0 then 0 else d / r.s1
    let e := if r.s1 = 0 then d else d % r.s1
    if i < r.n1 ∧ e % r.s2 = 0 ∧ e / r.s2 < r.n2 then some (i, e / r.s2) else none

/-- Sources whose policy exists, with default severity, and the reset word of FLT_POLICY_n (R485, R488, R504). -/
def sourceSeverity : Map Nat :=
  [(0, 2), (1, 2), (2, 0), (3, 0), (4, 1), (8, 0), (9, 0), (10, 2), (11, 2), (12, 0), (13, 2), (16, 3), (17, 1), (18, 0),
   (19, 3), (20, 3), (21, 1), (24, 2), (25, 0)] ++
  [(32, 1), (33, 0), (34, 1), (35, 0), (40, 2), (41, 2), (42, 0), (43, 1), (48, 0), (49, 0), (50, 1), (56, 0), (57, 3),
   (58, 1), (64, 3), (65, 1), (66, 0), (67, 0), (68, 0), (69, 1)] ++
  [(70, 3), (71, 3), (80, 2), (81, 2), (82, 0), (83, 2), (84, 1), (85, 1), (86, 1), (96, 0)]

/-- The default policy word of a source: severity, reactions and a quiet period of 100 ms (R485). A number that the
source table does not list has no severity or reaction and is never raised (R481). -/
def defaultPolicy (n : Nat) : Nat :=
  match Map.get? sourceSeverity n with
  | none => 0x64
  | some sev =>
    let mask := (if sev = 3 then 0x13 else 0x01) + (if n = 16 ∨ n = 57 then 0x08 else 0)
    (sev <<< 30) + (mask <<< 24) + 0x64

/-- Registers of GLB and the fabric (R117, R200 to R202, R383 to R385). -/
def glbRows : List RegRow :=
  [{ base := 0x0000000C, rw := 0xFFFFFFFF },
   { base := 0x00000010, rw := 0x00000FFF },
   { base := 0x00000200, rw := 0x0001001F, reset := 0x00010006, guards := [(0, 5, 1, 20)] },
   { base := 0x00000408, w1c := 0x000003FF },
   { base := 0x00000410, rw := 0x000103FF, reset := 0x00010064, guards := [(0, 10, 10, 1000)] },
   { base := 0x00000414, w1c := 0x00000080, rc := 0xFFFF0000 },
   { base := 0x00000418, w1c := 0x80000000 },
   { base := 0x0000041C }]

/-- Mailbox registers, MSI-X table and pending bits (R377, R379, R405 to R407). -/
def mbxRows : List RegRow :=
  [{ base := 0x00010000, s1 := 0x40, n1 := 16, n2 := 6, rw := 0xFFFFFFFF },
   { base := 0x00010018, s1 := 0x40, n1 := 16, rw := 0x83FFFFFF },
   { base := 0x0001001C, s1 := 0x40, n1 := 16, n2 := 2, rw := 0x00000FFF },
   { base := 0x00010028, s1 := 0x40, n1 := 16, rw := 0x03FFFFFF, reset := 0x1000, r1 := 0x100000 },
   { base := 0x00010800, w1c := 0x0000000F },
   { base := 0x0001C000, s1 := 0x10, n1 := 64, n2 := 3, rw := 0xFFFFFFFF, life := .function },
   { base := 0x0001C00C, s1 := 0x10, n1 := 64, rw := 0x00000001, reset := 1, life := .function },
   { base := 0x0001D000, n2 := 2, life := .function }]

/-- Fault collector and rehearsal registers, FLT_POLICY apart (R502 to R506). -/
def fltRows : List RegRow :=
  [{ base := 0x00020004, rw := 0x3F3F3F3F, reset := 0x13121110 },
   { base := 0x00020008, life := .warm },
   { base := 0x00020010, life := .warm },
   { base := 0x00020014, life := .warm },
   { base := 0x00020018, life := .warm },
   { base := 0x0002001C, rw := 0x00000F03, reset := 0x00000303, guards := [(8, 4, 1, 15)] },
   { base := 0x00021000, n2 := 512, life := .warm },
   { base := 0x00021800, n2 := 512, w1c := 0x40000000, rc := 0x0000FFFF, life := .warm },
   { base := 0x00022000, n2 := 1024, life := .warm }]

/-- Check-value units (R507 to R509). -/
def chkRows : List RegRow :=
  [{ base := 0x00030000, s1 := 0x40, n1 := 24, rw := 0x8000000F, life := .warm },
   { base := 0x00030004, s1 := 0x40, n1 := 24, s2 := 0xC, n2 := 4, rw := 0xF0FFFFFF, life := .warm },
   { base := 0x00030008, s1 := 0x40, n1 := 24, s2 := 0xC, n2 := 4, rw := 0xFFFFFFFF, reset := 0xFFFFFFFF, life := .warm },
   { base := 0x0003000C, s1 := 0x40, n1 := 24, s2 := 0xC, n2 := 4, rw := 0xFFFFFFFF, life := .warm },
   { base := 0x00030800, w1c := 0x0000000F, life := .warm },
   { base := 0x00030804, w1c := 0x80000000, life := .warm }]

/-- Counter control and bandwidth windows (R519 to R521). -/
def cntRows : List RegRow :=
  [{ base := 0x00040008, rw := 0x0000FFFF, life := .warm },
   { base := 0x00044000, s1 := 0x40, n1 := 22, rw := 0x800FFFFF, reset := 0x800003E8, life := .warm,
     guards := [(0, 20, 1, 1000000)] },
   { base := 0x00044004, s1 := 0x40, n1 := 22, n2 := 9, life := .warm }]

/-- Power and housekeeping registers held as words (R461 to R467). -/
def pwrRows : List RegRow :=
  [{ base := 0x00080004, w1c := 0x0000003F, life := .warm },
   { base := 0x0008000C, life := .warm },
   { base := 0x00080018, rw := 0x0000007F, reset := 0x08, life := .warm, guards := [(0, 7, 4, 64)] },
   { base := 0x00080020, life := .warm },
   { base := 0x00080028, rw := 0x0000FF7F, reset := 0x4028, life := .warm, guards := [(0, 7, 20, 80), (8, 8, 16, 255)] },
   { base := 0x0008002C, rc := 0xFFFFFFFF, life := .warm },
   { base := 0x00080030, life := .warm },
   { base := 0x00080034, life := .warm },
   { base := 0x00080038, reset := 0x0505, life := .warm },
   { base := 0x0008003C, rw := 0xFFFFFFFF, reset := 0x01F42710, life := .warm,
     guards := [(0, 16, 1, 65535), (16, 16, 1, 65535)] }] ++
  [{ base := 0x00090000, s1 := 0x1000, n1 := 2, rw := 0x0F0F007F, reset := 0x0F050040, life := .warm,
     guards := [(0, 7, 48, 64), (16, 4, 1, 8)] },
   { base := 0x00090100, s1 := 0x1000, n1 := 2, n2 := 48, r2 := 1, life := .warm },
   { base := 0x000901C0, s1 := 0x1000, n1 := 2, n2 := 16, rw := 0x0000003F, reset := 48, r2 := 1, life := .warm },
   { base := 0x00090200, s1 := 0x1000, n1 := 2, n2 := 8, rw := 0x0000003F, reset := 56, r2 := 1, life := .warm },
   { base := 0x00090400, s1 := 0x1000, n1 := 2, n2 := 64, life := .warm },
   { base := 0x00090600, s1 := 0x1000, n1 := 2, n2 := 8, life := .warm }]

/-- Prompter and key/value cache registers (R242, R279 to R281). -/
def prmRows : List RegRow :=
  [{ base := 0x000A0004, w1c := 0x0000003F, life := .warm },
   { base := 0x000A0008, rw := 0x807F0F00, reset := 0x80200800, life := .warm, guards := [(16, 7, 1, 64), (8, 4, 1, 15)] },
   { base := 0x000A001C, rw := 0x00000FFF, life := .warm },
   { base := 0x000A080C, w1c := 0x0000001F, life := .warm },
   { base := 0x000A0818, rw := 0x00000003, reset := 3, life := .warm },
   { base := 0x000A081C, w1c := 0x80000000, life := .warm }]

/-- Network registers (R370 to R375). -/
def netRows : List RegRow :=
  [{ base := 0x000B0004, w1c := 0x000000FF, life := .warm },
   { base := 0x000B0008, rw := 0xFFFFFFFF, reset := 0xF58B9A8B, life := .warm },
   { base := 0x000B000C, rw := 0xFFFFFFFC, reset := 0xB0C00294, life := .warm,
     guards := [(6, 10, 1, 1000), (3, 3, 1, 7)] },
   { base := 0x000B0010, w1c := 0x80000000, life := .warm },
   { base := 0x000B0014, n2 := 2, rw := 0x00000FFF, life := .warm },
   { base := 0x000B0028, rw := 0xFFFFFFFF, life := .warm },
   { base := 0x000B002C, rw := 0xFFFFFFFF, life := .warm },
   { base := 0x000B1000, s1 := 0x100, n1 := 8, life := .warm },
   { base := 0x000B2000, s1 := 0x40, n1 := 32, rw := 0xFC000000, life := .warm },
   { base := 0x000B2004, s1 := 0x40, n1 := 32, rw := 0x3FFFFFFF, reset := 0x00000C00, life := .warm },
   { base := 0x000B2008, s1 := 0x40, n1 := 32, rc := 0x0000FFFF, life := .warm }]

/-- Loader and firmware staging registers (R328 to R331, R428, R429). -/
def secRows : List RegRow :=
  [{ base := 0x000C0804, w1c := 0x000000FF, life := .warm },
   { base := 0x000C0808, w1c := 0x80000000, life := .warm },
   { base := 0x000C0810, rw := 0x00FFFFFF, reset := 0x0058005A, life := .warm, guards := [(16, 8, 1, 88)] },
   { base := 0x000C081C, reset := 0xFFFF0000, life := .warm },
   { base := 0x000D000C, w1c := 0x80000000, life := .warm }]

/-- Registers of a tile window (R66, R68 to R71, R109 to R116, R147 to R150, R198, R199, R332). -/
def tilRows : List RegRow :=
  [{ base := 0x01000008, s1 := 0x400, n1 := 10560, w1c := 0x0000003F },
   { base := 0x01000010, s1 := 0x400, n1 := 10560, rw := 0x00000001 },
   { base := 0x01000014, s1 := 0x400, n1 := 10560 },
   { base := 0x01000018, s1 := 0x400, n1 := 10560, reset := 0x0000FFFF },
   { base := 0x01000020, s1 := 0x400, n1 := 10560, n2 := 8, life := .warm },
   { base := 0x01000100, s1 := 0x400, n1 := 10560 },
   { base := 0x01000104, s1 := 0x400, n1 := 10560, w1c := 0x80000000 },
   { base := 0x0100010C, s1 := 0x400, n1 := 10560, n2 := 3, life := .warm },
   { base := 0x01000118, s1 := 0x400, n1 := 10560, rw := 0x00007FFF, guards := [(0, 11, 0, 1039)] },
   { base := 0x01000120, s1 := 0x400, n1 := 10560, w1c := 0xE0000000 },
   { base := 0x01000124, s1 := 0x400, n1 := 10560, life := .always }] ++
  [{ base := 0x01000144, s1 := 0x400, n1 := 10560, w1c := 0x0000007F },
   { base := 0x01000168, s1 := 0x400, n1 := 10560, w1c := 0x00008000, rc := 0xFFFF0000 },
   { base := 0x0100016C, s1 := 0x400, n1 := 10560, rw := 0x80000000, reset := 0x80000000 },
   { base := 0x01000184, s1 := 0x400, n1 := 10560, w1c := 0x00000007 },
   { base := 0x01000188, s1 := 0x400, n1 := 10560, w1c := 0x00008000, rc := 0xFFFF0000 },
   { base := 0x010001D4, s1 := 0x400, n1 := 10560, reset := 0xFFFF0000, life := .always }]

/-- The rows of the block that an offset lies in (R381). -/
def rowsOf (o : Nat) : List RegRow :=
  if 0x01000000 ≤ o then tilRows
  else
    match o >>> 16 with
    | 0 => glbRows
    | 1 => mbxRows
    | 2 => fltRows
    | 3 => chkRows
    | 4 => cntRows
    | 8 => pwrRows
    | 9 => pwrRows
    | 10 => prmRows
    | 11 => netRows
    | 12 => secRows
    | 13 => secRows
    | _ => []

/-- The row and the place in it that an offset names; `none` for an offset that holds no word here. -/
def regRow? (o : Nat) : Option (RegRow × Nat × Nat) :=
  (rowsOf o).findSome? (fun r => (r.index? o).map (fun ij => (r, ij.1, ij.2)))

/-- The reset value of a register (R11). -/
def regReset (o : Nat) : Nat :=
  if 0x00021000 ≤ o ∧ o < 0x00021800 then defaultPolicy ((o - 0x00021000) / 4)
  else
    match regRow? o with
    | some (r, i, j) => r.reset + i * r.r1 + j * r.r2
    | none => 0

/-- The word of a register. -/
def State.reg (s : State) (o : Nat) : Nat :=
  match Map.get? s.regs o with
  | some w => w.toNat
  | none => regReset o

/-- Set the word of a register from inside the device. -/
def State.setReg (s : State) (o v : Nat) : State := { s with regs := Map.put s.regs o (BitVec.ofNat 32 v) }

/-- Set some bits of a register from inside the device. -/
def State.orReg (s : State) (o mask : Nat) : State := s.setReg o (s.reg o ||| mask)

/-- Set one field of a register from inside the device. -/
def State.setField (s : State) (o lo len v : Nat) : State := s.setReg o (putBits (s.reg o) lo len v)

/-- One field of a register. -/
def State.field (s : State) (o lo len : Nat) : Nat := bitsOf (s.reg o) lo len

/-- Return to their reset values the registers whose offset satisfies a test. -/
def State.clearRegs (s : State) (p : Nat → Bool) : State :=
  { s with regs := Map.dropKeys s.regs p, shadows := Map.dropKeys s.shadows p }

/-- The bits of a word outside a mask. -/
def clearBits (v mask : Nat) : Nat := v - (v &&& mask)

/-- Whether a field of a written word lies in its stated range. -/
def guardOk (v : Nat) (g : Nat × Nat × Nat × Nat) : Bool :=
  decide (g.2.2.1 ≤ bitsOf v g.1 g.2.1) && decide (bitsOf v g.1 g.2.1 ≤ g.2.2.2)

/-- The bits of a field. -/
def fieldMask (g : Nat × Nat × Nat × Nat) : Nat := (2 ^ g.2.1 - 1) <<< g.1

/-- The word that a host write leaves in a register: RW bits take the value, W1C bits clear where it is 1, and a field
whose value lies outside its range keeps its own (R9, R10). -/
def RegRow.written (r : RegRow) (old v : Nat) : Nat :=
  let kept := r.guards.foldl (fun m g => if guardOk v g then m else m ||| fieldMask g) 0
  let m := clearBits r.rw kept
  clearBits (clearBits old m ||| (v &&& m)) (v &&& r.w1c)

/-- A host write to a register that is held as a word; another offset drops it (R9, R382). -/
def State.writeReg (s : State) (o v : Nat) : State :=
  match regRow? o with
  | some (r, _, _) => s.setReg o (r.written (s.reg o) v)
  | none => s

/-- A tile's register, at an offset of its window (R61). -/
def tileReg (t off : Nat) : Nat := 0x01000000 + t * 0x400 + off

/-- Offset of a register of ring pair `r` (R405). -/
def ringReg (r off : Nat) : Nat := 0x00010000 + 0x40 * r + off

end Sys2Proof.Machine
end

