-- ==== Sys2Proof/Machine/Counters.lean ====
section
/-!
DEFINITION. The performance counters as every unit advances them (R510 to R512), the snapshot copy (R515), and the
bandwidth windows (R518).
-/
namespace Sys2Proof.Machine

/-- The maximum of a 48-bit counter, at which OVF is set (R512). -/
def counterTop : Nat := 0xFFFFFFFFFFFF

/-- A live counter; an index that has not advanced reads zero (R510). -/
def State.counter (s : State) (i : Nat) : Nat := Map.getD s.cnt.live i 0

/-- Advance a counter by `n`. It stops at its maximum; the index that reaches it waits for the event COUNTER_SATURATED
that raises the source (R512). -/
def State.count (s : State) (i n : Nat) : State :=
  let v := s.counter i
  let v' := satAdd counterTop v n
  let hit := decide (v < counterTop) && decide (v' = counterTop)
  { s with cnt := { s.cnt with
      live := if n = 0 then s.cnt.live else Map.put s.cnt.live i v'
      saturated := if hit then s.cnt.saturated ++ [i] else s.cnt.saturated } }

/-- The event indices of R511. -/
def countedEvents : List Nat :=
  List.range 15 ++ (List.range 15).map (· + 16) ++ (List.range 12).map (· + 32) ++ (List.range 8).map (· + 48) ++
  (List.range 13).map (· + 64)

/-- The counters of the groups that a mask names go to zero with their OVF bits (R513). The raise of a counter that saturated before
the clear belongs to the cycle of its saturation, and still happens (R512). -/
def State.clearGroups (s : State) (mask : Nat) : State :=
  { s with cnt := { s.cnt with live := Map.dropKeys s.cnt.live (fun i => Nat.testBit mask (i / 16)) } }

/-- Copy every counter with its OVF bit, and record the scene-change count, the PTP time and the step (R515). -/
def State.takeSnapshot (s : State) (count : Nat) : State :=
  { s with cnt := { s.cnt with
      snap := s.cnt.live, snapHeld := true, snapSc := count, snapTime := s.net.ptpNs, snapStep := s.pwr.step } }

/-- A counter word pair as the host reads it: LO, then OVF and the high bits (R521). -/
def counterWord (v : Nat) (hi : Bool) : Nat :=
  if hi then bitsOf v 32 16 + (if v = counterTop then 0x80000000 else 0) else bitsOf v 0 32

/-- Offset of a bandwidth window's registers (R519). -/
def bwReg (w off : Nat) : Nat := 0x00044000 + 0x40 * w + off

/-- A 64-bit number held in a LO and HI register pair. -/
def State.pair (s : State) (o : Nat) : Nat := s.reg o + 2 ^ 32 * s.reg (o + 4)

/-- Set a 64-bit number in a LO and HI register pair. -/
def State.setPair (s : State) (o v : Nat) : State := (s.setReg o (v % 2 ^ 32)).setReg (o + 4) (v / 2 ^ 32)

end Sys2Proof.Machine
end

