-- ==== Sys2Proof/Machine/Operands.lean ====
section
/-!
DEFINITION. The operand forms: the fields of a submission entry (R387, R395, R396), of the SEQ_ADMIT record (R398), of a
Chorus member record (R400) and of a BF16 parameter as the checks of the commands read it.
-/
namespace Sys2Proof

/-- Opcode of an entry (R387). -/
def Entry.opcode (e : Entry) : Nat := fieldAt e.bytes 0 1
/-- Flags of an entry; bit 0 is FENCE (R387). -/
def Entry.flags (e : Entry) : Nat := fieldAt e.bytes 1 1
/-- Alive counter of an entry (R387). -/
def Entry.alive (e : Entry) : Nat := fieldAt e.bytes 2 2
/-- Tag of an entry (R387). -/
def Entry.tag (e : Entry) : Nat := fieldAt e.bytes 4 4
/-- The operand of `n` bytes at byte `off` of an entry (R396). -/
def Entry.op (e : Entry) (off n : Nat) : Nat := fieldAt e.bytes off n
/-- Whether an entry's own CRC-32C holds (R387, R390). -/
def Entry.crcOk (e : Entry) : Bool := decide (fieldAt e.bytes 60 4 = Machine.crc32c (sliceBytes e.bytes 0 60))
/-- Whether flags bits 7:1 and bytes 56 to 59 are zero (R390). -/
def Entry.zerosOk (e : Entry) : Bool := decide (e.flags < 2) && decide (fieldAt e.bytes 56 4 = 0)

/-- The entry index that a sequence command names (R395). -/
def Entry.seqIndex (e : Entry) : Nat := e.op 8 2
/-- The sequence TAG that a sequence command names (R395). -/
def Entry.seqTag (e : Entry) : Nat := e.op 12 4

end Sys2Proof

namespace Sys2Proof.Machine

/-- The opcodes of firmware line 4 (R396). -/
def opcodeTable : List Nat :=
  [0x01, 0x02, 0x03, 0x10, 0x11, 0x12, 0x13, 0x14, 0x15, 0x16, 0x20, 0x21, 0x30, 0x31, 0x32, 0x33, 0x34, 0x35] ++
  [0x36, 0x37, 0x40, 0x41, 0x42, 0x50, 0x51, 0x52, 0x53, 0x54, 0x60, 0x61, 0x70, 0x71, 0x80, 0x81, 0x90]

/-- The opcodes that run during a FATAL stop: ECHO, QUERY_INFO, PLAYBILL, COUNTER_SNAPSHOT and LEDGER_READ (R484). -/
def stopOpcodes : List Nat := [0x01, 0x02, 0x03, 0x80, 0x81]

/-- The opcode bitmap of QUERY_INFO, 32 bytes (R397). -/
def opcodeBitmap : List Byte := leBytes 32 (opcodeTable.foldl (fun m n => m ||| 2 ^ n) 0)

/-- A status code (R401). -/
def Status.code : Status → Nat
  | .ok => 0x00
  | .busy => 0x01
  | .staleEpoch => 0x02
  | .badSignature => 0x03
  | .crcFail => 0x04
  | .aliveRepeat => 0x05
  | .noSpace => 0x06
  | .notReady => 0x07
  | .invalid => 0x08
  | .timeout => 0x09
  | .fenced => 0x0A
  | .expired => 0x0B
  | .encoreExhausted => 0x0C

/-- A BF16 word within bounds, compared as magnitudes of positive numbers: neither negative nor NaN. -/
def bf16Within (lo hi v : Nat) : Bool := decide (v < 0x8000) && decide (lo ≤ v) && decide (v ≤ hi)

/-- TEMPERATURE in range: 0.0, or 0.01 to 100.0 (R244). 0x3C24 is the least BF16 value not below 0.01. -/
def temperatureOk (v : Nat) : Bool := decide (v = 0) || bf16Within 0x3C24 0x42C8 v

/-- TOP_P in range: above 0.0 and at most 1.0 (R244). -/
def topPOk (v : Nat) : Bool := bf16Within 1 0x3F80 v

/-- Depth of a tree node by the template, whose byte for node i + 1 is `tree[i]` (R244, R258). -/
def treeDepth (tree : List Nat) : Nat → Nat → Nat
  | 0, _ => 0
  | fuel + 1, i => if i = 0 then 0 else 1 + treeDepth tree fuel (bitsOf (tree.getD (i - 1) 0) 0 5)

/-- Depth of node `i` (R258). -/
def nodeDepth (tree : List Nat) (i : Nat) : Nat := treeDepth tree 32 i

/-- Parent of node `i` (R258). -/
def nodeParent (tree : List Nat) (i : Nat) : Nat := bitsOf (tree.getD (i - 1) 0) 0 5

/-- Rank of node `i` (R258). -/
def nodeRank (tree : List Nat) (i : Nat) : Nat := bitsOf (tree.getD (i - 1) 0) 5 3

/-- A template whose `n` nodes have lower-numbered parents and depths within the speculative heads (R248, R258). -/
def treeOk (tree : List Nat) (n heads : Nat) : Bool :=
  (List.range (n - 1)).all (fun i =>
    decide (nodeParent tree (i + 1) < i + 1) && decide (nodeDepth tree (i + 1) ≤ min heads 4))

end Sys2Proof.Machine
end

