-- ==== Sys2Proof/Machine/Rings.lean ====
section
/-!
DEFINITION. Completions and records on their way to a completion ring (R388, R391, R392, R274, R275), MSI-X vectors (R379)
and the commands in progress (R392, R394).
-/
namespace Sys2Proof.Machine

/-- Completion entries of a ring pair (R406). -/
def State.cqSize (s : State) (r : Nat) : Nat := s.field (ringReg r 0x18) 13 13
/-- Submission entries of a ring pair (R406). -/
def State.sqSize (s : State) (r : Nat) : Nat := s.field (ringReg r 0x18) 0 13

/-- Whether the next waiting entry of a ring may be written: (CQ_TAIL + 1) mod size differs from MBX_CQ_HEAD (R391). -/
def State.slotOpen (s : State) (r : Nat) : Bool :=
  (s.ring r).enabled && decide (((s.ring r).cqTail + 1) % s.cqSize r ≠ s.reg (ringReg r 0x20))

/-- The commands in progress that a ring pair began since it was enabled (R392, R393). -/
def State.jobsOf (s : State) (r : Nat) : List Job :=
  s.mbx.jobs.filter (fun j => decide (j.ring = r) && decide (j.gen = (s.ring r).gen))

/-- Whether a ring pair has a free completion slot (R253, R275, R391, R393): of the size − 1 slots that may be written, some remain
beside those that entries which wait already will take (DEDUCED, log 109). -/
def State.slotFree (s : State) (r : Nat) : Bool :=
  let n := s.cqSize r
  let used := ((s.ring r).cqTail + n - s.reg (ringReg r 0x20) % n) % n
  (s.ring r).enabled && decide (used + (s.ring r).waiting.length + 1 < n)

/-- Whether the function sends MSI-X messages: it may issue requests, MSI-X Enable is set and Function Mask is clear (R379, R380; the rules of
the base specification, log 1). -/
def State.maySignal (s : State) : Bool := s.mayRequest && s.pcie.msixEnable && !s.pcie.msixMask

/-- Raise an MSI-X vector: the message leaves unless the vector is masked or the function may not send, when its pending
bit is set (R379, R380). -/
def State.raiseVector (s : State) (v : Nat) : State :=
  if s.maySignal && decide (s.reg (0x0001C00C + 0x10 * v) % 2 = 0) then
    { s with outside := { s.outside with msix := v :: s.outside.msix } }
  else s.orReg (0x0001D000 + 4 * (v / 32)) (2 ^ (v % 32))

/-- Queue a command's completion on its ring; it is dropped where the ring has been disabled since (R392). `admits` marks that of a
SEQ_ADMIT. -/
def State.completeTo (s : State) (ring gen tag : Nat) (st : Status) (result : List Byte) (admits : Bool := false) : State :=
  if (s.ring ring).enabled && decide ((s.ring ring).gen = gen) then
    s.modRing ring (fun r =>
      { r with waiting := r.waiting ++ [{ tag := tag, status := st, isRecord := false, result := sliceBytes result 0 20, admits := admits }] })
  else s

/-- Post a sequence record. While its ring has no free slot or is disabled the record is held, RING_FULL is set and the
hold is counted (R275, R392, R511). Under a FATAL stop a record for a disabled ring is not posted (R484). -/
def State.postRecord (s : State) (ring tag : Nat) (st : Status) (result : List Byte) : State :=
  let held := !(s.slotFree ring)
  if s.integ.fatalStop && !(s.ring ring).enabled then s
  else
    let s := if held then (s.orReg 0x000A0004 0x20).count 30 1 else s
    s.modRing ring (fun r =>
      { r with waiting := r.waiting ++ [{ tag := tag, status := st, isRecord := true, result := sliceBytes result 0 20 }] })

/-- The result bytes of a sequence record: KIND, COUNT, FINAL, REASON, entry index, FIRST_POS and 12 bytes by kind
(R274). -/
def recordBytes (kind count : Nat) (final : Bool) (reason index firstPos : Nat) (rest : List Byte) : List Byte :=
  leBytes 1 kind ++ leBytes 1 (count + (if final then 8 else 0) + 16 * reason) ++ leBytes 2 index ++ leBytes 4 firstPos ++
    sliceBytes rest 0 12

/-- The 32 bytes of a completion entry (R388). -/
def completionBytes (c : Completion) (phase : Bool) (alive : Nat) : List Byte :=
  withCrc (leBytes 4 c.tag ++ leBytes 1 c.status.code ++
    leBytes 1 ((if phase then 1 else 0) + (if c.isRecord then 2 else 0)) ++ leBytes 2 alive ++ sliceBytes c.result 0 20)

/-- Put a command in progress (R394). -/
def State.addJob (s : State) (ring tag : Nat) (k : JobKind) : State :=
  { s with mbx := { s.mbx with
      jobs := s.mbx.jobs ++ [{ id := s.mbx.nextJob, ring := ring, gen := (s.ring ring).gen, tag := tag, kind := k }]
      nextJob := s.mbx.nextJob + 1 } }

/-- Complete the commands in progress of some kind, in the order in which they began, each with what its kind gives. -/
def State.finishJobs (s : State) (f : Job → Option (Status × List Byte)) : State :=
  s.mbx.jobs.foldl (fun s j =>
    match f j with
    | some (st, res) =>
      { s with mbx := { s.mbx with jobs := s.mbx.jobs.filter (fun k => k.id ≠ j.id) } }.completeTo j.ring j.gen j.tag st res
    | none => s) s

/-- Whether a command of some kind is in progress. -/
def State.hasJob (s : State) (p : JobKind → Bool) : Bool := s.mbx.jobs.any (fun j => p j.kind)

end Sys2Proof.Machine
end

