-- ==== Sys2Proof/Machine/Shake.lean ====
section
/-!
DEFINITION. SHAKE256, of which the spec takes row-sum coefficients (R74), random draws (R132), directory hashes (R222),
content digests (R316), the history chain (R419) and every measurement: Keccak-f[1600] over 25 lanes of 64 bits, rate 136
bytes, suffix 1111.
-/
namespace Sys2Proof.Machine

/-- Rotate a 64-bit lane left. -/
def rotl64 (v n : Nat) : Nat := if n = 0 then v else ((v <<< n) % 2 ^ 64) ||| (v >>> (64 - n))

/-- Lane `i` of a Keccak state, lane x + 5y. -/
def lane25 (a : List Nat) (i : Nat) : Nat := a.getD i 0

/-- Round constants of Keccak-f[1600]. -/
def keccakRound : List Nat :=
  [0x0000000000000001, 0x0000000000008082, 0x800000000000808A, 0x8000000080008000, 0x000000000000808B,
   0x0000000080000001, 0x8000000080008081, 0x8000000000008009, 0x000000000000008A, 0x0000000000000088,
   0x0000000080008009, 0x000000008000000A] ++
  [0x000000008000808B, 0x800000000000008B, 0x8000000000008089, 0x8000000000008003, 0x8000000000008002,
   0x8000000000000080, 0x000000000000800A, 0x800000008000000A, 0x8000000080008081, 0x8000000000008080,
   0x0000000080000001, 0x8000000080008008]

/-- Rotation offsets of lane x + 5y. -/
def keccakRot : List Nat :=
  [0, 1, 62, 28, 27, 36, 44, 6, 55, 20, 3, 10, 43, 25, 39, 41, 45, 15, 21, 8, 18, 2, 61, 56, 14]

/-- One round of Keccak-f[1600]. -/
def keccakStep (a : List Nat) (rc : Nat) : List Nat :=
  let col := (List.range 5).map (fun x =>
    lane25 a x ^^^ lane25 a (x + 5) ^^^ lane25 a (x + 10) ^^^ lane25 a (x + 15) ^^^ lane25 a (x + 20))
  let d := (List.range 5).map (fun x => lane25 col ((x + 4) % 5) ^^^ rotl64 (lane25 col ((x + 1) % 5)) 1)
  let t := (List.range 25).map (fun i => rotl64 (lane25 a i ^^^ lane25 d (i % 5)) (lane25 keccakRot i))
  let b := (List.range 25).map (fun i => lane25 t ((i % 5 + 3 * (i / 5)) % 5 + 5 * (i % 5)))
  (List.range 25).map (fun i =>
    let x := i % 5
    let y := 5 * (i / 5)
    let v := lane25 b i ^^^ ((lane25 b ((x + 1) % 5 + y) ^^^ (2 ^ 64 - 1)) &&& lane25 b ((x + 2) % 5 + y))
    if i = 0 then v ^^^ rc else v)

/-- Keccak-f[1600]. -/
def keccakF (a : List Nat) : List Nat := keccakRound.foldl keccakStep a

/-- A rate block as 25 lanes, the capacity lanes zero. -/
def keccakBlock (bs : List Byte) : List Nat :=
  (List.range 25).map (fun i => if i < 17 then fieldAt bs (8 * i) 8 else 0)

/-- Absorb `n` rate blocks. -/
def keccakAbsorb : Nat → List Byte → List Nat → List Nat
  | 0, _, a => a
  | n + 1, bs, a =>
    keccakAbsorb n (bs.drop 136) (keccakF (List.zipWith (fun x y => x ^^^ y) a (keccakBlock (bs.take 136))))

/-- Squeeze `n` rate blocks. -/
def keccakSqueeze : Nat → List Nat → List Byte
  | 0, _ => []
  | n + 1, a => ((a.take 17).map (leBytes 8)).flatten ++ keccakSqueeze n (keccakF a)

/-- A message padded to whole rate blocks: 0x1F, zeros, and 0x80 on the last byte. -/
def shakePad (bs : List Byte) : List Byte :=
  let z := 135 - bs.length % 136
  if z = 0 then bs ++ [0x9F] else bs ++ [0x1F] ++ List.replicate (z - 1) 0 ++ [0x80]

/-- The first `n` bytes of SHAKE256 over a message. -/
def shake256 (bs : List Byte) (n : Nat) : List Byte :=
  let p := shakePad bs
  (keccakSqueeze ((n + 135) / 136) (keccakAbsorb (p.length / 136) p (List.replicate 25 0))).take n

/-- SHAKE256-256 as a little-endian number (R167, R291, R418). -/
def shake32 (bs : List Byte) : Nat := leNat (shake256 bs 32)

end Sys2Proof.Machine
end

