-- ==== Sys2Proof/Machine/KvBase.lean ====
section
/-!
DEFINITION. Frames, page maps and the prefix directory (R214 to R228, R234, R236): allocation and its reserve, eviction,
references and pins. Which FREE frame an allocation takes is the lowest (DESIGN CHOICE, log 21).
-/
namespace Sys2Proof

/-- Positions of a page: 4,194,304 ÷ KV width (R214). -/
def Model.pagePos (m : Model) : Nat := if m.kvWidth = 0 then 4194304 else 4194304 / m.kvWidth
/-- Layers of a model. -/
def Model.layers (m : Model) : Nat := m.windows.length
/-- Page-map entries of a layer and plane (R219). -/
def Model.mapN (m : Model) : Nat := ceilDiv 4194305 m.pagePos
/-- Frames of a page map (R219). -/
def Model.mapFrames (m : Model) : Nat := ceilDiv (m.layers * 4 * m.mapN * 4) Config.frameBytes
/-- Record stride of a candidate page set (R230). -/
def Model.candStride (m : Model) : Nat := 2 * m.kvWidth + m.kvWidth / 16 + 64
/-- Frames of a candidate page set (R230). -/
def Model.candFrames (m : Model) : Nat := ceilDiv (m.layers * 32 * m.candStride) Config.frameBytes
/-- Window of a layer; 0 for a global layer (R213). -/
def Model.window (m : Model) (l : Nat) : Nat := m.windows.getD l 0
/-- Ring length of a layer's sliding window (R221). -/
def Model.ringLen (m : Model) (l : Nat) : Nat := ceilDiv (m.window l) m.pagePos + 1
/-- The layers with a sliding window. -/
def Model.windowLayers (m : Model) : List Nat := (List.range m.layers).filter (fun l => m.window l ≠ 0)
/-- The layers without one. -/
def Model.globalLayers (m : Model) : List Nat := (List.range m.layers).filter (fun l => m.window l = 0)
/-- Page-map entry number of a layer, plane and page or ring slot (R219). -/
def Model.mapKey (m : Model) (l p k : Nat) : Nat := (l * 4 + p) * m.mapN + k
/-- Blocks per page: max(1, P ÷ 4,096) (R224). -/
def Model.blocksPerPage (m : Model) : Nat := max 1 (m.pagePos / 4096)
/-- Whether block `n` is registrable: it ends at a page boundary (R224). -/
def Model.registrable (m : Model) (n : Nat) : Bool := decide (((n + 1) * 4096) % m.pagePos = 0)

end Sys2Proof

namespace Sys2Proof.Machine

/-- The model that the active cue sheet names, from the manifest of a copy of its production; a model without layers
where no copy is held (R213, R258). -/
def State.model (s : State) : Model :=
  let copies := [s.ldr.serving, s.ldr.current, s.ldr.old].filterMap id
  let want := (s.fabric.active.map (fun c => c.identity)).getD 0
  match copies.find? (fun c => decide (c.man.identity = want)) with
  | some c => c.man.model
  | none => { windows := [], kvWidth := 256, headDim := 64, vocab := 0, specHeads := 0 }

/-- Frames in FREE, the allocation reserve included (R240). -/
def State.freeCount (s : State) : Nat :=
  if s.kv.laidOut then
    Config.frames - Config.firstFreeFrame -
      (s.kv.frames.filter (fun e => decide (Config.firstFreeFrame ≤ e.1) && e.2.state ≠ .free)).length
  else 0

/-- A byte of the transfer staging frames, 9,472 to 11,519, changes and its block's check value does not (R234, R378, R471). -/
def State.uncheck (s : State) (a : Nat) : State :=
  if 9472 * Config.frameBytes ≤ a ∧ a < 11520 * Config.frameBytes then
    { s with kv := { s.kv with unchecked := insertNat a s.kv.unchecked } }
  else s

/-- Frames in RESERVED (R240). -/
def State.reservedCount (s : State) : Nat :=
  if s.kv.laidOut then Config.firstFreeFrame +
      (s.kv.frames.filter (fun e => decide (Config.firstFreeFrame ≤ e.1) && decide (e.2.state = .reserved))).length else 0

/-- Frames in QUARANTINE (R240). -/
def State.quarantineCount (s : State) : Nat := (s.kv.frames.filter (fun e => e.2.state = .quarantine)).length

/-- The lowest `n` FREE frames from `f` upward. -/
def lowestFree : Map Frame → Nat → Nat → List Nat
  | [], f, n => ((List.range n).map (f + ·)).filter (fun g => g < Config.frames)
  | (k, x) :: m, f, n =>
    if n = 0 then []
    else if k < f then lowestFree m f n
    else
      let g := min n (k - f)
      (List.range g).map (f + ·) ++
        (if g = n then [] else if x.state = .free then k :: lowestFree m (k + 1) (n - g - 1)
         else lowestFree m (k + 1) (n - g))

/-- First byte of a frame in the linear HBM address space (R214, R378). -/
def frameAddr (f : Nat) : Nat := f * Config.frameBytes
/-- First byte of a frame's annex, in the annex region of frames 128 to 1,279 (R216, R234). -/
def annexAddr (f : Nat) : Nat := 128 * Config.frameBytes + f * 8192

/-- A frame and its annex zeroed (R218). -/
def zeroFrame (m : List Host.Cell) (f : Nat) : List Host.Cell :=
  m.filter (fun e => !(decide (frameAddr f ≤ e.1 ∧ e.1 < frameAddr f + Config.frameBytes) ||
    decide (annexAddr f ≤ e.1 ∧ e.1 < annexAddr f + 8192)))

/-- The frames that a sequence's page map references (R219). -/
def State.mapped (s : State) (e : Nat) : List Nat := (Map.getD s.kv.pageMaps e []).map (fun p => p.2)

/-- Whether some sequence maps a frame. -/
def State.isMapped (s : State) (f : Nat) : Bool := s.kv.pageMaps.any (fun p => p.2.any (fun q => q.2 == f))

/-- Return frames to FREE; a quarantined frame stays (R236). One that a block reset had lost is lost no longer (R237). -/
def State.freeFrames (s : State) (fs : List Nat) : State :=
  let gone := fs.filter (fun f => (s.frame f).state ≠ .quarantine ∧ (s.frame f).state ≠ .free)
  { s with kv := { s.kv with
      frames := Map.dropKeys s.kv.frames (has gone), lostFrames := s.kv.lostFrames.filter (fun f => !has gone f) } }.count 52 gone.length

/-- Pages of an evicted entry: those that no sequence maps return to FREE, the others leave the entry (log 22). -/
def State.dropPages (s : State) (fs : List Nat) : State :=
  let s := fs.foldl (fun s f =>
    if s.isMapped f then s.setFrame f { s.frame f with entry := 0xFFFFFFFF } else s) s
  s.freeFrames (fs.filter (fun f => !s.isMapped f))

/-- Bytes 0 to 59 of a directory entry (R223). -/
def DirEntry.bytes (d : DirEntry) : List Byte :=
  let bit := fun (b : Bool) (n : Nat) => if b then 2 ^ n else 0
  leBytes 8 d.hash ++ leBytes 8 d.confirm ++ leBytes 4 d.parent ++ leBytes 4 d.depth ++ leBytes 4 d.refs ++ leBytes 2 d.pins ++
    leBytes 1 (bit d.valid 0 + bit d.tombstone 1 + bit d.window 2) ++ [0] ++ leBytes 4 (d.globalFrames.headD 0xFFFFFFFF) ++
    leBytes 4 d.globalFrames.length ++ leBytes 4 (d.windowFrames.headD 0xFFFFFFFF) ++ leBytes 4 d.windowFrames.length ++
    leBytes 4 d.children ++ leBytes 8 d.lastUse

/-- The 64 bytes of a directory entry (R223). -/
def DirEntry.image (d : DirEntry) : List Byte := d.raw.getD (d.bytes ++ leBytes 4 d.crc)

/-- Put a directory entry in place, with its ENTRY_CRC (R223). -/
def State.putDir (s : State) (i : Nat) (d : DirEntry) : State :=
  { s with kv := { s.kv with dir := Map.put s.kv.dir i { d with crc := crc32c d.bytes, raw := none } } }

/-- Whether a directory entry's ENTRY_CRC holds (R223, R236). -/
def DirEntry.sound (d : DirEntry) : Bool := decide (d.crc = crc32c d.bytes)

/-- Change a directory entry; one whose ENTRY_CRC fails is not used (R236). -/
def State.modDir (s : State) (i : Nat) (f : DirEntry → DirEntry) : State :=
  match Map.get? s.kv.dir i with
  | some d => if d.sound then s.putDir i (f d) else s
  | none => s

/-- Evict one directory entry: its pages leave, its parent loses a child, a tombstone stays, and no sequence refers to its slot any
more (R223, R226, R236). -/
def State.evictEntry (s : State) (i : Nat) : State :=
  match Map.get? s.kv.dir i with
  | some d =>
    if d.valid then
      let s := (s.putDir i { d with
        valid := false, tombstone := true, globalFrames := [], windowFrames := [], window := false }).modDir d.parent (fun p => { p with children := p.children - 1 })
      let seqs := Map.mapVals s.prm.seqs (fun _ q => { q with refs := q.refs.filter (fun j => j != i) })
      { s with prm := { s.prm with seqs := seqs } }.dropPages (d.globalFrames ++ d.windowFrames)
    else s
  | none => s

/-- An entry and its descendants, found by `fuel` rounds (R236). -/
def descendants (dir : Map DirEntry) : Nat → List Nat → List Nat
  | 0, xs => xs
  | fuel + 1, xs =>
    let more := (dir.filter (fun e => e.2.valid && has xs e.2.parent && !has xs e.1)).map (fun e => e.1)
    if more.isEmpty then xs else descendants dir fuel (xs ++ more)

/-- Evict entries with their descendants, whatever their counts and pins (R236, R237). -/
def State.evictTree (s : State) (is : List Nat) : State :=
  (descendants s.kv.dir s.kv.dir.length is).foldl (fun s i => s.evictEntry i) s

/-- The valid entry with the oldest LAST_USE among those of a test, the lower index first on a tie (R226). -/
def oldestEntry (dir : Map DirEntry) (p : DirEntry → Bool) : Option Nat :=
  (dir.foldl (fun (best : Option (Nat × Nat)) e =>
    if e.2.valid && p e.2 then
      match best with
      | some (u, _) => if e.2.lastUse < u then some (e.2.lastUse, e.1) else best
      | none => some (e.2.lastUse, e.1)
    else best) none).map (fun b => b.2)

/-- One step of R226: the window pages of the oldest unpinned entry, else the oldest entry without references, pins and
children. -/
def State.releaseOne (s : State) : Option State :=
  match oldestEntry s.kv.dir (fun d => d.window && d.pins == 0) with
  | some i =>
    let ws := ((Map.get? s.kv.dir i).map (fun d => d.windowFrames)).getD []
    some ((s.modDir i (fun d => { d with window := false, windowFrames := [] })).freeFrames ws)
  | none =>
    (oldestEntry s.kv.dir (fun d => d.refs == 0 && d.pins == 0 && d.children == 0)).map (fun i => s.evictEntry i)

/-- Free frames by R226 until a number of them is FREE, or nothing more can be released. -/
def State.makeRoom : Nat → Nat → State → State
  | 0, _, s => s
  | fuel + 1, want, s =>
    if want ≤ s.freeCount then s
    else
      match s.releaseOne with
      | some s' => State.makeRoom fuel want s'
      | none => s

/-- Frames that must be FREE for an allocation, some of it by what may draw on the allocation reserve (R234): the others leave the
reserve whole. -/
def wanted (plain drawing : Nat) : Nat := max (plain + drawing) (if plain = 0 then 0 else plain + Config.allocReserve)

/-- Whether the allocator can give frames: only what may draw on the allocation reserve leaves fewer than 1,024 FREE (R234). -/
def State.canTake (s : State) (plain drawing : Nat) : Bool := decide (wanted plain drawing ≤ s.freeCount)

/-- CRC-32C of an annex of 8,192 zero bytes (R216, R217). -/
def zeroAnnexCrc : Nat := 0x90444623

/-- ANNEX_CRC of a frame follows its annex (R217). -/
def State.stampAnnex (s : State) (f : Nat) : State :=
  s.setFrame f { s.frame f with annexCrc := crc32c (memReadList s.kv.hbm (annexAddr f) 8192) }

/-- Take the lowest FREE frames with given descriptors, zeroed with their annexes (R218). -/
def State.takeFrames (s : State) (ds : List Frame) : List Nat × State :=
  let fs := lowestFree s.kv.frames Config.firstFreeFrame ds.length
  let s := { s with kv := { s.kv with hbm := fs.foldl zeroFrame s.kv.hbm } }
  (fs, ((List.zip fs ds).foldl (fun s p => s.setFrame p.1 { p.2 with annexCrc := zeroAnnexCrc }) s).count 51 fs.length)

/-- Put a page-map entry in place. -/
def State.mapPage (s : State) (e key f : Nat) : State :=
  { s with kv := { s.kv with pageMaps := Map.put s.kv.pageMaps e (Map.put (Map.getD s.kv.pageMaps e []) key f) } }

/-- Root of the hash chain (R222). -/
def prefixRoot (identity epoch layout : Nat) : Nat :=
  leNat (shake256 ([0x46, 0x51, 0x42, 0x2D, 0x50, 0x46, 0x58, 0x30] ++ leBytes 32 identity ++ leBytes 4 epoch ++
    leBytes 32 layout) 8)

/-- Hash and confirm of a block of tokens under its parent (R222). -/
def blockHash (parent : Nat) (tokens : List Nat) : Nat × Nat :=
  let out := shake256 (leBytes 8 parent ++ (tokens.map (leBytes 4)).flatten) 16
  (fieldAt out 0 8, fieldAt out 8 8)

/-- The hashes of the blocks of a token sequence, in block order (R222). -/
def hashChain : Nat → Nat → List Nat → List (Nat × Nat)
  | 0, _, _ => []
  | n + 1, parent, ts =>
    let h := blockHash parent (ts.take 4096)
    h :: hashChain n h.1 (ts.drop 4096)

/-- The valid entry that matches a hash and confirm within 64 probes; a tombstone is passed over (R222, R223). -/
def lookupDir (dir : Map DirEntry) (hash confirm : Nat) : Nat → Nat → Option Nat
  | 0, _ => none
  | fuel + 1, i =>
    match Map.get? dir (i % 65536) with
    | some d =>
      if d.valid && d.hash == hash && d.confirm == confirm then some (i % 65536)
      else if d.valid || d.tombstone then lookupDir dir hash confirm fuel (i + 1)
      else none
    | none => none

/-- Lookup from the home slot (R223). -/
def State.findEntry (s : State) (h : Nat × Nat) : Option Nat := lookupDir s.kv.dir h.1 h.2 64 (h.1 % 65536)

/-- The first free slot or tombstone within 64 probes of the home slot (R223, R224). -/
def insertSlot (dir : Map DirEntry) : Nat → Nat → Option Nat
  | 0, _ => none
  | fuel + 1, i =>
    match Map.get? dir (i % 65536) with
    | some d => if d.valid then insertSlot dir fuel (i + 1) else some (i % 65536)
    | none => some (i % 65536)

/-- An entry and its ancestors, deepest first (R227). -/
def chainOf (dir : Map DirEntry) : Nat → Nat → List Nat
  | 0, _ => []
  | fuel + 1, i =>
    match Map.get? dir i with
    | some d => i :: chainOf dir fuel d.parent
    | none => []

/-- Valid directory entries (R240). -/
def State.dirUsed (s : State) : Nat := (s.kv.dir.filter (fun e => e.2.valid)).length
/-- Valid directory entries that are pinned (R240). -/
def State.dirPinned (s : State) : Nat := (s.kv.dir.filter (fun e => e.2.valid && decide (0 < e.2.pins))).length

/-- Drop a sequence's directory references (R226). -/
def State.dropRefs (s : State) (e : Nat) : State :=
  match s.seq? e with
  | some q => (q.refs.foldl (fun s i => s.modDir i (fun d => { d with refs := d.refs - 1 })) s).modSeq e
      (fun q => { q with refs := [] })
  | none => s

/-- Free the frames that a sequence alone holds: its private, ring, candidate, page-map and in-transit frames, and pages
of an evicted entry that no other sequence maps (R226, R232). -/
def State.freeSeqFrames (s : State) (e : Nat) : State :=
  let q := (s.seq? e).getD {}
  let own := s.mapped e
  let s := { s with kv := { s.kv with pageMaps := Map.erase s.kv.pageMaps e } }
  let mine := own.filter (fun f =>
    match (s.frame f).state with
    | .shared => (s.frame f).entry == 0xFFFFFFFF && !s.isMapped f
    | _ => true)
  (s.freeFrames (mine ++ q.candFrames ++ q.mapFrames)).modSeq e (fun q => { q with candFrames := [], mapFrames := [] })

end Sys2Proof.Machine
end

