-- ==== Sys2Proof/Machine/SeqBase.lean ====
section
/-!
DEFINITION. Entries of the sequence table as every unit sees them: states and their codes (R244, R247), the 160-byte image
of an entry (R244), release (R265 step 5) and the records that end a sequence (R264, R267, R274).
-/
namespace Sys2Proof.Machine

/-- Code of a scoreboard state (R247). -/
def SeqState.code : SeqState → Nat
  | .queued => 1
  | .prefill => 2
  | .decode => 3
  | .idle => 4
  | .pausing => 5
  | .paused => 6
  | .resuming => 7
  | .finishing => 8

/-- Scoreboard state of a code; FREE and the codes that do not occur give none (R247). -/
def seqStateOf : Nat → Option SeqState
  | 1 => some .queued
  | 2 => some .prefill
  | 3 => some .decode
  | 4 => some .idle
  | 5 => some .pausing
  | 6 => some .paused
  | 7 => some .resuming
  | 8 => some .finishing
  | _ => none

/-- The 160 bytes of an entry (R244). -/
def Seq.image (q : Seq) : List Byte :=
  let bit := fun (b : Bool) (n : Nat) => if b then 2 ^ n else 0
  leBytes 1 (q.state.code + bit q.cand 4 + bit q.starved 6) ++
  leBytes 1 (q.cls % 4 + bit q.cancelPend 2 + bit q.pausePend 3 + bit q.keep 4 + 32 * (q.logits % 4)) ++
  leBytes 1 (q.ring % 16 + 16 * (q.retry % 4)) ++ leBytes 1 q.nodes ++ leBytes 4 q.tag ++ leBytes 8 q.seed ++
  leBytes 4 q.epoch ++ leBytes 4 q.tokenLen ++ leBytes 4 q.kvLen ++ leBytes 4 q.prefillEnd ++ leBytes 4 q.maxNew ++
  leBytes 4 q.generated ++ leBytes 2 q.temperature ++ leBytes 2 q.topP ++ leBytes 2 q.topK ++ leBytes 2 q.hitDepth ++
  leBytes 4 (q.mapFrames.headD 0xFFFFFFFF) ++ leBytes 4 (q.candFrames.headD 0xFFFFFFFF) ++ leBytes 8 q.lastServed ++
  ((List.range 3).map (fun i => leBytes 4 (q.stops.getD i 0xFFFFFFFF))).flatten ++ leBytes 4 q.pendingToken ++
  ((List.range 31).map (fun i => leBytes 1 (q.tree.getD i 0))).flatten ++ leBytes 1 q.logitSlots ++
  leBytes 8 q.logitBuf ++ leBytes 8 q.deadline ++ leBytes 8 q.tokenSrc ++ leBytes 2 q.srcQp ++ leBytes 4 q.srcBase ++
  List.replicate 18 0

/-- An entry read back from its 160 bytes (R244, R271); a state code that does not occur reads as IDLE. -/
def seqOfImage (b : List Byte) : Seq :=
  let f := fun off n => fieldAt b off n
  { state := (seqStateOf (bitsOf (f 0 1) 0 4)).getD .idle,
    cls := bitsOf (f 1 1) 0 2, keep := Nat.testBit (f 1 1) 4, retry := bitsOf (f 2 1) 4 2,
    logits := bitsOf (f 1 1) 5 2, ring := bitsOf (f 2 1) 0 4, nodes := f 3 1, tag := f 4 4, seed := f 8 8, epoch := f 16 4,
    tokenLen := bitsOf (f 20 4) 0 23, kvLen := bitsOf (f 24 4) 0 23, prefillEnd := bitsOf (f 28 4) 0 23, maxNew := f 32 4,
    generated := f 36 4, temperature := f 40 2, topP := f 42 2, topK := f 44 2, hitDepth := f 46 2,
    lastServed := f 56 8, stops := [f 64 4, f 68 4, f 72 4], pendingToken := f 76 4,
    tree := (List.range 31).map (fun i => f (80 + i) 1), logitSlots := f 111 1, logitBuf := f 112 8,
    tokenSrc := f 128 8, srcQp := f 136 2, srcBase := f 138 4 }

/-- The lowest-numbered FREE entry (R248, R271): the keys of the table rise. -/
def lowestEntry : Map Seq → Nat → Option Nat
  | [], i => if i < Config.seqEntries then some i else none
  | (k, _) :: m, i => if k = i then lowestEntry m (i + 1) else if i < Config.seqEntries then some i else none

/-- A FREE entry, if there is one. -/
def State.freeEntry (s : State) : Option Nat := lowestEntry s.prm.seqs 0

/-- Return an entry to FREE: references dropped, frames freed, the end counted (R265 step 5, R511). -/
def State.releaseSeq (s : State) (e : Nat) : State :=
  let s := (s.dropRefs e).freeSeqFrames e
  { s with prm := { s.prm with seqs := Map.erase s.prm.seqs e } }.count 26 1

/-- This device's own index in the group that the active cue sheet is bound to (R356). -/
def State.ownIndex (s : State) : Option Nat := s.net.bound.bind (fun g => (Map.get? s.net.groups g).map (fun x => x.own))

/-- At a member other than member 0 of a bound group no scene is formed and no sequence command taken (R357, R358). -/
def State.follower (s : State) : Bool := s.ownIndex.any (fun n => n != 0)

/-- Post a record of an entry: KIND, status, COUNT, FINAL, REASON, FIRST_POS and the rest (R274). FIRST_POS of a record without tokens, and
FINAL of an EXPIRED or EVICTED one, are open (log 77). Member 0 posts every record of its group's sequences, and the other members
none (R358). -/
def State.seqRecord (s : State) (e kind : Nat) (st : Status) (count : Nat) (final : Bool) (reason firstPos : Nat)
    (rest : List Byte) : State :=
  match if s.follower then none else s.seq? e with
  | some q =>
    let open_ := Config.openRecord kind e q.tag
    s.postRecord q.ring q.tag st (recordBytes kind count (if kind = 6 ∨ kind = 7 then open_.1 else final) reason e
      (if kind = 1 then firstPos else open_.2 % 2 ^ 23) rest)
  | none => s

/-- End a sequence with a FAILED record (R267, R274), and free it. -/
def State.failSeq (s : State) (e : Nat) (st : Status) : State :=
  let g := ((s.seq? e).map (fun q => q.generated)).getD 0
  let s := (s.dropRefs e).freeSeqFrames e
  (s.seqRecord e 8 st 0 true 6 0 (leBytes 4 g)).releaseSeq e

/-- End a sequence with a CANCELLED record (R264, R274), and free it. -/
def State.cancelSeq (s : State) (e : Nat) : State :=
  let g := ((s.seq? e).map (fun q => q.generated)).getD 0
  let s := (s.dropRefs e).freeSeqFrames e
  (s.seqRecord e 3 .ok 0 true 5 0 (leBytes 4 g)).releaseSeq e

/-- Whether the sequence in an entry is a member of a scene in flight. -/
def State.inFlight (s : State) (e : Nat) : Bool :=
  (s.seq? e).any (fun q => s.prm.scenes.any (fun c => c.members.any (fun m => m.entry == e && m.order == q.order)))

/-- The entries of which a scene holds a prefill chunk. -/
def Scene.chunked (c : Scene) : List Nat :=
  (c.members.filter (fun m => match m.work with
    | .chunk _ _ => true
    | _ => false)).map (fun m => m.entry)

/-- Scenes in order of formation with those of a test failed by a source. A scene that holds a later prefill chunk of a
sequence whose earlier chunk fails, fails with it (R21, R251; DEDUCED, log 34). -/
def failFrom (p : Nat → Bool) (source : Nat) : List Nat → List Scene → List Scene
  | _, [] => []
  | bad, c :: cs =>
    let hit := p c.id || c.failed.isSome || c.chunked.any (has bad)
    (if hit then { c with failed := some (c.failed.getD source) } else c) ::
      failFrom p source (if hit then bad ++ c.chunked else bad) cs

/-- Scenes in flight that are marked failed. -/
def State.failedCount (s : State) : Nat := (s.prm.scenes.filter (fun c => c.failed.isSome)).length

/-- Mark scenes in flight as failed by a source; the first failure of a scene stays, and each is counted once (R21, R482,
R511). -/
def State.failScenes (s : State) (p : Nat → Bool) (source : Nat) : State :=
  let before := s.failedCount
  let s := { s with prm := { s.prm with scenes := failFrom p source [] s.prm.scenes } }
  s.count 18 (s.failedCount - before)

/-- Status of the FAILED record by the failing source (R267): a failed check value, ENCORE_EXHAUSTED, or any other. -/
def failStatus (source : Nat) : Status :=
  if source = 1 then .encoreExhausted
  else if has [24, 41, 80, 83] source then .crcFail
  else .timeout

end Sys2Proof.Machine
end

