-- ==== Sys2Proof/Machine/PowerBase.lean ====
section
/-!
DEFINITION. Supply voltage, row trims and limits as other units see them (R436 to R438, R452), elapsed time (R346, R495),
the ledger's event records and tuning slots (R455, R497 to R500), and the start of a change of the stage clock step (R434).
-/
namespace Sys2Proof.Machine

/-- Fused table voltage of a step and age column, in mV (R436, R466). -/
def State.tableMv (s : State) (step col : Nat) : Nat := s.boot.fuses.voltages.getD (4 * step + col) 0

/-- A row's header trim (R437). -/
def State.rowTrim (s : State) (r : Nat) : Nat := Map.getD s.pwr.rowTrims r 0

/-- The highest trim of any row (R437). -/
def maxTrim (trims : Map Nat) : Nat := trims.foldl (fun m e => max m e.2) 0

/-- The regulator value for some trims: the table value plus 10 mV for each step of the highest trim (R437, R438). -/
def State.regulatorFor (s : State) (step : Nat) (trims : Map Nat) : Nat :=
  s.tableMv step s.pwr.ageColumn + 10 * maxTrim trims

/-- Stage cycles per microsecond at a step, in tenths of a megahertz thousandth: 1,500, 1,200, 1,000 and 750 (R431). -/
def stageMhz (step : Nat) : Nat := [1500, 1200, 1000, 750].getD step 750

/-- The throttle limit, or the cap where no zone throttles (R452). -/
def State.throttleLimit (s : State) : Nat := s.pwr.throttle.getD s.pwr.cap

/-- The power limit in force: the lower of the cap and the throttle limit (R452). -/
def State.limitInForce (s : State) : Nat := min s.pwr.cap s.throttleLimit

/-- Time passes: the housekeeping clock and the PTP timebase, whose rate PTP_RATE adjusts in units of 2^-40 (R346, R373).
The timebase keeps the fraction of a nanosecond. Settle timers count 50 periods of the housekeeping clock per microsecond
(R52). -/
def State.elapse (s : State) (us : Nat) : State :=
  let ns : Int := (us * 1000 : Nat)
  let ticks : Int := ns * 2 ^ 32 + ns * signedOf 32 (s.reg 0x000B0028) / 256 + (s.net.ptpFraction : Int)
  let t := ticks.toNat
  { s with
    net := { s.net with ptpNs := (s.net.ptpNs + t / 2 ^ 32) % 2 ^ 64, ptpFraction := t % 2 ^ 32 }
    integ := { s.integ with clock := s.integ.clock + us }
    tiles := Map.mapVals s.tiles (fun _ x => { x with fl := { x.fl with settle := x.fl.settle - 50 * us } }) }

/-- The first 36 bytes of an event record (R455, R500). -/
def State.recordHead (s : State) (kind sensor reading : Nat) : List Byte :=
  leBytes 1 kind ++ leBytes 1 sensor ++ leBytes 2 reading ++ leBytes 8 s.net.ptpNs ++ leBytes 8 s.prm.scCount ++
    leBytes 8 s.pwr.energy ++ leBytes 2 (s.field 0x0008000C 16 16) ++ leBytes 2 s.limitInForce ++
    leBytes 1 s.pwr.step ++ leBytes 1 0 ++ leBytes 2 (s.field 0x00080034 16 16)

/-- A ledger write with at most three attempts, each verified by readback (R501): whether one of them holds. -/
def Ledger.attempt (l : Ledger) : Bool × Ledger :=
  if l.badWrites < 3 then (true, { l with badWrites := 0 })
  else (false, { l with badWrites := l.badWrites - 3, unraised := l.unraised + 1 })

/-- Write a record to the ring: one that fails goes to the next slot, under the next record number (R499, R501). -/
def Ledger.append (b : List Byte) : Nat → Ledger → Ledger
  | 0, l => l
  | fuel + 1, l =>
    let r := l.attempt
    let next := { r.2 with next := (l.next + 1) % 2 ^ 32 }
    if r.1 then { next with records := ((l.next, b) :: l.records).take 16384 } else Ledger.append b fuel next

/-- Write an event record to the ledger's ring of 16,384: the oldest goes (R499). No record starts once power-good is gone
(R532). -/
def State.ledgerWrite (s : State) (kind sensor reading : Nat) (rest : List Byte) : State :=
  let b := withCrc (s.recordHead kind sensor reading ++ sliceBytes rest 0 24)
  if !s.pwr.powerGood then s else { s with ledger := s.ledger.append b (s.ledger.badWrites / 3 + 1) }

/-- An event record of kind 4, 6 or 7, whose sensor is 0xFF and whose reading is the die zone's (R500). -/
def State.ledgerEvent (s : State) (kind : Nat) (rest : List Byte) : State :=
  s.ledgerWrite kind 0xFF (s.field 0x00080030 16 16) rest

/-- The tuning record of a trim or step change (R500). -/
def State.tuneRecord (s : State) (isStep auto : Bool) (row old new : Nat) : State :=
  s.ledgerEvent 6 (leBytes 1 (if isStep then 1 else 0) ++ leBytes 1 (if auto then 1 else 0) ++ leBytes 2 row ++
    leBytes 1 old ++ leBytes 1 new)

/-- Write the other tuning slot with the step and trims in force (R497, R498). A write that fails leaves the governing slot
governing (R501). -/
def State.writeTuning (s : State) (step : Nat) : State :=
  let r := s.ledger.attempt
  if r.1 then
    { s with ledger := { r.2 with
        tuneSeq := s.ledger.tuneSeq + 1, tuneStep := step, tuneTrims := s.pwr.rowTrims, tuneValid := true } }
  else { s with ledger := r.2 }

/-- Set a row's trim and the regulator, which keeps its voltage once one has failed (R437, R439), and the tuning slot (R497). -/
def State.setTrim (s : State) (row v : Nat) : State :=
  let trims := if v = 0 then Map.erase s.pwr.rowTrims row else Map.put s.pwr.rowTrims row v
  let mv := if s.pwr.avsFaults.isEmpty then s.regulatorFor s.pwr.step trims else s.pwr.regulator
  { s with pwr := { s.pwr with rowTrims := trims, regulator := mv } }.writeTuning s.pwr.step

/-- Whether a row's trim can rise by one step: it is below 4 and the regulator stays at most 850 mV (R437, R495). -/
def State.canTrim (s : State) (row : Nat) : Bool :=
  decide (s.rowTrim row < 4) &&
    decide (s.regulatorFor s.pwr.step (Map.put s.pwr.rowTrims row (s.rowTrim row + 1)) ≤ 850)

/-- Begin a change of the stage clock step; it first waits for collective windows (R434). -/
def State.beginStep (s : State) (target : Nat) (job : Option Nat) : State :=
  { s with pwr := { s.pwr with change := some (target, .waiting, job) } }

/-- A correction of a fused table of R459 at a temperature in sixteenths of a degree, in 160ths of a table unit: the points lie 10 °C
apart, with linear interpolation between them. -/
def State.compensation (s : State) (table : Nat) (temp : Int) : Int :=
  let points := s.boot.fuses.compensation.getD table []
  if temp < 0 ∨ 1760 < temp then Config.compensationBeyond table temp
  else
    let i := temp.toNat / 160
    let r : Int := temp.toNat % 160
    points.getD i 0 * (160 - r) + points.getD (i + 1) 0 * r

/-- Corrections of the root PLL and of a half's housekeeping converter, applied at each regular pass (R459). Which diode is nearest to
either is free (log 10). -/
def State.compensatePass (s : State) (half : Nat) : State :=
  let near := fun (first n i : Nat) => Map.getD s.pwr.dieTemps (first + Config.nearestDiode (Config.tiles + i) % n) 0
  { s with pwr := { s.pwr with
      pllBias := s.compensation 0 (near 0 96 0)
      hkmReference := Map.put s.pwr.hkmReference half (s.compensation 3 (near (48 * half) 48 (1 + half))) } }

/-- Firmware runs (R415): no later stop of R453 or R454 has ended it. -/
def State.firmwareRuns (s : State) : Bool := s.boot.fws == .running && !s.boot.stopped

/-- The package is powered and its clocks run (R411, R453): what happens to a device that is not is nothing. -/
def State.powered (s : State) : Bool := s.pwr.powerGood && !s.pwr.allStopped

/-- A quotient as a whole number; R445 and R465 leave the rounding open (log 7). -/
def quot (n d : Nat) : Nat := n / d + (if n % d ≠ 0 ∧ Config.roundUp n d = true then 1 else 0)

/-- The earliest open step, whose collective window defers bubbles (R367). -/
def State.openStep? (s : State) : Option Step := s.net.steps.find? (fun x => !x.closed && !x.failed)

/-- The counter has stopped for a cause other than WING_IN or WING_OUT, which the steps that are open see (R365). -/
def State.markStall (s : State) : State :=
  { s with net := { s.net with steps := s.net.steps.map (fun x => { x with stalled := true }) } }

/-- At the start of a section whose tag differs from the one in force and is valid, the cap demand rises to what the learned
power of the phase asks for (R445); the tag comes into force. -/
def State.takePhase (s : State) (tag : Nat) : State :=
  let l := Map.getD s.pwr.learned tag (0, 0)
  let x := min 60 (64 - 64 * s.pwr.cap / l.1)
  let s :=
    if tag = s.fabric.phaseTag then s
    else
      { s with pwr := { s.pwr with
          steady := none
          capDemand := if l.2 = 16 ∧ 0 < l.1 then max s.pwr.capDemand x else s.pwr.capDemand } }
  { s with fabric := { s.fabric with phaseTag := tag } }

end Sys2Proof.Machine
end

