-- ==== Sys2Proof/Machine/Faults.lean ====
section
/-!
DEFINITION. Raising a fault source (R481 to R488): the log, the fault state, the consequence of the severity, the reactions,
automatic substitution (R190), the FATAL stop (R484) and suspect rows (R495, R496), each as one shared operation.
-/
namespace Sys2Proof.Machine

/-- Numbers of the fault sources (R488). -/
def srcFootlightEarly : Nat := 0
def srcEncoreExhausted : Nat := 1
def srcCalDisagree : Nat := 2
def srcStatDrift : Nat := 3
def srcArrayEol : Nat := 4
def srcEngineNan : Nat := 8
def srcEngineIntSat : Nat := 9
def srcAccTagMiss : Nat := 10
def srcAccFormat : Nat := 11
def srcSramCe : Nat := 12
def srcSramUe : Nat := 13
def srcWingStall : Nat := 16
def srcRouterFault : Nat := 17
def srcSlotCe : Nat := 18
def srcUnderstudyExhausted : Nat := 19
def srcRowLinkFault : Nat := 20
def srcRollCall : Nat := 21
def srcKvPageCheck : Nat := 24
def srcPrefixFull : Nat := 25
def srcRecastVerify : Nat := 32
def srcJournalIncomplete : Nat := 33
def srcReadback : Nat := 34
def srcWearForecast : Nat := 35
def srcChorusDeadline : Nat := 40
def srcChorusDigest : Nat := 41
def srcRoceQpError : Nat := 42
def srcLinkDown : Nat := 43
def srcMailboxCheck : Nat := 48
def srcMailboxAlive : Nat := 49
def srcPcieUncorrectable : Nat := 50
def srcBootConfigInvalid : Nat := 56
def srcFwWatchdog : Nat := 57
def srcCuesheetStoreLost : Nat := 58
def srcPllUnlock : Nat := 64
def srcAvsFault : Nat := 65
def srcCapUnmet : Nat := 66
def srcDroop : Nat := 67
def srcThermalWarning : Nat := 68
def srcThermalThrottle : Nat := 69
def srcThermalShutdown : Nat := 70
def srcCoolantLoss : Nat := 71
def srcCheckFail : Nat := 80
def srcStepAlive : Nat := 81
def srcHbmCe : Nat := 82
def srcHbmUe : Nat := 83
def srcRehearsalFail : Nat := 84
def srcTuneExhausted : Nat := 85
def srcLedgerFail : Nat := 86
def srcCounterSaturated : Nat := 96

/-- FLT_POLICY word of a source in force (R485, R504). -/
def State.policy (s : State) (n : Nat) : Nat := s.reg (0x00021000 + 4 * n)
/-- Severity in force (R485). -/
def State.severity (s : State) (n : Nat) : Nat := bitsOf (s.policy n) 30 2
/-- Whether a source is in its fault state (R481). -/
def State.inFault (s : State) (n : Nat) : Bool := Nat.testBit (s.reg (0x00021800 + 4 * n)) 31
/-- The listed sources that are in their fault state. -/
def State.faulted (s : State) : List Nat := (Map.keys sourceSeverity).filter s.inFault

/-- The block that a block-reset reaction resets for a location: kind and index as R430 has them (R486). -/
def State.blockOf (s : State) (kind idx : Nat) : Option (Nat × Nat) :=
  match kind with
  | 1 => some (0, idx)
  | 2 => some (1, idx)
  | 3 => some (1, idx / 2)
  | 4 => some (2, idx / 8)
  | 5 => (Map.get? s.net.qps idx).map (fun q => (2, q.port / 8))
  | 7 => some (3, idx)
  | _ => none

/-- The row of a tile (R61). -/
def rowOf (t : Nat) : Nat := t / Config.cols
/-- The physical column of a tile (R61). -/
def colOf (t : Nat) : Nat := t % Config.cols
/-- Whether a tile is an understudy (R183). -/
def isUnderstudy (t : Nat) : Bool := colOf t == 0 || colOf t == 65

/-- The substitution of a home tile's position, if one is in force. -/
def State.substOf (s : State) (home : Nat) : Option Subst := s.fabric.substs.find? (fun x => x.home == home)
/-- The substitution that an understudy serves, if it serves one. -/
def State.servesAs (s : State) (under : Nat) : Option Subst := s.fabric.substs.find? (fun x => x.under == under)

/-- Whether an understudy is free: it serves no position, no cut-over has chosen it and it is available (R183, R186). -/
def State.understudyFree (s : State) (u : Nat) : Bool :=
  (s.servesAs u).isNone && !has s.fabric.unavailable u && !(s.tile u).router.fenced &&
    !s.fabric.cutovers.any (fun c => c.under == u && !c.restore)

/-- The understudy that takes a position: west for p + 1 ≤ 32 where it is free, else east, else west (R183). -/
def State.chooseUnderstudy (s : State) (home : Nat) : Option Nat :=
  let west := rowOf home * Config.cols
  let east := west + 65
  if colOf home ≤ 32 && s.understudyFree west then some west
  else if s.understudyFree east then some east
  else if s.understudyFree west then some west
  else none

/-- The home tile of the position that a tile holds: its own, or the one that it serves as an understudy. -/
def State.positionOf (s : State) (t : Nat) : Option Nat :=
  if isUnderstudy t then (s.servesAs t).map (fun x => x.home) else some t

/-- A tile's word of the state vector: its router's mode and FENCED bit, its ARRAY_VALID byte and its row's FAB_SUBST word
as far as it concerns the tile, its ROW_FAULT bit with the row's tile of column 0 (R193). -/
def State.vectorOf (s : State) (t : Nat) : Nat :=
  let x := s.tile t
  let fault := decide (colOf t = 0) && has s.fabric.rowFaults (rowOf t)
  let mode := match x.router.mode with
    | .normal => 0
    | .relay => 1
    | .bypass => 2
  x.valid + (if x.router.fenced then 256 else 0) + 512 * mode +
    (match s.servesAs t with
     | some v => 2048 * (1 + 2 * (colOf v.home) + (if v.bypass then 256 else 0) + (if v.streamed then 512 else 0))
     | none => 0) + (if fault then 2 ^ 21 else 0)

/-- Firmware's copy of the state vector follows a change that firmware makes (R193). -/
def State.syncMgmt (s : State) (ts : List Nat) : State :=
  { s with fabric := { s.fabric with
      mgmt := ts.foldl (fun m t => if s.vectorOf t = 0 then Map.erase m t else Map.put m t (s.vectorOf t)) s.fabric.mgmt } }

/-- The tile that serves a position now (R184). -/
def State.servingTile (s : State) (home : Nat) : Nat := ((s.substOf home).map (fun x => x.under)).getD home

/-- Set FATAL_STOP with its effects (R484): scenes end, every entry that is not FREE or PAUSED posts a FAILED record with
NOT_READY in ascending index, commands in progress complete with NOT_READY (log 24), and the fatal record is written.
After COOLANT_LOSS firmware stops instead and posts nothing (R454), as it does where it does not run. -/
def State.fatalStop (s : State) (src kind idx : Nat) : State :=
  let s := { s with integ := { s.integ with fatalStop := true } }.count 18 (s.prm.scenes.length - s.failedCount)
  let s := { s with prm := { s.prm with scenes := [] }, fabric := { s.fabric with running := [], excess := [] } }
  if src = srcCoolantLoss || !s.firmwareRuns then s
  else
    let live := (s.prm.seqs.filter (fun e => e.2.state ≠ .paused)).map (fun e => e.1)
    -- no record follows: those that wait for a disabled ring are not posted either
    let rings := Map.mapVals s.mbx.rings (fun _ g => if g.enabled then g else { g with waiting := [] })
    let s := { s with mbx := { s.mbx with rings := rings } }
    let s := live.foldl (fun s e => s.failSeq e .notReady) s
    let s := (s.finishJobs (fun _ => some (.notReady, [])))
    s.ledgerEvent 4 (leBytes 2 src ++ leBytes 1 kind ++ leBytes 1 0 ++ leBytes 4 idx ++
      leBytes 2 (s.field (0x00021800 + 4 * src) 0 16))

/-- A raise up to its reactions: the log entry, the fault state, and the consequence of severities SCENE_FAIL, for the
scenes that consume the affected data or unit, and FATAL (R481, R482, R487, R505). -/
def State.raiseBase (s : State) (src kind idx : Nat) (scenes : List Nat) : State :=
  let sev := s.severity src
  let mask := bitsOf (s.policy src) 24 5
  let entered := !s.inFault src
  let head := bitsOf (s.reg 0x00020008) 0 8
  let slot := 0x00022000 + 16 * head
  let word := src + (kind <<< 16) + (if entered then 2 ^ 24 else 0) + (sev <<< 25)
  let s := (((s.setReg slot word).setReg (slot + 4) idx).setReg (slot + 8) (s.net.ptpNs % 2 ^ 32)).setReg (slot + 12)
    (s.net.ptpNs / 2 ^ 32)
  let s := (s.setReg 0x00020008 ((bitsOf (s.reg 0x00020008) 8 24 + 1) % 2 ^ 24 * 256 + (head + 1) % 256)).count 76 1
  let s := s.orReg (0x00021800 + 4 * src) 0xC0000000
  let s := if sev = 2 then s.failScenes (has scenes) src else s
  let s := if sev = 3 then s.fatalStop src kind idx else s
  let s := if entered && Nat.testBit mask 0 then s.raiseVector (bitsOf (s.reg 0x00020004) (8 * sev) 6) else s
  { s with integ := { s.integ with
      traps := s.integ.traps + (if Nat.testBit mask 1 then 1 else 0)
      chipReset := s.integ.chipReset || (entered && Nat.testBit mask 3)
      blockResets := match s.blockOf kind idx with
        | some b => if Nat.testBit mask 2 then s.integ.blockResets ++ [b] else s.integ.blockResets
        | none => s.integ.blockResets } }

/-- Plan an automatic substitution of a position, or raise UNDERSTUDY_EXHAUSTED where no understudy is free or the cue
sheet store is lost (R190, R425). Every scene in flight that the position serves fails (R190). -/
def State.autoSubstitute (s : State) (home src : Nat) : State :=
  if s.fabric.cutovers.any (fun c => c.home == home && c.auto) then s
  else
    match (if s.fabric.storeLost then none else s.chooseUnderstudy home) with
    | none => s.raiseBase srcUnderstudyExhausted 2 (rowOf home) (s.prm.scenes.map (fun c => c.id))
    | some u =>
      let c : Cutover := { home := home, under := u, restore := false, copy := false, bypass := (s.tile home).router.faulty,
                           auto := true, prepared := false, job := none, mark := some home }
      ({ s with fabric := { s.fabric with cutovers := s.fabric.cutovers ++ [c] } }).failScenes (fun _ => true) src

/-- A router fault of a home router whose position is already substituted in RELAY mode moves it to BYPASS (R190). -/
def State.moveToBypass (s : State) (x : Subst) (src : Nat) : State :=
  let c : Cutover := { home := x.home, under := x.under, restore := false, copy := false, bypass := true,
                       auto := true, prepared := false, job := none }
  ({ s with fabric := { s.fabric with cutovers := s.fabric.cutovers ++ [c] } }).failScenes (fun _ => true) src

/-- Set or clear a tile's FENCED bit, in the data path and in firmware's copy of it (R186, R193). -/
def State.fenceTile (s : State) (t : Nat) (on : Bool) : State :=
  (s.modTile t (fun x => { x with router := { x.router with fenced := on } })).syncMgmt [t]

/-- The substitution that a raise at severity DEGRADE at a tile brings (R190). -/
def State.degradeAt (s : State) (src t : Nat) : State :=
  match s.substOf t with
  | some x =>
    if src = srcRouterFault && !x.bypass && !s.fabric.cutovers.any (fun c => c.home == t && c.auto) then s.moveToBypass x src
    else s
  | none =>
    if s.field 0x00000410 16 1 = 1 then
      -- an understudy stops serving at the raise and is not free (DEDUCED, log 35)
      let s := if isUnderstudy t then s.fenceTile t true else s
      match s.positionOf t with
      | some home => s.autoSubstitute home src
      | none => s
    else s

/-- Microseconds of 24 hours (R97, R495). -/
def dayUs : Nat := 86400000000

/-- A suspicion event of a row, and what a row that becomes suspect brings: a higher trim, a lower step, or
TUNE_EXHAUSTED (R495, R496). -/
def State.suspect (s : State) (row : Nat) : State :=
  if Map.getD s.integ.lastSuspicion row 0 = s.prm.scCount + 1 then s
  else
    let ts := (s.integ.clock :: Map.getD s.integ.suspicion row []).filter (fun t => s.integ.clock - t ≤ dayUs)
    let s := { s with integ := { s.integ with
        suspicion := Map.put s.integ.suspicion row ts
        lastSuspicion := Map.put s.integ.lastSuspicion row (s.prm.scCount + 1) } }
    if ts.length < s.field 0x0002001C 8 4 then s
    else if s.canTrim row then
      if s.field 0x0002001C 0 1 = 1 then
        let old := s.rowTrim row
        let s := { s with integ := { s.integ with suspicion := Map.erase s.integ.suspicion row } }
        (s.setTrim row (old + 1)).tuneRecord false true row old (old + 1)
      else s
    else if s.field 0x0002001C 1 1 = 1 then
      if s.pwr.step < 3 then
        if s.pwr.change.isSome then s
        else
          let s := { s with integ := { s.integ with suspicion := [] } }
          (s.beginStep (s.pwr.step + 1) none).tuneRecord true true 0 s.pwr.step (s.pwr.step + 1)
      else s.raiseBase srcTuneExhausted 0 0 []
    else s

/-- Whether a raise counts as a suspicion event against the row of its tile (R495). -/
def isSuspicion (src kind : Nat) : Bool := kind == 1 && has [1, 13, 17, 80, 84] src

/-- LEDGER_WRITE_FAIL is raised for the ledger writes that failed (R501; for a tuning or journal slot DEDUCED, log 57). -/
def State.ledgerSettle (s : State) : State :=
  (List.range s.ledger.unraised).foldl (fun s _ => s.raiseBase srcLedgerFail 0 0 [])
    { s with ledger := { s.ledger with unraised := 0 } }

/-- Raise a source at a location, with the scenes that consume the affected data or unit (R481 to R486, R190, R495). -/
def State.raise (s : State) (src kind idx : Nat) (scenes : List Nat) : State :=
  let s := if src = srcRouterFault then s.modTile idx (fun t => { t with router := { t.router with faulty := true } }) else s
  let degrade := s.severity src == 1 && kind == 1
  let s := s.raiseBase src kind idx scenes
  let s := if degrade then s.degradeAt src idx else s
  (if isSuspicion src kind then s.suspect (rowOf idx) else s).ledgerSettle

/-- The fault summary: 0 Normal, 1 NOTE, 2 DEGRADE, 3 FATAL, by the highest severity of a source in its fault state (R403). The
four states leave SCENE_FAIL out; what it gives is free (log 9). -/
def State.faultSummary (s : State) : Nat :=
  match s.faulted with
  | [] => 0
  | xs =>
    match xs.foldl (fun m n => max m (s.severity n)) 0 with
    | 0 => 1
    | 1 => 2
    | 2 => (Config.openByte 17 0).toNat % 4
    | _ => 3

/-- Firmware refreshes its copy of the fault state (R489). -/
def State.refreshCopy (s : State) : State := { s with integ := { s.integ with firmwareCopy := s.faultSummary } }

/-- The ids of the scenes in flight. -/
def State.flight (s : State) : List Nat := s.prm.scenes.map (fun c => c.id)

/-- A failing check value of R473: CHECK_FAIL with its place, location and the scenes that consume the block (R473, R509). -/
def State.checkFail (s : State) (place idx : Nat) (scenes : List Nat) : State :=
  let s := ((s.orReg 0x00030800 1).setReg 0x00030804 (2 ^ 31 + (place <<< 28) + (idx <<< 14))).count 55 1
  let kind := match place with
    | 0 => 3
    | 1 => 1
    | 2 => 4
    | 4 => 7
    | _ => 0
  s.raise srcCheckFail kind idx scenes

/-- The ball ERR_N is driven low: by a source in its fault state whose mask has bit 4, or by R411 or R454 (R483). -/
def State.errAsserted (s : State) : Bool :=
  s.outside.errLow || s.faulted.any (fun n => Nat.testBit (s.policy n) 28)

end Sys2Proof.Machine
end

