-- ==== Sys2Proof/Machine/Snoop.lean ====
section
/-!
DEFINITION. The check-value units (R477 to R480): each engine snoops one class of stream, and a channel adds the bytes of
the transfers that its selector matches. A transfer is one step of the model, so every step ends on a transfer boundary
and no write of CHK_RUN stays pending (DEDUCED, log 26).
-/
namespace Sys2Proof.Machine

/-- Offset of a register of channel `c` of engine `e`: 0x4 CHK_SEL, 0x8 CHK_RUN, 0xC CHK_BYTES (R507). -/
def chkReg (e c off : Nat) : Nat := 0x00030000 + 0x40 * e + 0xC * c + off

/-- Whether channel `c` of an engine counts: enabled, and in SERVICE only channel 0 (R479, R508). -/
def State.channelOn (s : State) (e c : Nat) : Bool :=
  let ctrl := s.reg (0x00030000 + 0x40 * e)
  Nat.testBit ctrl c && (Nat.testBit ctrl 31 || c == 0)

/-- A transfer passes an engine: every channel whose selector matches one of the transfer's kinds adds its bytes. A kind
is a pair of KIND and the VALUE it must carry, if any (R478, R480). -/
def State.snoop (s : State) (e : Nat) (kinds : List (Nat × Option Nat)) (bs : List Byte) : State :=
  (List.range 4).foldl (fun s c =>
    let sel := s.reg (chkReg e c 4)
    let hit := kinds.any (fun k => decide (k.1 = bitsOf sel 28 4) &&
      match k.2 with
      | some v => decide (v = bitsOf sel 0 24)
      | none => true)
    if s.channelOn e c && hit then
      (s.setReg (chkReg e c 8) (crc32cRun (s.reg (chkReg e c 8)) bs)).setReg (chkReg e c 12)
        (s.reg (chkReg e c 12) + bs.length)
    else s) s

/-- A DMA read of host memory for a command (engine 8). -/
def State.dmaRead (s : State) (tag : Nat) (bs : List Byte) : State :=
  s.snoop 8 [(1, none), (2, some (tag % 2 ^ 24))] bs

/-- A DMA write of a command to host memory (engine 9). -/
def State.dmaWrite (s : State) (tag a : Nat) (bs : List Byte) : State :=
  (s.snoop 9 [(1, none), (2, some (tag % 2 ^ 24))] bs).hostWrite a bs

/-- Bytes that enter through an Ethernet port: every frame, and one more kind of R480 (engines 0 to 7). -/
def State.ethIn (s : State) (port : Nat) (kind : Nat × Option Nat) (bs : List Byte) : State :=
  s.snoop (port / 2) [(1, none), kind] bs

/-- Bytes that leave through an Ethernet port (R480). -/
def State.ethOut (s : State) (port : Nat) (kind : Nat × Option Nat) (bs : List Byte) : State :=
  s.snoop (port / 2) [(2, none), kind] bs

/-- Whether CHK_SEL.KIND is one that the engine lists (R480). -/
def kindListed (e kind : Nat) : Bool :=
  if e < 8 then decide (kind ≤ 8) else if e < 10 then decide (kind ≤ 2) else if e < 22 then decide (kind ≤ 4)
  else decide (kind ≤ 2)

/-- CUESHEET_ACTIVATE returns every engine to SERVICE and channels 1 to 3 to their reset values (R479). -/
def State.chkService (s : State) : State :=
  let s := s.clearRegs (fun o => decide (0x00030000 ≤ o ∧ o < 0x00030600) && decide (0x10 ≤ (o - 0x00030000) % 0x40))
  (List.range 24).foldl (fun s e =>
    let o := 0x00030000 + 0x40 * e
    if Nat.testBit (s.reg o) 31 || decide (2 ≤ bitsOf (s.reg o) 0 4) then s.setReg o (s.reg o % 2) else s) s

end Sys2Proof.Machine
end

