-- ==== Sys2Proof/Machine/Mailbox.lean ====
section
/-!
DEFINITION. The mailbox (R386 to R394): doorbells, the checks of an entry in their order and the start of its command, the
posting of completions and records, and the commands ECHO and QUERY_INFO. A command that cannot begin yet (R393, R394,
R380) leaves the state as it is, and its entry stays staged (log 25).
-/
namespace Sys2Proof.Machine

/-- How firmware deals with the front entry of a ring. -/
inductive Begin where
  /-- It cannot begin yet, or it is not the ring's next entry. -/
  | waits
  /-- A check failed and its completion is queued. -/
  | rejected (s : State)
  /-- The command begins in this state. -/
  | runs (s : State)

/-- The entry leaves the staging area. -/
def State.popEntry (s : State) (r : Nat) : State := s.modRing r (fun g => { g with staged := g.staged.drop 1 })

/-- The expected alive counter increments modulo 65,536 (R390). -/
def State.nextAlive (s : State) (r : Nat) : State :=
  s.modRing r (fun g => { g with expected := (g.expected + 1) % 65536 })

/-- MBX_EVENT records an event of a ring (R407). -/
def State.mbxEvent (s : State) (r bit : Nat) : State :=
  (s.setField 0x00010800 16 4 r).orReg 0x00010800 (2 ^ bit)

/-- Complete an entry's command with a status and result (R388). -/
def State.complete (s : State) (e : Entry) (st : Status) (result : List Byte) : State :=
  s.completeTo e.ring (s.ring e.ring).gen e.tag st result (e.opcode == 0x30)

/-- Firmware begins an entry: the checks of R390 in order, FENCE and the limit of 256 (R393, R394), and the commands that
a FATAL stop refuses (R484). -/
def mbxBegin (e : Entry) (s : State) : Begin :=
  let g := s.ring e.ring
  if !g.enabled || g.staged.head? != some e || !s.slotFree e.ring || !s.firmwareRuns then .waits
  else if !e.crcOk then
    .rejected ((((s.popEntry e.ring).complete e .crcFail []).mbxEvent e.ring 0).raise srcMailboxCheck 8 e.ring [])
  else if e.alive ≠ g.expected then
    .rejected ((((s.popEntry e.ring).complete e .aliveRepeat []).mbxEvent e.ring 1).raise srcMailboxAlive 8 e.ring [])
  else if (decide (e.flags % 2 = 1) && !(s.jobsOf e.ring).isEmpty) || decide (256 ≤ s.mbx.jobs.length) then .waits
  else
    let s := (s.popEntry e.ring).nextAlive e.ring
    if !(has opcodeTable e.opcode && e.zerosOk) then .rejected (s.complete e .invalid [])
    else if s.integ.fatalStop && !has stopOpcodes e.opcode then .rejected (s.complete e .notReady [])
    else .runs s

/-- A command's own rules: the state after it, and its status and result where it completes at once. -/
abbrev Body := State → State × Option (Status × List Byte)

/-- A command that completes at once. -/
def done (s : State) (st : Status) (result : List Byte) : State × Option (Status × List Byte) := (s, some (st, result))

/-- A command that stays in progress (R392). -/
def later (s : State) : State × Option (Status × List Byte) := (s, none)

/-- Carry out a command whose entry begins. -/
def runBody (e : Entry) (body : Body) (s : State) : State :=
  match body s with
  | (s', some (st, res)) => s'.complete e st res
  | (s', none) => s'

/-- A mailbox command: its entry names the opcode `op`; where it needs a PCIe transfer it waits while the function may
issue no request (R380). -/
def runCmd (e : Entry) (op : Nat) (pcie : Bool) (body : Body) (s : State) : Host.Outcome State Fault Refusal :=
  if !entryWf e then .fault .noSuchUnit
  else if e.opcode ≠ op || (pcie && !s.mayRequest) then .next s
  else
    match mbxBegin e s with
    | .waits => .next s
    | .rejected s' => .next s'
    | .runs s' => .next (runBody e body s')

/-- A command whose record or data come by DMA or RDMA: a failed transfer completes with CRC_FAIL and raises
PCIE_UNCORRECTABLE (R380). -/
def withDma {α : Type} (x : Option α) (s : State) (k : α → State × Option (Status × List Byte)) :
    State × Option (Status × List Byte) :=
  match x with
  | some v => k v
  | none => done (s.raise srcPcieUncorrectable 0 0 []) .crcFail []

/-- A host buffer address: aligned to 64 bytes (R395); another is out of range (R396). -/
def bufferOk (a : Nat) : Bool := decide (a % 64 = 0)

/-- ECHO returns its operand bytes 8 to 27 (R396). -/
def execEcho (e : Entry) (s : State) : Host.Outcome State Fault Refusal :=
  runCmd e 0x01 false (fun s => done s .ok (sliceBytes e.bytes 8 20)) s

/-- The information block (R397). -/
def State.infoBlock (s : State) : List Byte :=
  withCrc (leBytes 1 4 ++ leBytes 1 0xB0 ++ leBytes 1 s.boot.fuses.variant ++ leBytes 1 0 ++
    leBytes 4 ((s.boot.firmware.map (fun f => f.build)).getD 0) ++ opcodeBitmap ++ leBytes 2 16 ++ leBytes 2 4096 ++
    leBytes 2 256 ++ leBytes 1 1 ++ leBytes 1 3 ++ leBytes 8 s.boot.fuses.serial ++ List.replicate 196 0)

/-- QUERY_INFO writes the information block; result byte 8 is the firmware line and byte 9 the stepping (R396, R397). -/
def execQueryInfo (e : Entry) (s : State) : Host.Outcome State Fault Refusal :=
  runCmd e 0x02 true (fun s =>
    if bufferOk (e.op 8 8) then
      done (s.dmaWrite e.tag (e.op 8 8) s.infoBlock) .ok [0x04, 0xB0]
    else done s .invalid []) s

/-- An entry that a check of R390 turns away: a failing CRC or alive counter, an unlisted opcode, or flags or zero bytes
set. An entry that no check fails is another command's, and stays staged. -/
def execUnsupportedOpcode (e : Entry) (s : State) : Host.Outcome State Fault Refusal :=
  if !entryWf e then .fault .noSuchUnit
  else
    match mbxBegin e s with
    | .rejected s' => .next s'
    | _ => .next s

/-- Sizes, alignment and readiness that enabling a pair needs (R386). -/
def State.ringConfigOk (s : State) (r : Nat) (v : Nat) : Bool :=
  let sq := bitsOf v 0 13
  let cq := bitsOf v 13 13
  decide (16 ≤ sq) && decide (sq ≤ 4096) && decide (16 ≤ cq) && decide (cq ≤ 4096) &&
    decide (s.reg (ringReg r 0x00) % 4096 = 0) && decide (s.reg (ringReg r 0x08) % 4096 = 0) &&
    decide (s.reg (ringReg r 0x10) % 64 = 0) && s.mbx.ready

/-- A write of MBX_RING_CFG with ENABLE 1 (R386). While the pair is enabled, the size write is dropped; a pair that is
enabled starts afresh, and the records that waited for it stay (R275). -/
def execRingEnable (ring : Nat) (value : Word) (s : State) : Host.Outcome State Fault Refusal :=
  if 16 ≤ ring then .fault .noSuchUnit
  else if !Nat.testBit value.toNat 31 || (s.ring ring).enabled then .next s
  else if s.ringConfigOk ring value.toNat then
    .next ((s.setReg (ringReg ring 0x18) (value.toNat &&& 0x03FFFFFF)).modRing ring (fun g =>
      { g with enabled := true, gen := g.gen + 1, sqHead := 0, cqTail := 0, phase := true, expected := 0, compAlive := 0,
               staged := [], unfetched := [], unsignalled := 0, waiting := g.waiting.filter (fun c => c.isRecord) }))
  else .next ((s.setReg (ringReg ring 0x18) (value.toNat &&& 0x03FFFFFF)).mbxEvent ring 3)

/-- Stop a ring pair: entries fetched but not begun go, and so do completions; sequence records stay (R392, R275). -/
def State.disableRing (s : State) (r : Nat) : State :=
  s.modRing r (fun g =>
    { g with enabled := false, gen := g.gen + 1, staged := [], unfetched := [], unsignalled := 0,
             waiting := g.waiting.filter (fun c => c.isRecord && !s.integ.fatalStop) })

/-- A write of MBX_RING_CFG with ENABLE 0: the pair stops at once; on a disabled pair the sizes are written (R386, R392). -/
def execRingDisable (ring : Nat) (value : Word) (s : State) : Host.Outcome State Fault Refusal :=
  if 16 ≤ ring then .fault .noSuchUnit
  else if Nat.testBit value.toNat 31 then .next s
  else if (s.ring ring).enabled then .next (s.disableRing ring)
  else .next (s.setReg (ringReg ring 0x18) (value.toNat &&& 0x03FFFFFF))

/-- The head shadow of a ring: SQ_HEAD and the alive counter expected of the next entry to be fetched (R389). -/
def State.writeShadow (s : State) (r : Nat) : State :=
  let g := s.ring r
  let bytes := leBytes 4 g.sqHead ++ leBytes 2 ((g.expected + g.staged.length) % 65536) ++ leBytes 2 0
  s.hostWrite (s.pair (ringReg r 0x10)) bytes

/-- The entries that wait to be fetched, from SQ_HEAD up to the tail, are copied to staging and the head shadow is written (R389), once the
function may issue requests (R380). -/
def State.fetchEntries (s : State) (r : Nat) : State :=
  if !s.mayRequest || !(s.ring r).enabled then s
  else
    let s := (s.ring r).unfetched.foldl (fun s e => s.snoop 8 [(1, none)] e.bytes) s
    (s.modRing r (fun g =>
      { g with sqHead := s.reg (ringReg r 0x1C), staged := g.staged ++ g.unfetched, unfetched := [] })).writeShadow r

/-- A doorbell: entries from SQ_HEAD up to the tail are fetched (R389). A tail at or above the ring size is dropped. A disabled pair stores the
tail only; where the function may issue no request, the entries wait to be fetched (R380). -/
def execMbxSqTail (ring : Nat) (value : Word) (fetched : List Entry) (s : State) : Host.Outcome State Fault Refusal :=
  if 16 ≤ ring then .fault .noSuchUnit
  else
    let t := value.toNat % 4096
    let n := s.sqSize ring
    if n ≤ t then .next (s.mbxEvent ring 2)
    else
      let s := s.setReg (ringReg ring 0x1C) t
      if !(s.ring ring).enabled then .next s
      else
        let k := (t + n - (s.ring ring).sqHead) % n
        let es := (fetched.take k).filter (fun e => entryWf e && decide (e.ring = ring))
        .next ((s.modRing ring (fun g => { g with unfetched := es })).fetchEntries ring)

/-- A write of MBX_CQ_HEAD sets the head (R9, R406), which frees completion slots (R391). -/
def execMbxCqHead (ring : Nat) (value : Word) (s : State) : Host.Outcome State Fault Refusal :=
  if 16 ≤ ring then .fault .noSuchUnit
  else .next (s.setReg (ringReg ring 0x20) (value.toNat % 4096))

/-- Tokens that a record of kind TOKENS delivers (R274). -/
def tokensIn (c : Completion) : Nat := if c.isRecord && fieldAt c.result 0 1 == 1 then bitsOf (fieldAt c.result 1 1) 0 3 else 0

/-- Raise a ring's vector, and start counting again (R391). -/
def State.signal (s : State) (r : Nat) : State :=
  (s.raiseVector (s.field (ringReg r 0x28) 20 6)).modRing r (fun g => { g with unsignalled := 0 })

/-- Whether a sequence record still waits for the completion of its SEQ_ADMIT on another ring, which is posted first (R393). -/
def State.awaitsAdmit (s : State) (ring : Nat) (c : Completion) : Bool :=
  c.isRecord && s.mbx.rings.any (fun g => g.1 != ring && g.2.waiting.any (fun x => x.admits && x.tag == c.tag))

/-- Post the first entry that waits on a ring, once a slot is free (R391): PHASE and the alive counter advance, the event
is counted (R511), and the vector is raised when COUNT entries have been posted since the last interrupt. -/
def execCompletionPost (ring : Nat) (s : State) : Host.Outcome State Fault Refusal :=
  if 16 ≤ ring then .fault .noSuchUnit
  else
    let g := s.ring ring
    match g.waiting with
    | [] => .next s
    | c :: rest =>
      if !s.slotOpen ring || !s.mayRequest || s.awaitsAdmit ring c then .next s
      else
        let n := s.cqSize ring
        let bytes := completionBytes c g.phase g.compAlive
        let s := (s.snoop 9 [(1, none)] bytes).hostWrite (s.pair (ringReg ring 0x08) + 32 * g.cqTail) bytes
        let s := s.modRing ring (fun g =>
          { g with waiting := rest, cqTail := (g.cqTail + 1) % n, compAlive := (g.compAlive + 1) % 65536,
                   phase := if g.cqTail + 1 = n then !g.phase else g.phase, unsignalled := g.unsignalled + 1 })
        let s := if c.isRecord then (s.count 75 1).count 24 (tokensIn c) else s.count 74 1
        if max 1 (s.field (ringReg ring 0x28) 12 8) ≤ (s.ring ring).unsignalled then .next (s.signal ring) else .next s

/-- TIME microseconds after the first entry that no interrupt has reported, the vector is raised; 0 disables (R391, R406). -/
def execCoalTimer (ring : Nat) (s : State) : Host.Outcome State Fault Refusal :=
  if 16 ≤ ring then .fault .noSuchUnit
  else if (s.ring ring).unsignalled = 0 || s.field (ringReg ring 0x28) 0 12 = 0 then .next s
  else .next (s.signal ring)

/-- A read completion or poisoned TLP for a command in progress: data that is poisoned or unsuccessful is never used, the
command completes with CRC_FAIL and PCIE_UNCORRECTABLE is raised (R380). -/
def execDmaCompletion (ring tag : Nat) (poisoned : Bool) (s : State) : Host.Outcome State Fault Refusal :=
  if 16 ≤ ring then .fault .noSuchUnit
  else if !poisoned then .next s
  else
    let s := s.finishJobs (fun j => if j.ring = ring ∧ j.tag = tag then some (.crcFail, []) else none)
    .next (s.raise srcPcieUncorrectable 0 0 [])

end Sys2Proof.Machine
end

