-- ==== Sys2Proof/Machine/Clock.lean ====
section
/-!
DEFINITION. The global hold (R158, R176, R177), the footlight timers (R52, R54, R67) and the handover hold (R187), as every
stage cycle and every scheduled action meets them. The stage cycle itself is in Machine/Cycle.lean.
-/
namespace Sys2Proof.Machine

/-- The stage clock runs: the ROM started it and no stop of R433, R453 or R454 stands (R510). -/
def State.clockRuns (s : State) : Bool := !s.pwr.stageStopped && !s.pwr.allStopped

/-- Whether the present stage cycle is a hold cycle: some cause was raised two cycles before it (R177). -/
def State.held (s : State) : Bool := s.fabric.history2 != 0

/-- Whether a scheduled action can start: no cause holds or is about to hold the counter (R177). -/
def State.schedulable (s : State) : Bool :=
  s.clockRuns && s.fabric.causes == 0 && s.fabric.history1 == 0 && s.fabric.history2 == 0

/-- Raise a hold cause, which FAB_HOLD_SEEN records (R176, R201). The bit is set at the moment of the raise: one that a write
clears while the cause still stands does not set again (DESIGN CHOICE, log 116). -/
def State.raiseCause (s : State) (bit : Nat) : State :=
  ({ s with fabric := { s.fabric with causes := s.fabric.causes ||| 2 ^ bit } }).orReg 0x00000408 (2 ^ bit)

/-- Drop a hold cause (R176). -/
def State.dropCause (s : State) (bit : Nat) : State :=
  { s with fabric := { s.fabric with causes := clearBits s.fabric.causes (2 ^ bit) } }

/-- Scheduled cycles among the `n` after counter value `at_` in which no hold of a call is armed (R53): each hold lasts
through the cycle that it names. -/
def Footlight.unheld (f : Footlight) (at_ n : Nat) : Nat :=
  min n (at_ + n - f.holds.foldl (fun m u => max m u) at_)

/-- A tile's idle counter after `n` scheduled cycles from counter value `at_` (R54, R67): it advances in the cycles with no
hold, while the footlights are on. -/
def Footlight.pass (f : Footlight) (at_ n : Nat) (forced : Bool) : Footlight :=
  if f.state = .off || f.untilCall || f.repeatHold || forced then f
  else { f with idle := min 300000 (f.idle + f.unheld at_ n) }

/-- Whether a tile makes a direct run, for which the device holds its footlights (R99; log 137). -/
def Tile.runsDirect (x : Tile) : Bool := x.calRun.any (fun r => r.direct)

/-- The footlights of a tile are held by a call, by the device or by FL_HOLD_FORCE (R53, R65, R68). -/
def State.flHeld (s : State) (t : Nat) : Bool :=
  let f := (s.tile t).fl
  f.holds.any (fun u => decide (s.fabric.counter ≤ u)) || f.untilCall || f.repeatHold || (s.tile t).runsDirect ||
    decide (s.reg (tileReg t 0x10) % 2 = 1)

/-- Scheduled cycles on every tile that is listed. -/
def State.tileCycles (s : State) (at_ n : Nat) : State :=
  s.mapTiles (fun t x => { x with fl := x.fl.pass at_ n (x.runsDirect || decide (s.reg (tileReg t 0x10) % 2 = 1)) })

/-- A stage cycle of the handover hold: cause HANDOVER drops two cycles before the hold ends (R177, R187), and the commands
that waited for the cut-over complete in the cycle after it. -/
def State.handoverCycle (s : State) : State :=
  let f := s.fabric
  if f.handover = 0 then s
  else
    let s := { s with fabric := { s.fabric with handover := f.handover - 1 } }
    if f.handover = 3 then s.dropCause 8
    else if f.handover = 1 then
      { s with fabric := { s.fabric with completing := [] } }.finishJobs (fun j =>
        (Map.get? f.completing j.id).map (fun r => (.ok, r)))
    else s

end Sys2Proof.Machine
end

