-- ==== Sys2Proof/Machine/Float.lean ====
section
/-!
DEFINITION. The arithmetic of the tile engine and the sampling unit (R118, R119, R123, R124, R129, R130, R132, R137, R138):
exact extended numbers, one rounding to nearest, compensated lanes, the close of a lane and the counter-based generator.
-/
namespace Sys2Proof.Machine

/-- An extended real number: NaN, an infinity, or ±m × 2^e with the sign of a zero kept. -/
inductive Num where
  | nan
  | inf (neg : Bool)
  | fin (neg : Bool) (m : Nat) (e : Int)
  deriving DecidableEq, Repr

/-- The exact number that a float word encodes: `eb` exponent bits, `mb` mantissa bits (R118). `hasInf` is false for E4M3,
whose only special code is the all-ones one. -/
def decodeFloat (eb mb : Nat) (hasInf : Bool) (w : Nat) : Num :=
  let neg := Nat.testBit w (eb + mb)
  let ex := bitsOf w mb eb
  let m := bitsOf w 0 mb
  let bias : Int := (2 ^ (eb - 1) : Nat) - 1
  if ex = 2 ^ eb - 1 ∧ hasInf then (if m = 0 then .inf neg else .nan)
  else if ex = 2 ^ eb - 1 ∧ m = 2 ^ mb - 1 then .nan
  else if ex = 0 then .fin neg m (1 - bias - (mb : Int))
  else .fin neg (m + 2 ^ mb) ((ex : Int) - bias - (mb : Int))

/-- FP32, BF16, E4M3 and E5M2 (R118). -/
def num32 (w : Nat) : Num := decodeFloat 8 23 true w
def num16 (w : Nat) : Num := decodeFloat 8 7 true w
def numE4M3 (w : Nat) : Num := decodeFloat 4 3 false w
def numE5M2 (w : Nat) : Num := decodeFloat 5 2 true w

/-- An integer as a number. -/
def numInt (v : Int) : Num := .fin (decide (v < 0)) v.natAbs 0

/-- 2 to an integer power, split into a numerator and a denominator. -/
def pow2Num (e : Int) : Nat := 2 ^ e.toNat
def pow2Den (e : Int) : Nat := 2 ^ (-e).toNat

/-- The signed value ±m × 2^(e − low) of a finite number, an integer when `low ≤ e`. -/
def alignTo (neg : Bool) (m : Nat) (e low : Int) : Int :=
  let v : Int := (m * 2 ^ (e - low).toNat : Nat)
  if neg then -v else v

/-- Exact sum. The sum of zeros is −0 only where both are −0. -/
def Num.add : Num → Num → Num
  | .nan, _ => .nan
  | _, .nan => .nan
  | .inf a, .inf b => if a = b then .inf a else .nan
  | .inf a, _ => .inf a
  | _, .inf b => .inf b
  | .fin a m e, .fin b n f =>
    let low := min e f
    let v := alignTo a m e low + alignTo b n f low
    if v = 0 then .fin (a && b) 0 0 else .fin (decide (v < 0)) v.natAbs low

/-- Negation. -/
def Num.neg : Num → Num
  | .nan => .nan
  | .inf a => .inf (!a)
  | .fin a m e => .fin (!a) m e

/-- Exact product. -/
def Num.mul : Num → Num → Num
  | .nan, _ => .nan
  | _, .nan => .nan
  | .inf a, .inf b => .inf (a != b)
  | .inf a, .fin b n _ => if n = 0 then .nan else .inf (a != b)
  | .fin a m _, .inf b => if m = 0 then .nan else .inf (a != b)
  | .fin a m e, .fin b n f => .fin (a != b) (m * n) (e + f)

/-- Whether a number is zero. -/
def Num.isZero : Num → Bool
  | .fin _ m _ => m == 0
  | _ => false

/-- Floor of the base-2 logarithm of a positive fraction. -/
def log2Frac (n d : Nat) : Int :=
  let g : Int := (Nat.log2 n : Int) - (Nat.log2 d : Int)
  if n * pow2Den g < d * pow2Num g then g - 1 else g

/-- The quotient of a fraction by 2^q, as floor and remainder over a divisor. -/
def scaleFrac (n d : Nat) (q : Int) : Nat × Nat × Nat :=
  let a := n * pow2Den q
  let b := d * pow2Num q
  (a / b, a % b, b)

/-- The word of a float format for k × 2^q, where 2^mb ≤ k ≤ 2^(mb+1) or q is the least exponent (R118); `none` above the
greatest finite exponent. -/
def packFloat (eb mb k : Nat) (q : Int) : Option Nat :=
  let bias : Int := (2 ^ (eb - 1) : Nat) - 1
  let k' := if k = 2 ^ (mb + 1) then 2 ^ mb else k
  let q' := if k = 2 ^ (mb + 1) then q + 1 else q
  if k' < 2 ^ mb then some k'
  else
    let ex := (q' + bias + (mb : Int)).toNat
    if ex < 2 ^ eb - 1 then some ((ex <<< mb) + (k' - 2 ^ mb)) else none

/-- Exponent of the last place of a format at a positive fraction (R118). -/
def lastPlace (eb mb n d : Nat) : Int :=
  let bias : Int := (2 ^ (eb - 1) : Nat) - 1
  max (log2Frac n d - (mb : Int)) (1 - bias - (mb : Int))

/-- A positive fraction rounded to FP32, to nearest, ties to even; overflow gives infinity (R119). -/
def rneFrac (neg : Bool) (n d : Nat) : Nat :=
  let s := if neg then 2 ^ 31 else 0
  if n = 0 then s
  else
    let q := lastPlace 8 23 n d
    let r := scaleFrac n d q
    let k := if r.2.2 < 2 * r.2.1 ∨ (2 * r.2.1 = r.2.2 ∧ r.1 % 2 = 1) then r.1 + 1 else r.1
    s + (packFloat 8 23 k q).getD 0x7F800000

/-- rne32: one rounding to nearest, ties to even; a NaN gives the canonical NaN (R119). -/
def rne32 : Num → Nat
  | .nan => 0x7FC00000
  | .inf neg => if neg then 0xFF800000 else 0x7F800000
  | .fin neg m e => rneFrac neg (m * pow2Num e) (pow2Den e)

/-- FP32 sum, difference, product and quotient, each one rne32 (R119). -/
def fadd (a b : Nat) : Nat := rne32 ((num32 a).add (num32 b))
def fsub (a b : Nat) : Nat := rne32 ((num32 a).add (num32 b).neg)
def fmul (a b : Nat) : Nat := rne32 ((num32 a).mul (num32 b))
def fdiv (a b : Nat) : Nat :=
  match num32 a, num32 b with
  | .nan, _ => 0x7FC00000
  | _, .nan => 0x7FC00000
  | .inf _, .inf _ => 0x7FC00000
  | .inf x, .fin y _ _ => rne32 (.inf (x != y))
  | .fin x _ _, .inf y => if x != y then 0x80000000 else 0
  | .fin x m e, .fin y n f =>
    if n = 0 then (if m = 0 then 0x7FC00000 else rne32 (.inf (x != y)))
    else rneFrac (x != y) (m * pow2Num (e - f)) (n * pow2Den (e - f))

/-- Whether an FP32 word is NaN, or an infinity or NaN. -/
def isNan32 (w : Nat) : Bool := decide (0x7F800000 < w % 2 ^ 31)
def isInfOrNan32 (w : Nat) : Bool := decide (0x7F800000 ≤ w % 2 ^ 31)

/-- FP32 words in the order of the numbers that they encode; zeros are equal. -/
def order32 (w : Nat) : Int := if Nat.testBit w 31 then -((w % 2 ^ 31 : Nat) : Int) else (w : Int)

/-- The greater of two FP32 words; a NaN propagates. -/
def fmax (a b : Nat) : Nat :=
  if isNan32 a || isNan32 b then 0x7FC00000 else if order32 a < order32 b then b else a

/-- FP32 −infinity and 1.0. -/
def minusInf : Nat := 0xFF800000
def one32 : Nat := 0x3F800000

/-- A compensated lane as a pair of FP32 words, S and E (R123). -/
abbrev CLane := Nat × Nat

/-- add_compensated (R123). -/
def addCompensated (l : CLane) (x : Nat) : CLane :=
  let t := fadd l.1 x
  if isInfOrNan32 t then (t, 0)
  else
    let d := if x % 2 ^ 31 ≤ l.1 % 2 ^ 31 then fadd (fsub l.1 t) x else fadd (fsub x t) l.1
    (t, fadd l.2 d)

/-- The two FP32 values that a scale-add of n × a × b adds: the rounded product, and what the rounding left (R124). -/
def scaleParts (n : Int) (a b : Nat) : List Nat :=
  let p := ((numInt n).mul (num16 a)).mul (num16 b)
  let hi := rne32 p
  [hi, rne32 (p.add (num32 hi).neg)]

/-- A compensated lane times an FP32 factor (R138). -/
def scaleLane (l : CLane) (g : Nat) : CLane :=
  if g = one32 then l
  else
    let p := (num32 l.1).mul (num32 g)
    let hi := rne32 p
    (hi, rne32 ((p.add (num32 hi).neg).add (num32 (fmul l.2 g))))

/-- value(lane): rne32(S + E) (R141, R263). -/
def laneValue (l : CLane) : Nat := fadd l.1 l.2

/-- Bits of the fixed-point evaluation of exp. -/
def expBits : Nat := 320

/-- `n` terms of the series of e^(−t), innermost first, in fixed point. -/
def expSeries (t : Int) : Nat → Int → Int
  | 0, acc => acc
  | n + 1, acc => expSeries t n ((2 ^ expBits : Nat) - t * acc / ((n + 1 : Nat) * (2 ^ expBits : Nat)))

/-- Square a fixed-point number some times. -/
def squareN : Nat → Nat → Nat
  | 0, v => v
  | n + 1, v => squareN n (v * v / 2 ^ expBits)

/-- exp of a number not above zero, correctly rounded to FP32 (R137): below −104 the result rounds to 0, above −2^−25 it
rounds to 1, and between them it is evaluated with 320 fraction bits, far beyond what the rounding needs. -/
def exp32 (x : Nat) : Nat :=
  match num32 x with
  | .nan => 0x7FC00000
  | .inf _ => 0
  | .fin _ m e =>
    if m * pow2Num (e + 25) < pow2Den (e + 25) then one32
    else if 104 * pow2Den e < m * pow2Num e then 0
    else
      let t := m * 2 ^ (e + (expBits : Int) - 8).toNat
      rneFrac false (squareN 8 (expSeries (t : Int) 60 (2 ^ expBits : Nat)).toNat) (2 ^ expBits)

/-- The exact value of an INT32 lane or of a compensated lane (R129). -/
def exactLane (fp : Bool) (w : Nat) : Num :=
  if fp then (num32 (w / 2 ^ 32)).add (num32 (w % 2 ^ 32)) else numInt (signedOf 32 w)

/-- A number rounded stochastically on the grid of a format: k and q of k × 2^q, k signed (R130). `u` is the draw. -/
def stochGrid (eb mb : Nat) (neg : Bool) (n d u : Nat) : Int × Int :=
  if n = 0 then (0, 0)
  else
    let q := lastPlace eb mb n d
    let r := scaleFrac n d q
    if r.2.1 = 0 then ((if neg then -(r.1 : Int) else (r.1 : Int)), q)
    else
      let up := if neg then r.2.2 - r.2.1 else r.2.1
      let f := up * 65536 / r.2.2
      let lo : Int := if neg then -(r.1 : Int) - 1 else (r.1 : Int)
      ((if u < f then lo + 1 else lo), q)

/-- A closed element: its word, whether the close saturated and whether it met a NaN (R129). -/
structure Closed where
  word : Nat
  sat : Bool := false
  nan : Bool := false
  deriving DecidableEq, Repr

/-- Close to a float format of `eb` and `mb` bits whose greatest finite code is `top`. `infCode` is the code of infinity,
where the format keeps it (R129). -/
def closeFloat (eb mb top nanCode : Nat) (infCode : Option Nat) (v : Num) (u : Nat) : Closed :=
  let sign := fun (neg : Bool) => if neg then 2 ^ (eb + mb) else 0
  match v with
  | .nan => { word := nanCode, nan := true }
  | .inf neg =>
    match infCode with
    | some c => { word := c + sign neg }
    | none => { word := top + sign neg, sat := true }
  | .fin neg m e =>
    let g := stochGrid eb mb neg (m * pow2Num e) (pow2Den e) u
    let k := g.1.natAbs
    -- the code of k × 2^q in the format, without a bound on its exponent
    let bias : Int := (2 ^ (eb - 1) : Nat) - 1
    let k' := if k = 2 ^ (mb + 1) then 2 ^ mb else k
    let q' := if k = 2 ^ (mb + 1) then g.2 + 1 else g.2
    let code := if k' < 2 ^ mb then k' else (((q' + bias + (mb : Int)).toNat <<< mb) + (k' - 2 ^ mb))
    let s := sign (decide (g.1 < 0))
    if top < code then { word := top + s, sat := true } else { word := code + s }

/-- Close to INT8 of v × r, r a BF16 factor (R129). -/
def closeInt8 (v : Num) (r u : Nat) : Closed :=
  match v.mul (num16 r) with
  | .nan => { word := 0, nan := true }
  | .inf neg => { word := if neg then 0x81 else 0x7F, sat := true }
  | .fin neg m e =>
    let n := m * pow2Num e
    let d := pow2Den e
    let k : Int :=
      if n % d = 0 then (if neg then -((n / d : Nat) : Int) else ((n / d : Nat) : Int))
      else
        let up := if neg then d - n % d else n % d
        let lo : Int := if neg then -((n / d : Nat) : Int) - 1 else ((n / d : Nat) : Int)
        if u < up * 65536 / d then lo + 1 else lo
    let c := clampInt (-127) 127 k
    { word := unsignedOf 8 c, sat := decide (c ≠ k) }

/-- The close of a lane to its target (R129, R130), with the draw of R132. -/
def closeLane (t : CloseTarget) (fp : Bool) (w u : Nat) : Closed :=
  let v := exactLane fp w
  match t with
  | .int32 => { word := w % 2 ^ 32 }
  | .fp32 => { word := rne32 v, nan := decide (v = .nan) }
  | .bf16 => closeFloat 8 7 0x7F7F 0x7FC0 (some 0x7F80) v u
  | .e4m3 => closeFloat 4 3 0x7E 0x7F none v u
  | .e5m2 => closeFloat 5 2 0x7B 0x7E (some 0x7C) v u
  | .int8 r => closeInt8 v r u

/-- Bytes of an element of a close target. -/
def closeBytes : CloseTarget → Nat
  | .int32 => 4
  | .fp32 => 4
  | .bf16 => 2
  | .e4m3 => 1
  | .e5m2 => 1
  | .int8 _ => 1

/-- The 16-byte key block of a draw (R132). -/
def keyBlock (seed position layer site domain : Nat) : List Byte :=
  leBytes 8 seed ++ leBytes 3 position ++ leBytes 2 layer ++ leBytes 1 site ++ leBytes 1 domain ++ [0]

/-- draw(key_block, i) (R132). -/
def draw (key : List Byte) (i : Nat) : Nat := fieldAt (shake256 (key ++ leBytes 4 (i / 16)) 32) (2 * (i % 16)) 2

/-- The next BF16 value at or above a positive number (R87, R208, R209); overflow gives infinity. -/
def bf16Up (neg : Bool) (n d : Nat) : Nat :=
  if n = 0 ∨ neg then 0
  else
    let q := lastPlace 8 7 n d
    let r := scaleFrac n d q
    (packFloat 8 7 (if r.2.1 = 0 then r.1 else r.1 + 1) q).getD 0x7F80

/-- A number divided by a positive whole number, rounded up to the next BF16 value; a NaN gives the canonical NaN (R119). -/
def bf16UpDiv (v : Num) (k : Nat) : Nat :=
  match v with
  | .fin neg m e => bf16Up neg (m * pow2Num e) (pow2Den e * k)
  | .inf neg => if neg then 0 else 0x7F80
  | .nan => 0x7FC0

/-- A fraction rounded half to even to an integer. -/
def roundHalfEven (neg : Bool) (n d : Nat) : Int :=
  let k := if d < 2 * (n % d) ∨ (2 * (n % d) = d ∧ n / d % 2 = 1) then n / d + 1 else n / d
  if neg then -(k : Int) else (k : Int)

/-- round_half_even(x ÷ s) of exact numbers, clamped to ±`top`; a NaN, an infinity over an infinity or a quotient by zero
gives a free value (R86, R209; log 13). -/
def quantNum (x s : Num) (word top : Nat) : Int :=
  let free : Int := (Config.nanQuant word % (2 * top + 1) : Nat) - (top : Int)
  match x, s with
  | .fin a m e, .fin b n f =>
    if n = 0 then free
    else clampInt (-(top : Int)) top (roundHalfEven (a != b) (m * pow2Num (e - f)) (n * pow2Den (e - f)))
  | .inf a, .fin b _ _ => if a = b then (top : Int) else -(top : Int)
  | .fin _ _ _, .inf _ => 0
  | _, _ => free

/-- Square root of a number that is not negative, rounded to FP32, to nearest, ties to even. -/
def fsqrt (x : Nat) : Nat :=
  match num32 x with
  | .nan => 0x7FC00000
  | .inf neg => if neg then 0x7FC00000 else 0x7F800000
  | .fin neg m e =>
    if m = 0 then x
    else if neg then 0x7FC00000
    else
      -- m × 2^e = v × 2^(2j) with v far above 2^48; a trailing odd bit marks an inexact root
      let j := (e - 80).fdiv 2
      let v := m * 2 ^ (e - 2 * j).toNat
      let r := Nat.sqrt v
      let r' := if r * r = v then 2 * r else 2 * r + 1
      rneFrac false (r' * pow2Num (j - 1)) (pow2Den (j - 1))

end Sys2Proof.Machine
end

