-- ==== Sys2Proof/Machine/EngineBase.lean ====
section
/-!
DEFINITION. The accumulator file and its groups (R122, R123, R125, R126), tile SRAM and its ECC (R142 to R145), as every unit
of a tile uses them.
-/
namespace Sys2Proof.Machine

/-- A group slot once it is free: its fields keep their last values until it opens again (R128, R151). -/
def AccGroup.freed (g : AccGroup) : AccGroup := { g with isOpen := false, draining := none }

/-- What a contribution leaves in a lane: the new word, whether it saturated and whether it produced a NaN. -/
structure Added where
  word : Nat
  sat : Bool := false
  nan : Bool := false

/-- A lane of the accumulator file (R123). -/
def Tile.lane (x : Tile) (l : Nat) : Nat := (Map.getD x.lanes l 0).toNat

/-- Set a lane. -/
def Tile.setLane (x : Tile) (l w : Nat) : Tile := { x with lanes := Map.put x.lanes l (BitVec.ofNat 64 w) }

/-- The two words of a compensated lane: S in bits 63:32, E in bits 31:0 (R123). -/
def unpackLane (w : Nat) : CLane := (w / 2 ^ 32, w % 2 ^ 32)
/-- A compensated lane as its 64 bits (R123). -/
def packLane (l : CLane) : Nat := 2 ^ 32 * l.1 + l.2

/-- Add an integer to an INT32 lane, which saturates (R122). -/
def addInt (v : Int) (w : Nat) : Added :=
  let x := signedOf 32 w + v
  let c := clampInt (-2147483648) 2147483647 x
  { word := unsignedOf 32 c, sat := decide (c ≠ x) }

/-- Apply a change to a compensated lane. -/
def addLane (f : CLane → CLane) (w : Nat) : Added :=
  let l := f (unpackLane w)
  { word := packLane l, nan := isNan32 l.1 }

/-- Add an addend to the word of a lane (R122, R123). A compensated lane is added S first and E second (R140, R165). -/
def Addend.apply : Addend → Nat → Added
  | .int v, w => addInt v w
  | .floats xs, w => addLane (fun l => xs.foldl addCompensated l) w
  | .lane v, w => addLane (fun l => addCompensated (addCompensated l (unpackLane v).1) (unpackLane v).2) w

/-- The open group of a section that holds a lane (R125). A group whose close has come takes no contribution (R128). A lane
outside the lane range of every open group of the section is treated as no open group of it (DEDUCED, log 115: the lane
range is a part of the tag). -/
def Tile.groupFor (x : Tile) (sec lane : Nat) : Option AccGroup :=
  (x.groups.find? (fun g =>
    g.2.isOpen && (g.2.draining.all (fun n => n == 0)) && g.2.sec == sec && decide (16 * g.2.base ≤ lane) &&
      decide (lane < 16 * (g.2.base + g.2.count)))).map (fun g => g.2)

/-- A saturation of an INT32 lane: the first of a scene sets INT_SAT and raises ENGINE_INT_SAT (R122). -/
def State.noteSat (s : State) (t scene : Nat) : State :=
  if has (s.tile t).satScenes scene then s
  else ((s.modTile t (fun x => { x with satScenes := insertNat scene x.satScenes })).orReg (tileReg t 0x144) 0x1).raise
    srcEngineIntSat 1 t [scene]

/-- A NaN that the engine produces: the first of a scene sets NAN_SEEN and raises ENGINE_NAN (R119). -/
def State.noteNan (s : State) (t scene : Nat) : State :=
  if has (s.tile t).nanScenes scene then s
  else ((s.modTile t (fun x => { x with nanScenes := insertNat scene x.nanScenes })).orReg (tileReg t 0x144) 0x4).raise
    srcEngineNan 1 t [scene]

/-- What adding one operation's contributions does to a tile: the tile, and whether a contribution met no open group, met the
other format, saturated and gave a NaN. -/
structure Taken where
  tile : Tile
  miss : Bool := false
  mismatch : Bool := false
  sat : Bool := false
  nan : Bool := false

/-- One contribution is added only to the open group whose tag matches (R126). -/
def Taken.add (r : Taken) (a : Arrival) (x : Nat × Addend) : Taken :=
  match r.tile.groupFor a.sec x.1 with
  | none => { r with miss := true }
  | some g =>
    if g.fp = a.fp then
      let n := x.2.apply (r.tile.lane x.1)
      { r with tile := r.tile.setLane x.1 n.word, sat := r.sat || n.sat, nan := r.nan || n.nan }
    else { r with mismatch := true }

/-- The contributions of one operation reach their lanes (R126). An operation that meets a missing group or the other format
raises each source once (DEDUCED, log 29). -/
def State.take (s : State) (t : Nat) (a : Arrival) : State :=
  let r := a.adds.foldl (fun (r : Taken) x => r.add a x) { tile := s.tile t }
  let s := s.setTile t r.tile
  let s := if r.sat then s.noteSat t a.scene else s
  let s := if r.nan then s.noteNan t a.scene else s
  let s := if r.miss then (s.orReg (tileReg t 0x144) 0x8).raise srcAccTagMiss 1 t [a.scene] else s
  if r.mismatch then (s.orReg (tileReg t 0x144) 0x10).raise srcAccFormat 1 t [a.scene] else s

/-- Contributions that reach a tile in the present stage cycle wait for its end (R127). -/
def State.arrive (s : State) (t : Nat) (a : Arrival) : State := s.modTile t (fun x => { x with arrivals := x.arrivals ++ [a] })

/-- The order of R127: array delivery, MAC block, LUT engine, softmax and merge unit, router ports. -/
def producers : List Producer := [.array, .mac, .lut, .smu, .router]

/-- The contributions of a stage cycle reach a tile's lanes, producer by producer (R127). -/
def State.takeArrivals (s : State) (t : Nat) : State :=
  let as_ := (s.tile t).arrivals
  let s := s.modTile t (fun x => { x with arrivals := [] })
  (producers.flatMap (fun p => as_.filter (fun a => a.producer == p))).foldl (fun s a => s.take t a) s

/-- Bytes of tile SRAM: 192 KiB in 12 banks of 16 KiB (R142). -/
def sramBytes : Nat := 196608

/-- Bank of an SRAM address (R142). -/
def sramBank (a : Nat) : Nat := a / 16384

/-- The 16-byte words that `n` bytes from an address on lie in (R142). -/
def sramWords (a n : Nat) : List Nat := if n = 0 then [] else (List.range ((a + n - 1) / 16 + 1 - a / 16)).map (a / 16 + ·)

/-- Write bytes to tile SRAM; there is none at or above 0x3_0000 (R142). A word that read uncorrectable is sound again once all of
it is written (R144). -/
def State.sramWrite (s : State) (t a : Nat) (bs : List Byte) : State :=
  s.modTile t (fun x => { x with
    sram := memWriteList x.sram a (bs.take (sramBytes - a))
    badWords := x.badWords.filter (fun w => decide (16 * w < a) || decide (a + bs.length < 16 * w + 16)) })

/-- Little-endian words of `n` bytes each, written one after the other. -/
def State.sramPut (s : State) (t a n : Nat) (ws : List Nat) : State := s.sramWrite t a (ws.flatMap (leBytes n))

/-- A little-endian number in tile SRAM. -/
def Tile.sramNat (x : Tile) (a n : Nat) : Nat := leNat (memReadList x.sram a n)

/-- `count` little-endian numbers of `n` bytes each, from an address on. -/
def Tile.sramNats (x : Tile) (a n count : Nat) : List Nat := (List.range count).map (fun i => x.sramNat (a + n * i) n)

/-- A single-bit error of an SRAM word, corrected and counted (R144). -/
def State.sramCe (s : State) (t word : Nat) : State :=
  let o := tileReg t 0x168
  (((s.setField o 16 16 (satAdd 0xFFFF (s.field o 16 16) 1)).setField o 0 14 word).orReg (tileReg t 0x144) 0x20).count 54 1
    |>.raise srcSramCe 1 t []

/-- An uncorrectable error of an SRAM word, which is never used: it reads so until it is written again (R144). -/
def State.sramUe (s : State) (t word : Nat) (scenes : List Nat) : State :=
  let o := tileReg t 0x168
  let s := s.modTile t (fun x => { x with badWords := insertNat word x.badWords })
  (((s.orReg o 0x8000).setField o 0 14 word).orReg (tileReg t 0x144) 0x40).raise srcSramUe 1 t scenes

/-- The first word among some spans of tile SRAM, address and length, that reads uncorrectable (R144). -/
def Tile.badWord (x : Tile) (spans : List (Nat × Nat)) : Option Nat :=
  if x.badWords.isEmpty then none else (spans.flatMap (fun p => sramWords p.1 p.2)).find? (has x.badWords)

/-- The banks that hold some spans of tile SRAM (R142). -/
def banksOf (spans : List (Nat × Nat)) : List Nat := spans.flatMap (fun p => (sramWords p.1 p.2).map (fun w => sramBank (16 * w)))

end Sys2Proof.Machine
end

