-- ==== Sys2Proof/Machine/CalBase.lean ====
section
/-!
DEFINITION. Queued and running calibration as other units see it (R94, R97 to R100), the state of the footlights (R52, R57) and
the row-sum store (R72 to R74).
-/
namespace Sys2Proof.Machine

/-- The half of a tile: 0 north, 1 south (R61). -/
def halfOf (t : Nat) : Nat := rowOf t / 80

/-- Enable a tile's footlights: OFF becomes SETTLING with a timer of 1,250 housekeeping periods (R52, R57). -/
def Footlight.enable (f : Footlight) : Footlight :=
  if f.state = .off then { f with state := .settling, settle := 1250, idle := 0 } else f

/-- Enable a tile's footlights. -/
def State.enableFl (s : State) (t : Nat) : State := s.modTile t (fun x => { x with fl := x.fl.enable })

/-- Footlights of a tile that takes a position: enabled, and held until the first call addressed to the position (R57). -/
def State.holdUntilCall (s : State) (t : Nat) : State :=
  s.modTile t (fun x => { x with fl := { x.fl.enable with untilCall := true, idle := 0 } })

/-- Format code of an array's contents (R71). -/
def State.arrayFormat (s : State) (t a : Nat) : Nat := s.field (tileReg t (0x20 + 4 * a)) 24 4

/-- The arrays that a run covers: those whose ARR_INFO_n.FORMAT is not 0, ascending (R94). -/
def State.calArrays (s : State) (t : Nat) : List Nat := (List.range 8).filter (fun a => s.arrayFormat t a ≠ 0)

/-- Whether a tile has calibration slots: a cue sheet is active, the tile serves a position and the sheet gives that
position a slot (R98, R99). -/
def State.hasSlot (s : State) (t : Nat) : Bool :=
  match s.fabric.active, s.positionOf t with
  | some c, some home => s.servingTile home == t && (Map.get? c.compiled.calOffsets home).isSome
  | _, _ => false

/-- Sum of the last readings of a half's 48 die sensors, in sixteenths of a degree (R97, R458). Means are compared by their sums:
a mean has moved by `d` where the sum has moved by 48 × `d`. -/
def State.halfSum (s : State) (h : Nat) : Int :=
  (List.range 48).foldl (fun v i => v + Map.getD s.pwr.dieTemps (48 * h + i) 0) 0

/-- A half's sensor mean in whole sixteenths of a degree (R102). The spec gives no rounding of a mean between two of them: a free
value decides (log 7). -/
def State.halfMean (s : State) (h : Nat) : Int :=
  let v := s.halfSum h
  v.fdiv 48 + (if v.fmod 48 ≠ 0 ∧ Config.roundUp (v + 2 ^ 32).toNat 48 then 1 else 0)

/-- Whether a half's mean differs from a reference, given as a sum of 48 readings, by at least TEMP_STEP (R97, R102, R117). -/
def State.meanMoved (s : State) (h : Nat) (reference : Int) : Bool :=
  decide (48 * 8 * s.field 0x200 0 5 ≤ (s.halfSum h - reference).natAbs)

/-- A direct run enables the footlights, and holds them until it ends (R99; DESIGN CHOICE, log 137: the hold is the device's own). -/
def State.directLights (s : State) (t : Nat) (direct : Bool) : State :=
  if direct then s.modTile t (fun x => { x with fl := { x.fl.enable with idle := 0 } }) else s

/-- Start a run over some arrays; the half's reference temperature and time are taken (R97). A tile without an array to calibrate
starts none: nothing is counted or timed (DESIGN CHOICE, log 138). -/
def State.startRun (s : State) (t : Nat) (arrays : List Nat) (direct : Bool) : State :=
  if arrays.isEmpty then s.modTile t (fun x => { x with calQueued := false })
  else
    let h := halfOf t
    let s := { s with
      calStart := Map.put s.calStart h s.integ.clock
      calReference := Map.put s.calReference h (s.halfSum h) }
    (s.modTile t (fun x => { x with
      calQueued := false, calRun := some { arrays := arrays, direct := direct } })).directLights t direct

/-- A run in progress goes on directly, or in the tile's slots, from the phase window at which it stopped, with some arrays after
its own (R98, R99). -/
def State.continueRun (s : State) (t : Nat) (r : CalRunState) (direct : Bool) (more : List Nat) : State :=
  (s.modTile t (fun x => { x with
    calRun := some { r with direct := direct, arrays := r.arrays ++ more.filter (fun a => !has r.arrays a) }
    calFrom := s.fabric.counter })).directLights t direct

/-- Some arrays of a tile take a direct run: a run in progress is made directly and takes them with it (R99). A queued run of the
tile becomes a pending one (R100). -/
def State.directRun (s : State) (t : Nat) (arrays : List Nat) : State :=
  let x := s.tile t
  match x.calRun with
  | some r => s.continueRun t r true arrays
  | none => (s.startRun t arrays true).modTile t (fun y => { y with calPending := y.calPending || x.calQueued })

/-- Whether a tile is under rehearsal (R491). -/
def State.rehearsing (s : State) (t : Nat) : Bool := (s.integ.rehearsal.map (fun r => r.tile)) == some t

/-- A tile has lost its slots: a run in progress goes on directly, and a queued one starts, or is pending where the tile is under
rehearsal (R98, R99, R100). -/
def State.leaveSlots (s : State) (t : Nat) : State :=
  match (s.tile t).calRun with
  | some r => s.continueRun t r true []
  | none =>
    if !(s.tile t).calQueued then s
    else if s.rehearsing t then s.modTile t (fun x => { x with calQueued := false, calPending := true })
    else s.startRun t (s.calArrays t) true

/-- A run in progress goes on in the slots that the tile has, or directly where it has none, and there a queued one starts (R98,
R99). -/
def State.placeRun (s : State) (t : Nat) : State :=
  if s.hasSlot t then
    match (s.tile t).calRun with
    | some r => s.continueRun t r false []
    | none => s.modTile t (fun x => { x with calFrom := s.fabric.counter })
  else s.leaveSlots t

/-- Queue a run of a tile: pending while one is in progress or the tile is under rehearsal (R99, R100), in the tile's slots
where it has any, and direct otherwise (R98, R99). -/
def State.queueRun (s : State) (t : Nat) : State :=
  if (s.tile t).calRun.isSome || s.rehearsing t then s.modTile t (fun x => { x with calPending := true })
  else if s.hasSlot t then
    s.modTile t (fun x => { x with calQueued := true, calFrom := if x.calQueued then x.calFrom else s.fabric.counter })
  else s.startRun t (s.calArrays t) true

/-- A pending run starts, once the run in progress or the rehearsal that held it has ended (R99, R100). -/
def State.startPending (s : State) (t : Nat) : State :=
  if (s.tile t).calPending then (s.modTile t (fun x => { x with calPending := false })).queueRun t else s

/-- A rehearsal ends, and a run of its tile that was pending starts (R99, R100, R492). -/
def State.endRehearsal (s : State) : State :=
  match s.integ.rehearsal with
  | some r => { s with integ := { s.integ with rehearsal := none } }.startPending r.tile
  | none => s

/-- Queue a run of every tile of a half (R97). -/
def State.queueHalf (s : State) (h : Nat) : State :=
  (List.range 5280).foldl (fun s i => s.queueRun (5280 * h + i)) s

/-- A trim pair: GAIN 512 and OFFSET 0 until one is installed (R92, R114). -/
def trimOf (m : Map Word) (key : Nat) : Nat := ((Map.get? m key).map (fun w => w.toNat)).getD 0x02000000

/-- Place of a trim pair: set × 8,320 + array × 1,040 + column (R102). -/
def trimKey (set array column : Nat) : Nat := set * 8320 + array * 1040 + column

/-- The trims installed for an array take effect (R96). -/
def Tile.takeTrims (x : Tile) (a : Nat) : Tile :=
  let mine := fun (k : Nat) => decide (k % 8320 / 1040 = a)
  { x with
    trims := (x.newTrims.filter (fun e => mine e.1)).foldl (fun m e => Map.put m e.1 e.2) x.trims
    newTrims := Map.dropKeys x.newTrims mine }

/-- The next column weight: the first hash that is neither 0 nor used (R74). -/
def nextColWeight (used : List Nat) (c : Nat) : Nat → Nat → Nat
  | 0, _ => 0
  | fuel + 1, n =>
    let v := leNat (shake256 ([0x46, 0x51, 0x42, 0x2D, 0x43, 0x4F, 0x4C, 0x57] ++ leBytes 2 c ++ leBytes 2 n) 3) % 2097143
    if v ≠ 0 ∧ has used v = false then v else nextColWeight used c fuel (n + 1)

/-- The column weights k(0) to k(1,023) (R74). -/
def colWeights : List Nat := (List.range 1024).foldl (fun ks c => ks ++ [nextColWeight ks c 65536 0]) []

/-- The weight of a cell in the 2-bit encoding of R300. -/
def cellWeight (code : Nat) : Int := if code = 1 then 1 else if code = 2 then -1 else 0

/-- Key of a cell of a tile: array × 2^20 + row × 1,024 + column. -/
def cellKey (array row column : Nat) : Nat := array * 1048576 + row * 1024 + column

/-- The 32-bit word of a row of weights in the row-sum store (R72, R73). -/
def rowSumWord (ws : List Int) : Nat :=
  let rs := ws.foldl (· + ·) 0
  let wsum := (List.zip colWeights ws).foldl (fun a p => a + (p.1 : Int) * p.2) 0
  (rs % 2048).toNat * 2 ^ 21 + (wsum % 2097143).toNat

/-- The weights of a row of an array. -/
def Tile.rowWeights (x : Tile) (a r : Nat) : List Int :=
  (List.range 1024).map (fun c => cellWeight (Map.getD x.cells (cellKey a r c) 0))

/-- Address of a row's word in the row-sum store: array n occupies the n-th 4 KiB (R73, R143; DEDUCED, log 12). -/
def rowSumAddr (a r : Nat) : Nat := 4096 * a + 4 * r

/-- Write the row sums of an array, from its weights (R72, R306). -/
def State.writeRowSums (s : State) (t a : Nat) : State :=
  s.sramWrite t (rowSumAddr a 0) ((List.range 1024).flatMap (fun r => leBytes 4 (rowSumWord ((s.tile t).rowWeights a r))))

end Sys2Proof.Machine
end

