-- ==== Sys2Proof/Machine/Arrays.lean ====
section
/-!
DEFINITION. Conversion of an MVM (R34 to R51), the row-sum check and the encore ladder (R72 to R83), the statistical monitor
(R90, R91), the encore trend (R105, R106), delivery (R49) and the footlights (R52 to R57). One PHASE_WINDOW is one phase
window of a tile: the phase's integration and the conversion of its held values.
-/
namespace Sys2Proof

/-- Bit-planes of an MVM (R35). -/
def MvmStart.planes (m : MvmStart) : Nat := if m.fmt16 then 16 else 8

/-- Phases of the base window (R37, R47). -/
def MvmStart.basePhases (m : MvmStart) : Nat := (1024 / m.groupRows) * m.planes

/-- The pulse condition of R35 for a row and bit-plane. -/
def MvmStart.pulsed (m : MvmStart) (b r : Nat) : Bool :=
  !has m.outlierRows r && Nat.testBit (unsignedOf 16 (m.acts.getD r 0)) b

/-- The rows that a phase over rows `lo` to `lo + n − 1` pulses. -/
def MvmStart.pulsedRows (m : MvmStart) (lo n b : Nat) : List Nat :=
  ((List.range n).map (lo + ·)).filter (m.pulsed b)

/-- Significance of a bit-plane (R35). -/
def MvmStart.significance (m : MvmStart) (b : Nat) : Int :=
  if b + 1 = m.planes then -((2 ^ b : Nat) : Int) else ((2 ^ b : Nat) : Int)

end Sys2Proof

namespace Sys2Proof.Machine

/-- The columns in conversion order: multiplexer position, then converter pair (R32, R43). -/
def convOrder : List Nat := ((List.range 8).map (fun k => (List.range 128).map (fun p => 8 * p + k))).flatten

/-- Level of a column behind its trims, in units of 2^-28 converter code from the level of count 0: gain factor
1 + (G − 512) ÷ 4,096 and shift of O ÷ 32 code (R92). -/
def trimmedLevel (trim : Nat) (level : Int) : Int :=
  level * (3584 + bitsOf trim 16 10) + signedOf 8 (bitsOf trim 0 8) * 8388608

/-- The code that a converter gives: count n lies on the threshold between 128 + 2n and 129 + 2n in exact resolution (R38), and
at the centre of code 128 + n in performance resolution (R40). -/
def codeOf (performance : Bool) (v : Int) : Nat :=
  (clampInt 0 255 (if performance then (v + 34493956096).fdiv 268435456 else (v + 34628173824).fdiv 268435456)).toNat

/-- The range comparator: beyond +127.5 or below −127.5 counts in performance resolution (R40). -/
def saturates (v : Int) : Bool := decide (34225520640 < v) || decide (v < -34225520640)

/-- What a tile's converters give for a phase: the level of each column of the array behind the trims of the resolution in force
(R92). -/
def Tile.converted (x : Tile) (performance : Bool) (array : Nat) (levels : List Int) : List Int :=
  (List.zip (List.range levels.length) levels).map (fun p =>
    trimmedLevel (trimOf x.trims (trimKey (if performance then 1 else 0) array p.1)) p.2)

/-- Count of a code (R38, R40). -/
def countOf (performance : Bool) (code : Nat) : Int :=
  if performance then (code : Int) - 128 else ((code : Int) - 128).fdiv 2

/-- Whether a conversion is out of the exact window (R39), or saturated in performance resolution; code 0 is never a count
(R40). -/
def flaggedLevel (performance : Bool) (v : Int) : Bool :=
  let code := codeOf performance v
  if performance then saturates v || code == 0 else decide (code < 64) || decide (193 < code)

/-- Whether column `c` is flagged among converted levels. -/
def flagged (performance : Bool) (vs : List Int) (c : Nat) : Bool := flaggedLevel performance (vs.getD c 0)

/-- The stored sums over the pulsed rows (R75). -/
def storedSums (x : Tile) (a : Nat) (rows : List Nat) : Nat × Nat :=
  rows.foldl (fun p r =>
    let w := x.sramNat (rowSumAddr a r) 4
    ((p.1 + bitsOf w 21 11) % 2048, (p.2 + bitsOf w 0 21) % 2097143)) (0, 0)

/-- The sums over the counts (R75). -/
def countSums (counts : List Int) : Nat × Nat :=
  (((counts.foldl (· + ·) 0) % 2048).toNat,
   (((List.zip colWeights counts).foldl (fun a p => a + (p.1 : Int) * p.2) 0) % 2097143).toNat)

/-- Add a phase's counts at its significance (R35). -/
def addCounts (acc : List Int) (sig : Int) (counts : List Int) : List Int :=
  (List.zip acc counts).map (fun p => p.1 + sig * p.2)

/-- The diode that is nearest to a tile (log 10), and its last reading in sixteenths of a degree. -/
def State.nearTemp (s : State) (t : Nat) : Int := Map.getD s.pwr.dieTemps (48 * halfOf t + Config.nearestDiode t % 48) 0

/-- The governing slot of an array: of the two whose CRCs pass, the one with the higher SEQ (R315). -/
def governing (p : JournalSlot × JournalSlot) : Option JournalSlot :=
  if p.1.crcOk && (!p.2.crcOk || decide (p.2.seq ≤ p.1.seq)) then some p.1 else if p.2.crcOk then some p.2 else none

/-- Recasts of an array, by its governing journal slot (R315, R334). -/
def State.recasts (s : State) (t a : Nat) : Nat :=
  ((governing (Map.getD s.ldr.journal (t * 8 + a) ({}, {}))).map (fun g => g.recasts)).getD 0

/-- σ_lim in hundredths of a count (R58, R90): the next tabulated temperature, fresh or end of life. -/
def State.sigmaLim (s : State) (t a : Nat) : Nat :=
  let temp := s.nearTemp t
  if s.recasts t a ≤ 100 ∧ s.pwr.hours ≤ 1000 then
    (if temp ≤ 25 * 16 then 32 else if temp ≤ 85 * 16 then 41 else 46)
  else if temp ≤ 85 * 16 then 56 else 63

/-- The plain residual of a base group, mapped to −1,024 to +1,023 (R90). -/
def residualOf (counts : List Int) (plainRef : Nat) : Int :=
  signedOf 11 (((counts.foldl (· + ·) 0) - (plainRef : Int)) % 2048).toNat

/-- A residual of an array's group enters the monitor, whose window ends with the 2^20th group (R90). -/
def Tile.residual (x : Tile) (a : Nat) (d : Int) : Tile :=
  let sum := x.statSum + d
  let squares := x.statSquares + (d * d).toNat
  if x.statGroups + 1 = 2 ^ 20 then
    { x with statSum := 0, statSquares := 0, statGroups := 0, statEnded := x.statEnded ++ [(sum, squares, a)] }
  else { x with statSum := sum, statSquares := squares, statGroups := x.statGroups + 1 }

/-- A residual enters the monitor (R90); a gross one raises STAT_DRIFT at once (R91). -/
def State.monitor (s : State) (t a : Nat) (d : Int) : State :=
  let s := s.modTile t (fun x => x.residual a d)
  if 384 * s.sigmaLim t a < 100 * d.natAbs then (s.orReg (tileReg t 0x120) 0x20000000).raise srcStatDrift 1 t [] else s

/-- Drop a hold cause that no tile's MVM needs any more (R80, R56). -/
def State.settleCauses (s : State) : State :=
  let live := fun (p : Mvm → Bool) => s.tiles.any (fun e => (e.2.mvm.map (fun m => !m.complete && p m)).getD false)
  let s := if live (fun m => m.extended || m.secondRun) then s else s.dropCause 4
  if live (fun m => m.earlyRaised) then s else s.dropCause 6

/-- The results of an MVM as the output register holds them (R48). -/
def Mvm.result (m : Mvm) : OutReg :=
  { array := m.start.array, sec := m.start.sec, scene := m.start.scene, lane := m.start.lane, deliver := m.start.deliver
    acc := m.acc, excess := m.excess, slot := m.slot, row := m.row }

/-- Whether results that wait are those of an MVM: of its slot, scene row and scene. -/
def Mvm.owns (m : Mvm) (o : OutReg) : Bool :=
  o.slot == m.slot && o.row == m.row && o.scene == m.start.scene && o.excess == m.excess

/-- The output register without the results of an MVM; those of others wait on (R49, R56). -/
def Tile.dropResult (x : Tile) (m : Mvm) : Tile := { x with outs := x.outs.filter (fun o => !m.owns o) }

/-- An MVM's own footlight hold ends once its last window has converted (R56). -/
def Tile.endRepeat (x : Tile) (m : Mvm) : Tile :=
  if m.complete && decide (m.start.basePhases + 12 ≤ m.windows) then { x with fl := { x.fl with repeatHold := false } } else x

/-- End an MVM that delivers nothing (R56, R81): it runs no further phase or window (DESIGN CHOICE, log 136). -/
def State.spoilMvm (s : State) (t : Nat) (m : Mvm) : State :=
  (s.modTile t (fun x => { x.dropResult m with
    mvm := some { m with complete := true, dead := true, pieces := [] }
    fl := { x.fl with repeatHold := false } })).settleCauses

/-- An MVM from its first phase, with a fresh encore budget; it was counted once if its first run completed (R56, R82). -/
def Mvm.again (m : Mvm) : Mvm :=
  { m with phase := 0, windows := 0, held := 0, acc := List.replicate 1024 0, pieces := [], encores := 0, extEncores := []
           extended := false, skipped := 0, tainted := false, complete := false }

/-- Raise ENCORE_EXHAUSTED: 0 LADDER, 1 LIMIT, 2 STORE (R77, R81, R110), with the outcome of its severity (R82). -/
def State.exhaust (s : State) (t : Nat) (m : Mvm) (cause group plane quarter : Nat) : State :=
  let loc := 2 ^ 31 + (cause <<< 29) + (m.start.array <<< 26) + (group <<< 21) + (plane <<< 17) + (quarter <<< 15)
  let s := (s.setReg (tileReg t 0x104) loc).raise srcEncoreExhausted 1 t [m.start.scene]
  if 2 ≤ s.severity srcEncoreExhausted then s.spoilMvm t m
  else if m.secondRun then (s.failScenes (fun i => i == m.start.scene) srcEncoreExhausted).spoilMvm t m
  else (s.modTile t (fun x => { x with mvm := some { m.again with secondRun := true, earlyRaised := m.earlyRaised } })).raiseCause 4

/-- An array leaves life (R105, R106). -/
def State.leaveLife (s : State) (t a : Nat) : State :=
  if Nat.testBit (s.reg (tileReg t 0x124)) (24 + a) then s
  else (s.orReg (tileReg t 0x124) (2 ^ (24 + a))).raise srcArrayEol 1 t []

/-- The newest entries of a trend that together hold at most 2^36 conversions (R105). -/
def trimTrend : Nat → List (Nat × Nat) → List (Nat × Nat)
  | _, [] => []
  | room, (c, w) :: xs => if c ≤ room then (c, w) :: trimTrend (room - c) xs else []

/-- Conversions and weighted encores of an array's trend, encores in thousandths referred to 105 °C (R105). -/
def trendSums (xs : List (Nat × Nat)) : Nat × Nat := xs.foldl (fun p x => (p.1 + x.1, p.2 + x.2)) (0, 0)

/-- Non-skipped base conversions and group encores of an array enter its trend while the nearest sensor reads at least 45 °C,
whatever becomes of their MVM. The ratio is judged once the window holds 2^36 conversions (R105; DEDUCED, log 30). -/
def State.trendAdd (s : State) (t a conversions encores : Nat) : State :=
  let temp := s.nearTemp t
  if temp < 45 * 16 then s
  else
    let factor := Map.getD s.boot.fuses.tempFactor (temp.fdiv 16).toNat 1000
    let xs := trimTrend (2 ^ 36) ((conversions, encores * factor) :: Map.getD (s.tile t).trend a [])
    let s := s.modTile t (fun x => { x with trend := Map.put x.trend a xs })
    let sums := trendSums xs
    if 2 ^ 36 ≤ sums.1 ∧ sums.1 < sums.2 * 1000 then s.leaveLife t a else s

/-- An MVM is complete: its results enter the output register, ENC_STATUS describes it and it is counted once (R48, R56,
R109). -/
def State.finishMvm (s : State) (t : Nat) (m : Mvm) : State :=
  let ext := m.extEncores.length
  let word := (ext <<< 16) + ((m.encores - ext) <<< 5) + (if m.extended then 16 else 0) + (if m.start.fmt16 then 8 else 0) +
    m.start.array
  let done : Mvm := { m with complete := true, counted := true, pieces := [] }
  let s := (s.setReg (tileReg t 0x100) word).modTile t (fun x =>
    { (x.dropResult m).endRepeat done with mvm := some done, outs := (x.dropResult m).outs ++ [m.result] })
  let s := if m.counted then s else (s.count 32 1).count 37 (if m.start.fmt16 then 1 else 0)
  let s := if m.skipped = m.start.basePhases then s.orReg (tileReg t 0x08) 0x20 else s
  s.settleCauses

/-- Start a group encore of the rows `lo` to `lo + rows − 1` (R77 to R80): two halves, whose results may be placed from the
cycle `known` on. The fifth and later encores run in extension windows. -/
def Mvm.encore (m : Mvm) (lo rows plane group known : Nat) : Mvm :=
  let piece := fun (l : Nat) => ({ lo := l, rows := rows / 2, plane := plane, group := group, known := known,
                                   encore := m.encores, extension := decide (4 ≤ m.encores) } : Piece)
  { m with encores := m.encores + 1, pieces := m.pieces ++ [piece lo, piece (lo + rows / 2)] }

/-- What the conversion of one group or piece comes to. -/
inductive Converted where
  | pass
  | mismatch
  | store (row : Nat)
  deriving DecidableEq, Repr

/-- Convert and check the rows of one phase: levels `vs` behind the trims and their counts (R38 to R41, R50, R75, R76, R81). A word of
the row-sum store that reads uncorrectable now or has read so before is never used (R81, R144). -/
def convert (x : Tile) (m : Mvm) (lo rows plane : Nat) (storeUe : Option Nat) (vs counts : List Int) : Converted :=
  let pulsed := m.start.pulsedRows lo rows plane
  let bad := convOrder.any (flagged m.performance vs)
  let bad? := pulsed.find? (fun r => storeUe == some r || (x.badWord [(rowSumAddr m.start.array r, 4)]).isSome)
  match bad? with
  | some r => .store r
  | none =>
    if m.performance then (if bad && decide (64 < rows) then .mismatch else .pass)
    else if bad || countSums counts != storedSums x m.start.array pulsed then .mismatch
    else .pass

/-- ARR_EVENT and ARR_LAST_LOC for an out-of-window code or a saturated conversion (R39, R41, R69). -/
def State.noteFlagged (s : State) (t : Nat) (m : Mvm) (rows plane group : Nat) (vs : List Int) : State :=
  match convOrder.find? (flagged m.performance vs) with
  | none => s
  | some c =>
    if m.performance && decide (rows ≤ 64) then s
    else
      let word := (if m.performance then 0 else 2 ^ 31) + (c <<< 21) + (m.start.array <<< 18) + (plane <<< 14) + (group <<< 9)
      (s.setReg (tileReg t 0x14) word).orReg (tileReg t 0x08) (if m.performance then 2 else 4)

/-- What a group or piece of `rows` rows at `lo` does to its MVM once it is converted: the counts are added, an encore
starts, or the source is raised (R41, R75 to R83). Every base group of performance resolution enters the monitor, a saturated
one too (R90). The MVM `m` has already moved past the phase. -/
def State.resolve (s : State) (t : Nat) (m : Mvm) (lo rows plane group window : Nat) (base : Bool) (input : PhaseIn) :
    State × Option Mvm :=
  let vs := (s.tile t).converted m.performance m.start.array input.levels
  let counts := vs.map (fun v => countOf m.performance (codeOf m.performance v))
  let outcome := convert (s.tile t) m lo rows plane input.storeUe vs counts
  let s := s.noteFlagged t m rows plane group vs
  let s := if base then s.trendAdd t m.start.array 1024 0 else s
  let s :=
    if m.performance && base then
      s.monitor t m.start.array
        (residualOf counts (storedSums (s.tile t) m.start.array (m.start.pulsedRows lo rows plane)).1)
    else s
  match outcome with
  | .pass => (s, some { m with acc := addCounts m.acc (m.start.significance plane) counts })
  | .store r =>
    ((s.sramUe t (rowSumAddr m.start.array r / 16) [m.start.scene]).exhaust t m 2 group plane 0, none)
  | .mismatch =>
    if 128 ≤ m.encores then (s.exhaust t m 1 group plane 0, none)
    else if !m.performance && rows == 8 then (s.exhaust t m 0 group plane (lo % 32 / 8), none)
    else
      (((s.count 35 1).count 38 (if m.performance then 1 else 0)).trendAdd t m.start.array 0 1,
       some (m.encore lo rows plane group (64 * window + 140)))

/-- Put the MVM back; it is complete once its base phases are done and no piece waits (R48, R109). -/
def State.keepMvm (s : State) (t : Nat) (m : Mvm) : State :=
  if m.start.basePhases ≤ m.phase && m.pieces.isEmpty then s.finishMvm t m
  else s.modTile t (fun x => { x with mvm := some m })

/-- A phase that a droop alarm tainted is discarded and runs again as hold work (R46). -/
def State.taint (s : State) (t : Nat) (m : Mvm) : State :=
  let s := (s.orReg (tileReg t 0x08) 0x10).count 39 1
  let s := if m.tainted then s else { s with pwr := { s.pwr with rerunsLeft := s.pwr.rerunsLeft + 1 } }
  (s.raiseCause 3).modTile t (fun x => { x with mvm := some { m with tainted := true } })

/-- A phase that ran without taint; the last re-run lets cause DROOP go (R46, R449). -/
def State.untaint (s : State) (m : Mvm) : State :=
  if m.tainted then
    let left := s.pwr.rerunsLeft - 1
    let s := { s with pwr := { s.pwr with rerunsLeft := left } }
    if left = 0 ∧ s.pwr.droopQuiet ∧ !s.pwr.droopActive then s.dropCause 3 else s
  else s

/-- The piece that the present window of an MVM takes: in the reserve the first one that budgets it and whose result is
known, in an extension window the first whose result is known (R79, R80). -/
def Mvm.nextPiece (m : Mvm) : Option Piece :=
  let inReserve := decide (m.windows < m.start.basePhases + 12)
  m.pieces.find? (fun p => decide (p.known ≤ 64 * m.windows) && (!inReserve || !p.extension))

/-- Whether the present window is an extension window: it follows reserve window 11 and a piece waits (R80). -/
def Mvm.extending (m : Mvm) : Bool := decide (m.start.basePhases + 12 ≤ m.windows) && !m.pieces.isEmpty

/-- Whether the present window runs as hold work of a cause that is raised (R45, R177): a droop re-run, the repeated MVM of
R82 or R56, 16-plane phases, an expert's excess row. An extension window takes its own hold (R80). -/
def State.holdWork (s : State) (m : Mvm) : Bool :=
  let raised := fun (b : Nat) => Nat.testBit s.fabric.causes b
  (m.tainted && raised 3) || (m.secondRun && raised 4) || (m.earlyRaised && raised 6) ||
    (m.start.fmt16 && raised 5 && decide (m.held < m.start.basePhases / 2)) || (m.excess && raised 7) || m.extending

/-- Whether a scheduled action of counter value `at_` has started: the value lies behind, or no cause holds the counter, which stands
at it (R45, R177). -/
def State.reached (s : State) (at_ : Nat) : Bool :=
  s.clockRuns && (decide (at_ < s.fabric.counter) || (decide (at_ = s.fabric.counter) && s.schedulable))

/-- Counter value at which the present window of an MVM begins, unless it is hold work (R34, R42). -/
def Mvm.windowAt (m : Mvm) : Nat := m.begun + 64 * (m.windows - m.held)

/-- Whether the present window is a scheduled one, and not an extension window (R45, R80). -/
def State.scheduledWindow (s : State) (m : Mvm) : Bool := !m.extending && s.reached m.windowAt

/-- Whether a phase window may start now (R45, R46, R83). -/
def State.mayPhase (s : State) (m : Mvm) : Bool :=
  s.clockRuns && (s.scheduledWindow m || s.holdWork m) && (!m.tainted || (s.pwr.droopQuiet && !s.pwr.droopActive))

/-- Whether a tile serves its position, or the one that it stands in for: no understudy stands in for it, no automatic
substitution of the position waits for its cut-over, and its row's link domain has no fault (R184, R190). -/
def State.serves (s : State) (t : Nat) : Bool :=
  match s.positionOf t with
  | some home => s.servingTile home == t && !s.fabric.cutovers.any (fun c => c.auto && c.home == home) &&
      !has s.fabric.rowFaults (rowOf t)
  | none => false

/-- The phase windows of an MVM have passed: the base window, the reserve and every extension window (R34, R65). -/
def Mvm.past (m : Mvm) (counter : Nat) : Bool :=
  m.complete && decide (m.start.basePhases + 12 ≤ m.windows) && decide (m.windowAt ≤ counter)

/-- The phase of a group or piece: skipped where nothing would be pulsed (R50), tainted (R46), or converted. `m'` is the
MVM once the phase is behind it. A tainted phase records no out-of-window code and no saturation: R46 discards it, and
R39 and R41 do not say whether they apply to it (DESIGN CHOICE, log 50). -/
def State.runPhase (s : State) (t : Nat) (m m' : Mvm) (lo rows plane group : Nat) (base : Bool) (input : PhaseIn) : State :=
  let skip := (m.start.pulsedRows lo rows plane).isEmpty
  let s := s.modTile t (fun x => { x with skipping := skip, lastRows := rows, lastArray := m.start.array })
  if !skip && input.alarm then s.taint t m
  else
    let s := s.untaint m
    let s := if base then (s.count 33 1).count 34 (if skip then 1 else 0) else s
    let m' := { m' with tainted := false, skipped := m'.skipped + (if base && skip then 1 else 0) }
    if skip then s.keepMvm t m'
    else
      match s.resolve t m' lo rows plane group m.windows base input with
      | (s, some m'') => s.keepMvm t m''
      | (s, none) => s

/-- A window of the reserve or an extension: its piece, or nothing (R79, R80). -/
def State.pieceWindow (s : State) (t : Nat) (m : Mvm) (input : PhaseIn) : State :=
  let s := if m.extending then s.raiseCause 4 else s
  let ext := m.extending
  let m := if ext then { m with extended := true } else m
  match m.nextPiece with
  | none => s.modTile t (fun x => { x with skipping := false, mvm := some { m with windows := m.windows + 1 } })
  | some p =>
    let m := if ext && !has m.extEncores p.encore then { m with extEncores := m.extEncores ++ [p.encore] } else m
    let m' := { m with windows := m.windows + 1, pieces := m.pieces.erase p }
    (s.count 36 (if ext then 1 else 0)).runPhase t m m' p.lo p.rows p.plane p.group false input

/-- FOOTLIGHT_EARLY, raised once for an MVM, with the outcome of its severity (R56). -/
def State.footlightEarly (s : State) (t : Nat) (m : Mvm) : State :=
  if m.earlyRaised || m.dead then s
  else
    let s := ((s.untaint m).orReg (tileReg t 0x08) 0x1).raise srcFootlightEarly 1 t [m.start.scene]
    let m := { m with earlyRaised := true, tainted := false }
    if 2 ≤ s.severity srcFootlightEarly then s.spoilMvm t m
    else
      (s.modTile t (fun x => { x.dropResult m with
        mvm := some m.again
        fl := { x.fl.enable with repeatHold := true, idle := 0 } })).raiseCause 6

/-- One window of the MVM in progress (R34, R42, R56). A window of hold work takes no scheduled cycle; a droop
re-run stands in the place of the phase that it repeats (R46). -/
def State.mvmWindow (s : State) (t : Nat) (m : Mvm) (input : PhaseIn) : State :=
  let m := if m.tainted || s.scheduledWindow m then m else { m with held := m.held + 1 }
  if (s.tile t).fl.state ≠ .ready && !m.dead && !(m.complete && m.earlyRaised) then s.footlightEarly t m
  else if m.complete then
    let m := { m with windows := m.windows + 1 }
    s.modTile t (fun x => { x.endRepeat m with skipping := false, mvm := some m })
  else if m.phase < m.start.basePhases then
    let g := m.phase / m.start.planes
    let b := m.phase % m.start.planes
    s.runPhase t m { m with phase := m.phase + 1, windows := m.windows + 1 } (g * m.start.groupRows) m.start.groupRows b g true
      input
  else s.pieceWindow t m input

/-- Whether a tile may begin an MVM of an array: no other one's phase windows remain, the tile serves its position and the
array converts for the active cue sheet (R34, R184, R189, R190). -/
def State.mayStart (s : State) (t array : Nat) : Bool :=
  let free := match (s.tile t).mvm with
    | none => true
    | some m => m.past s.fabric.counter || (m.excess && m.complete)
  free && s.fabric.active.isSome && s.serves t && decide (array < 8) && Nat.testBit (s.tile t).valid array &&
    Nat.testBit (s.tile t).trimsValid array && (s.tile t).programming.isNone && (s.tile t).calRun.all (fun r => !r.direct)

/-- Whether the active cue sheet selects performance resolution (R23, R167). -/
def State.performance (s : State) : Bool := (s.fabric.active.map (fun c => Nat.testBit c.flags 1)).getD false

/-- Outlier rows of the array of a slot, zeroed on the analogue rows (R35, R85). -/
def outlierRows (c : CueSheet) (slot : MvmSlot) : List Nat :=
  ((c.placements.find? (fun p => p.tile == slot.tile && p.array == slot.array)).map (fun p => p.slots)).getD []

/-- Whether a scene row's vector of a layer input took a format encore: every MVM and table build that consumes it then runs at
16 bits, wherever in the tiles the vector lies (R87, R88). -/
def State.isWide (s : State) (scene row input : Nat) : Bool :=
  s.prm.scenes.any (fun c => c.id == scene && c.wide.any (fun w => w == (row, input)))

/-- An element of a vector: one byte, and in a format encore that and a high byte (R86, R88). -/
def Tile.activation (x : Tile) (wide : Bool) (low high i : Nat) : Int :=
  if wide then signedOf 16 (x.sramNat (low + i) 1 + 256 * x.sramNat (high + i) 1) else signedOf 8 (x.sramNat (low + i) 1)

/-- Element `i` of the vector of a slot for a scene row in a tile's SRAM (R35). -/
def State.slotElement (s : State) (t : Nat) (slot : MvmSlot) (row scene i : Nat) : Int :=
  (s.tile t).activation (s.isWide scene row slot.input) (slot.acts + slot.stride * row) (slot.high + slot.stride * row) i

/-- The MVM of a slot for a scene row: the row's vector in the serving tile's SRAM, 0 outside the placed rows (R35); the outlier
rows of the array's placement (R85); 32-row groups in exact resolution, and the cue sheet's in performance resolution (R36). -/
def State.openMvm (s : State) (c : CueSheet) (t begun : Nat) (slot : MvmSlot) (row scene : Nat) : Mvm :=
  let used := s.field (tileReg t (0x20 + 4 * slot.array)) 11 11
  let groupRows := if s.performance then (if has [64, 128, 256] slot.groupRows then slot.groupRows else 256) else 32
  { start := {
      array := slot.array
      acts := (List.range 1024).map (fun i => if i < used then s.slotElement t slot row scene i else 0)
      outlierRows := outlierRows c slot
      fmt16 := s.isWide scene row slot.input
      groupRows := groupRows
      sec := slot.sec % 4096
      scene := scene
      lane := slot.lane
      deliver := begun + (slot.deliver - slot.start) }
    performance := s.performance
    begun := begun
    acc := List.replicate 1024 0 }

/-- What an MVM of a slot reads of the tile's SRAM: the row's vector (R35, R88). -/
def State.vectorSpans (s : State) (slot : MvmSlot) (row scene : Nat) : List (Nat × Nat) :=
  (slot.acts + slot.stride * row, 1024) :: (if s.isWide scene row slot.input then [(slot.high + slot.stride * row, 1024)] else [])

/-- Column results of an MVM: for INT2, 2 × result(2j) + result(2j + 1) (R31, R35). -/
def columnResults (int2 : Bool) (acc : List Int) : List Int :=
  if int2 then (List.range 512).map (fun j => 2 * acc.getD (2 * j) 0 + acc.getD (2 * j + 1) 0) else acc

end Sys2Proof.Machine
end

