-- ==== Sys2Proof/Machine/TrustBase.lean ====
section
/-!
DEFINITION. The history chain (R419). Digests of 32 bytes stand as their little-endian numbers.
-/
namespace Sys2Proof.Machine

/-- An event enters the history chain (R419). -/
def State.record (s : State) (code digest : Nat) : State :=
  { s with boot := { s.boot with
      chain := shake256 (s.boot.chain ++ leBytes 1 code ++ leBytes 32 digest) 64
      chainCount := s.boot.chainCount + 1 } }

/-- The identity of the production of PRM_EPOCH, or 0 (R291, R418). -/
def State.epochIdentity (s : State) : Nat :=
  let copies := [s.ldr.serving, s.ldr.old, s.ldr.recast.map (fun r => r.copy), s.ldr.sealRun.map (fun r => r.copy)].filterMap id
  let known := copies.map (fun c => (c.man.identity, c.man.epoch)) ++ s.ldr.resident
  ((known.find? (fun x => x.2 == s.prm.epoch)).map (fun x => x.1)).getD 0

/-- Latch the state that the next playbill describes (R420). -/
def State.latchPlaybill (s : State) : State :=
  let p : Playbill :=
    { time := s.net.ptpNs, count := s.prm.scCount, epoch := s.prm.epoch, fence := s.fabric.epoch, sheet := s.boot.sheetDigest
      production := s.epochIdentity, chain := s.boot.chain, chainCount := s.boot.chainCount
      rolling := s.ldr.recast.isSome, pack := s.boot.packVersion }
  { s with boot := { s.boot with latched := p } }

end Sys2Proof.Machine
end

