-- ==== Sys2Proof/Machine/Calibration.lean ====
section
/-!
DEFINITION. Calibration (R92 to R103): the commands CAL_RUN, CAL_EXPORT and CAL_IMPORT, the trim accesses, the triggers, the
windows of a run, its fit and its end.
-/
namespace Sys2Proof.Machine

/-- Operands first tile and count in range (R396). -/
def tileRangeOk (e : Entry) : Bool :=
  decide (e.op 8 2 < Config.tiles) && decide (1 ≤ e.op 10 2) && decide (e.op 8 2 + e.op 10 2 ≤ Config.tiles)

/-- CAL_RUN queues a run of the tiles that its operands name (R97, R396). -/
def execCalRun (e : Entry) (s : State) : Host.Outcome State Fault Refusal :=
  runCmd e 0x40 false (fun s =>
    if tileRangeOk e then
      done ((List.range (e.op 10 2)).foldl (fun s i => s.queueRun (e.op 8 2 + i)) s) .ok (leBytes 4 (e.op 10 2))
    else done s .invalid []) s

/-- Bytes 0 to 17 of a tile's calibration record (R102). -/
def State.calHead (s : State) (t : Nat) : List Byte :=
  leBytes 2 t ++ [0xB0] ++ leBytes 1 (s.tile t).trimsValid ++ leBytes 4 (s.reg (tileReg t 0x10C)) ++
    leBytes 8 (s.pair (tileReg t 0x110)) ++ leBytes 2 (unsignedOf 16 (s.tile t).calMean)

/-- The installed trim pair at a place: one that waits for the next MVM (R96), else the one in force. -/
def Tile.installedTrim (x : Tile) (key : Nat) : Nat :=
  match Map.get? x.newTrims key with
  | some w => w.toNat
  | none => trimOf x.trims key

/-- A tile's calibration record (R102). -/
def State.calRecord (s : State) (t : Nat) : List Byte :=
  withCrc (s.calHead t ++ List.replicate 14 0 ++
    ((List.range 16640).map (fun k => leBytes 4 ((s.tile t).installedTrim k))).flatten)

/-- Bytes of a calibration record (R102). -/
def calRecordBytes : Nat := 66596

/-- CAL_EXPORT writes one record per tile at a stride of 66,596 bytes (R102, R396). -/
def execCalExport (e : Entry) (s : State) : Host.Outcome State Fault Refusal :=
  runCmd e 0x41 true (fun s =>
    if tileRangeOk e && bufferOk (e.op 16 8) && decide (e.op 10 2 * calRecordBytes ≤ e.op 24 8) then
      done ((List.range (e.op 10 2)).foldl (fun s i =>
        s.dmaWrite e.tag (e.op 16 8 + calRecordBytes * i) (s.calRecord (e.op 8 2 + i))) s) .ok (leBytes 4 (e.op 10 2))
    else done s .invalid []) s

/-- Why a record for tile `t` is rejected, if it is (R102). -/
def rejectRecord (r : List Byte) (t : Nat) : Option Status :=
  if !crcTrailed r then some .crcFail
  else if fieldAt r 0 2 ≠ t ∨ fieldAt r 2 1 ≠ 0xB0 ∨ (r.drop 18).take 14 ≠ List.replicate 14 0 then some .invalid
  else none

/-- The 16,640 trim pairs of a record (R102), reserved bits of a pair read as CAL_DATA keeps them (R114). -/
def recordTrims (r : List Byte) : List (Nat × Word) :=
  (List.range 16640).map (fun k => (k, BitVec.ofNat 32 (fieldAt r (32 + 4 * k) 4) &&& 0x03FF00FF))

/-- Install an accepted record: trims by R96, TRIMS_VALID, and a run where the half's mean has moved (R102). Bytes 16 and 17 of a
later export are the record's own mean until a run is accepted (DESIGN CHOICE, log 119: R102 names the last accepted run
only). -/
def State.installRecord (s : State) (t : Nat) (r : List Byte) : State :=
  let mean := signedOf 16 (fieldAt r 16 2)
  let s := s.modTile t (fun x => { x with
    newTrims := (recordTrims r).foldl (fun m e => Map.put m e.1 e.2) x.newTrims
    trimsValid := fieldAt r 3 1, calMean := mean })
  if s.meanMoved (halfOf t) (48 * mean) then s.queueRun t else s

/-- What CAL_IMPORT has done so far: state, records installed, and the tile and status of the first record rejected. -/
abbrev Importing := State × Nat × Option (Nat × Status)

/-- One record of CAL_IMPORT, for tile `t` (R102). -/
def importRecord (a : Importing) (t : Nat) (r : List Byte) : Importing :=
  match rejectRecord r t with
  | some st => (a.1, a.2.1, some (a.2.2.getD (t, st)))
  | none => (a.1.installRecord t r, a.2.1 + 1, a.2.2)

/-- CAL_IMPORT takes records in order; a rejected one leaves its tile, and the others are installed. The status is that of
the first rejected record (R102; DEDUCED, log 31). An import that installs a record enters the history chain with the digest of
the imported bytes (R419). -/
def execCalImport (e : Entry) (records : Dma) (s : State) : Host.Outcome State Fault Refusal :=
  runCmd e 0x42 true (fun s =>
    if tileRangeOk e && bufferOk (e.op 16 8) && decide (e.op 10 2 * calRecordBytes ≤ e.op 24 8) then
      withDma records s (fun bs =>
        let go := (List.range (e.op 10 2)).foldl (fun (a : Importing) i =>
          importRecord a (e.op 8 2 + i) (sliceBytes bs (calRecordBytes * i) calRecordBytes)) (s, 0, none)
        let s := if 0 < go.2.1 then go.1.record 0x03 (shake32 (bs.take (e.op 10 2 * calRecordBytes))) else go.1
        match go.2.2 with
        | some (t, st) => done s st (leBytes 4 go.2.1 ++ leBytes 2 t)
        | none => done s .ok (leBytes 4 go.2.1 ++ leBytes 2 0xFFFF))
    else done s .invalid []) s

/-- The trim that CAL_INDEX selects (R113). -/
def State.calSelect (s : State) (t : Nat) : Nat × Nat × Nat :=
  let v := s.reg (tileReg t 0x118)
  (bitsOf v 14 1, bitsOf v 11 3, bitsOf v 0 11)

/-- CAL_INDEX.COLUMN increments, and wraps from 1,039 to 0 (R113). -/
def State.calNext (s : State) (t : Nat) : State :=
  let c := s.field (tileReg t 0x118) 0 11
  s.setField (tileReg t 0x118) 0 11 (if 1039 ≤ c then 0 else c + 1)

/-- Whether a host access reaches a tile's window: it does not while a block reset of the tile or its row lasts, the
router registers of a tile domain under reset apart (R62). -/
def State.windowOpen (s : State) (t off : Nat) : Bool :=
  match (s.tile t).inReset with
  | 0 => true
  | 1 => decide (0x180 ≤ off) && decide (off < 0x1C0)
  | _ => false

/-- A write of CAL_DATA: the selected pair is installed by R96, unless that array is under calibration; then the column
increments (R113, R114). -/
def execCalDataWrite (tile : Nat) (value : Word) (s : State) : Host.Outcome State Fault Refusal :=
  if Config.tiles ≤ tile then .fault .noSuchUnit
  else if !s.windowOpen tile 0x11C then .next s
  else
    let sel := s.calSelect tile
    let busy := match (s.tile tile).calRun with
      | some r => r.arrays.head? == some sel.2.1
      | none => false
    let s := if busy then s else s.modTile tile (fun x => { x with
      newTrims := Map.put x.newTrims (trimKey sel.1 sel.2.1 sel.2.2) (value &&& 0x03FF00FF) })
    .next (s.calNext tile)

/-- A read of CAL_DATA (R113, R114). -/
def execCalDataRead (tile : Nat) (s : State) : Host.Outcome State Fault Refusal :=
  if Config.tiles ≤ tile then .fault .noSuchUnit
  else if !s.windowOpen tile 0x11C then .next { s with outside := { s.outside with readData := 0xFFFFFFFF } }
  else
    let sel := s.calSelect tile
    let v := (s.tile tile).installedTrim (trimKey sel.1 sel.2.1 sel.2.2)
    .next ({ s with outside := { s.outside with readData := v } }.calNext tile)

/-- Whether a trigger of a half is due: its mean has moved by TEMP_STEP, or 24 h have passed (R97). Before the half's first run the
reference is 0 °C and the time counts from 0 (DESIGN CHOICE, log 140). -/
def State.triggerDue (s : State) (h : Nat) : Bool :=
  s.meanMoved h (Map.getD s.calReference h 0) || decide (dayUs ≤ s.integ.clock - Map.getD s.calStart h 0)

/-- A write of CAL_CONFIG; with AUTO_EN 1 both triggers of each half are tested at once (R97, R117). -/
def execAutoEn (value : Word) (s : State) : Host.Outcome State Fault Refusal :=
  let row : RegRow := { base := 0x200, rw := 0x0001001F, guards := [(0, 5, 1, 20)] }
  let s := s.setReg 0x200 (row.written (s.reg 0x200) value.toNat)
  if s.field 0x200 16 1 = 1 then
    .next ((List.range 2).foldl (fun s h => if s.triggerDue h then s.queueHalf h else s) s)
  else .next s

/-- CAL_TRIGGER: the mean of a half's sensors and the 24 h timer are tested while AUTO_EN is 1 (R97). -/
def execCalTrigger (half : Nat) (s : State) : Host.Outcome State Fault Refusal :=
  if 2 ≤ half then .fault .noSuchUnit
  else if s.field 0x200 16 1 = 1 && s.triggerDue half then .next (s.queueHalf half)
  else .next s

/-- Cell of reference column j in a row (R33). -/
def refWeight (j row : Nat) : Int := if j < 4 then 1 else if j < 8 then -1 else if j < 12 then 0 else if row % 2 = 0 then 1 else -1

/-- The rows that a calibration window pulses (R93, R132). Windows come in pairs, an exact and a performance conversion of one
stimulus. The stimulus of window `w` drives the 32 rows of group (w ÷ 2) mod 32, row i of the group where draw i of the
window's key is odd (DESIGN CHOICE, log 118: R93 and R132 fix the key and no more). -/
def calRows (array w : Nat) : List Nat :=
  let key := keyBlock 0 w array (w / 23040) 0x03
  ((List.range 32).filter (fun i => draw key i % 2 == 1)).map (32 * (w / 2 % 32) + ·)

/-- Add the code of a count to a column's parities (R93). -/
def ColFit.parity (f : ColFit) (n : Int) (code : Nat) : ColFit :=
  let k := (n + 32).toNat
  if code % 2 = 1 then { f with odd := Map.put f.odd k (Map.getD f.odd k 0 + 1) }
  else { f with even := Map.put f.even k (Map.getD f.even k 0 + 1) }

/-- Add the residual of a true count to a column's least-squares sums (R93). -/
def ColFit.residual (f : ColFit) (n r : Int) : ColFit :=
  { f with num := f.num + 1, sumN := f.sumN + n, sumNN := f.sumNN + n * n, sumR := f.sumR + r, sumNR := f.sumNR + n * r }

/-- Two passes pooled (R95). -/
def ColFit.pool (f g : ColFit) : ColFit :=
  let join := fun (a b : Map Nat) => b.foldl (fun m e => Map.put m e.1 (Map.getD m e.1 0 + e.2)) a
  { odd := join f.odd g.odd, even := join f.even g.even, num := f.num + g.num, sumN := f.sumN + g.sumN
    sumNN := f.sumNN + g.sumNN, sumR := f.sumR + g.sumR, sumNR := f.sumNR + g.sumNR }

/-- Change what a pass has gathered on the columns of a list (R93). -/
def CalRunState.gather (r : CalRunState) (columns : List Nat) (f : Nat → ColFit → ColFit) : CalRunState :=
  let upd := fun (m : Map ColFit) => columns.foldl (fun m c => Map.put m c (f c (Map.getD m c {}))) m
  if r.window < 23040 then { r with passA := upd r.passA } else { r with passB := upd r.passB }

/-- The columns that take part in calibration: all but the reference columns whose REF_OK bit is 0 (R70, R93). -/
def calColumns (refOk : Nat) : List Nat :=
  (List.range 1040).filter (fun c => decide (c < 1024) || Nat.testBit refOk (c - 1024))

/-- The reference columns that read their factory pattern in a window, as REF_OK (R33, R70). -/
def refReads (counts : List Int) (rows : List Nat) : Nat :=
  ((List.range 16).filter (fun j =>
    decide (counts.getD (1024 + j) 0 = (rows.map (refWeight j)).foldl (· + ·) 0))).foldl (fun m j => m + 2 ^ j) 0

/-- An exact window of a run (R93): it tests the reference columns, and where R75 passes it gathers the parity of each count. REF_OK,
one register of the tile, holds what the latest exact window of the array under calibration gave (DESIGN CHOICE, log 141). -/
def State.calExact (s : State) (t a : Nat) (r : CalRunState) (w : CalWindow) : State :=
  let x := s.tile t
  let vs := x.converted false a w.levels
  let codes := vs.map (codeOf false)
  let counts := codes.map (countOf false)
  let rows := calRows a r.window
  let refOk := refReads counts rows
  let s := s.setReg (tileReg t 0x18) refOk
  let pass := !convOrder.any (flagged false vs) && countSums (counts.take 1024) == storedSums x a rows
  let r' := if pass then r.gather (calColumns refOk) (fun c f => f.parity (counts.getD c 0) (codes.getD c 0)) else r
  s.modTile t (fun x => { x with calRun := some { r' with window := r.window + 1, counts := if pass then counts else [] } })

/-- A performance window of a run: the same stimulus once more, whose residuals it gathers where the exact window gave the true
counts (R93). -/
def State.calPerformance (s : State) (t a : Nat) (r : CalRunState) (w : CalWindow) : State :=
  let vs := (s.tile t).converted true a w.levels
  let r' :=
    if r.counts.isEmpty then r
    else r.gather (calColumns (s.reg (tileReg t 0x18))) (fun c f =>
      let n := r.counts.getD c 0
      f.residual n (countOf true (codeOf true (vs.getD c 0)) - n))
  s.modTile t (fun x => { x with calRun := some { r' with window := r.window + 1, counts := [] } })

/-- One phase window of a tile's run (R93, R94). -/
def State.calWindow (s : State) (t : Nat) (w : CalWindow) : State :=
  match (s.tile t).calRun with
  | none => s
  | some r =>
    match r.arrays.head? with
    | none => s
    | some a =>
      if 46080 ≤ r.window then s
      else
        let s := s.modTile t (fun x => { x with lastArray := a })
        if r.window % 2 = 0 then s.calExact t a r w else s.calPerformance t a r w

/-- Nearest integer of a quotient by a positive divisor, a half upward. -/
def roundDiv (a d : Int) : Int := (2 * a + d).fdiv (2 * d)

/-- A trim pair of a gain and an offset code in the layout of CAL_DATA (R92, R114). -/
def trimWord (g o : Int) : Nat := (clampInt 0 1023 g).toNat * 65536 + unsignedOf 8 (clampInt (-128) 127 o)

/-- Gain and offset code of a trim pair (R92). -/
def trimGain (w : Nat) : Int := bitsOf w 16 10
def trimOffset (w : Nat) : Int := signedOf 8 (bitsOf w 0 8)

/-- The pair of the performance set (R93): with the least-squares line a × n + b of residual over count, the gain in force divided
by 1 + a, and the offset that brings count 0 back to its centre, each at the nearest step (DESIGN CHOICE, log 118). A column without a
residual keeps its pair. -/
def ColFit.performance (f : ColFit) (now : Nat) : Nat :=
  let n : Int := f.num
  let d := n * f.sumNN - f.sumN * f.sumN
  let a := if d = 0 then 0 else n * f.sumNR - f.sumN * f.sumR
  let d := if d = 0 then 1 else d
  let b := f.sumR * d - a * f.sumN
  if n = 0 ∨ d + a ≤ 0 then now
  else trimWord (roundDiv ((3584 + trimGain now) * d) (d + a) - 3584) (roundDiv (trimOffset now * n * d - 32 * b) (n * (d + a)))

/-- Odd and even codes of each count that a column gave. -/
def ColFit.parities (f : ColFit) : List (Nat × Nat × Nat) :=
  (List.range 65).filterMap (fun k =>
    let o := Map.getD f.odd k 0
    let e := Map.getD f.even k 0
    if o = 0 ∧ e = 0 then none else some (k, o, e))

/-- How far odd codes outnumber even ones near count 0, at counts −8 to +8 (R93; what is near is a DESIGN CHOICE, log 118). -/
def offsetExcess (ps : List (Nat × Nat × Nat)) : Int :=
  (ps.filter (fun p => decide (24 ≤ p.1) && decide (p.1 ≤ 40))).foldl (fun v p => v + ((p.2.1 : Int) - p.2.2)) 0

/-- How odd codes outnumber even ones more towards positive counts, each count weighing by its distance from 0 (R93). -/
def gainExcess (ps : List (Nat × Nat × Nat)) : Int :=
  ps.foldl (fun v p => v + ((p.1 : Int) - 32) * ((p.2.1 : Int) - p.2.2)) 0

/-- A trim that is moved against an excess of odd codes, which say that the level is too high: it stays where there is no excess, and
else goes no other way than down for an excess of odd codes and up for one of even codes (R38, R93). -/
def against (excess now fitted : Int) : Int :=
  if excess = 0 then now else if 0 < excess then min now fitted else max now fitted

/-- The pair of the exact set (R93): the pair in force where odd and even codes are equally frequent at every count. Else O is moved
to make them so near count 0, and G to keep them so across the range, which the reference columns of the column's pair anchor; how
far is free (log 118). -/
def ColFit.exact (f : ColFit) (refs : List ColFit) (now : Nat) : Nat :=
  if f.parities.all (fun p => p.2.1 == p.2.2) then now
  else
    let w := Config.exactFit now f.parities (refs.map (fun r => r.parities))
    let anchored := refs.foldl (fun ps r => ps ++ r.parities) f.parities
    trimWord (against (gainExcess anchored) (trimGain now) (trimGain w)) (against (offsetExcess f.parities) (trimOffset now) (trimOffset w))

/-- The reference columns that anchor a column's pair: REF_j is converted by pair 8j (R32, R33, R93). -/
def anchors (refOk c : Nat) (m : Map ColFit) : List ColFit :=
  if c < 1024 ∧ c / 8 % 8 = 0 ∧ Nat.testBit refOk (c / 64) then [Map.getD m (1024 + c / 64) {}] else []

/-- The two pairs that a pass gives for a column of an array (R93). -/
def Tile.fit (x : Tile) (refOk a : Nat) (m : Map ColFit) (c : Nat) : Nat × Nat :=
  ((Map.getD m c {}).exact (anchors refOk c m) (trimOf x.trims (trimKey 0 a c)),
   (Map.getD m c {}).performance (trimOf x.trims (trimKey 1 a c)))

/-- Whether two fits' corrections differ by at most 0.1 count at +FS and −FS, `step` × 4,096 being counts of an offset step
(R92, R95). -/
def fitsAgree (fs step : Int) (a b : Nat) : Bool :=
  let g := trimGain a - trimGain b
  let o := (trimOffset a - trimOffset b) * step
  decide (10 * (g * fs + o).natAbs ≤ 4096) && decide (10 * (o - g * fs).natAbs ≤ 4096)

/-- The two passes agree in every column of both sets (R95). -/
def Tile.fitAccepted (x : Tile) (refOk a : Nat) (r : CalRunState) : Bool :=
  (calColumns refOk).all (fun c =>
    let p := x.fit refOk a r.passA c
    let q := x.fit refOk a r.passB c
    fitsAgree 32 64 p.1 q.1 && fitsAgree 127 128 p.2 q.2)

/-- The array under calibration ends its run: the pooled fit is installed, or the previous trims stay and CAL_DISAGREE is raised
(R95). The half sensor mean of R102 is taken when the fit is accepted (DESIGN CHOICE, log 142). -/
def State.applyFit (s : State) (t a : Nat) (r : CalRunState) : State :=
  let refOk := s.reg (tileReg t 0x18)
  let x := s.tile t
  if x.fitAccepted refOk a r then
    let cs := calColumns refOk
    let m : Map ColFit := cs.foldl (fun m c => Map.put m c ((Map.getD r.passA c {}).pool (Map.getD r.passB c {}))) []
    s.modTile t (fun y => { y with
      newTrims := cs.foldl (fun n c =>
        let p := x.fit refOk a m c
        Map.put (Map.put n (trimKey 0 a c) (BitVec.ofNat 32 p.1)) (trimKey 1 a c) (BitVec.ofNat 32 p.2)) y.newTrims
      trimsValid := y.trimsValid ||| 2 ^ a, calDisagree := clearBits y.calDisagree (2 ^ a)
      calMean := s.halfMean (halfOf t) })
  else
    ((s.modTile t (fun x => { x with calDisagree := x.calDisagree ||| 2 ^ a })).count 42 1).raise srcCalDisagree 1 t []

/-- The run of a tile completes: it is counted and timed, and a pending one starts (R100, R101). -/
def State.endRun (s : State) (t : Nat) : State :=
  let s := s.modTile t (fun x => { x with calRun := none })
  let s := (s.setReg (tileReg t 0x10C) (satAdd 0xFFFFFFFF (s.reg (tileReg t 0x10C)) 1)).setPair (tileReg t 0x110) s.net.ptpNs
  (s.count 41 1).startPending t

/-- A write of FL_CONFIG: FL_HOLD_FORCE 1 enables OFF footlights and holds them; 0 releases this hold only (R68). -/
def execFlHoldForce (tile : Nat) (value : Word) (s : State) : Host.Outcome State Fault Refusal :=
  if Config.tiles ≤ tile then .fault .noSuchUnit
  else if !s.windowOpen tile 0x10 then .next s
  else
    let on := value.toNat % 2
    let s := s.setReg (tileReg tile 0x10) on
    if on = 1 then .next (s.modTile tile (fun x => { x with fl := { x.fl.enable with idle := 0 } })) else .next s

end Sys2Proof.Machine
end

