-- ==== Sys2Proof/Machine/Crypto.lean ====
section
/-!
DEFINITION. What the security unit computes: Ed448 signatures (R290, R409, R413, R420, R421; RFC 8032), X448 (R292, R416; RFC 7748),
AES-256 with the key wrap of RFC 3394 (R292) and with GCM (R293). The rules name these standards by their number and do not repeat
them: what stands here is taken from the standards (PRESUMED, log 3).
-/
namespace Sys2Proof.Machine

/-- The prime 2^448 − 2^224 − 1 of the field. -/
def p448 : Nat := 2 ^ 448 - 2 ^ 224 - 1

/-- `b` to the power `e`, modulo `m`; the first operand bounds the bits of the exponent. -/
def powMod (m : Nat) : Nat → Nat → Nat → Nat
  | 0, _, _ => 1 % m
  | n + 1, b, e => if e % 2 = 1 then b * powMod m n (b * b % m) (e / 2) % m else powMod m n (b * b % m) (e / 2)

/-- The inverse of a field element, 0 of 0. -/
def inv448 (x : Nat) : Nat := powMod p448 448 x (p448 - 2)

/-- A point of the curve of Ed448 in projective coordinates. -/
structure Point where
  x : Nat
  y : Nat
  z : Nat
  deriving DecidableEq, Repr

/-- The neutral point. -/
def Point.zero : Point := ⟨0, 1, 1⟩

/-- The base point. -/
def Point.base : Point :=
  ⟨224580040295924300187604334099896036246789641632564134246125461686950415467406032909029192869357953282578032075146446173674602635247710,
   298819210078481492676017930443930673437544040154080242095928241372331506189835876003536878655418784733982303233503462500531545062832660,
   1⟩

/-- The sum of two points; d is −39081. -/
def Point.add (a b : Point) : Point :=
  let p := p448
  let zz := a.z * b.z % p
  let sq := zz * zz % p
  let c := a.x * b.x % p
  let d := a.y * b.y % p
  let e := 39081 * (c * d % p) % p
  let f := (sq + e) % p
  let g := (sq + p - e) % p
  let h := (a.x + a.y) * (b.x + b.y) % p
  ⟨zz * f % p * ((h + 2 * p - c - d) % p) % p, zz * g % p * ((d + p - c) % p) % p, f * g % p⟩

/-- So many times a point; the first operand bounds the bits of the factor. -/
def Point.mul : Nat → Nat → Point → Point
  | 0, _, _ => Point.zero
  | n + 1, k, a => if k % 2 = 1 then a.add (Point.mul n (k / 2) (a.add a)) else Point.mul n (k / 2) (a.add a)

/-- Whether two points are one. -/
def Point.same (a b : Point) : Bool := a.x * b.z % p448 == b.x * a.z % p448 && a.y * b.z % p448 == b.y * a.z % p448

/-- The 57 bytes of a point. -/
def Point.encode (a : Point) : List Byte :=
  let i := inv448 a.z
  leBytes 57 (a.y * i % p448 + (if a.x * i % p448 % 2 = 1 then 2 ^ 455 else 0))

/-- The point that 57 bytes name, if they name one. -/
def Point.decode (b : List Byte) : Option Point :=
  let p := p448
  let v := leNat b
  let y := v % 2 ^ 455
  let u := (y * y + p - 1) % p
  let w := (p - (39081 * (y * y % p) + 1) % p) % p
  let u3w := u * u % p * u % p * w % p
  let x := u3w * powMod p 448 (u3w * u % p * u % p * w % p * w % p) ((p - 3) / 4) % p
  if b.length ≠ 57 ∨ p ≤ y ∨ w * (x * x % p) % p ≠ u ∨ (x = 0 ∧ 2 ^ 455 ≤ v) then none
  else some ⟨if decide (x % 2 = 1) == decide (2 ^ 455 ≤ v) then x else p - x, y, 1⟩

/-- The order of the base point. -/
def ed448Order : Nat :=
  2 ^ 446 - 13818066809895115352007386748515426880336692474882178609894547503885

/-- ASCII bytes. -/
def ascii (s : String) : List Byte := s.toList.map (fun c => BitVec.ofNat 8 c.toNat)

/-- The hash of Ed448 in pure mode, with a context string: 114 bytes of SHAKE256 over the domain prefix and a message. -/
def ed448Hash (context : String) (m : List Byte) : List Byte :=
  shake256 (ascii "SigEd448" ++ [0] ++ leBytes 1 context.length ++ ascii context ++ m) 114

/-- Whether an Ed448 signature of 114 bytes verifies over a message under a public key of 57 bytes. -/
def ed448Verify (context : String) (key message signature : List Byte) : Bool :=
  match Point.decode key, Point.decode (signature.take 57) with
  | some a, some r =>
    let s := leNat (signature.drop 57)
    let k := leNat (ed448Hash context (signature.take 57 ++ key ++ message)) % ed448Order
    decide (signature.length = 114) && decide (s < ed448Order) &&
      (Point.mul 448 (4 * s) Point.base).same ((Point.mul 448 4 r).add (Point.mul 448 (4 * k) a))
  | _, _ => false

/-- The secret scalar and the prefix of an Ed448 private key of 57 bytes. -/
def ed448Secret (priv : List Byte) : Nat × List Byte :=
  let h := shake256 priv 114
  (leNat (h.take 56) % 2 ^ 447 / 4 * 4 + 2 ^ 447, h.drop 57)

/-- The public key of an Ed448 private key. -/
def ed448Public (priv : List Byte) : List Byte := (Point.mul 448 (ed448Secret priv).1 Point.base).encode

/-- The Ed448 signature of a message. -/
def ed448Sign (context : String) (priv message : List Byte) : List Byte :=
  let s := ed448Secret priv
  let r := leNat (ed448Hash context (s.2 ++ message)) % ed448Order
  let point := (Point.mul 448 r Point.base).encode
  let k := leNat (ed448Hash context (point ++ ed448Public priv ++ message)) % ed448Order
  point ++ leBytes 57 ((r + k * s.1) % ed448Order)

/-- The state of the ladder of X448. -/
structure Ladder where
  x2 : Nat
  z2 : Nat
  x3 : Nat
  z3 : Nat

/-- One step of the ladder for the coordinate `u`, for a bit of the scalar. -/
def Ladder.step (u : Nat) (l : Ladder) (bit : Bool) : Ladder :=
  let p := p448
  let l := if bit then ⟨l.x3, l.z3, l.x2, l.z2⟩ else l
  let a := (l.x2 + l.z2) % p
  let b := (l.x2 + p - l.z2) % p
  let aa := a * a % p
  let bb := b * b % p
  let e := (aa + p - bb) % p
  let da := ((l.x3 + p - l.z3) % p) * a % p
  let cb := ((l.x3 + l.z3) % p) * b % p
  let n : Ladder :=
    ⟨aa * bb % p, e * ((aa + 39081 * e) % p) % p, (da + cb) * (da + cb) % p, u * ((da + p - cb) * (da + p - cb) % p) % p⟩
  if bit then ⟨n.x3, n.z3, n.x2, n.z2⟩ else n

/-- X448 of a private key and a coordinate, 56 bytes each. -/
def x448 (priv coordinate : List Byte) : List Byte :=
  let k := leNat (priv.take 56) % 2 ^ 447 / 4 * 4 + 2 ^ 447
  let u := leNat (coordinate.take 56) % p448
  let l := (List.range 448).foldl (fun (l : Ladder) i => l.step u (k.testBit (447 - i))) ⟨1, 0, u, 1⟩
  leBytes 56 (l.x2 * inv448 l.z2 % p448)

/-- Product of two bytes in the field of AES; the first operand counts the bits that are left. -/
def aesMul : Nat → Nat → Nat → Nat
  | 0, _, _ => 0
  | n + 1, a, b => (if b % 2 = 1 then a else 0) ^^^ aesMul n (if 128 ≤ a then (2 * a) ^^^ 0x11B else 2 * a) (b / 2)

/-- The substitution of AES: the inverse in the field, and the affine map. -/
def aesSub (x : Nat) : Nat :=
  let sq := fun v => aesMul 8 v v
  let inv := (List.range 6).foldl (fun (r : Nat × Nat) _ => (sq r.1, aesMul 8 r.2 (sq r.1))) (sq x, sq x)
  let v := inv.2
  (List.range 5).foldl (fun r i => r ^^^ ((v <<< i ||| v >>> (8 - i)) % 256)) 0x63

/-- The table of the substitution. -/
def aesBox : List Nat := (List.range 256).map aesSub

/-- Bytes combined one by one. -/
def xorBytes (a b : List Nat) : List Nat := List.zipWith (fun x y => x ^^^ y) a b

/-- The round keys of AES-256: 60 words of 4 bytes. -/
def aesKeys (key : List Nat) : List (List Nat) :=
  let first := (List.range 8).map (fun i => (key.drop (4 * i)).take 4)
  (List.range 52).foldl (fun (ws : List (List Nat)) j =>
    let i := j + 8
    let last := ws.getD (i - 1) []
    let sub := fun (w : List Nat) => w.map (fun b => aesBox.getD b 0)
    let t :=
      if i % 8 = 0 then xorBytes (sub (last.drop 1 ++ last.take 1)) [2 ^ (i / 8 - 1), 0, 0, 0]
      else if i % 8 = 4 then sub last else last
    ws ++ [xorBytes (ws.getD (i - 8) []) t]) first

/-- The key of a round, 16 bytes. -/
def aesRoundKey (ws : List (List Nat)) (r : Nat) : List Nat := ((ws.drop (4 * r)).take 4).flatten

/-- The columns of a block mixed by a matrix row. -/
def aesMix (m : List Nat) (b : List Nat) : List Nat :=
  (List.range 16).map (fun i =>
    (List.range 4).foldl (fun v k => v ^^^ aesMul 8 (b.getD (i / 4 * 4 + k) 0) (m.getD ((k + 4 - i % 4) % 4) 0)) 0)

/-- AES-256 of a block of 16 bytes. -/
def aesEncrypt (ws : List (List Nat)) (block : List Nat) : List Nat :=
  (List.range 14).foldl (fun b r =>
    let t := (List.range 16).map (fun i => aesBox.getD (b.getD ((i + 4 * (i % 4)) % 16) 0) 0)
    xorBytes (if r = 13 then t else aesMix [2, 3, 1, 1] t) (aesRoundKey ws (r + 1))) (xorBytes block (aesRoundKey ws 0))

/-- The inverse of AES-256. -/
def aesDecrypt (ws : List (List Nat)) (block : List Nat) : List Nat :=
  (List.range 14).foldl (fun b r =>
    let t := xorBytes ((List.range 16).map (fun i => aesBox.idxOf (b.getD ((i + 12 * (i % 4)) % 16) 0))) (aesRoundKey ws (13 - r))
    if r = 13 then t else aesMix [14, 11, 13, 9] t) (xorBytes block (aesRoundKey ws 14))

/-- Bytes as numbers, and numbers as bytes. -/
def byteNats (b : List Byte) : List Nat := b.map (fun x => x.toNat)
def natBytes (b : List Nat) : List Byte := b.map (BitVec.ofNat 8)

/-- The big-endian number of some bytes, and its bytes. -/
def beNat (b : List Nat) : Nat := b.foldl (fun v x => 256 * v + x) 0
def beBytes (n v : Nat) : List Nat := (byteNats (leBytes n v)).reverse

/-- A key of 32 bytes unwrapped from 40 bytes under a key of 32 bytes, by RFC 3394; `none` where its integrity check fails. -/
def aesUnwrap (kek wrapped : List Byte) : Option (List Byte) :=
  let ws := aesKeys (byteNats kek)
  let c := (List.range 5).map (fun i => (byteNats (wrapped.drop (8 * i))).take 8)
  let r := (List.range 24).foldl (fun (x : List Nat × List (List Nat)) j =>
    let t := 24 - j
    let i := (t - 1) % 4
    let b := aesDecrypt ws (beBytes 8 (beNat x.1 ^^^ t) ++ x.2.getD i [])
    (b.take 8, x.2.set i (b.drop 8))) (c.getD 0 [], c.drop 1)
  if wrapped.length = 40 ∧ r.1 = List.replicate 8 0xA6 then some (natBytes r.2.flatten) else none

/-- Product of two elements of the field of GHASH, bit 127 the first; the first operand counts the bits of `y` that are left. -/
def ghashMul : Nat → Nat → Nat → Nat
  | 0, _, _ => 0
  | n + 1, x, y =>
    (if y.testBit n then x else 0) ^^^ ghashMul n (if x % 2 = 1 then (x / 2) ^^^ (0xE1 <<< 120) else x / 2) y

/-- Some bytes in blocks of 16, the last filled with zeros. -/
def blocks16 (b : List Nat) : List (List Nat) :=
  (List.range (ceilDiv b.length 16)).map (fun i =>
    let x := (b.drop (16 * i)).take 16
    x ++ List.replicate (16 - x.length) 0)

/-- AES-256-GCM: the plaintext of a ciphertext under a key and a 96-bit initialisation vector, and the tag of 16 bytes that its
additional data and it must have. -/
def gcmOpen (key iv aad cipher : List Byte) : List Byte × List Byte :=
  let ws := aesKeys (byteNats key)
  let counter := fun (n : Nat) => aesEncrypt ws (byteNats (iv.take 12) ++ beBytes 4 n)
  let h := beNat (aesEncrypt ws (List.replicate 16 0))
  let a := byteNats aad
  let c := byteNats cipher
  let data := blocks16 a ++ blocks16 c ++ [beBytes 8 (8 * a.length) ++ beBytes 8 (8 * c.length)]
  let mac := data.foldl (fun v b => ghashMul 128 h (v ^^^ beNat b)) 0
  let plain := (List.zip (List.range (ceilDiv c.length 16)) (blocks16 c)).flatMap (fun p => xorBytes p.2 (counter (p.1 + 2)))
  (natBytes (plain.take c.length), natBytes (xorBytes (beBytes 16 mac) (counter 1)))

/-- S of R416, from which every key of the device comes. -/
def Fuses.secret (f : Fuses) : List Byte := shake256 (f.seed ++ f.puf) 64

/-- The Ed448 identity private key, and the X448 private key (R416). -/
def Fuses.idPrivate (f : Fuses) : List Byte := shake256 (f.secret ++ ascii "FQB-IDK") 57
def Fuses.xPrivate (f : Fuses) : List Byte := shake256 (f.secret ++ ascii "FQB-XK") 56

/-- The public keys of the identity record and of the playbill (R417, R420). -/
def Fuses.idPublic (f : Fuses) : List Byte := ed448Public f.idPrivate
def Fuses.xPublic (f : Fuses) : List Byte := x448 f.xPrivate (leBytes 56 5)

/-- The content key that a wrapped key record gives for a production, where the security unit accepts it (R292). -/
def Fuses.unwrap (f : Fuses) (identity : Nat) (record : List Byte) : Option (List Byte) :=
  let e := sliceBytes record 4 56
  let shared := x448 f.xPrivate e
  let kek := shake256 (ascii "FQB-KEK1" ++ shared ++ e ++ f.xPublic ++ leBytes 32 identity ++ record.take 1) 32
  if leNat shared = 0 then none else aesUnwrap kek (sliceBytes record 60 40)

end Sys2Proof.Machine
end

