-- ==== Sys2Proof/Machine/CueParse.lean ====
section
/-!
DEFINITION. Reading a cue sheet from its bytes: the header (R167), the chunks of the body (R168), the section tables (R255, R257),
the slot programs (R160) and the placement records at the head of a tile image (R298). The digest, the CRCs, the lengths and
the reserved fields are computed here; the checks that use them are in Machine/CueCheck.lean. What the chunks of types 3, 4
and 5 hold is in no documented form and comes compiled (log 4).
-/
namespace Sys2Proof.Machine

/-- Whether some bytes are all zero. -/
def allZero (bs : List Byte) : Bool := bs.all (fun b => b == 0)

/-- The chunks of a body (R168): type, bytes 2 to 3, target, stored CRC, payload, and whether the payload is there whole. A body
that ends within a chunk leaves a chunk cut short. -/
def chunkList : Nat → List Byte → List (Nat × Nat × Nat × Nat × List Byte × Bool)
  | 0, _ => []
  | fuel + 1, bs =>
    if bs.isEmpty then []
    else
      let n := fieldAt bs 8 4
      (fieldAt bs 0 2, fieldAt bs 2 2, fieldAt bs 4 4, fieldAt bs 12 4, (bs.drop 16).take n, decide (16 + n ≤ bs.length)) ::
        chunkList fuel (bs.drop (16 + n))

/-- The cue-sheet regions of a tile's SRAM, 0x0_8000 to 0x2_FFFF (R143). -/
def regionBytes : Nat := 163840

/-- Whether a payload has the length that its layout and the section count give (R160, R255, R257, R298). -/
def payloadFits (kind target sections : Nat) (p : List Byte) : Bool :=
  match kind with
  | 1 =>
    if target = 0xFFFFFFFF then p.length == 16 + 32 * fieldAt p 0 2 + 16 * fieldAt p 4 4 && fieldAt p 4 4 == sections
    else p.length == 2 * sections
  | 2 => decide (p.length % 8 = 0) && decide (p.length ≤ 32768)
  | 6 => decide (1024 ≤ p.length) && decide (p.length ≤ regionBytes)
  | _ => true

/-- Whether the reserved fields of a payload are zero (R255, R298); those of slot words are part of a word's legality. -/
def payloadReserved (kind target : Nat) (p : List Byte) : Bool :=
  match kind with
  | 1 =>
    if target = 0xFFFFFFFF then
      let v := fieldAt p 0 2
      fieldAt p 2 2 == 0 && fieldAt p 8 8 == 0 &&
        (List.range v).all (fun i => allZero (sliceBytes p (32 + 32 * i) 16)) &&
        (List.range (fieldAt p 4 4)).all (fun i => allZero (sliceBytes p (16 + 32 * v + 16 * i + 11) 5))
    else true
  | 6 => (List.range 8).all (fun n =>
      let r := sliceBytes p (128 * n) 128
      decide (fieldAt r 6 1 < 2) && fieldAt r 7 1 == 0 && allZero (sliceBytes r 16 16) && allZero (sliceBytes r 96 32))
  | _ => true

/-- Variant record (R255). -/
def readVariant (b : List Byte) : Variant :=
  { capacity := fieldAt b 0 2, seqLimit := fieldAt b 2 2, first := fieldAt b 4 2, count := fieldAt b 6 2, length := fieldAt b 8 4
    interval := fieldAt b 12 4 }

/-- Section record (R255). -/
def readSection (b : List Byte) : Section :=
  { start := fieldAt b 0 4, length := fieldAt b 4 4, layer := fieldAt b 8 2, tag := fieldAt b 10 1 }

/-- Placement record of an array of a position (R298). -/
def readPlacement (tile array : Nat) (b : List Byte) : Placement :=
  { tile := tile, array := array, tensor := fieldAt b 0 2, rowBlock := fieldAt b 2 2, colBlock := fieldAt b 4 2
    reversed := Nat.testBit (fieldAt b 6 1) 0, scaleAddr := fieldAt b 8 4, outlierAddr := fieldAt b 12 4
    slots := (List.range 32).map (fun k => fieldAt b (32 + 2 * k) 2) }

/-- The used placement records of a tile image (R298). -/
def readPlacements (tile : Nat) (p : List Byte) : List Placement :=
  ((List.range 8).map (fun n => readPlacement tile n (sliceBytes p (128 * n) 128))).filter (fun q => q.tensor != 0xFFFF)

/-- Slot words of a payload (R160). -/
def readWords (p : List Byte) : List DWord := (List.range (p.length / 8)).map (fun i => BitVec.ofNat 64 (fieldAt p (8 * i) 8))

/-- A cue sheet read from its bytes (R167, R168). -/
def readSheet (x : SheetIn) : CueSheet :=
  let h := x.bytes.take 256
  let body := x.bytes.drop 256
  let sectionCount := fieldAt h 76 4
  let raw := chunkList (body.length + 1) body
  let payload := fun (kind target : Nat) => (raw.find? (fun c => c.1 == kind && c.2.2.1 == target)).map (fun c => c.2.2.2.2.1)
  let table := (payload 1 0xFFFFFFFF).getD []
  let v := fieldAt table 0 2
  let targets := (raw.filter (fun c => c.1 == 2 || (c.1 == 1 && c.2.2.1 != 0xFFFFFFFF))).foldl
    (fun xs c => insertNat c.2.2.1 xs) []
  let tileImages := raw.filter (fun c => c.1 == 6)
  { magicOk := fieldAt h 0 4 == 0x53435146
    minor := fieldAt h 4 1
    major := fieldAt h 5 1
    headerLen := fieldAt h 6 2
    bodyLen := fieldAt h 8 8
    identity := fieldAt h 16 32
    epoch := fieldAt h 48 4
    flags := fieldAt h 52 1
    budget := fieldAt h 53 1
    members := fieldAt h 54 2
    member := fieldAt h 56 2
    tagCount := fieldAt h 58 2
    lookahead := fieldAt h 60 4
    calPeriod := fieldAt h 64 4
    routeBudget := fieldAt h 68 2
    barrier := fieldAt h 70 2
    callCount := fieldAt h 72 4
    sectionCount := sectionCount
    tags := (List.range 16).map (fun i => (fieldAt h (80 + 4 * i) 1, fieldAt h (82 + 4 * i) 2))
    kvLayout := fieldAt h 144 32
    build := fieldAt h 176 16
    reservedZero := allZero (sliceBytes h 192 32)
    digestOk := fieldAt h 224 32 == leNat (shake256 (h.take 224 ++ body) 32)
    digest := fieldAt h 224 32
    chunks := raw.map (fun c => {
      kind := c.1, target := c.2.2.1, crcOk := c.2.2.2.1 == crc32c c.2.2.2.2.1
      lengthOk := c.2.2.2.2.2 && c.2.1 == 0 && payloadFits c.1 c.2.2.1 sectionCount c.2.2.2.2.1
      reservedOk := payloadReserved c.1 c.2.2.1 c.2.2.2.2.1 })
    variants := (List.range v).map (fun i => readVariant (sliceBytes table (16 + 32 * i) 32))
    sections := (List.range (fieldAt table 4 4)).map (fun i => readSection (sliceBytes table (16 + 32 * v + 16 * i) 16))
    programs := targets.map (fun t => {
      tile := t, words := readWords ((payload 2 t).getD [])
      starts := match payload 1 t with
        | some p => (List.range sectionCount).map (fun i => fieldAt p (2 * i) 2)
        | none => [] })
    calls := x.compiled.calls
    placements := tileImages.flatMap (fun c => readPlacements c.2.2.1 c.2.2.2.2.1)
    images := tileImages.foldl (fun m c => Map.put m c.2.2.1 c.2.2.2.2.1) []
    compiled := x.compiled }

end Sys2Proof.Machine
end

