-- ==== Sys2Proof/Machine/Engine.lean ====
section
/-!
DEFINITION. The tile engine's operations (R120 to R141): MAC issues, scale-add, outliers, the LUT engine, quantisation of a
layer input (R85 to R89), expert selection (R25), softmax triples and the close of a group (R128 to R133). Each acts on a
physical tile, for the scenes of a list.
-/
namespace Sys2Proof.Machine

/-- Open an accumulation group with the key of its close: its lanes start at 0 (R123, R125, R132). -/
def State.openGroup (s : State) (t scene : Nat) (g : GroupSlot) (key : List Byte) : State :=
  s.modTile t (fun x => { x with
    groups := Map.put x.groups g.slot {
      isOpen := true, fp := g.fp, sec := g.sec % 4096, base := g.base, count := g.count, target := g.target, addr := g.addr
      key := key, element := g.element, scene := scene }
    lanes := Map.dropKeys x.lanes (fun l => decide (16 * g.base ≤ l) && decide (l < 16 * (g.base + g.count))) })

/-- Depth K of a MAC issue (R120). -/
def macDepth : MacMode → Nat
  | .int8 => 4
  | .int4x8 => 8
  | .fp8 _ _ => 4
  | .bf16 => 2

/-- Product of two integer operands of a MAC issue (R120). -/
def macInt (int4 : Bool) (a b : Nat) : Int := signedOf (if int4 then 4 else 8) a * signedOf 8 b

/-- Product of two float operands of a MAC issue as an FP32 word (R120). -/
def macFloat (m : MacMode) (a b : Nat) : Nat :=
  match m with
  | .fp8 ae be => rne32 ((if ae then numE5M2 a else numE4M3 a).mul (if be then numE5M2 b else numE4M3 b))
  | _ => rne32 ((num16 a).mul (num16 b))

/-- Element `i` of an operand of a MAC issue in tile SRAM; INT4 elements lie two to a byte, the even one in bits 3:0 (R118). -/
def Tile.macOperand (x : Tile) (m : MacMode) (isA : Bool) (addr i : Nat) : Nat :=
  match m, isA with
  | .int4x8, true => bitsOf (x.sramNat (addr + i / 2) 1) (4 * (i % 2)) 4
  | .bf16, _ => x.sramNat (addr + 2 * i) 2
  | _, _ => x.sramNat (addr + i) 1

/-- The K products that one lane C[i][j] takes in an issue, in ascending k (R121). The spec does not say how the operands lie in tile
SRAM: here A by rows of K elements and B by K rows of four (DESIGN CHOICE, log 117). -/
def Tile.macPairs (x : Tile) (m : MacMode) (a b i j : Nat) : List (Nat × Nat) :=
  (List.range (macDepth m)).map (fun k => (x.macOperand m true a (macDepth m * i + k), x.macOperand m false b (4 * k + j)))

/-- Whether a mode accumulates in compensated lanes (R120). -/
def macIsFloat : MacMode → Bool
  | .int8 => false
  | .int4x8 => false
  | _ => true

/-- What one lane takes in an issue: its products one after the other (R121). An INT32 lane may saturate between two of them
(R122), so each product is an addend of its own. -/
def Tile.macAdds (x : Tile) (m : MacMode) (a b i j lane : Nat) : List (Nat × Addend) :=
  match m with
  | .int8 => (x.macPairs m a b i j).map (fun p => (lane, .int (macInt false p.1 p.2)))
  | .int4x8 => (x.macPairs m a b i j).map (fun p => (lane, .int (macInt true p.1 p.2)))
  | _ => [(lane, .floats ((x.macPairs m a b i j).map (fun p => macFloat m p.1 p.2)))]

/-- One issue of the MAC block on 16 lanes from `lane` on. The spec does not say which lane C[i][j] is: here lane + 4i + j, row
by row, and the operands lie as `Tile.macPairs` has them (DESIGN CHOICE, log 117). -/
def State.macIssue (s : State) (t sec scene lane : Nat) (m : MacMode) (a b : Nat) : State :=
  let x := s.tile t
  s.arrive t { producer := .mac, sec := sec, fp := macIsFloat m, scene := scene
               adds := (List.range 16).flatMap (fun n => x.macAdds m a b (n / 4) (n % 4) (lane + n)) }

/-- A scale-add reaches a compensated lane: hi, then lo (R124). -/
def scaleAddends (n : Int) (a b : Nat) : Addend := .floats (scaleParts n a b)

/-- Ternary weight of a slot row of an outlier area, 2 bits for each column (R85, R300). -/
def Tile.outlierWeight (x : Tile) (area slot c : Nat) : Int :=
  cellWeight (bitsOf (x.sramNat (area + 256 * slot + c / 4) 1) (2 * (c % 4)) 2)

/-- Additions and subtractions of a slot channel's value for a weight of a column (R89); twice for a high slice of INT2. -/
def outlierTerms (v : Nat) (w : Int) (n : Nat) : List Nat :=
  if w = 1 then List.replicate n v else if w = -1 then List.replicate n (v ^^^ 0x80000000) else []

/-- The outlier contribution of a column: its slots in order, with the ternary weight of slot k in array column c from `weight k c`
(R85, R89). -/
def Tile.outlierColumn (x : Tile) (weight : Nat → Nat → Int) (slots : Nat) (int2 : Bool) (xs c : Nat) : List Nat :=
  (List.range slots).flatMap (fun k =>
    let v := x.sramNat (xs + 4 * k) 4
    if int2 then outlierTerms v (weight k (2 * c)) 2 ++ outlierTerms v (weight k (2 * c + 1)) 1 else outlierTerms v (weight k c) 1)

/-- The outlier contributions of consecutive columns of an array reach their lanes (R89). -/
def State.outlierAdd (s : State) (t sec scene lane col count xs slots : Nat) (int2 : Bool) (weight : Nat → Nat → Int) : State :=
  s.arrive t { producer := .mac, sec := sec, fp := true, scene := scene
               adds := (List.range count).map (fun i =>
                 (lane + i, .floats ((s.tile t).outlierColumn weight slots int2 xs (col + i)))) }

/-- Signed weights of a LUT pattern (R134). -/
def patternWeights (t : Nat) : List Int :=
  [(t % 3 : Nat) - 1, (t / 3 % 3 : Nat) - 1, (t / 9 % 3 : Nat) - 1, (t / 27 % 3 : Nat) - 1]

/-- Entry e of the table of four activations: the signed sum of pattern 40 + e (R134). -/
def lutEntry (acts : List Int) (e : Nat) : Int :=
  (List.zip (patternWeights (40 + e)) acts).foldl (fun v p => v + p.1 * p.2) 0

/-- The table of four activations (R134). -/
def lutTable (acts : List Int) : List Int := (List.range 41).map (lutEntry acts)

/-- A lookup of pattern t in a table (R134). -/
def lutLookup (table : List Int) (t : Nat) : Int := if 40 ≤ t then table.getD (t - 40) 0 else -(table.getD (40 - t) 0)

/-- Pattern index of four trits (R134). -/
def patternOf (ws : List Int) : Nat :=
  ((ws.getD 0 0 + 1) + 3 * (ws.getD 1 0 + 1) + 9 * (ws.getD 2 0 + 1) + 27 * (ws.getD 3 0 + 1)).toNat

/-- High and low slices of an INT2 weight (R31). -/
def int2Slices (w : Int) : Int × Int := if w = -2 then (-1, 0) else (0, w)

/-- The lookups of four weights over one table (R136). -/
def lutGroup (int2 : Bool) (table : List Int) (ws : List Int) : Int :=
  if int2 then
    2 * lutLookup table (patternOf (ws.map (fun w => (int2Slices w).1))) +
      lutLookup table (patternOf (ws.map (fun w => (int2Slices w).2)))
  else lutLookup table (patternOf ws)

/-- The lookups of four weights in a format encore: one table of the signed high bytes, one of the unsigned low bytes (R136). -/
def lutGroup16 (int2 : Bool) (high low ws : List Int) : Int := 256 * lutGroup int2 high ws + lutGroup int2 low ws

/-- The tables of four activations: one, or the two of a format encore (R136). -/
def lutTables (fmt16 : Bool) (acts : List Int) : List (List Int) :=
  if fmt16 then [lutTable (acts.map (fun a => a.fdiv 256)), lutTable (acts.map (fun a => a % 256))] else [lutTable acts]

/-- What one lookup group gives from its tables (R136). -/
def lutResult (int2 : Bool) (tables : List (List Int)) (ws : List Int) : Int :=
  match tables with
  | [high, low] => lutGroup16 int2 high low ws
  | ts => lutGroup int2 (ts.headD []) ws

/-- Build the tables of the four activations from element `i` of a vector on, in the table buffer (R135). -/
def State.buildTable (s : State) (t scene table i : Nat) (v : VecRef) : State :=
  let x := s.tile t
  let wide := s.isWide scene v.row v.input
  let ts := lutTables wide ((List.range 4).map (fun k => x.activation wide v.acts v.high (i + k)))
  s.modTile t (fun x => { x with
    tables := (List.zip (List.range ts.length) ts).foldl (fun m p => Map.put m ((table + p.1) % 64) p.2) x.tables })

/-- Sixteen lookups of the table at `table` reach the INT32 lanes from `lane` on; `ws` gives the four weights of column `i`
(R135, R136). -/
def State.lookupAdd (s : State) (t sec scene table lane : Nat) (v : VecRef) (int2 : Bool) (ws : Nat → List Int) : State :=
  let x := s.tile t
  let ts := (if s.isWide scene v.row v.input then [table, table + 1] else [table]).map (fun n => Map.getD x.tables (n % 64) [])
  s.arrive t { producer := .lut, sec := sec, fp := false, scene := scene
               adds := (List.range 16).map (fun i => (lane + i, .int (lutResult int2 ts (ws i)))) }

/-- The column result of a whole MVM on the LUT engine: 256 groups of four rows, each lookup added in turn (R27, R136, R188). -/
def lutColumn (int2 fmt16 : Bool) (acts : List Int) (w : Nat → Int) : Int :=
  (List.range 256).foldl (fun v g =>
    let rows := (List.range 4).map (4 * g + ·)
    signedOf 32 (addInt (lutResult int2 (lutTables fmt16 (rows.map (fun r => acts.getD r 0))) (rows.map w))
      (unsignedOf 32 v)).word) 0

/-- Root mean square of a vector in FP32, the squares summed in a compensated lane in element order (R86, R123; DEDUCED,
log 32). -/
def rms32 (xs : List Nat) : Nat :=
  let l := xs.foldl (fun l x => addCompensated l (fmul x x)) (0, 0)
  fsqrt (fdiv (laneValue l) (rne32 (numInt xs.length)))

/-- The largest magnitude of a vector, as an FP32 word. -/
def amax32 (xs : List Nat) : Nat := xs.foldl (fun m x => fmax m (x % 2 ^ 31)) 0

/-- A finite number at most another; anything with a NaN is not. -/
def numLe (a b : Num) : Bool :=
  match a.add b.neg with
  | .nan => false
  | .inf neg => neg
  | .fin neg m _ => neg || m == 0

/-- The lesser of two numbers. -/
def numMin (a b : Num) : Num := if numLe a b then a else b

/-- The elements of a vector that are not of slot channels (R86). -/
def nonSlot (xs : List Nat) (slotRows : List Nat) : List Nat :=
  ((List.zip (List.range xs.length) xs).filter (fun p => !has slotRows p.1)).map (fun p => p.2)

/-- Whether the quantisation of a vector produces a NaN: in the root mean square or the largest magnitude of its non-slot channels
(R86, R119). -/
def quantiseNan (xs : List Nat) (slotRows : List Nat) : Bool :=
  isNan32 (rms32 (nonSlot xs slotRows)) || (nonSlot xs slotRows).any isNan32

/-- The scale of a vector and its elements by R86, or by R88 where a channel exceeds the range: the BF16 scale, whether the
token takes a format encore, and one integer per channel, 0 for a slot channel. The limit L = K × rms is compared as the exact
product, without a rounding of its own (DEDUCED, log 54). -/
def quantiseVector (xs : List Nat) (slotRows : List Nat) (k : Nat) : Nat × Bool × List Int :=
  let indexed := List.zip (List.range xs.length) xs
  let others := nonSlot xs slotRows
  let amax := num32 (amax32 others)
  let limit := (num16 k).mul (num32 (rms32 others))
  let scale := bf16UpDiv (numMin amax limit) 127
  let exceeds := others.any (fun x => !numLe (num32 (x % 2 ^ 31)) ((numInt 127).mul (num16 scale)))
  let scale' := if exceeds then bf16UpDiv amax 32767 else scale
  let top := if exceeds then 32767 else 127
  (scale', exceeds, indexed.map (fun p => if has slotRows p.1 then 0 else quantNum (num32 p.2) (num16 scale') p.2 top))

/-- A scene row's vector of a layer input takes a format encore, or it takes none (R87, R88). -/
def Scene.setWide (c : Scene) (row input : Nat) (wide : Bool) : Scene :=
  { c with wide := c.wide.filter (fun x => x != (row, input)) ++ (if wide then [(row, input)] else []) }

/-- Quantise a layer input of `n` FP32 elements at `src` into tile SRAM: low bytes, high bytes in a format encore, and the BF16 scale
at `scale` (R86 to R88). A NaN that it produces is noted (R119). -/
def State.quantise (s : State) (t scene src n : Nat) (v : VecRef) (scale : Nat) (slotRows : List Nat) (k : Nat) : State :=
  let xs := (s.tile t).sramNats src 4 n
  let q := quantiseVector xs slotRows k
  let s := s.sramWrite t v.acts (q.2.2.flatMap (fun e => leBytes 1 (unsignedOf 16 e % 256)))
  let s := if q.2.1 then s.sramWrite t v.high (q.2.2.flatMap (fun e => leBytes 1 (unsignedOf 16 e / 256))) else s
  let s := (s.sramWrite t scale (leBytes 2 q.1)).modScene scene (fun c => c.setWide v.row v.input q.2.1)
  if quantiseNan xs slotRows then s.noteNan t scene else s

/-- Order of an expert's score; the place of a NaN is free (log 13). -/
def scoreKey (w : Nat) : Int := if isNan32 w then (Config.nanQuant w : Int) else order32 w

/-- The expert of the highest score among those that remain, the lower index on a tie (R25). -/
def bestExpert (scores : List Nat) (taken : List Nat) : Option Nat :=
  ((List.zip (List.range scores.length) scores).foldl (fun (best : Option (Nat × Int)) p =>
    if has taken p.1 then best
    else
      match best with
      | some (_, v) => if v < scoreKey p.2 then some (p.1, scoreKey p.2) else best
      | none => some (p.1, scoreKey p.2)) none).map (fun b => b.1)

/-- The top k experts, best first (R25). -/
def topExperts (scores : List Nat) : Nat → List Nat → List Nat
  | 0, taken => taken
  | n + 1, taken =>
    match bestExpert scores taken with
    | some e => topExperts scores n (taken ++ [e])
    | none => taken

/-- A triple as FP32 words (R139). -/
structure Tri where
  m : Nat := minusInf
  l : CLane := (0, 0)
  o : List CLane := []

/-- A triple in tile SRAM as it travels through the fabric (R166): a header line with m, l.S and l.E, then eight o lanes to a
line, E in the low and S in the high word (R165). -/
def Tile.tri (x : Tile) (addr dim : Nat) : Tri :=
  { m := x.sramNat addr 4, l := (x.sramNat (addr + 4) 4, x.sramNat (addr + 8) 4)
    o := (List.range dim).map (fun d => (x.sramNat (addr + 68 + 8 * d) 4, x.sramNat (addr + 64 + 8 * d) 4)) }

/-- The bytes of a triple in tile SRAM. -/
def Tri.bytes (t : Tri) : List Byte :=
  leBytes 64 (t.m + t.l.1 * 2 ^ 32 + t.l.2 * 2 ^ 64) ++ t.o.flatMap (fun l => leBytes 8 (packLane l))

/-- An empty triple: m = −infinity, l = 0 and o = 0 (R139). -/
def Tri.isEmpty (t : Tri) : Bool := t.m == minusInf && t.l == (0, 0) && t.o.all (fun l => l == (0, 0))

/-- Scale every lane of a vector (R138); a vector that is empty has lanes 0. -/
def scaleVector (o : List CLane) (dim g : Nat) : List CLane := (List.range dim).map (fun d => scaleLane (o.getD d (0, 0)) g)

/-- Update a triple by a block of scores with their value rows (R139). -/
def Tri.update (t : Tri) (x : List Nat) (v : List (List Nat)) : Tri :=
  let dim := max t.o.length (v.foldl (fun n r => max n r.length) 0)
  let mNew := fmax t.m (x.foldl fmax minusInf)
  let g := if t.m = mNew then one32 else exp32 (fsub t.m mNew)
  let start : Tri := { m := mNew, l := scaleLane t.l g, o := scaleVector t.o dim g }
  (List.zip x v).foldl (fun t xv =>
    let p := exp32 (fsub xv.1 mNew)
    { t with
      l := addCompensated t.l p
      o := (List.range dim).map (fun d => addCompensated (t.o.getD d (0, 0)) (fmul p (xv.2.getD d 0))) }) start

/-- Add the lanes of B to those of A, S first and E second (R140). -/
def addLanes (a b : CLane) : CLane := addCompensated (addCompensated a b.1) b.2

/-- Merge triple B into triple A (R140). -/
def Tri.merge (a b : Tri) : Tri :=
  if a.isEmpty then b
  else if b.isEmpty then a
  else
    let m := fmax a.m b.m
    let ga := exp32 (fsub a.m m)
    let gb := exp32 (fsub b.m m)
    let dim := max a.o.length b.o.length
    { m := m, l := addLanes (scaleLane a.l ga) (scaleLane b.l gb)
      o := (List.zip (scaleVector a.o dim ga) (scaleVector b.o dim gb)).map (fun p => addLanes p.1 p.2) }

/-- Write a triple to tile SRAM; a NaN in its sums is noted (R119, R143). -/
def State.setTri (s : State) (t scene addr : Nat) (v : Tri) : State :=
  let s := s.sramWrite t addr v.bytes
  if isNan32 v.l.1 || v.o.any (fun l => isNan32 l.1) then s.noteNan t scene else s

/-- The output elements of a triple as FP32 words (R141). -/
def Tri.outputs (t : Tri) : List Nat := t.o.map (fun o => fdiv (laneValue o) (laneValue t.l))

/-- Close a list of values, each an FP lane or an INT32 lane, into consecutive elements from `addr` on; the first has index
`element` within the vector that its site closes (R128 to R133). -/
def State.closeInto (s : State) (t scene addr : Nat) (target : CloseTarget) (fp : Bool) (key : List Byte) (element : Nat)
    (ws : List Nat) : State :=
  let cs := (List.zip (List.range ws.length) ws).map (fun p => closeLane target fp p.2 (draw key (element + p.1)))
  let s := s.sramWrite t addr (cs.flatMap (fun c => leBytes (closeBytes target) c.word))
  let s := if cs.any (fun c => c.sat) then s.orReg (tileReg t 0x144) 0x2 else s
  if cs.any (fun c => c.nan) then s.noteNan t scene else s

/-- Elements of a triple's output, closed as the cue sheet names (R141). -/
def State.outputTri (s : State) (t scene tri dim addr : Nat) (target : CloseTarget) (key : List Byte) (element : Nat) : State :=
  s.closeInto t scene addr target true key element (((s.tile t).tri tri dim).outputs.map (fun w => packLane (w, 0)))

/-- The close cycle of a group has come: it takes no contribution after this cycle, and drains (R127, R128). -/
def State.beginClose (s : State) (t slot : Nat) : State :=
  s.modTile t (fun x =>
    match Map.get? x.groups slot with
    | some g => if g.isOpen && g.draining.isNone then { x with groups := Map.put x.groups slot { g with draining := some 0 } } else x
    | none => x)

/-- One stage cycle of a draining group: 16 lanes leave in ascending order, and the slot and its lanes are free after the last
(R128). -/
def State.drainGroup (s : State) (t slot : Nat) (g : AccGroup) (n : Nat) : State :=
  let ws := (List.range 16).map (fun i => (s.tile t).lane (16 * (g.base + n) + i))
  let s := s.closeInto t g.scene (g.addr + 16 * n * closeBytes g.target) g.target g.fp g.key (g.element + 16 * n) ws
  let last := decide (g.count ≤ n + 1)
  s.modTile t (fun x => { x with
    groups := Map.put x.groups slot { g with isOpen := !last, draining := if last then none else some (n + 1) }
    lanes := if last then Map.dropKeys x.lanes (fun l => decide (16 * g.base ≤ l) && decide (l < 16 * (g.base + g.count)))
             else x.lanes })

/-- The draining groups of a tile in one stage cycle (R128). -/
def State.drainGroups (s : State) (t : Nat) : State :=
  (s.tile t).groups.foldl (fun s e =>
    match e.2.draining with
    | some n => s.drainGroup t e.1 e.2 n
    | none => s) s

/-- What the scrubber's access to the next SRAM word does: 0 sound, 1 corrected, any other uncorrectable, as a word that read so
before still is; a full pass is counted (R144, R145). -/
def State.scrubWord (s : State) (tile ecc : Nat) : State :=
  let word := (s.tile tile).scrubAt
  let last := decide (word + 1 = 12288)
  let s := s.modTile tile (fun x => { x with scrubAt := if last then 0 else word + 1 })
  let s := if last then s.setField (tileReg tile 0x16C) 0 16 (satAdd 0xFFFF (s.field (tileReg tile 0x16C) 0 16) 1) else s
  if has (s.tile tile).badWords word || decide (1 < ecc) then s.sramUe tile word s.flight
  else if ecc = 1 then s.sramCe tile word
  else s

end Sys2Proof.Machine
end

