-- ==== Sys2Proof/Machine/Router.lean ====
section
/-!
DEFINITION. The routers and wings in scheduled cycles (R154 to R166, R171, R182 to R184): slot words, the sequencer, the router
ALU, hop timing, delay lines and understudy lanes. A link is held at its receiving end: each router lists the flits on their
way to its input registers with the scheduled cycle of their capture. An output register or delay line is held with the cycle
in which the flit leaves. A lane flit is held with the cycle that sends it and the cycle in which it leaves the lane, between
which it advances a column each cycle.
-/
namespace Sys2Proof.Machine

/-- Source codes of inputs (R160): north, east, south, west, local, X. -/
def codeN : Nat := 1
def codeE : Nat := 2
def codeS : Nat := 3
def codeW : Nat := 4
def codeL : Nat := 5
def codeX : Nat := 7

/-- Code under which an edge router lists a flit on its way to the wing of its row end (R154, R171). -/
def codeWing : Nat := 8

/-- The output opposite to an input (R163): N to S, S to N, E to W, W to E, X to X across the seam. -/
def opposite (c : Nat) : Nat :=
  if c = codeN then codeS else if c = codeS then codeN else if c = codeE then codeW else if c = codeW then codeE else c

/-- The section, format, barrier and valid bits of a sideband (R156). -/
def flitSec (f : Flit) : Nat := bitsOf f.side 17 12
def flitFp (f : Flit) : Bool := Nat.testBit f.side 29
def flitBarrier (f : Flit) : Bool := Nat.testBit f.side 30
def flitValid (f : Flit) : Bool := Nat.testBit f.side 31

/-- Change one router. -/
def State.modRouter (s : State) (t : Nat) (f : Router → Router) : State := s.modTile t (fun x => { x with router := f x.router })

/-- Put a flit on its way to an input of a router, to be captured in cycle `at_` (R159). With VALID 0 it is an idle link cycle
(R156). -/
def State.toInput (s : State) (t code at_ : Nat) (f : Flit) : State :=
  if flitValid f then s.modRouter t (fun r => { r with inbox := r.inbox ++ [(code, at_, f)] }) else s

/-- Change a row end's wing. -/
def State.modWing (s : State) (r : Nat) (f : Wing → Wing) : State :=
  { s with fabric := { s.fabric with wings := Map.put s.fabric.wings r (f (Map.getD s.fabric.wings r {})) } }

/-- Where a flit that leaves an output of a router in cycle `at_`, the one after its direct selection, is captured: tile, input code
and cycle. The next router captures it one cycle later, or two across the seam; a row-end link brings it to its wing (R154,
R155, R159). A port that is not connected leads nowhere. -/
def linkEnd (t out at_ : Nat) : Option (Nat × Nat × Nat) :=
  let row := rowOf t
  let col := colOf t
  if out = codeN then (if row = 0 then none else some (t - 66, codeS, at_ + (if row = 80 then 2 else 1)))
  else if out = codeS then (if row = 159 then none else some (t + 66, codeN, at_ + (if row = 79 then 2 else 1)))
  else if out = codeE then (if col = 65 then some (t, codeWing, at_ + 1) else some (t + 1, codeW, at_ + 1))
  else if out = codeW then (if col = 0 then some (t, codeWing, at_ + 1) else some (t - 1, codeE, at_ + 1))
  else if out = codeX then
    (if row = 79 then some (t + 66, codeX, at_ + 2) else if row = 80 then some (t - 66, codeX, at_ + 2) else none)
  else none

/-- A flit leaves an output of a router in cycle `at_` (R159). -/
def State.outHop (s : State) (t out at_ : Nat) (f : Flit) : State :=
  match linkEnd t out at_ with
  | some e => s.toInput e.1 e.2.1 e.2.2 f
  | none => s

/-- The wing of a row end, row × 2 + side, at a tile of column 0 or 65 (R157). -/
def rowEndOf (t : Nat) : Nat := 2 * rowOf t + (if colOf t = 0 then 0 else 1)

/-- The edge tile of a row end. -/
def edgeTile (rowEnd : Nat) : Nat := rowEnd / 2 * Config.cols + (if rowEnd % 2 = 0 then 0 else 65)

/-- HBM stack that serves a row end (R157). -/
def stackOfRowEnd (rowEnd : Nat) : Nat :=
  let row := rowEnd / 2
  let k := if row ≤ 26 then 0 else if row ≤ 53 then 1 else if row ≤ 79 then 2 else if row ≤ 106 then 3 else if row ≤ 133 then 4 else 5
  k + 6 * (rowEnd % 2)

/-- The entries of wing programs that the running sections give a row end at a counter value, each with its scene (R171). -/
def State.wingSlots (s : State) (rowEnd at_ : Nat) : List (WingLine × Nat) :=
  match s.fabric.active with
  | none => []
  | some c => s.fabric.running.flatMap (fun r =>
      (c.compiled.wingLines.filter (fun l => l.rowEnd == rowEnd && l.sec == r.index && l.at_ + r.start == at_)).map (fun l =>
        (l, r.scene)))

/-- A flit reaches the wing of a row end: a barrier flit's token leaves the schedule there, and another flit fills the line of the
outbound store that the wing program names for the cycle (R171, R173, R179). -/
def State.wingTake (s : State) (rowEnd now : Nat) (f : Flit) : State :=
  if flitBarrier f then { s with fabric := { s.fabric with tokens := s.fabric.tokens ++ [(rowEnd, f.payload % 2 ^ 64)] } }
  else
    match (s.wingSlots rowEnd now).find? (fun l => !l.1.inbound) with
    | some (l, scene) => s.modWing rowEnd (fun w => { w with
        outbound := w.outbound ++ [{ line := l.line, dest := l.other, scene := scene, data := leBytes 64 f.payload }] })
    | none => s

/-- Where the local output of a position goes in a cycle, by its engine program: the destination, and the scene that runs it. -/
abbrev LocalSlot := Option (LocalDest × Nat)

/-- A flit is delivered to the engine that serves a position: 16 INT32 or 8 compensated lanes of its section's group, or 64
bytes of SRAM (R126, R154, R165, R184). One for which the engine program has no place is dropped. -/
def State.deliver (s : State) (home : Nat) (slot : LocalSlot) (f : Flit) : State :=
  let t := s.servingTile home
  match slot with
  | none => s
  | some (.sram a, _) => s.sramWrite t a (leBytes 64 f.payload)
  | some (.lanes lane, scene) =>
    s.arrive t { producer := .router, sec := flitSec f, fp := flitFp f, scene := scene
                 adds :=
                   if flitFp f then (List.range 8).map (fun i => (lane + i, .lane (bitsOf f.payload (64 * i) 64)))
                   else (List.range 16).map (fun i => (lane + i, .int (signedOf 32 (bitsOf f.payload (32 * i) 32)))) }

/-- A row end's key of the lane toward the understudy that serves a position (R181, R183). -/
def laneOf (under : Nat) : Nat := rowEndOf under

/-- Change the flits of the understudy lane of a position (R181). -/
def State.modSubLanes (s : State) (under : Nat) (f : List LaneFlit → List LaneFlit) : State :=
  { s with fabric := { s.fabric with lanes := Map.put s.fabric.lanes (laneOf under) (f (Map.getD s.fabric.lanes (laneOf under) [])) } }

/-- A flit enters a sub-lane of a position's understudy lane in the present cycle, and leaves it in cycle `due` (R181, R183). -/
def State.toLane (s : State) (home : Nat) (way : LaneWay) (sub due : Nat) (f : Flit) : State :=
  if flitValid f then
    s.modSubLanes (s.servingTile home) (fun l => l ++ [{
      home := home, way := way, sub := sub, entry := s.fabric.counter, due := due, flit := f }])
  else s

/-- The lane distance d: columns between a position's home and an understudy (R183). -/
def laneDistance (home under : Nat) : Nat := (colOf home - colOf under) + (colOf under - colOf home)

/-- Physical column at which a flit of a lane is: a column further in each cycle behind a cycle at the end tap, and at the far end
for the rest of its time (R181, R183). -/
def LaneFlit.column (l : LaneFlit) (under now : Nat) : Nat :=
  let d := laneDistance l.home under
  let out := min d (now - l.entry - 1)
  let off := match l.way with
    | .inject => d
    | .out => out
    | .copy => out
    | .back => min d (l.due - 2 - now)
  if colOf under ≤ colOf l.home then colOf l.home - off else colOf l.home + off

/-- Whether a flit of a lane comes out at its end in a cycle, by its way. -/
def LaneFlit.ends (l : LaneFlit) (home now : Nat) (input : Bool) : Bool :=
  l.home == home && l.due == now &&
    (match l.way with
     | .inject => input
     | .copy => false
     | _ => !input)

/-- The flits of a position that are through their lane leave it: its injections with the inputs of a cycle, the others with its
outputs (R184). -/
def State.passLane (s : State) (home now : Nat) (input : Bool) : State :=
  s.modSubLanes (s.servingTile home) (fun l => l.filter (fun x => x.home != home || (x.way == .inject) != input || decide (now < x.due)))

/-- The flits that leave the outputs of a position in a cycle, by output code. One that its understudy lane returns replaces any
straight flit on the same output (R163, R184). -/
def State.leaving (s : State) (home now : Nat) : List (Nat × Flit) :=
  let back := ((Map.getD s.fabric.lanes (laneOf (s.servingTile home)) []).filter (fun l => l.ends home now false)).map (fun l =>
    (l.sub, l.flit))
  let own := ((s.tile home).router.delay.filter (fun d => d.2.1 == now)).map (fun d => (d.1, d.2.2))
  back ++ own.filter (fun o => !back.any (fun b => b.1 == o.1))

/-- The flits whose delay line, lane or output register ends in a cycle leave their outputs (R159, R163, R184). -/
def State.drainDelay (s : State) (home now : Nat) (slot : LocalSlot) : State :=
  let out := s.leaving home now
  let s := s.modRouter home (fun r => { r with delay := r.delay.filter (fun d => decide (now < d.2.1)) })
  let s := s.passLane home now false
  out.foldl (fun s d => if d.1 = codeL then s.deliver home slot d.2 else s.outHop home d.1 now d.2) s

/-- JUMP words are resolved before the next SWITCH word takes effect; END ends the section (R161, R162). The words and the four
counters have fewer than 2^80 states, so a run of JUMP words that outlasts the fuel never ends. -/
def resolveSlots (slots : Map DWord) : Nat → Sequencer → Sequencer
  | 0, r => { r with idle := true }
  | fuel + 1, r =>
    let w := (Map.getD slots r.pc 0).toNat
    match bitsOf w 62 2 with
    | 0 => if bitsOf w 48 14 = 0 then { r with idle := true } else { r with repeatLeft := bitsOf w 48 14 }
    | 1 =>
      let c := bitsOf w 60 2
      let target := bitsOf w 48 12
      let count := bitsOf w 32 16
      let next := { r with pc := (r.pc + 1) % 4096 }
      match Map.get? r.counters c with
      | none =>
        if count = 1 then resolveSlots slots fuel next
        else resolveSlots slots fuel { r with pc := target, counters := Map.put r.counters c (count - 2) }
      | some n =>
        if 0 < n then resolveSlots slots fuel { r with pc := target, counters := Map.put r.counters c (n - 1) }
        else resolveSlots slots fuel { next with counters := Map.erase r.counters c }
    | _ => { r with idle := true }

/-- States of a sequencer, an upper bound: 4,096 addresses and four counters of 65,537 states (R161). -/
def jumpFuel : Nat := 2 ^ 80

/-- The sequencer at the SWITCH word of the present cycle, or idle (R161, R162). -/
def Sequencer.fetch (q : Sequencer) (slots : Map DWord) : Sequencer :=
  if q.idle || decide (0 < q.repeatLeft) then q else resolveSlots slots jumpFuel q

/-- The sequencer behind one cycle of its SWITCH word (R160). -/
def Sequencer.advance (q : Sequencer) : Sequencer :=
  if q.idle then q
  else { q with repeatLeft := q.repeatLeft - 1, pc := if q.repeatLeft = 1 then (q.pc + 1) % 4096 else q.pc }

/-- A sequencer starts a section at an address; 0xFFFF gives it none (R162, R257). -/
def Sequencer.start (q : Sequencer) (at_ : Nat) : Sequencer :=
  if at_ = 0xFFFF then q else { q with pc := at_, idle := false, repeatLeft := 0 }

/-- Factor that marks an empty triple in a merge context: the other operand passes unchanged (R140). -/
def emptyFactor : Nat := 2 ^ 32

/-- Header of the merged triple, with the scale factors of A and B (R140, R165). -/
def mergeHeader (a b : Nat) : Nat × Nat × Nat :=
  let ta : Tri := { m := bitsOf a 0 32, l := (bitsOf a 32 32, bitsOf a 64 32) }
  let tb : Tri := { m := bitsOf b 0 32, l := (bitsOf b 32 32, bitsOf b 64 32) }
  if ta.isEmpty then (b, emptyFactor, one32)
  else if tb.isEmpty then (a, one32, emptyFactor)
  else
    let t := ta.merge tb
    let m := fmax ta.m tb.m
    (t.m + t.l.1 * 2 ^ 32 + t.l.2 * 2 ^ 64, exp32 (fsub ta.m m), exp32 (fsub tb.m m))

/-- One merge of o lanes under the factors of a context (R140, R165). -/
def mergeLane (g : Nat × Nat) (a b : CLane) : CLane :=
  if g.1 = emptyFactor then b
  else if g.2 = emptyFactor then a
  else addLanes (scaleLane a g.1) (scaleLane b g.2)

/-- Lane-wise operation on payloads of `n` lanes of `w` bits. -/
def laneWise (n w : Nat) (f : Nat → Nat → Nat) (a b : Nat) : Nat :=
  (List.range n).foldl (fun p i => p + (f (bitsOf a (w * i) w) (bitsOf b (w * i) w) % 2 ^ w) * 2 ^ (w * i)) 0

/-- Result of the router ALU and the merge contexts after it (R165); `none` for operands that do not match. -/
def routerAlu (op ctx : Nat) (contexts : Map (Nat × Nat)) (a b : Flit) : Option (Flit × Map (Nat × Nat)) :=
  if flitSec a ≠ flitSec b ∨ flitFp a ≠ flitFp b ∨ flitFp a ≠ decide (2 ≤ op) then none
  else
    match op with
    | 1 => some ({ a with payload := laneWise 16 32 (fun x y => (addInt (signedOf 32 y) x).word) a.payload b.payload }, contexts)
    | 2 =>
      let p := laneWise 8 64 (fun x y => packLane (addLanes (unpackLane x) (unpackLane y))) a.payload b.payload
      some ({ a with payload := p }, contexts)
    | 3 =>
      let h := mergeHeader a.payload b.payload
      some ({ a with payload := h.1 }, Map.put contexts ctx h.2)
    | 4 =>
      let g := Map.getD contexts ctx (one32, one32)
      let p := laneWise 8 64 (fun x y => packLane (mergeLane g (unpackLane x) (unpackLane y))) a.payload b.payload
      some ({ a with payload := p }, contexts)
    | _ => some (a, contexts)

/-- One output of a SWITCH word: its source's flit leaves directly in the next cycle, or by the delay line 133 cycles later (R159,
R160, R163). In RELAY mode a local output and an output whose source is local take the lane (R184); in BYPASS mode the lane
returns the outputs of station hops, and the others are the straight flits (R184). -/
def State.selectOutput (s : State) (home now out nibble : Nat) (source : Nat → Option Flit) : State :=
  match source (nibble % 8) with
  | none => s
  | some f =>
    match (s.tile home).router.mode with
    | .bypass => if 8 ≤ nibble then s.toLane home .back out (now + 133) f else s
    | .relay =>
      if out = codeL ∨ nibble % 8 = codeL then s.toLane home (if out = codeL then .out else .back) out (now + 133) f
      else s.modRouter home (fun r => { r with delay := r.delay ++ [(out, now + (if 8 ≤ nibble then 133 else 1), f)] })
    | .normal => s.modRouter home (fun r => { r with delay := r.delay ++ [(out, now + (if 8 ≤ nibble then 133 else 1), f)] })

/-- Every incoming flit is forwarded straight across, with the hop timing of R159 (R184). -/
def State.forwardStraight (s : State) (home now : Nat) (here : List (Nat × Nat × Flit)) : State :=
  s.modRouter home (fun r => { r with delay := r.delay ++ here.map (fun i => (opposite i.1, now + 1, i.2.2)) })

/-- In BYPASS mode the row link domain copies every incoming flit into the matching sub-lane, which brings it to the station unit
(R181, R184). -/
def State.copyInputs (s : State) (home now : Nat) (here : List (Nat × Nat × Flit)) : State :=
  here.foldl (fun s i => s.toLane home .copy i.1 (now + laneDistance home (s.servingTile home) + 2) i.2.2) s

/-- A router at a row end: physical columns 0 and 65 (R154). A slot program targets home tiles only (R168), so these routers have
none; they forward every incoming flit straight across, as R159's table has column 0 do (DESIGN CHOICE, log 149). -/
def isEdge (t : Nat) : Bool := colOf t == 0 || colOf t == 65

/-- The sequencer that runs a position's slot program: its home router's, or in BYPASS mode that of the station unit of the
understudy (R182, R184). -/
def State.sequencer (s : State) (home : Nat) : Sequencer × Map DWord :=
  match (s.tile home).router.mode with
  | .bypass => let r := (s.tile (s.servingTile home)).router; (r.stn, r.station)
  | _ => let r := (s.tile home).router; (r.seq, r.slots)

/-- Change the sequencer that runs a position's slot program. -/
def State.setSequencer (s : State) (home : Nat) (q : Sequencer) : State :=
  match (s.tile home).router.mode with
  | .bypass => s.modRouter (s.servingTile home) (fun r => { r with stn := q })
  | _ => s.modRouter home (fun r => { r with seq := q })

/-- The tile whose router or station unit runs a position's slot program (R182, R185). -/
def State.switchTile (s : State) (home : Nat) : Nat :=
  match (s.tile home).router.mode with
  | .bypass => s.servingTile home
  | _ => home

/-- The ALU of a SWITCH word takes its operands (R165). A mismatched pair passes operand A and raises ACC_FORMAT_MISMATCH at the
router or station unit that runs the word (R165, R185, R198). -/
def State.aluWord (s : State) (home : Nat) (q : Sequencer) (w : Nat) (source : Nat → Option Flit) (scenes : List Nat) : State :=
  let op := bitsOf w 44 4
  match source (bitsOf w 41 3), source (bitsOf w 38 3) with
  | some a, some b =>
    if op = 0 then s.setSequencer home { q with alu := none }
    else
      match routerAlu op (bitsOf w 36 2) q.contexts a b with
      | some (f, ctx) => s.setSequencer home { q with alu := some f, contexts := ctx }
      | none =>
        let t := s.switchTile home
        ((s.setSequencer home { q with alu := some a }).orReg (tileReg t 0x184) 0x4).raise srcAccFormat 1 t scenes
  | _, _ => s.setSequencer home { q with alu := none }

/-- The flits at a position's inputs in a cycle: the captured ones, and in RELAY and BYPASS mode the local one that its lane
carries (R159, R184). -/
def State.inputs (s : State) (home now : Nat) : List (Nat × Nat × Flit) :=
  let mine := (s.tile home).router.inbox.filter (fun i => i.2.1 == now)
  let lane := (Map.getD s.fabric.lanes (laneOf (s.servingTile home)) []).filter (fun l => l.ends home now true)
  mine ++ lane.map (fun l => (codeL, l.due, l.flit))

/-- The outputs of a SWITCH word: code and bit position of the nibble (R160). -/
def outNibbles : List (Nat × Nat) := [(codeN, 32), (codeE, 28), (codeS, 24), (codeW, 20), (codeL, 16), (codeX, 12)]

/-- One scheduled cycle of a position's router (R159 to R166): what leaves its outputs, the flits captured now, the sequencer, the
outputs and the ALU. -/
def State.routerCycle (s : State) (home : Nat) (slot : LocalSlot) (scenes : List Nat) : State :=
  let now := s.fabric.counter
  let s := s.drainDelay home now slot
  let here := s.inputs home now
  let s := s.modRouter home (fun r => { r with inbox := r.inbox.filter (fun i => decide (now < i.2.1)) })
  let s := s.passLane home now true
  let s := (here.filter (fun i => i.1 == codeWing)).foldl (fun s i => s.wingTake (rowEndOf home) now i.2.2) s
  let here := here.filter (fun i => i.1 != codeWing)
  let outer := here.filter (fun i => i.1 != codeL)
  let s := if (s.tile home).router.mode = .bypass then (s.forwardStraight home now outer).copyInputs home now outer
    else if isEdge home then s.forwardStraight home now outer
    else s
  let q := (s.sequencer home).1.fetch (s.sequencer home).2
  let source := fun (c : Nat) => if c = 6 then q.alu else (here.find? (fun i => i.1 == c)).map (fun i => i.2.2)
  if q.idle then s.setSequencer home { q with alu := none }
  else
    let w := (Map.getD (s.sequencer home).2 q.pc 0).toNat
    let s := outNibbles.foldl (fun s o => s.selectOutput home now o.1 (bitsOf w o.2 4) source) s
    s.aluWord home q.advance w source scenes

/-- A flit that the engine of a position injects is in the home router's local input register a cycle later, or in the lane that
carries it there from an understudy (R159, R184). -/
def State.injectFlit (s : State) (home : Nat) (f : Flit) : State :=
  if s.servingTile home = home then s.toInput home codeL (s.fabric.counter + 1) f
  else s.toLane home .inject codeL (s.fabric.counter + 1) f

/-- A wing drives its row-end link with a line: the flit leaves with the data that the line holds, its ready bit clears, and the
edge router captures it a cycle later (R159, R171). -/
def State.wingDrive (s : State) (l : WingLine) : State :=
  let w := Map.getD s.fabric.wings l.rowEnd {}
  if !has w.ready l.line then s
  else
    let f : Flit := { side := l.side, payload := leNat (Map.getD w.lines l.line []) }
    let s := s.modWing l.rowEnd (fun w => { w with ready := without w.ready l.line, lines := Map.erase w.lines l.line })
    s.toInput (edgeTile l.rowEnd) (if l.rowEnd % 2 = 0 then codeW else codeE) (s.fabric.counter + 1) f

/-- A slot-memory error of a router: corrected, or uncorrectable, which raises ROUTER_FAULT (R195, R198, R199). -/
def State.slotError (s : State) (t addr : Nat) (ue : Bool) : State :=
  let o := tileReg t 0x188
  let s := s.setField o 0 12 (addr % 4096)
  if ue then ((s.orReg o 0x8000).orReg (tileReg t 0x184) 0x2).raise srcRouterFault 1 t s.flight
  else ((s.setField o 16 16 (satAdd 0xFFFF (s.field o 16 16) 1)).orReg (tileReg t 0x184) 0x1).raise srcSlotCe 1 t []

end Sys2Proof.Machine
end

