-- ==== Sys2Proof/Machine/CueCheck.lean ====
section
/-!
DEFINITION. The checks of CUESHEET_LOAD in their order (R169): format, digest, clock dependence, chunks, slot conflicts (R34,
R125, R162, R257), footlight leads (R55), route budget (R163), encore budget (R78), calibration slots (R98) and wing capacity
(R175). What the manual does not document of an engine or wing program stands as the schedule that it compiles to (log 4).
-/
namespace Sys2Proof.Machine

/-- The tile number that a failure without a tile reports (R203). -/
def noTile : Nat := 0x3FFF

/-- A logical position's home tile: physical columns 1 to 64 (R168). -/
def isHome (t : Nat) : Bool := decide (t < Config.tiles) && decide (1 ≤ colOf t) && decide (colOf t ≤ 64)

/-- FORMAT (0x01; R4, R167). -/
def formatOk (c : CueSheet) (length : Nat) : Bool :=
  c.magicOk && decide (c.headerLen = 256) && decide (c.major = 3) && decide (c.minor ≤ 1) &&
    decide (256 + c.bodyLen = length) && decide (1 ≤ c.members) && decide (c.members ≤ 1024) &&
    decide (c.member < c.members) && decide (1 ≤ c.tagCount) && decide (c.tagCount ≤ 16) &&
    decide (2048 ≤ c.lookahead) && decide (c.lookahead ≤ 262144) && has [64, 128, 256, 512, 1024] c.barrier &&
    decide (1 ≤ c.sectionCount) && decide (c.sectionCount ≤ 65535) && decide (c.flags < 8) && c.reservedZero

/-- A chunk's own checks (R168). -/
def chunkOk (k : Chunk) : Bool :=
  k.crcOk && k.lengthOk &&
    (match k.kind with
     | 1 => k.target == 0xFFFFFFFF || isHome k.target
     | 4 => decide (k.target < 320)
     | 2 => isHome k.target
     | 3 => isHome k.target
     | 5 => isHome k.target
     | 6 => isHome k.target
     | _ => false)

/-- CHUNK (0x04; R168). -/
def chunksOk (c : CueSheet) : Bool :=
  c.chunks.all chunkOk &&
    c.chunks.all (fun k => decide ((c.chunks.filter (fun j => j.kind == k.kind && j.target == k.target)).length = 1)) &&
    c.chunks.any (fun k => k.kind == 1 && k.target == 0xFFFFFFFF) && decide (c.sections.length = c.sectionCount) &&
    decide (c.calls.length = c.callCount)

/-- A legal slot word of a router of a row (R160 to R162). -/
def wordOk (row w : Nat) : Bool :=
  match bitsOf w 62 2 with
  | 0 => decide (1 ≤ bitsOf w 48 14) && decide (bitsOf w 44 4 ≤ 4) && decide (bitsOf w 0 8 = 0) &&
      (decide (bitsOf w 12 4 = 0) || row == 79 || row == 80)
  | 1 => decide (1 ≤ bitsOf w 32 16) && decide (bitsOf w 0 32 = 0)
  | 2 => decide (bitsOf w 0 62 = 0)
  | _ => false

/-- At most four JUMP words in a row (R161). -/
def jumpsOk : Nat → List DWord → Bool
  | _, [] => true
  | n, w :: ws => if bitsOf w.toNat 62 2 = 1 then (decide (n < 4) && jumpsOk (n + 1) ws) else jumpsOk 0 ws

/-- Slot words by address. -/
def wordMap (words : List DWord) : Map DWord := List.zip (List.range words.length) words

/-- Whether a program that starts at an address ends in END within a number of SWITCH cycles (R162). The words and the counters
have fewer than 2^80 states, so one that outlasts the fuel never ends. -/
def endsWithin (words : List DWord) : Nat → Nat → Nat → Map Nat → Bool
  | 0, _, _, _ => false
  | fuel + 1, pc, left, ctr =>
    match words[pc]? with
    | none => false
    | some w =>
      let w := w.toNat
      match bitsOf w 62 2 with
      | 0 => decide (bitsOf w 48 14 ≤ left) && endsWithin words fuel (pc + 1) (left - bitsOf w 48 14) ctr
      | 1 =>
        let i := bitsOf w 60 2
        let target := bitsOf w 48 12
        let count := bitsOf w 32 16
        match Map.get? ctr i with
        | none =>
          if count = 1 then endsWithin words fuel (pc + 1) left ctr
          else endsWithin words fuel target left (Map.put ctr i (count - 2))
        | some n =>
          if 0 < n then endsWithin words fuel target left (Map.put ctr i (n - 1))
          else endsWithin words fuel (pc + 1) left (Map.erase ctr i)
      | 2 => true
      | _ => false

/-- The sections of a variant, by number (R255). -/
def variantSections (v : Variant) : List Nat := (List.range v.count).map (v.first + ·)

/-- Two spans that do not meet. -/
def apart (a b : Nat × Nat) : Bool := decide (a.2 ≤ b.1) || decide (b.2 ≤ a.1)

/-- Span of a section within its scene (R255). -/
def sectionSpan (c : CueSheet) (i : Nat) : Nat × Nat :=
  match c.sections[i]? with
  | some x => (x.start, x.start + x.length)
  | none => (0, 0)

/-- Spans of one tile, by section, that never meet within a scene of any variant, nor with those of a later scene, which may
start at any counter value from the initiation interval on (R162, R256, R257). -/
def spansOk (c : CueSheet) (spans : List (Nat × Nat × Nat)) : Bool :=
  c.variants.all (fun v =>
    let mine := spans.filter (fun s => has (variantSections v) s.1)
    let numbered := List.zip (List.range mine.length) mine
    numbered.all (fun a => numbered.all (fun b => a.1 == b.1 || apart a.2.2 b.2.2)) &&
      mine.all (fun a => spans.all (fun b => decide (a.2.2 ≤ v.interval + b.2.1))))

/-- A LAYER code of a section: a layer, the embedding, the LM head, a speculative head, or none (R132, R255, R258). -/
def layerOk (v : Nat) : Bool := decide (v < 512) || (decide (0xFFF0 ≤ v) && decide (v ≤ 0xFFF5)) || v == 0xFFFF

/-- Section table ranges (R255). -/
def tableOk (c : CueSheet) : Bool :=
  c.sections.all (fun x => layerOk x.layer) &&
  decide (1 ≤ c.variants.length) && decide (c.variants.length ≤ 16) &&
    c.variants.all (fun v => decide (64 ≤ v.capacity) && decide (v.capacity ≤ 8192) && decide (v.capacity % 64 = 0) &&
      decide (1 ≤ v.seqLimit) && decide (v.seqLimit ≤ 256) && decide (1 ≤ v.count) && decide (v.first + v.count ≤ c.sections.length) &&
      (variantSections v).all (fun i => decide ((sectionSpan c i).2 ≤ v.length))) &&
    (List.zip c.variants (c.variants.drop 1)).all (fun p => decide (p.1.capacity < p.2.capacity))

/-- A router program without conflict (R160 to R162, R257): legal words, an END in time, spans apart. -/
def programOk (c : CueSheet) (p : SlotProgram) : Bool :=
  let used := (List.range c.sections.length).filter (fun i => decide (p.starts.getD i 0xFFFF ≠ 0xFFFF))
  decide (p.words.length ≤ 4096) && p.words.all (fun w => wordOk (rowOf p.tile) w.toNat) && jumpsOk 0 p.words &&
    used.all (fun i =>
      let len := (sectionSpan c i).2 - (sectionSpan c i).1
      decide (p.starts.getD i 0 < 4096) && endsWithin p.words jumpFuel (p.starts.getD i 0) len []) &&
    spansOk c (used.map (fun i => (i, sectionSpan c i)))

/-- Base window of an MVM in stage cycles (R47). -/
def baseWindow (c : CueSheet) (m : MvmSlot) : Nat :=
  if Nat.testBit c.flags 1 then (if m.groupRows = 0 then 0 else 1024 / m.groupRows * 8 * 64) else 16384

/-- Phase windows of an MVM within its scene: base window and encore reserve (R34, R79). -/
def mvmSpan (c : CueSheet) (m : MvmSlot) : Nat × Nat :=
  let s := (sectionSpan c m.sec).1 + m.start
  (s, s + baseWindow c m + 768)

/-- Greatest common divisor of the calibration period and the initiation intervals: scenes that start at their initiation
intervals (R256, R257) start at multiples of it, modulo the period. -/
def startGrid (c : CueSheet) : Nat := c.variants.foldl (fun g v => Nat.gcd g v.interval) c.calPeriod

/-- Whether a position's calibration slots miss a span of every scene, for scenes that start at initiation intervals from S = 0 on
(R34, R98, R257; DEDUCED, log 33): the slot, taken modulo the grid of the starts, lies apart from the span. -/
def calClear (c : CueSheet) (offset : Nat) (s : Nat × Nat) : Bool :=
  let g := startGrid c
  if g = 0 then true
  else
    let d := (s.1 + (g - offset % g)) % g
    decide (4096 ≤ d) && decide (d + (s.2 - s.1) ≤ g)

/-- Slots of a tile's MVMs without conflict (R34, R36). -/
def mvmsOk (c : CueSheet) (t : Nat) : Bool :=
  let mine := c.compiled.mvms.filter (fun m => m.tile == t)
  mine.all (fun m => decide (m.array < 8) && decide (m.sec < c.sections.length) &&
      (!Nat.testBit c.flags 1 || has [64, 128, 256] m.groupRows)) &&
    spansOk c (mine.map (fun m => (m.sec, mvmSpan c m))) &&
    (match Map.get? c.compiled.calOffsets t with
     | some o => mine.all (fun m => calClear c o (mvmSpan c m))
     | none => true)

/-- Lane span of a group. -/
def groupLanes (g : GroupSlot) : Nat × Nat := (16 * g.base, 16 * (g.base + g.count))

/-- Open span of a group within its scene, its drain included (R128). -/
def groupSpan (c : CueSheet) (g : GroupSlot) : Nat × Nat :=
  ((sectionSpan c g.sec).1 + g.opens, (sectionSpan c g.sec).1 + g.closes + g.count)

/-- Two groups that may be open together: other slot, other lanes, and other tags (R125, R257). -/
def groupsApart (a b : GroupSlot) : Bool :=
  a.slot != b.slot && apart (groupLanes a) (groupLanes b) && a.sec % 4096 != b.sec % 4096

/-- Sections of a variant with their starts, for a scene that starts at a counter value. -/
def placedSections (c : CueSheet) (v : Variant) (start : Nat) : List (Nat × Nat) :=
  (variantSections v).map (fun i => (i, start + (sectionSpan c i).1))

/-- A contribution to the group of a section: tile, tag, counter value and format (R126). -/
structure Contribution where
  tile : Nat
  tag : Nat
  at_ : Nat
  fp : Bool

/-- The format of what an action of an engine program sends to lanes; `none` for an action that sends nothing there (R126). -/
def workSends : Work → Option Bool
  | .mac _ mode _ _ => some (macIsFloat mode)
  | .scaleAdd _ _ _ _ => some true
  | .scaleColumn _ _ _ _ _ _ => some true
  | .outlier _ _ _ _ _ _ => some true
  | .addTriple _ _ _ => some true
  | .lookup _ _ _ _ _ _ _ _ => some false
  | _ => none

/-- What the engine programs and the array deliveries of sections send to groups, for sections with their starts (R126). -/
def contributions (c : CueSheet) (secs : List (Nat × Nat)) : List Contribution :=
  secs.flatMap (fun x =>
    (c.compiled.acts.filter (fun a => a.sec == x.1)).filterMap (fun a =>
      (workSends a.work).map (fun fp => { tile := a.tile, tag := a.sec % 4096, at_ := x.2 + a.at_, fp := fp })) ++
    (c.compiled.mvms.filter (fun m => m.sec == x.1)).map (fun m =>
      { tile := m.tile, tag := m.sec % 4096, at_ := x.2 + m.deliver, fp := false }))

/-- Whether a contribution comes while the group of its section is open with the other format (R125, R127). -/
def wrongFormat (c : CueSheet) (secs : List (Nat × Nat)) (k : Contribution) : Bool :=
  secs.any (fun x => c.compiled.groups.any (fun g =>
    g.sec == x.1 && g.tile == k.tile && g.sec % 4096 == k.tag && decide (x.2 + g.opens ≤ k.at_) && decide (k.at_ ≤ x.2 + g.closes) &&
      g.fp != k.fp))

/-- Accumulation groups of a tile without conflict, within a scene of a variant and with the scenes that may start from its
initiation interval on (R125, R257). -/
def groupsOk (c : CueSheet) (t : Nat) : Bool :=
  let mine := c.compiled.groups.filter (fun g => g.tile == t)
  let numbered := List.zip (List.range mine.length) mine
  mine.all (fun g => decide (g.slot < 8) && decide (1 ≤ g.count) && decide (g.base + g.count ≤ 128)) &&
    c.variants.all (fun v =>
      let here := numbered.filter (fun g => has (variantSections v) g.2.sec)
      here.all (fun a => here.all (fun b =>
          a.1 == b.1 || apart (groupSpan c a.2) (groupSpan c b.2) || groupsApart a.2 b.2)) &&
        here.all (fun a => mine.all (fun b =>
          decide ((groupSpan c a.2).2 ≤ v.interval + (groupSpan c b).1) || groupsApart a.2 b))) &&
    c.variants.all (fun v =>
      let secs := placedSections c v 0
      !(contributions c secs).any (fun k => k.tile == t && wrongFormat c secs k))

/-- The tiles that a cue sheet's slots name. -/
def sheetTiles (c : CueSheet) : List Nat :=
  ((c.programs.map (fun p => p.tile)) ++ (c.compiled.mvms.map (fun m => m.tile)) ++
    (c.compiled.groups.map (fun g => g.tile))).foldl (fun xs t => insertNat t xs) []

/-- Where the flits of a cue sheet are at a scheduled cycle, by their sidebands alone (R164): the sequencers, the flits on their way
to inputs (tile, code, cycle of capture) and in outputs (tile, output code, cycle in which they leave), the flits delivered to
engines, and the first tile with a conflict. -/
structure Walk where
  seqs : Map Sequencer := []
  ins : List (Nat × Nat × Nat × Flit) := []
  outs : List (Nat × Nat × Nat × Flit) := []
  locals : List (Nat × Nat × Flit) := []
  bad : Option Nat := none

/-- Note a conflict at a tile; the first one stays. -/
def Walk.note (w : Walk) (ok : Bool) (t : Nat) : Walk := if ok || w.bad.isSome then w else { w with bad := some t }

/-- The input that feeds an output straight through (R163). -/
def straightOf (out : Nat) : Nat := opposite out

/-- Bit of BARRIER_OUT for an output (R160). -/
def barrierBit (out : Nat) : Option Nat :=
  if out = codeN then some 11 else if out = codeE then some 10 else if out = codeS then some 9 else if out = codeW then some 8 else none

/-- A flit on an output: one with BARRIER 1 leaves only in a barrier slot, and another never does (R180). The slot is that of the
word in force in the cycle before the flit leaves: a direct flit's selecting word, and for a flit of the delay line the word
in force at its exit, not the one that selected it; where no section runs, there is no slot (DESIGN CHOICE, log 150). -/
def barrierOk (word out : Nat) (f : Flit) : Bool :=
  match barrierBit out with
  | some b => Nat.testBit word b == flitBarrier f
  | none => true

/-- The flits that leave the outputs of a tile in the next cycle agree with the barrier slots of a word (R180). -/
def Walk.barriers (w : Walk) (t now word : Nat) : Walk :=
  w.note ((w.outs.filter (fun o => o.1 == t && o.2.2.1 == now + 1)).all (fun o => barrierOk word o.2.1 o.2.2.2)) t

/-- One router in one scheduled cycle: every source that its word selects is there, every flit at its inputs is selected, and
barrier flits and slots agree (R164, R180). -/
def Walk.router (w : Walk) (p : SlotProgram) (slots : Map DWord) (now : Nat) : Walk :=
  let here := w.ins.filter (fun i => i.1 == p.tile && i.2.2.1 == now && i.2.1 != codeWing)
  let q := (Map.getD w.seqs p.tile {}).fetch slots
  if q.idle then
    (({ w with seqs := Map.put w.seqs p.tile { q with alu := none } }).note here.isEmpty p.tile).barriers p.tile now 0
  else
    let word := (Map.getD slots q.pc 0).toNat
    let source := fun (c : Nat) => if c = 6 then q.alu else (here.find? (fun i => i.2.1 == c)).map (fun i => i.2.2.2)
    let chosen := outNibbles.filterMap (fun o => let n := bitsOf word o.2 4; if n % 8 = 0 then none else some (o.1, n))
    let ops := if bitsOf word 44 4 = 0 then [] else [bitsOf word 41 3, bitsOf word 38 3]
    let used := chosen.map (fun x => x.2 % 8) ++ ops
    let leave := chosen.filterMap (fun x => (source (x.2 % 8)).map (fun f => (p.tile, x.1, now + (if 8 ≤ x.2 then 133 else 1), f)))
    let alu := if ops.isEmpty then none else source (bitsOf word 41 3)
    let ok := used.all (fun c => c == 6 || c == 0 || here.any (fun i => i.2.1 == c)) && here.all (fun i => has used i.2.1)
    (({ w with outs := w.outs ++ leave, seqs := Map.put w.seqs p.tile { q.advance with alu := alu } }).note ok p.tile).barriers
      p.tile now word

/-- A router at a row end forwards every flit straight across (log 149). -/
def Walk.edges (w : Walk) (now : Nat) : Walk :=
  let here := w.ins.filter (fun i => isEdge i.1 && i.2.2.1 == now && i.2.1 != codeWing && i.2.1 != codeL)
  { w with outs := w.outs ++ here.map (fun i => (i.1, opposite i.2.1, now + 1, i.2.2.2)) }

/-- The flits whose output ends in a cycle move on; two on one output are a delay-line exit with a direct selection (R164). -/
def Walk.move (w : Walk) (now : Nat) : Walk :=
  let out := w.outs.filter (fun o => o.2.2.1 == now)
  let w := { w with
    outs := w.outs.filter (fun o => decide (now < o.2.2.1))
    ins := w.ins.filter (fun i => decide (now ≤ i.2.2.1)) ++
      out.filterMap (fun o => (linkEnd o.1 o.2.1 now).map (fun e => (e.1, e.2.1, e.2.2, o.2.2.2)))
    locals := w.locals ++ (out.filter (fun o => o.2.1 == codeL)).map (fun o => (o.1, now, o.2.2.2)) }
  out.foldl (fun w o =>
    w.note (decide ((out.filter (fun x => x.1 == o.1 && x.2.1 == o.2.1)).length = 1)) o.1) w

/-- Flits that engines inject and wings emit in a cycle, for sections with their starts (R159, R171). -/
def emitted (c : CueSheet) (secs : List (Nat × Nat)) (now : Nat) : List (Nat × Nat × Nat × Flit) :=
  secs.flatMap (fun x =>
    c.compiled.acts.filterMap (fun a =>
      match a.work with
      | .inject side _ => if a.sec = x.1 ∧ a.at_ + x.2 = now then some (a.tile, codeL, now + 1, { side := side, payload := 0 }) else none
      | _ => none) ++
    c.compiled.wingLines.filterMap (fun l =>
      if l.inbound ∧ l.sec = x.1 ∧ l.at_ + x.2 = now then
        some (edgeTile l.rowEnd, if l.rowEnd % 2 = 0 then codeW else codeE, now + 1, { side := l.side, payload := 0 })
      else none))

/-- One scheduled cycle of the walk (R162, R164): sections start, flits move, every router runs its word. A flit at a home tile
without a program is one that no word selects. -/
def Walk.cycle (c : CueSheet) (programs : List (SlotProgram × Map DWord)) (secs : List (Nat × Nat)) (w : Walk) (now : Nat) : Walk :=
  if w.bad.isSome then w
  else
    let starting := (secs.filter (fun x => x.2 == now)).map (fun x => x.1)
    let w : Walk := { w with seqs := programs.foldl (fun (m : Map Sequencer) (p : SlotProgram × Map DWord) =>
      starting.foldl (fun (m : Map Sequencer) i => Map.put m p.1.tile ((Map.getD m p.1.tile {}).start (p.1.starts.getD i 0xFFFF))) m) w.seqs }
    let w : Walk := w.move now
    let w : Walk := { w with ins := w.ins ++ (emitted c secs now).filter (fun i => flitValid i.2.2.2) }
    let w : Walk := programs.foldl (fun w p => w.router p.1 p.2 now) (w.edges now)
    match w.ins.find? (fun i => i.2.2.1 == now && i.2.1 != codeWing && !isEdge i.1 && !programs.any (fun p => p.1.tile == i.1)) with
    | some i => w.note false i.1
    | none => w

/-- What the routers deliver to groups in a walk: each flit at the place that its engine program gives the local output in that
cycle, with the tag and format of its sideband (R126, R154). -/
def Walk.contributions (w : Walk) (c : CueSheet) (secs : List (Nat × Nat)) : List Contribution :=
  w.locals.filterMap (fun d =>
    let lanes := secs.any (fun x => c.compiled.acts.any (fun a =>
      a.tile == d.1 && a.sec == x.1 && x.2 + a.at_ == d.2.1 &&
        (match a.work with
         | .receive (.lanes _) => true
         | _ => false)))
    if lanes then some { tile := d.1, tag := flitSec d.2.2, at_ := d.2.1, fp := flitFp d.2.2 } else none)

/-- Cycles for which a flit may stay in routers behind the end of a scene, an upper bound on one delay line and its hops. -/
def walkTail : Nat := 400

/-- Where a scene of a variant, with one of another that starts `later` cycles behind it, meets a conflict of R125, R164 or R180, if
it does. -/
def walkFail (c : CueSheet) (v u : Variant) (later : Nat) : Option Nat :=
  let programs := c.programs.map (fun p => (p, wordMap p.words))
  let secs := placedSections c v 0 ++ placedSections c u later
  let w := (List.range (max v.length (later + u.length) + walkTail)).foldl (fun (w : Walk) n => w.cycle c programs secs n) {}
  if w.bad.isSome then w.bad
  else ((w.contributions c secs).find? (fun k => wrongFormat c secs k)).map (fun k => k.tile)

/-- Where two scenes in flight meet a conflict, if they do: the second starts at any counter value from the first one's initiation
interval on, until nothing of the first is left (R256). -/
def pairFail (c : CueSheet) (v u : Variant) : Option Nat :=
  (List.range (v.length + walkTail - v.interval + 1)).findSome? (fun n => walkFail c v u (v.interval + n))

/-- Where flits conflict, if they do, over every two variants (R125, R164, R180, R257). Two flits, or a flit and a section, make a
conflict, so that the scenes in flight are checked in pairs: each two of them start an initiation interval or more apart (R256).
A cue sheet that sends no flit has none. -/
def flitConflict (c : CueSheet) : Option Nat :=
  let quiet := !c.programs.any (fun p => !p.words.isEmpty) && c.compiled.wingLines.isEmpty &&
    !c.compiled.acts.any (fun a => match a.work with
      | .inject _ _ => true
      | _ => false)
  if quiet then none else c.variants.findSome? (fun v => c.variants.findSome? (fun u => pairFail c v u))

/-- Where SLOT_CONFLICT fails, if it does (0x05). A range of the section table and a reserved field of any chunk are chunk-level
failures, which report no tile, whatever the chunk's target is (DESIGN CHOICE, log 153). -/
def slotConflict (c : CueSheet) : Option Nat :=
  if !tableOk c || !c.chunks.all (fun k => k.reservedOk) then some noTile
  else
    match (sheetTiles c).find? (fun t =>
      !((c.programs.filter (fun p => p.tile == t)).all (programOk c)) || !mvmsOk c t || !groupsOk c t) with
    | some t => some t
    | none => flitConflict c

/-- Whether some call leads an MVM of a scene that starts at S = 0 by 37,500 cycles and holds to the end of its reserve (R55;
DEDUCED, log 33). -/
def leadOk (c : CueSheet) (m : MvmSlot) : Bool :=
  c.calls.any (fun k => k.tile == m.tile && decide (k.act + 37500 ≤ (mvmSpan c m).1) && decide ((mvmSpan c m).2 ≤ k.until_))

/-- VIA_DELAY on exactly the outputs of station hops (R163): an output takes the input opposite to it without delay, any other
source through the delay line, and an idle one has VIA_DELAY 0. The spec does not say whether a flit's straight output is an
output of a station hop where the same word also delivers the flit locally or gives it to the ALU; here it is not, and has
VIA_DELAY 0 (DESIGN CHOICE, log 123). -/
def delayOk (w : Nat) : Bool :=
  outNibbles.all (fun o =>
    let nibble := bitsOf w o.2 4
    nibble == 0 || (nibble % 8 != 0 && (if nibble % 8 = straightOf o.1 ∧ o.1 ≠ codeL then decide (nibble < 8) else decide (8 ≤ nibble))))

/-- Where the route budget fails, if it does (0x07; R163). -/
def budgetFail (c : CueSheet) : Option Nat :=
  if c.routeBudget ≠ 132 then some noTile
  else
    (c.programs.find? (fun p => !p.words.all (fun w => bitsOf w.toNat 62 2 != 0 || delayOk w.toNat))).map (fun p => p.tile)

/-- Where calibration slots fail, if they do (0x09; R98). -/
def calSlotFail (c : CueSheet) : Option Nat :=
  if c.calPeriod < 65536 ∨ 16777216 < c.calPeriod then some noTile
  else
    (((c.placements.map (fun p => p.tile)) ++ (c.compiled.mvms.map (fun m => m.tile)) ++ Map.keys c.compiled.calOffsets).find?
      (fun t => match Map.get? c.compiled.calOffsets t with
      | some o => decide (c.calPeriod < o + 4096)
      | none => true))

/-- Counter value at which a wing line is driven or received in a scene that starts at S = 0 (R171). -/
def wingTime (c : CueSheet) (l : WingLine) : Nat := (sectionSpan c l.sec).1 + l.at_

/-- The row ends that a cue sheet's wing programs name. -/
def sheetRowEnds (c : CueSheet) : List Nat := c.compiled.wingLines.foldl (fun xs l => insertNat l.rowEnd xs) []

/-- Lines that a wing holds for a scene of a variant, `age` − L cycles behind the scene's start: inbound lines issued at T − L and not
yet emitted, and outbound lines filled then, which drain at once as their transfers complete at once (R175; DEDUCED, log 53). -/
def wingHeld (c : CueSheet) (v : Variant) (rowEnd age : Nat) : Nat :=
  (c.compiled.wingLines.filter (fun y => y.rowEnd == rowEnd && has (variantSections v) y.sec &&
    (if y.inbound then decide (wingTime c y ≤ age) && decide (age < wingTime c y + c.lookahead)
     else wingTime c y + c.lookahead == age))).length

/-- The most lines that a wing holds for scenes in flight together whose ages are below a bound, behind it the same for each lower
bound: either none has the greatest age, or one of some variant has it and the others start from its initiation interval on
(R175, R256). -/
def wingMost (c : CueSheet) (rowEnd : Nat) : Nat → List Nat
  | 0 => []
  | n + 1 =>
    let rest := wingMost c rowEnd n
    c.variants.foldl (fun m v => max m (wingHeld c v rowEnd n + rest.getD (v.interval - 1) 0)) (rest.headD 0) :: rest

/-- Where wing capacity fails, if it does (0x0A; R175): over all the scenes that may be in flight together and all counter values. -/
def wingFail (c : CueSheet) : Option Nat :=
  let ages := c.variants.foldl (fun m v => max m v.length) 0 + c.lookahead + 1
  ((sheetRowEnds c).find? (fun r => decide (4096 < (wingMost c r ages).headD 0))).map edgeTile

/-- The first check of R169 that fails: its code and tile. -/
def sheetCheck (c : CueSheet) (length : Nat) : Option (Nat × Nat) :=
  if !formatOk c length then some (0x01, noTile)
  else if !c.digestOk then some (0x02, noTile)
  else if c.flags % 2 = 0 then some (0x03, noTile)
  else if !chunksOk c then some (0x04, noTile)
  else
    match slotConflict c with
    | some t => some (0x05, t)
    | none =>
      match c.compiled.mvms.find? (fun m => !leadOk c m) with
      | some m => some (0x06, m.tile)
      | none =>
        match budgetFail c with
        | some t => some (0x07, t)
        | none =>
          if c.budget ≠ 4 then some (0x08, noTile)
          else
            match calSlotFail c with
            | some t => some (0x09, t)
            | none => (wingFail c).map (fun t => (0x0A, t))

end Sys2Proof.Machine
end

