-- ==== Sys2Proof/Machine/Packet.lean ====
section
/-!
DEFINITION. Frames on the wire (R338, R342, R345, R349, R354): Ethernet with its FCS, VLAN tag, IPv4 and IPv6, UDP; what a received frame is
by its headers; and the way out of a port by traffic class (R342, R343).
-/
namespace Sys2Proof.Machine

/-- A number in `n` bytes, most significant first, as the fields of network headers are. -/
def netBytes (n v : Nat) : List Byte := (leBytes n v).reverse

/-- A field of a network header. -/
def netField (b : List Byte) (off n : Nat) : Nat := leNat (sliceBytes b off n).reverse

/-- The frame check sequence of IEEE 802.3: CRC-32 of the polynomial 0x04C1_1DB7, reflected. -/
def crc32 (bs : List Byte) : Nat :=
  bs.foldl (fun c b => crcBits 0xEDB88320 8 (c ^^^ b.toNat)) 0xFFFFFFFF ^^^ 0xFFFFFFFF

/-- A frame with the FCS that the device appends (R349). -/
def withFcs (frame : List Byte) : List Byte := frame ++ leBytes 4 (crc32 frame)

/-- The ones' complement sum of the 16-bit words of some bytes. -/
def onesSum (bs : List Byte) : Nat :=
  (List.range ((bs.length + 1) / 2)).foldl (fun n i =>
    let t := n + netField bs (2 * i) 2
    t % 65536 + t / 65536) 0

/-- The internet checksum of some bytes. -/
def inetChecksum (bs : List Byte) : Nat := 65535 - onesSum bs

/-- A value of `bits` bits that a header carries and the spec does not give (log 154). -/
def openField (kind x bits : Nat) : Nat :=
  leNat ((List.range 4).map (fun i => Config.openByte kind (4 * x + i))) % 2 ^ bits

/-- Where a UDP datagram goes and how it is marked (R342, R345, R354, R356). -/
structure Datagram where
  v6 : Bool
  srcMac : List Byte
  dstMac : List Byte
  srcIp : List Byte
  dstIp : List Byte
  srcPort : Nat
  dstPort : Nat
  pcp : Nat
  dscp : Nat
  ecn : Nat

/-- The Ethernet header with its VLAN tag. The VLAN and the drop-eligible bit are open (log 154). -/
def Datagram.ethernet (d : Datagram) : List Byte :=
  d.dstMac ++ d.srcMac ++ netBytes 2 0x8100 ++ netBytes 2 (d.pcp * 2 ^ 13 + openField 0x700 d.srcPort 13) ++
    netBytes 2 (if d.v6 then 0x86DD else 0x0800)

/-- The UDP datagram: its checksum is zero over IPv4, and computed over IPv6 (R354). -/
def Datagram.udp (d : Datagram) (body : List Byte) : List Byte :=
  let n := 8 + body.length
  let head := netBytes 2 d.srcPort ++ netBytes 2 d.dstPort ++ netBytes 2 n
  let sum := inetChecksum (d.srcIp ++ d.dstIp ++ netBytes 4 n ++ netBytes 4 17 ++ head ++ [0, 0] ++ body)
  head ++ netBytes 2 (if d.v6 then (if sum = 0 then 0xFFFF else sum) else 0) ++ body

/-- The IP header before a UDP datagram of `n` bytes. Identification, the Don't Fragment bit, the flow label and the hop limit are open
(log 154). -/
def Datagram.ip (d : Datagram) (n : Nat) : List Byte :=
  let mark := 4 * d.dscp + d.ecn
  let hops := openField 0x703 d.srcPort 8
  if d.v6 then
    netBytes 4 (6 * 2 ^ 28 + mark * 2 ^ 20 + openField 0x702 d.srcPort 20) ++ netBytes 2 n ++ netBytes 1 17 ++ netBytes 1 hops ++
      d.srcIp ++ d.dstIp
  else
    let head := netBytes 1 0x45 ++ netBytes 1 mark ++ netBytes 2 (20 + n) ++ netBytes 2 (openField 0x701 d.srcPort 16) ++
      netBytes 2 (openField 0x704 d.srcPort 1 * 2 ^ 14) ++ netBytes 1 hops ++ netBytes 1 17
    let ips := d.srcIp ++ d.dstIp
    head ++ netBytes 2 (inetChecksum (head ++ [0, 0] ++ ips)) ++ ips

/-- A datagram with its body as a VLAN-tagged Ethernet frame with FCS (R354). -/
def Datagram.frame (d : Datagram) (body : List Byte) : List Byte :=
  withFcs (d.ethernet ++ d.ip (8 + body.length) ++ d.udp body)

/-- Whether a frame carries a VLAN tag. -/
def frameTagged (f : List Byte) : Bool := netField f 12 2 == 0x8100

/-- PCP of a tagged frame. -/
def framePcp (f : List Byte) : Nat := bitsOf (fieldAt f 14 1) 5 3

/-- Offset of what follows the Ethernet header and the VLAN tag. -/
def frameBody (f : List Byte) : Nat := if frameTagged f then 18 else 14

/-- EtherType of a frame, behind its VLAN tag where it has one. -/
def frameType (f : List Byte) : Nat := netField f (frameBody f - 2) 2

/-- Type of service or traffic class of an IP frame: the DSCP above the ECN field; 0 of another. -/
def frameMark (f : List Byte) : Nat :=
  let o := frameBody f
  if frameType f = 0x0800 then fieldAt f (o + 1) 1
  else if frameType f = 0x86DD then netField f o 4 / 2 ^ 20 % 256
  else 0

/-- Offset of the UDP header of an IPv4 or IPv6 frame, where it has one. -/
def frameUdp (f : List Byte) : Option Nat :=
  let o := frameBody f
  if frameType f = 0x0800 ∧ fieldAt f (o + 9) 1 = 17 then some (o + 4 * (fieldAt f o 1 % 16))
  else if frameType f = 0x86DD ∧ fieldAt f (o + 6) 1 = 17 then some (o + 40)
  else none

/-- A MAC control frame (R349). -/
def macControl (f : List Byte) : Bool := frameType f == 0x8808

/-- UDP destination port of a frame, where it has one. -/
def frameDest (f : List Byte) : Option Nat := (frameUdp f).map (fun u => netField f (u + 2) 2)

/-- Queue pair that a RoCEv2 packet is for: the destination field of its base transport header (R350; PRESUMED, log 155). -/
def frameQp (f : List Byte) : Option Nat :=
  (frameUdp f).bind (fun u => if netField f (u + 2) 2 = 4791 then some (netField f (u + 13) 3) else none)

/-- Whether the device consumes a received frame itself: a MAC control frame, a Chorus frame, which its UDP destination port tells whatever
its tag, or a RoCEv2 packet of an established pair (R342, R349). The ports of open steps count beside the register's (R372). -/
def State.consumes (s : State) (f : List Byte) : Bool :=
  macControl f ||
  (frameDest f).any (fun p => p == s.field 0x000B000C 16 16 || s.net.steps.any (fun x => x.udpPort == p)) ||
  (frameQp f).any (fun n => (Map.get? s.net.qps n).isSome)

/-- Bytes of a packet on the wire, as the shares of R342 count them; the headers of a RoCEv2 packet are taken as 82 bytes (PRESUMED,
log 155). -/
def Sent.size : Sent → Nat
  | .chorus _ f => f.length
  | .inClass _ _ _ x => x.size
  | .roceWrite _ _ _ _ _ _ data => data.length + 82
  | .roceResponse _ _ _ data => data.length + 82
  | .hostFrame _ f => f.length
  | _ => 82

/-- A frame of class CHORUS, 0, or ROCE, 1, goes out on a port; it waits while its class is paused there (R342, R343). -/
def State.egress (s : State) (port cls : Nat) (x : Sent) : State :=
  if Nat.testBit (s.port port).paused cls then s.modPort port (fun p => { p with waiting := p.waiting ++ [(cls, x)] }) else s.send x

/-- The class that goes next of those that wait and are not paused: CHORUS and ROCE share the port 4 : 3 by bytes (R342). -/
def Port.next (p : Port) : Nat :=
  let ready := fun (c : Nat) => !Nat.testBit p.paused c && p.waiting.any (fun w => w.1 == c)
  if ready 0 && (!ready 1 || decide (3 * p.shares.1 ≤ 4 * p.shares.2)) then 0 else 1

/-- Bytes of a class are sent. -/
def Port.spend (p : Port) (cls n : Nat) : Port :=
  { p with shares := if cls = 0 then (p.shares.1 + n, p.shares.2) else (p.shares.1, p.shares.2 + n) }

/-- The frames that wait on a port leave, as far as their classes are not paused; `fuel` bounds their number (R342, R343). -/
def State.releasePort (port : Nat) : Nat → State → State
  | 0, s => s
  | fuel + 1, s =>
    let p := s.port port
    let cls := p.next
    match p.waiting.find? (fun w => w.1 == cls && !Nat.testBit p.paused cls) with
    | none => if p.waiting.isEmpty then s.modPort port (fun p => { p with shares := (0, 0) }) else s
    | some w =>
      State.releasePort port fuel ((s.modPort port (fun p =>
        { (p.spend cls w.2.size) with waiting := p.waiting.eraseP (fun v => v.1 == cls) })).send w.2)

/-- Some classes of a port are no longer paused. -/
def State.resumePort (s : State) (port classes : Nat) : State :=
  let s := s.modPort port (fun p => { p with paused := clearBits p.paused classes })
  s.releasePort port ((s.port port).waiting.length + 1)

/-- A RoCEv2 packet or a CNP of a queue pair leaves in class ROCE, marked ECT(0) (R342, R345). -/
def State.sendRoce (s : State) (qp : Nat) (x : Sent) : State :=
  s.egress (((Map.get? s.net.qps qp).map (fun q => q.port)).getD 0) 1 (.inClass (s.field 0x000B0008 23 3) (s.field 0x000B0008 8 6) 2 x)

end Sys2Proof.Machine
end

