-- ==== Sys2Proof/Machine/ChorusBase.lean ====
section
/-!
DEFINITION. Chorus at this member: the frames that it builds and sends (R354, R355, R361, R362), the collectives and what closes
a step (R359, R360), and the failure of a step (R361, R364).
-/
namespace Sys2Proof.Machine

/-- The group that the active cue sheet is bound to, with its slot (R356). -/
def State.boundGroup (s : State) : Option (Nat × ChorusGroup) :=
  s.net.bound.bind (fun i => (Map.get? s.net.groups i).map (fun g => (i, g)))

/-- The other members of a group, ascending. -/
def ChorusGroup.others (g : ChorusGroup) : List Nat := (List.range g.size).filter (fun m => m ≠ g.own)

/-- Header, payload and digest of a frame (R354, R361). `length` is the payload's, or the range's of a RETX_REQUEST (R355). -/
def ChorusGroup.frame (g : ChorusGroup) (step : Nat) (k : Kept) (length format extend : Nat) (retransmit : Bool) : List Byte :=
  withCrc (leBytes 1 0x10 ++ leBytes 1 k.op ++ leBytes 2 g.identity ++ leBytes 2 g.own ++ leBytes 2 k.dst ++ leBytes 6 step ++
    leBytes 2 k.alive ++ leBytes 4 k.offset ++ leBytes 2 length ++
    leBytes 1 ((if k.last then 1 else 0) + (if retransmit then 2 else 0)) ++ leBytes 1 format ++ leBytes 4 extend) ++
  k.payload ++ leBytes 8 (crc64 k.payload)

/-- The port of a member (R356, R400). -/
def ChorusGroup.portOf (g : ChorusGroup) (m : Nat) : Nat := fieldAt (g.members.getD m []) 0 1

/-- Whether a Chorus frame is of class EXPRESS (R342): barrier and control frames, and data frames of 256 bytes or less. -/
def Kept.express (k : Kept) : Bool :=
  has [0x04, 0x05, 0x10, 0x11, 0x12] k.op || (has [0x01, 0x02, 0x03, 0x06] k.op && decide (k.payload.length ≤ 256))

/-- UDP source port of the frames from a member to another (R354). -/
def chorusSource (src dst : Nat) : Nat := 49152 + (1024 * src + dst) % 16384

/-- UDP destination port of the frames of a step: CHORUS_CONFIG.UDP_PORT as it stood when the step opened, and as it stands for a step
that has not opened (R354, R372). -/
def State.stepPort (s : State) (step : Nat) : Nat :=
  ((s.net.steps.find? (fun x => x.number == step)).map (fun x => x.udpPort)).getD (s.field 0x000B000C 16 16)

/-- The datagram that carries a frame to its destination member: addresses of the port and of the member's record, and PCP, DSCP and ECN
field of its traffic class, Not-ECT for EXPRESS and ECT(0) for CHORUS (R342, R345, R354, R356, R400). Addresses go out in the order
of the bytes that named them (DEDUCED, log 154). -/
def State.chorusPath (s : State) (g : ChorusGroup) (udp : Nat) (k : Kept) : Datagram :=
  let r := g.members.getD k.dst []
  let p := s.port (g.portOf k.dst)
  let v6 := fieldAt r 1 1 == 6
  let n := if v6 then 16 else 4
  let c := s.reg 0x000B0008
  { v6 := v6, srcMac := leBytes 6 p.mac, dstMac := sliceBytes r 2 6, srcIp := leBytes n p.ip, dstIp := sliceBytes r 8 n
    srcPort := chorusSource g.own k.dst, dstPort := udp, pcp := if k.express then bitsOf c 29 3 else bitsOf c 26 3
    dscp := if k.express then bitsOf c 14 6 else bitsOf c 2 6, ecn := if k.express then 0 else 2 }

/-- Send a frame's body on the port of its destination member, in its traffic class; the check-value unit of the port sees its payload.
An EXPRESS frame waits for no other class (R342, R354, R356, R480). -/
def State.sendFrame (s : State) (g : ChorusGroup) (udp : Nat) (k : Kept) (body : List Byte) : State :=
  let port := g.portOf k.dst
  let d := s.chorusPath g udp k
  let x := Sent.inClass d.pcp d.dscp d.ecn (.chorus port (d.frame body))
  let s := s.ethOut port (6, some g.identity) k.payload
  if k.express then s.send x else s.egress port 0 x

/-- Send a new frame: its alive counter is the next to that member, which increments (R362). -/
def State.chorusSend (s : State) (i step : Nat) (k : Kept) (length format extend : Nat) : State × Kept :=
  match Map.get? s.net.groups i with
  | none => (s, k)
  | some g =>
    let a := Map.getD g.sendAlive k.dst 0
    let k := { k with alive := a }
    let g' := { g with sendAlive := Map.put g.sendAlive k.dst ((a + 1) % 65536) }
    let s := { s with net := { s.net with groups := Map.put s.net.groups i g' } }
    (s.sendFrame g (s.stepPort step) k (g.frame step k length format extend false), k)

/-- Change a step. -/
def State.modStep (s : State) (n : Nat) (f : Step → Step) : State :=
  { s with net := { s.net with steps := s.net.steps.map (fun x => if x.number = n then f x else x) } }

/-- An open step: neither closed nor failed. -/
def State.liveStep? (s : State) (n : Nat) : Option Step :=
  s.net.steps.find? (fun x => x.number == n && !x.closed && !x.failed)

/-- Send frames of a step, which keeps them (R363). -/
def State.sendStep (s : State) (i : Nat) (x : Step) (ks : List Kept) : State :=
  let r := ks.foldl (fun (a : State × List Kept) k =>
    let b := a.1.chorusSend i x.number k k.payload.length x.plan.format 0
    (b.1, a.2 ++ [b.2])) (s, [])
  r.1.modStep x.number (fun y => { y with kept := y.kept ++ r.2 })

/-- Bytes of a shard (R359). -/
def shardRange (bytes size k : Nat) : Nat × Nat :=
  let z := 64 * ceilDiv bytes (64 * size)
  (min (k * z) bytes, min ((k + 1) * z) bytes)

/-- Data as frames of at most 8,192 bytes (R359); `fuel` bounds their number. -/
def frameData (op dst : Nat) (final : Bool) : Nat → Nat → List Byte → List Kept
  | 0, _, _ => []
  | fuel + 1, offset, bs =>
    if bs.isEmpty then []
    else
      { op := op, dst := dst, offset := offset, last := final && decide (bs.length ≤ 8192), alive := 0, payload := bs.take 8192 } ::
        frameData op dst final fuel (offset + 8192) (bs.drop 8192)

/-- The frames that bring some data to a member. -/
def dataTo (op dst offset : Nat) (final : Bool) (bs : List Byte) : List Kept :=
  frameData op dst final (bs.length / 8192 + 1) offset bs

/-- What a member waits for in a step: frame kind, source and range (R359). -/
def StepPlan.expected (p : StepPlan) (g : ChorusGroup) : List (Nat × Nat × Nat × Nat) :=
  let mine := shardRange p.bytes g.size g.own
  let reduces := g.others.map (fun j => (0x01, j, mine.1, mine.2))
  let gathers := g.others.map (fun k => (0x02, k, (shardRange p.bytes g.size k).1, (shardRange p.bytes g.size k).2))
  match p.collective with
  | 0 => reduces ++ gathers
  | 1 => reduces
  | 2 => gathers
  | 3 => if g.own = p.root then [] else [(0x03, p.root, 0, p.bytes)]
  | 4 => if g.own = 0 then g.others.map (fun j => (0x04, j, 0, 8)) else [(0x05, 0, 0, 8)]
  | 5 => if g.own = p.peer then [(0x06, p.root, 0, p.bytes)] else []
  | _ => []

/-- Whether the member owes data of its own in a step (R359). -/
def StepPlan.owes (p : StepPlan) (g : ChorusGroup) : Bool :=
  if p.collective = 3 ∨ p.collective = 5 then decide (g.own = p.root) else decide (p.collective ≤ 4)

/-- The frames of a member's own data (R359). LAST marks the last ones of the step: of an all-reduce the GATHER frames bear it, or where the
own shard is empty the REDUCE frames (R354). -/
def StepPlan.ownFrames (p : StepPlan) (g : ChorusGroup) (own : List Byte) : List Kept :=
  let shard := fun (op : Nat) (k : Nat) (final : Bool) =>
    let r := shardRange p.bytes g.size k
    dataTo op k r.1 final ((own.drop r.1).take (r.2 - r.1))
  let r := shardRange p.bytes g.size g.own
  match p.collective with
  | 0 => (g.others.map (fun k => shard 0x01 k (decide (r.2 ≤ r.1)))).flatten
  | 1 => (g.others.map (fun k => shard 0x01 k true)).flatten
  | 2 => (g.others.map (fun k => dataTo 0x02 k r.1 true (own.take (r.2 - r.1)))).flatten
  | 3 => (g.others.map (fun k => dataTo 0x03 k 0 true (own.take p.bytes))).flatten
  | 4 => if g.own = 0 then [] else dataTo 0x04 0 0 true (own.take 8)
  | _ => dataTo 0x06 p.peer 0 true (own.take p.bytes)

/-- The fragment of a source's data that holds an offset, if one does. -/
def Step.fragAt (x : Step) (op src o : Nat) : Option Frag :=
  x.frags.find? (fun f => f.op == op && f.src == src && decide (f.offset ≤ o) && decide (o < f.offset + f.data.length))

/-- Whether a range is held whole: frame kind, source, first offset and the offset after the last. -/
def Step.holds (x : Step) (r : Nat × Nat × Nat × Nat) : Bool :=
  (List.range (r.2.2.2 - r.2.2.1)).all (fun o => (x.fragAt r.1 r.2.1 (r.2.2.1 + o)).isSome)

/-- The byte at an offset of what a source sent. -/
def Step.byteAt (x : Step) (op src o : Nat) : Byte :=
  match x.fragAt op src o with
  | some f => f.data.getD (o - f.offset) 0
  | none => 0

/-- One lane from the contributions of the members, in ascending index (R360). A FORMAT that names no lanes states no sum; its
result is free (log 9). -/
def foldLane (format : Nat) (xs : List Nat) : Nat :=
  match format, xs with
  | _, [] => 0
  | 1, x :: r => r.foldl (fun v y => (addInt (signedOf 32 y) v).word) x
  | 2, x :: r => r.foldl (fun v y =>
      let l := unpackLane y
      packLane (addCompensated (addCompensated (unpackLane v) l.1) l.2)) x
  | f, x :: _ => (Config.openByte (0x400 + f) x).toNat

/-- Bytes of a lane. -/
def laneBytes (format : Nat) : Nat := if format = 2 then 8 else if format = 1 then 4 else 1

/-- The own shard of a reduction (R360). -/
def Step.reduce (x : Step) (g : ChorusGroup) (own : List Byte) : List Byte :=
  let r := shardRange x.plan.bytes g.size g.own
  let w := laneBytes x.plan.format
  ((List.range ((r.2 - r.1) / w)).map (fun n =>
    leBytes w (foldLane x.plan.format ((List.range g.size).map (fun j =>
      leNat ((List.range w).map (fun b =>
        let o := r.1 + n * w + b
        if j = g.own then own.getD o 0 else x.byteAt 0x01 j o))))))).flatten

/-- What a member sends once it holds what the others owe it first: its reduced shard, or a barrier's release (R359). -/
def State.gather (s : State) (i : Nat) (g : ChorusGroup) (x : Step) : State :=
  let own := x.plan.own.getD []
  let first := (x.plan.expected g).filter (fun r => r.1 == 0x01 || r.1 == 0x04)
  if !x.sent || x.gathered || !first.all x.holds then s
  else
    let result := if x.plan.collective ≤ 1 then x.reduce g own else []
    let r := shardRange x.plan.bytes g.size g.own
    let ks := match x.plan.collective with
      | 0 => (g.others.map (fun k => dataTo 0x02 k r.1 true result)).flatten
      | 4 => if g.own = 0 then (g.others.map (fun k => dataTo 0x05 k 0 true (own.take 8))).flatten else []
      | _ => []
    (s.sendStep i x ks).modStep x.number (fun y => { y with gathered := true, result := result })

/-- An open step goes on: own data leave, results follow, and it closes once everything is sent and held (R359, R511). -/
def State.stepProgress (s : State) (n : Nat) : State :=
  match s.boundGroup with
  | none => s
  | some (i, g) =>
    let s := match s.liveStep? n with
      | some x =>
        if x.sent then s
        else if !x.plan.owes g then s.modStep n (fun y => { y with sent := true })
        else
          match x.plan.own with
          | some own => (s.sendStep i x (x.plan.ownFrames g own)).modStep n (fun y => { y with sent := true })
          | none => s
      | none => s
    let s := match s.liveStep? n with
      | some x => s.gather i g x
      | none => s
    match s.liveStep? n with
    | some x =>
      if x.sent && x.gathered && (x.plan.expected g).all x.holds then
        (s.modStep n (fun y => { y with closed := true })).count 64 1
      else s
    | none => s

/-- The member's schedule reaches the data that it owes for a step (R359). -/
def State.chorusOwn (s : State) (n : Nat) (own : List Byte) : State :=
  (s.modStep n (fun x => if x.sent then x else { x with plan := { x.plan with own := some own } })).stepProgress n

/-- A step fails: the source with the member that it names, NET_EVENT, CHORUS_LAST_FAIL, and the scene that holds it (R361, R364,
R372, R511). -/
def State.failStep (s : State) (x : Step) (src cause member : Nat) : State :=
  match s.boundGroup with
  | none => s
  | some (i, g) =>
    let s := ((s.modStep x.number (fun y => { y with failed := true })).count 65 1).orReg 0x000B0004 0x40
    let s := s.setReg 0x000B0010 (2 ^ 31 + (cause <<< 28) + (member % 1024 <<< 18) + (g.identity % 65536 <<< 2))
    (s.raise src 6 (65536 * i + member) [x.plan.scene]).failScenes (fun c => decide (c = x.plan.scene)) src

/-- Member 0 sends the descriptor of a scene to every member before the scene starts (R357), with the sequence commands that it has accepted
since the last (R358), and keeps the frames (R363). How firmware writes a descriptor is open: 64-bit words that the scene
determines (log 9). The frames bear the number of the next collective, as only collectives take one (R356; DEDUCED, log 79). -/
def State.sendScene (s : State) (x : SceneDesc) : State :=
  match s.boundGroup with
  | none => s
  | some (i, g) =>
    let d := ((Config.describeScene { x with relays := s.net.relays }).take 1024).flatMap (leBytes 8)
    let n := s.net.nextStep
    let r := g.others.foldl (fun (a : State × List Kept) m =>
      let k : Kept := { op := 0x07, dst := m, offset := 0, last := true, alive := 0, payload := d }
      let b := a.1.chorusSend i n k d.length 0 0
      (b.1, a.2 ++ [b.2])) (s, [])
    let kept := r.2.map (fun (k : Kept) => (n, s.stepPort n, k))
    { r.1 with net := { r.1.net with scenesSent := r.1.net.scenesSent ++ kept, relays := [] } }

end Sys2Proof.Machine
end

