-- ==== Sys2Proof/Machine/Sampling.lean ====
section
/-!
DEFINITION. Sampling (R262, R263), the candidate tree of a sequence (R258 to R260), the rows of a scene (R206, R251, R260) and
verification (R261). Logits are FP32
words; the place of a NaN in an order is free (log 13).
-/
namespace Sys2Proof.Machine

/-- Put a token in its place by value descending; tokens come in ascending id, so a tie keeps the lower first. -/
def insertToken (x : Nat × Nat) : List (Nat × Nat) → List (Nat × Nat)
  | [] => [x]
  | y :: ys => if scoreKey y.2 < scoreKey x.2 then x :: y :: ys else y :: insertToken x ys

/-- Token ids with their values, by value descending, the lower id first on a tie (R259, R263, R276). -/
def rankTokens (z : List Nat) : List (Nat × Nat) :=
  (List.zip (List.range z.length) z).foldl (fun l x => insertToken x l) []

/-- The prefix of a nucleus: tokens until their running sum reaches a limit, with that sum (R263). -/
def nucleus (limit : Nat) : CLane → List (Nat × Nat) → List (Nat × Nat) × CLane
  | run, [] => ([], run)
  | run, x :: xs =>
    let run := addCompensated run x.2
    if order32 limit ≤ order32 (laneValue run) then ([x], run)
    else
      let r := nucleus limit run xs
      (x :: r.1, r.2)

/-- The first token whose running sum exceeds a target, or the last (R263). -/
def pick (target : Nat) : CLane → List (Nat × Nat) → Nat
  | _, [] => 0
  | _, [x] => x.1
  | run, x :: xs =>
    let run := addCompensated run x.2
    if order32 target < order32 (laneValue run) then x.1 else pick target run xs

/-- u of a position: draws 0 and 1 of its key (R262). -/
def drawToken (seed position : Nat) : Nat :=
  let key := keyBlock seed position 0xFFFE 0 2
  draw key 0 + 65536 * draw key 1

/-- The token of a position from its logits (R263). -/
def sampleToken (q : Seq) (z : List Nat) (position : Nat) : Nat :=
  if q.temperature = 0 then ((rankTokens z).head?.map (fun x => x.1)).getD 0
  else
    let invT := fdiv one32 (q.temperature * 65536)
    let ranked := rankTokens (z.map (fun v => fmul v invT))
    let order := if q.topK = 0 then ranked else ranked.take q.topK
    let m := ((order.head?).map (fun x => x.2)).getD 0
    let p := order.map (fun x => (x.1, exp32 (fsub x.2 m)))
    let total := p.foldl (fun l x => addCompensated l x.2) (0, 0)
    let cut :=
      if order32 (q.topP * 65536) < order32 one32 then nucleus (fmul (q.topP * 65536) (laneValue total)) (0, 0) p
      else (p, total)
    let u := rne32 (.fin false (drawToken q.seed position) (-32))
    pick (fmul u (laneValue cut.2)) (0, 0) cut.1

/-- Candidate token of node i ≥ 1; 0xFFFF_FFFF is no proposal (R259). -/
def Seq.candidate (q : Seq) (i : Nat) : Nat := q.candidates.getD (i - 1) 0xFFFFFFFF

/-- The nodes that a verify item keeps, ascending (R260). -/
def Seq.keptNodes (q : Seq) : List Nat :=
  (List.range q.nodes).foldl (fun kept i =>
    if i = 0 then [0]
    else
      let d := nodeDepth q.tree i
      if has kept (nodeParent q.tree i) && decide (q.kvLen + d ≤ Config.maxPosition) && decide (q.generated + d + 1 ≤ q.maxNew) &&
          q.candidate i != 0xFFFFFFFF then kept ++ [i]
      else kept) []

/-- The nodes of a sequence's next decode or verify item (R251). -/
def Seq.itemNodes (q : Seq) : List Nat := if q.cand && decide (1 < q.nodes) then q.keptNodes else [0]

/-- A token that a scene delivers: its position and the logits that produced it. -/
structure Delivered where
  pos : Nat
  token : Nat
  logits : List Nat

/-- A row of a scene: a position that a member works on, its node in a decode or verify item, and its token (R206, R251, R260). -/
structure Row where
  entry : Nat
  pos : Nat
  node : Option Nat
  token : Nat
  deriving DecidableEq, Repr

/-- The rows of a member of a scene (R251, R260). -/
def Seq.rows (q : Seq) (m : Member) : List Row :=
  match m.work with
  | .decode => [{ entry := m.entry, pos := q.kvLen, node := some 0, token := q.pendingToken }]
  | .verify => q.keptNodes.map (fun i =>
      { entry := m.entry, pos := q.kvLen + nodeDepth q.tree i, node := some i
        token := if i = 0 then q.pendingToken else q.candidate i })
  | .chunk first stop => (List.range (stop - first)).map (fun i =>
      { entry := m.entry, pos := first + i, node := none, token := q.tokens.getD (first + i) 0 })

/-- The rows of a member whose entry still holds its sequence. -/
def State.memberRows (s : State) (m : Member) : List Row :=
  match s.seq? m.entry with
  | some q => if q.order = m.order then q.rows m else []
  | none => []

/-- The rows of a scene, member by member in slot order (R253); the others are padding (R254). -/
def State.rows (s : State) (c : Scene) : List Row := c.members.flatMap s.memberRows

/-- The row of a scene's work by its number; padding has none (R254). -/
def State.row? (s : State) (scene row : Nat) : Option Row :=
  (s.prm.scenes.find? (fun c => c.id == scene)).bind (fun c => (s.rows c)[row]?)

/-- Candidates on the path of the tree from the root to a node, that of the root left out (R258, R259). -/
def Seq.pathTokens (q : Seq) : Nat → Nat → List Nat
  | 0, _ => []
  | fuel + 1, i => if i = 0 then [] else q.pathTokens fuel (nodeParent q.tree i) ++ [q.candidate i]

/-- The tokens that a row's logits depend on: its own and every one before it (R17, R206). -/
def Seq.inputsOf (q : Seq) (r : Row) : List Nat :=
  match r.node with
  | some i => q.tokens.take (q.kvLen + 1) ++ q.pathTokens 33 i
  | none => q.tokens.take (r.pos + 1)

/-- Logits of a row for which no section of its scene ran a head: a free function of the cue sheet, the production and the tokens, so
that R17 holds of them too (log 134). -/
def State.openLogits (s : State) (c : Scene) (vocab row head : Nat) : List Nat :=
  let sheet := (s.fabric.active.map (fun k => k.digest)).getD 0
  let key := match (s.rows c)[row]? with
    | some r => ((s.seq? r.entry).map (fun q => q.epoch :: r.pos :: q.inputsOf r)).getD []
    | none => []
  (List.range vocab).map (fun i => Config.openFp 7 (sheet :: head :: key) [] i % 2 ^ 32)

/-- Logits that a scene's LM head or a speculative head gave for a row (R24, R259). -/
def State.logitsOf (s : State) (c : Scene) (vocab row head : Nat) : List Nat :=
  match c.logits.find? (fun l => l.1 == row && l.2.1 == head) with
  | some l => l.2.2.map (fun w => w.toNat)
  | none => s.openLogits c vocab row head

/-- Verification from a node on, over the logits of each node (R261): the path and the sampled tokens. -/
def verifyFrom (q : Seq) (kept : List Nat) (logits : Nat → List Nat) : Nat → Nat → List Nat × List Delivered
  | 0, _ => ([], [])
  | fuel + 1, node =>
    let z := logits node
    let pos := q.kvLen + nodeDepth q.tree node + 1
    let t := sampleToken q z pos
    let d : Delivered := { pos := pos, token := t, logits := z }
    match kept.find? (fun i => i != 0 && nodeParent q.tree i == node && q.candidate i == t) with
    | none => ([node], [d])
    | some child =>
      let r := verifyFrom q kept logits fuel child
      (node :: r.1, d :: r.2)

/-- The proposals of the speculative heads for the template's nodes (R258, R259). -/
def proposals (q : Seq) (heads : List (List Nat)) : List Nat :=
  (List.range (q.nodes - 1)).map (fun i =>
    let d := nodeDepth q.tree (i + 1)
    let z := heads.getD (d - 1) []
    (((rankTokens z)[nodeRank q.tree (i + 1)]?).map (fun x => x.1)).getD 0xFFFFFFFF)

/-- The codes 1 to 3 whose conditions a delivered token meets (R264). -/
def finishCodes (q : Seq) (generated pos token : Nat) : List Nat :=
  (if q.stops.any (fun t => t == token && t != 0xFFFFFFFF) then [1] else []) ++ (if q.maxNew ≤ generated then [2] else []) ++
    (if Config.maxPosition ≤ pos then [3] else [])

/-- Reason with which a delivered token finishes a sequence, 0 where it does not. Which code stands where several conditions hold is open
(R264, log 111). -/
def finishReason (q : Seq) (generated pos token : Nat) : Nat :=
  match finishCodes q generated pos token with
  | [] => 0
  | [c] => c
  | c :: cs => (c :: cs).getD (Config.finishPick ((c :: cs).foldl (fun m i => m + 2 ^ i) 0) % (c :: cs).length) c

/-- The delivered tokens up to the one that finishes, with its reason (R264). -/
def upToFinish (q : Seq) : Nat → List Delivered → List Delivered × Nat
  | _, [] => ([], 0)
  | n, d :: ds =>
    let r := finishReason q (q.generated + n + 1) d.pos d.token
    if r ≠ 0 then ([d], r)
    else
      let x := upToFinish q (n + 1) ds
      (d :: x.1, x.2)

/-- A logit slot (R276): the eight highest logits after their token ids, or the whole vector padded to 4 KiB. -/
def logitSlot (mode : Nat) (z : List Nat) : List Byte :=
  if mode = 1 then sliceBytes (((rankTokens z).take 8).map (fun x => leBytes 4 x.1 ++ leBytes 4 x.2)).flatten 0 64
  else
    let bytes := (z.map (leBytes 4)).flatten
    sliceBytes bytes 0 (ceilDiv bytes.length 4096 * 4096)

/-- Write the logit slot of a delivered token (R276). -/
def State.writeLogits (s : State) (q : Seq) (d : Delivered) : State :=
  if q.logits = 0 then s
  else
    let slot := logitSlot q.logits d.logits
    s.dmaWrite q.tag (q.logitBuf + (d.pos - q.prefillEnd) % 2 ^ q.logitSlots * slot.length) slot

end Sys2Proof.Machine
end

