-- ==== Sys2Proof/Machine/Kv.lean ====
section
/-!
DEFINITION. Key/value data (R205 to R221, R230 to R232): casts and their attention records, quantised writes to pages and
candidate records, the attention of a query row (R209, R210), the commit of an accepted path (R231), check failures (R236)
and the pins of R227.
-/
namespace Sys2Proof.Machine

/-- Page-map entry number of a position of a layer and plane: the page of a global layer, the ring slot of a window layer
(R219, R221). -/
def pageKey (m : Model) (layer plane pos : Nat) : Nat :=
  let k := pos / m.pagePos
  m.mapKey layer plane (if m.window layer = 0 then k else k % m.ringLen layer)

/-- The frame that holds a position of a sequence (R219). -/
def State.pageFrame (s : State) (entry layer plane pos : Nat) : Option Nat :=
  Map.get? (Map.getD s.kv.pageMaps entry []) (pageKey s.model layer plane pos)

/-- Number of the chunk of a head that holds a position, within its page (R215). -/
def chunkNo (m : Model) (head pos : Nat) : Nat := head * (m.pagePos / 64) + pos % m.pagePos / 64

/-- HBM address of a position's slices of a head in a frame (R215). -/
def sliceAddr (m : Model) (f head pos : Nat) : Nat :=
  frameAddr f + chunkNo m head pos * (32 * m.headDim) + pos % 64 * (m.headDim / 2)

/-- Two slices to a byte, the even element low (R215). -/
def packSlices : List Int → List Byte
  | a :: b :: xs => leBytes 1 (unsignedOf 4 a + 16 * unsignedOf 4 b) ++ packSlices xs
  | [a] => leBytes 1 (unsignedOf 4 a)
  | [] => []

/-- The slices of some bytes. -/
def unpackSlices (bs : List Byte) : List Int :=
  (bs.map (fun b => [signedOf 4 b.toNat, signedOf 4 (b.toNat / 16)])).flatten

/-- Major and residual slices of an INT8 value (R207). -/
def majorSlice (v : Int) : Int := v.fdiv 16
def residualSlice (v : Int) : Int := v - 16 * v.fdiv 16 - 8

/-- Write to a frame's bytes, seen by its stack's check-value engine (R214, R477, R480). -/
def State.hbmWrite (s : State) (f a : Nat) (bs : List Byte) : State :=
  let s := s.snoop (10 + f % 12) [(2, none), (4, some f)] bs
  { s with kv := { s.kv with hbm := memWriteList s.kv.hbm a bs } }

/-- A read of a frame's bytes, seen by its stack's check-value engine. -/
def State.hbmRead (s : State) (f a n : Nat) : State × List Byte :=
  let bs := memReadList s.kv.hbm a n
  (s.snoop (10 + f % 12) [(1, none), (3, some f)] bs, bs)

/-- The annex CRC of a chunk after a write: over the chunk and, on a major page, its scale (R216). -/
def State.sealChunk (s : State) (m : Model) (f head pos : Nat) (major : Bool) : State :=
  let n := chunkNo m head pos
  let chunk := memReadList s.kv.hbm (frameAddr f + n * (32 * m.headDim)) (32 * m.headDim)
  let scale := if major then memReadList s.kv.hbm (annexAddr f + 2 * n) 2 else []
  { s with kv := { s.kv with hbm := memWriteList s.kv.hbm (annexAddr f + 2048 + 4 * n) (leBytes 4 (crc32c (chunk ++ scale))) } }.stampAnnex f

/-- A ring slot advances to the page of a position: its frame and annex are zeroed and its descriptor restarts (R218, R221). -/
def State.advanceRing (s : State) (m : Model) (f layer pos : Nat) : State :=
  let first := pos / m.pagePos * m.pagePos
  let d := s.frame f
  if m.window layer = 0 || d.firstPos == first then s
  else
    { s with kv := { s.kv with hbm := zeroFrame s.kv.hbm f } }.setFrame f { d with firstPos := first, written := 0, annexCrc := zeroAnnexCrc }

/-- Whether the CRC that a frame's annex holds for a chunk matches the chunk and, on a major page, its scale (R216). -/
def State.chunkOk (s : State) (m : Model) (f head pos : Nat) (major : Bool) : Bool :=
  let n := chunkNo m head pos
  let chunk := memReadList s.kv.hbm (frameAddr f + n * (32 * m.headDim)) (32 * m.headDim)
  let scale := if major then memReadList s.kv.hbm (annexAddr f + 2 * n) 2 else []
  decide (leNat (memReadList s.kv.hbm (annexAddr f + 2048 + 4 * n) 4) = crc32c (chunk ++ scale))

/-- Whether a frame's descriptor, and its annex, pass their CRC (R217). -/
def Frame.sound (d : Frame) : Bool := d.descCrc == crc32c d.bytes
def State.annexOk (s : State) (f : Nat) : Bool := (s.frame f).annexCrc == crc32c (memReadList s.kv.hbm (annexAddr f) 8192)

/-- The frame that a write of a position would add to, with the kind of a check that fails of what it holds already: its descriptor, and
where the ring does not advance its annex and a chunk with written positions. Nothing is added to it then, and its CRCs keep
failing (R217, R236). -/
def State.writeFault (s : State) (entry layer plane head pos : Nat) : Option (Nat × Nat) :=
  let m := s.model
  (s.pageFrame entry layer plane pos).bind (fun f =>
    let d := s.frame f
    if !d.sound then some (f, 2)
    else if m.window layer ≠ 0 && d.firstPos != pos / m.pagePos * m.pagePos then none
    else if !s.annexOk f then some (f, 1)
    else if decide (pos % m.pagePos / 64 * 64 < d.written) && !s.chunkOk m f head pos (plane % 2 == 0) then some (f, 0)
    else none)

/-- Write a position's slices of a head to one plane, with the block's scale on a major page at its anchor (R215, R216). -/
def State.writePlane (s : State) (entry layer plane head pos : Nat) (slices : List Byte) (scale : Option Nat) : State :=
  let m := s.model
  match s.pageFrame entry layer plane pos with
  | none => s
  | some f =>
    if (s.writeFault entry layer plane head pos).isSome then s
    else
    let s := s.advanceRing m f layer pos
    let s := s.hbmWrite f (sliceAddr m f head pos) slices
    let s := match scale with
      | some v => { s with kv := { s.kv with hbm := memWriteList s.kv.hbm (annexAddr f + 2 * chunkNo m head pos) (leBytes 2 v) } }
      | none => s
    let s := s.sealChunk m f head pos (plane % 2 == 0)
    s.setFrame f { s.frame f with written := max (s.frame f).written (pos % m.pagePos + 1) }

/-- Byte `off` of a candidate page set, taken frame by frame (R230). -/
def candAddr (frames : List Nat) (off : Nat) : Nat := frameAddr (frames.getD (off / Config.frameBytes) 0) + off % Config.frameBytes

/-- Read bytes of a candidate page set. -/
def State.candRead (s : State) (frames : List Nat) (off n : Nat) : List Byte :=
  (List.range n).map (fun i => memRead s.kv.hbm (candAddr frames (off + i)))

/-- Write bytes of a candidate page set. -/
def State.candWrite (s : State) (frames : List Nat) (off : Nat) (bs : List Byte) : State :=
  let hbm := (List.zip (List.range bs.length) bs).foldl (fun m p => memWrite m (candAddr frames (off + p.1)) p.2) s.kv.hbm
  { s with kv := { s.kv with hbm := hbm } }

/-- Offset of a candidate record (R230). -/
def candOffset (m : Model) (layer node : Nat) : Nat := (layer * 32 + node) * m.candStride

/-- Offset within a record of a head's slices in a plane, and of its scale (R230). -/
def candSlices (m : Model) (plane head : Nat) : Nat := plane * (m.kvWidth / 2) + head * m.headDim / 2
def candScale (m : Model) (value : Bool) (head : Nat) : Nat := 2 * m.kvWidth + 4 * head + (if value then 2 else 0)

/-- A candidate record's CRC-32C, over the bytes before it (R230). -/
def recordSize (m : Model) : Nat := 2 * m.kvWidth + m.kvWidth / 16

/-- Whether a node's record of a layer passes its CRC (R230, R236). -/
def State.recordOk (s : State) (frames : List Nat) (layer node : Nat) : Bool :=
  let o := candOffset s.model layer node
  decide (leNat (s.candRead frames (o + recordSize s.model) 4) = crc32c (s.candRead frames o (recordSize s.model)))

/-- An attention record (R213). -/
structure AttRecord where
  delta : Nat
  resSlots : Nat
  anchorH : Nat
  window : Nat
  castSize : Nat
  member : Nat
  headDim : Nat
  kvWidth : Nat
  layer : Nat
  group : Nat
  deriving DecidableEq, Repr

/-- The attention record at an SRAM address (R213). -/
def Tile.attRecord (x : Tile) (a : Nat) : AttRecord :=
  { delta := x.sramNat a 4, resSlots := x.sramNat (a + 4) 2, anchorH := x.sramNat (a + 6) 2, window := x.sramNat (a + 8) 4
    castSize := x.sramNat (a + 12) 2, member := x.sramNat (a + 14) 2, headDim := x.sramNat (a + 16) 2
    kvWidth := x.sramNat (a + 18) 2, layer := x.sramNat (a + 20) 2, group := x.sramNat (a + 22) 1 }

/-- Whether a member owns a block: block b belongs to member b mod C (R205). -/
def AttRecord.owns (r : AttRecord) (block : Nat) : Bool := decide (block % max 1 r.castSize = r.member)

/-- The area that a tile keeps for the scene's own rows of a KV head (R220; its layout is undocumented, log 120): for each row its
h keys and h values as INT8, and the BF16 scales of its block for K and for V. -/
structure OwnArea where
  base : Nat
  stride : Nat

/-- INT8 elements of a row's key or value in the area. -/
def Tile.ownVals (x : Tile) (o : OwnArea) (h row : Nat) (value : Bool) : List Int :=
  (x.sramNats (o.base + o.stride * row + (if value then h else 0)) 1 h).map (signedOf 8)

/-- Scale of a row's block in the area. -/
def Tile.ownScale (x : Tile) (o : OwnArea) (h row : Nat) (value : Bool) : Nat :=
  x.sramNat (o.base + o.stride * row + 2 * h + (if value then 2 else 0)) 2

/-- Whether node `a` of a tree is node `i` or one of its ancestors (R206). -/
def onPath (tree : List Nat) : Nat → Nat → Nat → Bool
  | 0, a, i => a == i
  | fuel + 1, a, i => a == i || (i != 0 && onPath tree fuel a (nodeParent tree i))

/-- Whether row `o` of the same scene is the row itself, an ancestor in its tree, or earlier in its chunk (R206). -/
def sees (tree : List Nat) (r o : Row) : Bool :=
  o.entry == r.entry && decide (o.pos ≤ r.pos) &&
    (match o.node, r.node with
     | some a, some i => onPath tree 32 a i
     | none, none => true
     | _, _ => false)

/-- Numbers and rows of a scene. -/
def State.numbered (s : State) (scene : Nat) : List (Nat × Row) :=
  match s.prm.scenes.find? (fun c => c.id == scene) with
  | some c => let rs := s.rows c; List.zip (List.range rs.length) rs
  | none => []

/-- The rows of its own scene that a row sees: number and position (R206, R220). -/
def State.seen (s : State) (scene : Nat) (r : Row) : List (Nat × Nat) :=
  let tree := ((s.seq? r.entry).map (fun q => q.tree)).getD []
  ((s.numbered scene).filter (fun p => sees tree r p.2)).map (fun p => (p.1, p.2.pos))

/-- The scale that a committed block's page holds for a head (R208, R216). -/
def State.pageScale (s : State) (entry layer head pos : Nat) (value : Bool) : Nat :=
  let m := s.model
  match s.pageFrame entry layer (if value then 2 else 0) pos with
  | some f => leNat (memReadList s.kv.hbm (annexAddr f + 2 * chunkNo m head pos) 2)
  | none => 0

/-- The scale of a block as a row meets it: that of its anchor, a committed position or a row that the row sees (R208, R230). -/
def State.blockScale (s : State) (t : Nat) (o : OwnArea) (ar : AttRecord) (head : Nat) (r : Row) (seen : List (Nat × Nat))
    (block : Nat) (value : Bool) : Nat :=
  match seen.find? (fun p => p.2 == 64 * block) with
  | some p => (s.tile t).ownScale o ar.headDim p.1 value
  | none => s.pageScale r.entry ar.layer head (64 * block) value

/-- The scale that an anchor sets: H × amax ÷ 127 rounded up to BF16, or 2^−126 (R208). -/
def anchorScale (headroom : Nat) (xs : List Nat) : Nat :=
  let amax := amax32 xs
  if amax = 0 then 0x0080 else bf16UpDiv ((num16 headroom).mul (num32 amax)) 127

/-- An element quantised at a scale, and whether it was clamped (R208). -/
def kvQuant (scale x : Nat) : Int × Bool :=
  let q := fdiv x (scale * 65536)
  let v := quantNum (num32 q) (numInt 1) q 127
  (v, decide (v ≠ quantNum (num32 q) (numInt 1) q (2 ^ 200)))

/-- The page writes of a scene's prefill chunks (R220). -/
def State.writePuts (s : State) (puts : List KvPut) : State :=
  puts.foldl (fun s p => s.writePlane p.entry p.layer p.plane p.head p.pos p.slices p.scale) s

/-- The writes of earlier scenes to a layer complete before a later scene reads that layer (R220). -/
def State.settleWrites (s : State) (scene layer : Nat) : State :=
  let due := fun (c : Scene) => if c.id < scene then c.puts.filter (fun p => p.layer == layer) else []
  let puts := s.prm.scenes.flatMap due
  if puts.isEmpty then s
  else
    let scenes := s.prm.scenes.map (fun c =>
      if c.id < scene then { c with puts := c.puts.filter (fun p => p.layer != layer) } else c)
    { s with prm := { s.prm with scenes := scenes } }.writePuts puts

/-- The committed length as a row meets it: KV_LEN, or for a row of a prefill chunk the chunk's first position, where an earlier chunk
of the sequence is still in flight, whose writes to a layer are complete before this one reads it (R206, R220, R251;
DEDUCED, log 121). -/
def State.committedAt (s : State) (scene : Nat) (r : Row) : Nat :=
  let kv := ((s.seq? r.entry).map (fun x => x.kvLen)).getD 0
  let members := ((s.prm.scenes.find? (fun c => c.id == scene)).map (fun c => c.members)).getD []
  members.foldl (fun n m =>
    match m.work with
    | .chunk first stop => if m.entry = r.entry ∧ r.node = none ∧ first ≤ r.pos ∧ r.pos < stop then max n first else n
    | _ => n) kv

/-- Quantise the key or value of a row for a head at the scale of its block, into the area of the scene's own rows (R207, R208). A
clamped element sets KV_CLAMP, and a NaN that the scale's or an element's division produces is noted (R119). -/
def State.kvQuantise (s : State) (t scene row : Nat) (ar : AttRecord) (head : Nat) (value : Bool) (src : Nat) (o : OwnArea) :
    State :=
  match s.row? scene row with
  | none => s
  | some r =>
    let s := s.settleWrites scene ar.layer
    let h := ar.headDim
    let xs := (s.tile t).sramNats src 4 h
    let scale :=
      if r.pos % 64 = 0 then anchorScale ar.anchorH xs else s.blockScale t o ar head r (s.seen scene r) (r.pos / 64) value
    let vs := xs.map (kvQuant scale)
    let s := if vs.any (fun v => v.2) then s.orReg 0x000A080C 0x4 else s
    let s := if xs.any (fun x => isNan32 (fdiv x (scale * 65536))) then s.noteNan t scene else s
    let base := o.base + o.stride * row
    (s.sramPut t (base + (if value then h else 0)) 1 (vs.map (fun v => unsignedOf 8 v.1))).sramWrite t
      (base + 2 * h + (if value then 2 else 0)) (leBytes 2 scale)

/-- Slices of a plane of INT8 elements: 0 K major, 1 K residual, 2 V major, 3 V residual (R207). -/
def planeSlices (plane : Nat) (vs : List Int) : List Byte :=
  packSlices (vs.map (if plane % 2 = 0 then majorSlice else residualSlice))

/-- Write a node's keys and values of a head to its candidate record, whose CRC follows (R230). -/
def State.candPut (s : State) (entry layer head node : Nat) (anchor : Bool) (k v : List Int) (sk sv : Nat) : State :=
  let m := s.model
  let frames := ((s.seq? entry).getD {}).candFrames
  let o := candOffset m layer node
  let s := (List.range 4).foldl (fun s p =>
    s.candWrite frames (o + candSlices m p head) (planeSlices p (if p < 2 then k else v))) s
  let s := s.candWrite frames (o + candScale m false head) (if anchor then leBytes 2 sk ++ leBytes 2 sv else List.replicate 4 0)
  s.candWrite frames (o + recordSize m) (leBytes 4 (crc32c (s.candRead frames o (recordSize m))))

/-- A row's keys and values of a head, where this member owns its block (R205): a decode or verify row goes to its candidate
record (R230); a row of a prefill chunk goes to its pages once no read of the scene can come any more, which here is the first
read of the layer by a later scene, or its scene change (R220; DEDUCED, log 121). -/
def State.kvWrite (s : State) (t scene row : Nat) (ar : AttRecord) (head : Nat) (o : OwnArea) : State :=
  match s.row? scene row with
  | none => s
  | some r =>
    if !ar.owns (r.pos / 64) then s
    else
      let x := s.tile t
      let k := x.ownVals o ar.headDim row false
      let v := x.ownVals o ar.headDim row true
      let sk := x.ownScale o ar.headDim row false
      let sv := x.ownScale o ar.headDim row true
      let anchor := r.pos % 64 == 0
      match r.node with
      | some n => s.candPut r.entry ar.layer head n anchor k v sk sv
      | none =>
        s.modScene scene (fun c => { c with puts := c.puts ++ (List.range 4).map (fun p =>
          { entry := r.entry, layer := ar.layer, plane := p, head := head, pos := r.pos
            slices := planeSlices p (if p < 2 then k else v)
            scale := if anchor && p % 2 == 0 then some (if p < 2 then sk else sv) else none }) })

/-- h^(−1/2) as an FP32 word (R209). -/
def invSqrtDim (h : Nat) : Nat := if h = 64 then 0x3E000000 else if h = 128 then 0x3DB504F3 else 0x3D800000

/-- A query row quantised: its BF16 scale and INT8 elements (R209). -/
def quantQuery (h : Nat) (q : List Nat) : Nat × List Int :=
  let xs := q.map (fun x => fmul x (invSqrtDim h))
  let amax := amax32 xs
  let s := if amax = 0 then 0x0080 else bf16UpDiv (num32 amax) 127
  (s, xs.map (fun x => quantNum (num32 x) (num16 s) x 127))

/-- Sum of products of two integer lists. -/
def dotInt (a b : List Int) : Int := (List.zip a b).foldl (fun v p => v + p.1 * p.2) 0

/-- The four slice lists of a position, K major, K residual, V major, V residual: from the rows of the scene that the row sees, or
from the sequence's committed pages (R206, R220). -/
def State.positionSlices (s : State) (t : Nat) (o : OwnArea) (ar : AttRecord) (head : Nat) (r : Row) (seen : List (Nat × Nat))
    (pos : Nat) : List (List Int) :=
  match seen.find? (fun p => p.2 == pos) with
  | some p =>
    let k := (s.tile t).ownVals o ar.headDim p.1 false
    let v := (s.tile t).ownVals o ar.headDim p.1 true
    [k.map majorSlice, k.map residualSlice, v.map majorSlice, v.map residualSlice]
  | none =>
    (List.range 4).map (fun p =>
      match s.pageFrame r.entry ar.layer p pos with
      | some f => unpackSlices (memReadList s.kv.hbm (sliceAddr s.model f head pos) (ar.headDim / 2))
      | none => [])

/-- Whether a row at `pos` attends to position j (R206). -/
def attends (window committed pos j : Nat) (own : Bool) : Bool :=
  decide (j ≤ pos) && (window == 0 || decide (pos < j + window)) && (decide (j < committed) || own)

/-- Scores and value rows of a block for a query row, on the major and on the exact path; a masked position scores
−infinity (R206, R209). -/
structure BlockData where
  major : List Nat
  exact : List Nat
  majorValues : List (List Nat)
  exactValues : List (List Nat)

/-- What a row needs of its member to process blocks: tile, own area, record, KV head, the row, the rows that it sees, and the
committed length (R205, R206, R213). -/
structure RowCtx where
  tile : Nat
  own : OwnArea
  att : AttRecord
  head : Nat
  row : Row
  seen : List (Nat × Nat)
  committed : Nat

/-- Whether the row attends to a position (R206). -/
def RowCtx.attends (c : RowCtx) (j : Nat) : Bool :=
  Machine.attends c.att.window c.committed c.row.pos j (c.seen.any (fun p => p.2 == j))

/-- The blocks that a member processes for a row: those that it owns with an attended position, ascending (R205, R206). -/
def RowCtx.blocks (c : RowCtx) : List Nat :=
  (List.range (c.row.pos / 64 + 1)).filter (fun b => c.att.owns b && (List.range 64).any (fun i => c.attends (64 * b + i)))

/-- Read a block for a query row (R209). -/
def State.blockData (s : State) (c : RowCtx) (q : Nat × List Int) (b : Nat) : BlockData :=
  let sK := s.blockScale c.tile c.own c.att c.head c.row c.seen b false
  let sV := s.blockScale c.tile c.own c.att c.head c.row c.seen b true
  let scale := rne32 ((num16 q.1).mul (num16 sK))
  let rows := (List.range 64).map (fun i =>
    let j := 64 * b + i
    if c.attends j then
      let x := s.positionSlices c.tile c.own c.att c.head c.row c.seen j
      let dm := 16 * dotInt (x.getD 0 []) q.2 + 8 * q.2.foldl (· + ·) 0
      let de := dm + dotInt (x.getD 1 []) q.2
      let vm := (x.getD 2 []).map (fun v => rne32 ((num16 sV).mul (numInt (16 * v + 8))))
      let ve := (List.zip (x.getD 2 []) (x.getD 3 [])).map (fun p => rne32 ((num16 sV).mul (numInt (16 * p.1 + 8 + p.2))))
      (fmul scale (rne32 (numInt dm)), fmul scale (rne32 (numInt de)), vm, ve)
    else (minusInf, minusInf, [], []))
  { major := rows.map (fun r => r.1), exact := rows.map (fun r => r.2.1)
    majorValues := rows.map (fun r => r.2.2.1), exactValues := rows.map (fun r => r.2.2.2) }

/-- Whether a block is significant: it holds the query's own position, or its maximum on the major path comes within DELTA of the
running maximum (R210). -/
def significant (delta : Nat) (diagonal : Bool) (d : BlockData) (running : Nat) : Bool :=
  diagonal || decide (order32 (fsub running delta) ≤ order32 (d.major.foldl fmax minusInf))

/-- One block of a row: the path is decided, its triple updated and the running maximum raised (R210). -/
def attendBlock (delta : Nat) (diagonal : Bool) (d : BlockData) (st : Tri × Tri × Nat) : Tri × Tri × Nat :=
  let top := fmax st.2.2 (d.major.foldl fmax minusInf)
  if significant delta diagonal d st.2.2 then (st.1.update d.exact d.exactValues, st.2.1, top)
  else (st.1, st.2.1.update d.major d.majorValues, top)

/-- The kind of a frame's check failure for a chunk, if there is one: 2 its descriptor, 1 its annex, 0 the chunk (R217, R236,
R243). -/
def State.frameFault (s : State) (m : Model) (f head pos : Nat) (major : Bool) : Option Nat :=
  let d := s.frame f
  if !d.sound then some 2
  else if !s.annexOk f then some 1
  else if s.chunkOk m f head pos major then none
  else some 0

/-- The kind of a page's check failure before the copy engine uses it whole, if there is one: its descriptor, its annex, or a
chunk with written positions (R217, R236). -/
def State.pageFault (s : State) (m : Model) (f : Nat) : Option Nat :=
  let d := s.frame f
  let heads := if m.headDim = 0 then 0 else m.kvWidth / m.headDim
  (List.range heads).findSome? (fun h => (List.range (ceilDiv d.written 64)).findSome? (fun j =>
    s.frameFault m f h (64 * j) (d.plane % 2 == 0)))

/-- Frames with a check that fails for a committed block: of the major chunks, and of the residual ones of a significant block
(R210, R236). -/
def State.badChunks (s : State) (c : RowCtx) (block : Nat) (sig : Bool) : List (Nat × Nat) :=
  if c.committed ≤ 64 * block then []
  else
    (if sig then [0, 2, 1, 3] else [0, 2]).filterMap (fun p =>
      match s.pageFrame c.row.entry c.att.layer p (64 * block) with
      | some f => (s.frameFault s.model f c.head (64 * block) (p % 2 == 0)).map (fun k => (f, k))
      | none => none)

/-- What a member's blocks give a row: its triple, the significant blocks, and frames with the kind of a failed check. -/
structure RowResult where
  exact : Tri := {}
  major : Tri := {}
  top : Nat := minusInf
  significant : List Nat := []
  bad : List (Nat × Nat) := []

/-- The member's blocks of a row in ascending order (R206, R210). -/
def State.attendRow (s : State) (c : RowCtx) (q : List Nat) : RowResult :=
  let qi := quantQuery c.att.headDim q
  c.blocks.foldl (fun (r : RowResult) b =>
    let d := s.blockData c qi b
    let diagonal := c.row.pos / 64 == b
    let sig := significant c.att.delta diagonal d r.top
    let st := attendBlock c.att.delta diagonal d (r.exact, r.major, r.top)
    { exact := st.1, major := st.2.1, top := st.2.2
      significant := if sig then r.significant ++ [b] else r.significant, bad := r.bad ++ s.badChunks c b sig }) {}

/-- Copy one accepted node of every layer, head and plane to the sequence's pages (R231). -/
def State.commitNode (s : State) (entry node pos : Nat) : State :=
  let m := s.model
  let frames := ((s.seq? entry).getD {}).candFrames
  (List.range m.layers).foldl (fun s l =>
    (List.range (if m.headDim = 0 then 0 else m.kvWidth / m.headDim)).foldl (fun s h =>
      (List.range 4).foldl (fun s p =>
        let o := candOffset m l node
        let slices := s.candRead frames (o + candSlices m p h) (m.headDim / 2)
        let scale := leNat (s.candRead frames (o + candScale m (p == 2) h) 2)
        s.writePlane entry l p h pos slices (if pos % 64 = 0 ∧ p % 2 = 0 then some scale else none)) s) s) s

/-- The candidate frame in which the record of an accepted node fails its CRC, if one does (R230, R236). -/
def State.badRecord (s : State) (entry : Nat) (path : List Nat) : Option Nat :=
  let frames := ((s.seq? entry).getD {}).candFrames
  path.findSome? (fun node => (List.range s.model.layers).findSome? (fun l =>
    if s.recordOk frames l node then none
    else some (frames.getD (candOffset s.model l node / Config.frameBytes) 0)))

/-- Whether the failing run of a scene is its members' last (R21, R236). -/
def State.lastRun (s : State) (scene : Nat) : Bool :=
  s.prm.scenes.any (fun c => c.id == scene && c.members.any (fun m => ((s.seq? m.entry).map (fun q => decide (2 ≤ q.retry))).getD false))

/-- The directory entries that hold a frame. -/
def State.holders (s : State) (f : Nat) : List Nat :=
  (s.kv.dir.filter (fun e => e.2.valid && (has e.2.globalFrames f || has e.2.windowFrames f))).map (fun e => e.1)

/-- A chunk, annex, descriptor, record or directory entry whose CRC fails (R236, R243): kinds 0 to 3. A frame that fails on
the final re-run is quarantined: every sequence that maps it ends with CRC_FAIL, and the entries that hold it are evicted. A
failing directory entry is evicted in the same way. A frame that a block reset of its stack lost raises nothing: the scenes that meet
it fail, and the next scene change does the rest (R237). A failure that no scene consumes, at a lookup or a copy, counts as one of a
final run, as no re-run of it follows (DEDUCED, log 122). -/
def State.kvCheckFail (s : State) (index kind : Nat) (scenes : List Nat) : State :=
  if kind ≠ 3 && has s.kv.lostFrames index then s.failScenes (has scenes) 512
  else
  let s := (s.orReg 0x000A080C 0x1).setReg 0x000A081C (2 ^ 31 + (kind <<< 29) + index)
  let final := scenes.isEmpty || scenes.any s.lastRun
  let s := (s.raise srcKvPageCheck 7 (index % 12) scenes).failScenes (has scenes) srcKvPageCheck
  if kind = 3 then (if final then s.evictTree [index] else s)
  else if final then
    let users := (s.prm.seqs.filter (fun p => has (s.mapped p.1 ++ p.2.candFrames) index)).map (fun p => p.1)
    let s := s.evictTree (s.holders index)
    let s := users.foldl (fun s e => s.modSeq e (fun q => { q with failStatus := Status.code .crcFail })) s
    (s.setFrame index { s.frame index with state := .quarantine }).orReg 0x000A080C 0x10
  else s

/-- Directory entries that are about to be used: a valid one whose ENTRY_CRC fails is evicted instead (R236). -/
def State.checkEntries (s : State) (is : List Nat) : State :=
  is.foldl (fun s i =>
    if ((Map.get? s.kv.dir i).map (fun d => d.valid && !d.sound)).getD false then s.kvCheckFail i 3 [] else s) s

/-- Frames by R226: where an allocation finds fewer FREE than the allocation reserve, until as many are FREE or nothing more can be
released (R234; log 135). -/
def State.roomFor (s : State) : State :=
  if Config.allocReserve ≤ s.freeCount then s
  else (s.checkEntries (Map.keys s.kv.dir)).makeRoom (2 * s.kv.dir.length) Config.allocReserve

/-- The copy engine reads whole pages: one that fails a check is never used (R236). -/
def State.checkPages (s : State) (fs : List Nat) : Bool × State :=
  match fs.findSome? (fun f => (s.pageFault s.model f).map (fun k => (f, k))) with
  | some (f, k) => (false, s.kvCheckFail f k [])
  | none => (true, s)

/-- The fetches of a member for a sequence and KV head take a row's blocks (R211): a residual chunk is fetched for a block that is
significant for some row; slot pairs beyond RES_SLOTS for every 64 blocks are taken under hold cause WING_IN, which this
model lets end at once (timing only, log 62), and set RES_OVERFLOW. -/
def State.fetchBlocks (s : State) (scene : Nat) (c : RowCtx) (significant : List Nat) : State :=
  let mine := fun (f : Fetched) => f.tile == c.tile && f.entry == c.row.entry && f.layer == c.att.layer && f.head == c.head
  let all := ((s.prm.scenes.find? (fun x => x.id == scene)).map (fun x => x.fetched)).getD []
  let old : Fetched := (all.find? mine).getD { tile := c.tile, entry := c.row.entry, layer := c.att.layer, head := c.head }
  let blocks := c.blocks.foldl (fun xs b => insertNat b xs) old.blocks
  let sig := significant.foldl (fun xs b => insertNat b xs) old.significant
  let extra := max old.extra (sig.length - ceilDiv blocks.length 64 * c.att.resSlots)
  let s := s.modScene scene (fun x => { x with
    fetched := x.fetched.filter (fun f => !mine f) ++ [{ old with blocks := blocks, significant := sig, extra := extra }] })
  let s := (s.count 48 (blocks.length - old.blocks.length)).count 49 (sig.length - old.significant.length)
  if extra = old.extra then s
  else ((s.orReg 0x000A080C 0x8).orReg 0x00000408 1).count 50 (extra - old.extra)

/-- A triple with the lanes of a head dimension. -/
def Tri.padded (t : Tri) (dim : Nat) : Tri := { t with o := (List.range dim).map (fun d => t.o.getD d (0, 0)) }

/-- Block attention of a row by a cast member: its triple takes the result, exact merged with major, exact as operand A (R210). A
chunk that fails its check is never used: the triple stays, and the scene fails (R236). -/
def State.attend (s : State) (t scene tri row : Nat) (ar : AttRecord) (head q : Nat) (o : OwnArea) : State :=
  match s.row? scene row with
  | none => s
  | some r =>
    let s := s.settleWrites scene ar.layer
    let c : RowCtx := { tile := t, own := o, att := ar, head := head, row := r, seen := s.seen scene r
                        committed := s.committedAt scene r }
    let out := s.attendRow c ((s.tile t).sramNats q 4 ar.headDim)
    let s := s.fetchBlocks scene c out.significant
    if out.bad.isEmpty then s.setTri t scene tri ((out.exact.merge out.major).padded ar.headDim)
    else out.bad.foldl (fun s f => s.kvCheckFail f.1 f.2 [scene]) s

/-- Whether a member takes the result of another at a level of its cast's tree: member i that of i + 2^ℓ, where i is a multiple of
2^(ℓ + 1) and i + 2^ℓ < C (R212). -/
def AttRecord.merges (r : AttRecord) (level : Nat) : Bool :=
  decide (r.member % 2 ^ (level + 1) = 0) && decide (r.member + 2 ^ level < r.castSize)

/-- A merge of a cast's tree, with the member's own triple as operand A (R140, R212). -/
def State.mergeAt (s : State) (t scene : Nat) (ar : AttRecord) (level dst src : Nat) : State :=
  if ar.merges level then
    s.setTri t scene dst ((((s.tile t).tri dst ar.headDim).merge ((s.tile t).tri src ar.headDim)).padded ar.headDim)
  else s

/-- The pin chain of an entry: itself and every ancestor (R227). -/
def State.pinChain (s : State) (i : Nat) : List Nat := chainOf s.kv.dir s.kv.dir.length i

/-- Result bytes of PREFIX_PIN and PREFIX_UNPIN (R396). -/
def State.pinResult (s : State) (i : Nat) : List Byte :=
  leBytes 4 i ++ leBytes 2 (((Map.get? s.kv.dir i).map (fun d => d.pins)).getD 0)

/-- Whether the entry in a slot of the directory passes its ENTRY_CRC (R223). -/
def State.entrySound (s : State) (i : Nat) : Bool := ((Map.get? s.kv.dir i).map (fun d => d.sound)).getD false

/-- Whether a slot of the directory holds a valid entry; an entry whose ancestor fails its ENTRY_CRC has been evicted with it (R236). -/
def State.entryValid (s : State) (i : Nat) : Bool := ((Map.get? s.kv.dir i).map (fun d => d.valid)).getD false

/-- A lookup of the directory: a matching entry whose ENTRY_CRC fails is never used (R223, R236). -/
def State.lookupEntry (s : State) (h : Nat × Nat) : Option Nat × State :=
  match s.findEntry h with
  | none => (none, s)
  | some i =>
    if s.entrySound i then (some i, s) else (none, s.kvCheckFail i 3 [])

/-- PREFIX_PIN pins an entry and its ancestors (R227). -/
def execPrefixPin (e : Entry) (s : State) : Host.Outcome State Fault Refusal :=
  runCmd e 0x36 false (fun s =>
    match s.lookupEntry (e.op 8 8, e.op 16 8) with
    | (none, s) => done s .invalid []
    | (some i, s) =>
      let chain := s.pinChain i
      let s := s.checkEntries chain
      if !s.entryValid i then done s .invalid []
      else if chain.any (fun j => ((Map.get? s.kv.dir j).map (fun d => d.pins)).getD 0 == 65535) then done s .noSpace []
      else
        let s := chain.foldl (fun s j => s.modDir j (fun d => { d with pins := d.pins + 1 })) s
        let s := s.modDir i (fun d => { d with lastUse := s.prm.scCount })
        done s .ok (s.pinResult i)) s

/-- PREFIX_UNPIN takes a pin from an entry and its ancestors (R227). -/
def execPrefixUnpin (e : Entry) (s : State) : Host.Outcome State Fault Refusal :=
  runCmd e 0x37 false (fun s =>
    match s.lookupEntry (e.op 8 8, e.op 16 8) with
    | (none, s) => done s .invalid []
    | (some i, s) =>
      let s := s.checkEntries (s.pinChain i)
      if !s.entryValid i then done s .invalid []
      else if ((Map.get? s.kv.dir i).map (fun d => d.pins)).getD 0 = 0 then done s .invalid []
      else
        let s := (s.pinChain i).foldl (fun s j => s.modDir j (fun d => { d with pins := d.pins - 1 })) s
        done s .ok (s.pinResult i)) s

end Sys2Proof.Machine
end

