-- ==== Sys2Proof/Machine/Journal.lean ====
section
/-!
DEFINITION. Packed copies in HBM (R282 to R285, R297), the contents that a placement gives an array (R299, R300, R323), the recast
journal (R303, R315 to R317, R334) and the programming of arrays (R302 to R305).
-/
namespace Sys2Proof

/-- Weights of a group by format code; 0 for a code that R283 does not list. -/
def formatWeights : Nat → Nat
  | 1 => 256
  | 2 => 224
  | 3 => 448
  | 8 => 56
  | 9 => 28
  | _ => 0

/-- Whether a format is placed in arrays: TERNARY, INT2 or BINARY (R283, R299). -/
def arrayPlaced (f : Nat) : Bool := f == 1 || f == 2 || f == 3

/-- Groups of a tensor (R284). -/
def Tensor.groupCount (t : Tensor) : Nat :=
  let n := formatWeights t.format
  if t.layout = 0 then ceilDiv (t.rowsI * t.colsO) n else t.colsO * ceilDiv t.rowsI n

/-- Tensor group index of weight (i, c), and its place in the group (R284). -/
def Tensor.groupOf (t : Tensor) (i c : Nat) : Nat × Nat :=
  let n := formatWeights t.format
  if n = 0 then (0, 0)
  else if t.layout = 0 then ((c * t.rowsI + i) / n, (c * t.rowsI + i) % n)
  else (c * ceilDiv t.rowsI n + i / n, i % n)

/-- Columns of an array block: 512 for INT2, else 1,024 (R299). -/
def Tensor.blockCols (t : Tensor) : Nat := if t.format = 2 then 512 else 1024

/-- Row and column blocks of an array-placed tensor (R299). -/
def Tensor.blocks (t : Tensor) : Nat × Nat := (ceilDiv t.rowsI 1024, ceilDiv t.colsO t.blockCols)

/-- The placements of a position, by array (R298). -/
def CueSheet.placed (c : CueSheet) (home : Nat) : List Placement := c.placements.filter (fun p => p.tile == home)

/-- The layer of a tensor as the recast orders it: 0 to 511, or 512 + h for speculative head h (R288, R309). -/
def Tensor.recastLayer (t : Tensor) : Nat := if 0xFFF2 ≤ t.layer then 512 + (t.layer - 0xFFF2) else t.layer

/-- Plaintext length of a segment (R289). -/
def SegRec.plain (g : SegRec) : Nat := g.stored - (if g.encrypted then 16 else 0)

/-- Offset of a segment in the copy's byte sequence (R297). -/
def Manifest.segOffset (m : Manifest) (seg : Nat) : Nat :=
  (m.segments.take seg).foldl (fun o g => (o + g.plain + 63) / 64 * 64) 0

/-- Frames that the plaintext copy needs (R295, R297). -/
def Manifest.copyFrames (m : Manifest) : Nat := ceilDiv (m.segOffset m.segments.length) Config.frameBytes

/-- Weight k of a group by its format code (R283). -/
def groupWeight (format : Nat) (g : List Byte) (k : Nat) : Int :=
  match format with
  | 1 =>
    if k = 255 then (fieldAt g 56 1 : Int) - 1
    else ((fieldAt g (4 + k / 5) 1 / 3 ^ (k % 5)) % 3 : Nat) - 1
  | 2 => signedOf 2 (bitsOf (fieldAt g (4 + k / 4) 1) (2 * (k % 4)) 2)
  | 3 => if Nat.testBit (fieldAt g (4 + k / 8) 1) (k % 8) then 1 else -1
  | 8 => signedOf 8 (fieldAt g (4 + k) 1)
  | _ => (fieldAt g (4 + 2 * k) 2 : Int)

end Sys2Proof

namespace Sys2Proof.Machine

/-- HBM address of byte `o` of a copy (R297). -/
def Copy.addr (c : Copy) (o : Nat) : Nat := frameAddr (c.frames.getD (o / Config.frameBytes) 0) + o % Config.frameBytes

/-- Byte offset of a tensor group in the copy, through the segment map (R289, R297). -/
def Copy.groupOffset (c : Copy) (t : Tensor) (g : Nat) : Option Nat :=
  ((List.range t.segCount).map (t.firstSeg + ·)).findSome? (fun s =>
    match c.man.segments[s]? with
    | some r => if r.firstGroup ≤ g ∧ g < r.firstGroup + r.plain / 64 then some (c.man.segOffset s + 64 * (g - r.firstGroup)) else none
    | none => none)

/-- The 64 bytes of a tensor group in HBM; a group that no segment holds reads as padding. -/
def State.copyGroup (s : State) (c : Copy) (t : Tensor) (g : Nat) : List Byte :=
  match c.groupOffset t g with
  | some o => memReadList s.kv.hbm (c.addr o) 64
  | none => []

/-- Whether the CRC-32C of a packed group holds (R282, R286). -/
def groupSound (g : List Byte) : Bool := fieldAt g 60 4 == crc32c (g.take 60)

/-- Whether the groups that hold some weights of a tensor pass their CRC (R286). -/
def State.groupsSound (s : State) (c : Copy) (t : Tensor) (ws : List (Nat × Nat)) : Bool :=
  ws.all (fun w => decide (t.rowsI ≤ w.1) || decide (t.colsO ≤ w.2) || groupSound (s.copyGroup c t (t.groupOf w.1 w.2).1))

/-- Whether every group that holds a weight of a placed block passes its CRC (R286). -/
def State.blockSound (s : State) (c : Copy) (t : Tensor) (p : Placement) : Bool :=
  s.groupsSound c t ((List.range 1024).flatMap (fun r =>
    (List.range t.blockCols).map (fun j => (1024 * p.rowBlock + r, t.blockCols * p.colBlock + j))))

/-- Weight (i, c) of a tensor; outside the tensor 0 (R284, R299). -/
def State.weight (s : State) (c : Copy) (t : Tensor) (i col : Nat) : Int :=
  if t.rowsI ≤ i ∨ t.colsO ≤ col then 0
  else
    let p := t.groupOf i col
    groupWeight t.format (s.copyGroup c t p.1) p.2

/-- The BF16 scale of a column in row block k: that of the group of its first weight (R285). -/
def State.columnScale (s : State) (c : Copy) (t : Tensor) (k col : Nat) : Nat :=
  if t.rowsI ≤ 1024 * k ∨ t.colsO ≤ col then 0 else fieldAt (s.copyGroup c t (t.groupOf (1024 * k) col).1) 2 2

/-- A weight as a cell of 2 bits (R300). -/
def cellCode (w : Int) : Nat := if w = 1 then 1 else if w = -1 then 2 else 0

/-- The cell (r, j) of an array that holds a block of a tensor: an INT2 weight takes two cells, high slice first (R31, R299);
a REVERSED block has its columns in the other order (R322). -/
def State.cellOf (s : State) (c : Copy) (t : Tensor) (p : Placement) (r j : Nat) : Nat :=
  let j := if p.reversed then 1023 - j else j
  let i := 1024 * p.rowBlock + r
  if t.format = 2 then
    let w := int2Slices (s.weight c t i (512 * p.colBlock + j / 2))
    cellCode (if j % 2 = 0 then w.1 else w.2)
  else cellCode (s.weight c t i (1024 * p.colBlock + j))

/-- Four cells to a byte, the first in bits [1:0] (R300, R316). -/
def packCells : List Nat → List Byte
  | a :: b :: c :: d :: xs => leBytes 1 (a + 4 * b + 16 * c + 64 * d) ++ packCells xs
  | _ => []

/-- The content digest of cells given by row and column (R316). -/
def contentDigest (cell : Nat → Nat → Nat) : Nat :=
  leNat (shake256 (((List.range 1024).map (fun r => packCells ((List.range 1024).map (cell r)))).flatten) 8)

/-- Digest of the new contents of an array, computed from the copy (R303). -/
def State.newDigest (s : State) (c : Copy) (t : Tensor) (p : Placement) : Nat := contentDigest (s.cellOf c t p)

/-- The column scale area of a placed array (R300): a BF16 value for each array column, or INT2 column. -/
def State.scaleArea (s : State) (c : Copy) (x : Tensor) (p : Placement) : List Byte :=
  let n := x.blockCols
  ((List.range n).map (fun j =>
    leBytes 2 (s.columnScale c x p.rowBlock (n * p.colBlock + (if p.reversed then n - 1 - j else j))))).flatten

/-- The outlier row area of a placed array (R300): 256 bytes for each slot; an unused slot has none of its weights. -/
def State.outlierArea (s : State) (c : Copy) (x : Tensor) (p : Placement) : List Byte :=
  (p.slots.map (fun r =>
    if r < 1024 then packCells ((List.range 1024).map (s.cellOf c x p r)) else List.replicate 256 0)).flatten

/-- Rows and columns of the array that the tensor's block uses (R71, R299). -/
def usedOf (t : Tensor) (p : Placement) : Nat × Nat :=
  (min 1024 (t.rowsI - 1024 * p.rowBlock),
   let cols := min t.blockCols (t.colsO - t.blockCols * p.colBlock)
   if t.format = 2 then 2 * cols else cols)

/-- Key of an array in the journal. -/
def arrayKey (t a : Nat) : Nat := 8 * t + a

/-- An array's two journal slots. -/
def State.slots (s : State) (t a : Nat) : JournalSlot × JournalSlot := Map.getD s.ldr.journal (arrayKey t a) ({}, {})

/-- An array's governing slot. -/
def State.gov (s : State) (t a : Nat) : Option JournalSlot := governing (s.slots t a)

/-- Write the slot that does not govern, with SEQ one higher (R317). A write that fails leaves the other slot governing (R501). -/
def State.journalWrite (s : State) (t a : Nat) (f : JournalSlot → JournalSlot) : State :=
  let p := s.slots t a
  let g := (governing p).getD {}
  let r := s.ledger.attempt
  let n := { f g with seq := g.seq + 1, crcOk := r.1 }
  let q := if governing p = some p.1 then (p.1, n) else (n, p.2)
  { s with ledger := r.2, ldr := { s.ldr with journal := Map.put s.ldr.journal (arrayKey t a) q } }.ledgerSettle

/-- Whether a tile's placed arrays of a position all serve: valid for the epoch and calibrated (R189). -/
def State.allServe (s : State) (c : CueSheet) (home t : Nat) : Bool :=
  (c.placed home).all (fun p => Nat.testBit (s.tile t).valid p.array && Nat.testBit (s.tile t).trimsValid p.array)

/-- The STREAMED bit of an understudy sets again where an array of the position that it serves runs on the streamed tier (R188,
R197, R204). -/
def State.restream (s : State) (t : Nat) : State :=
  match s.fabric.active with
  | none => s
  | some c => { s with fabric := { s.fabric with substs := s.fabric.substs.map (fun (x : Subst) =>
      if x.under = t && !s.allServe c x.home t then { x with streamed := true } else x) } }

/-- Set or clear an array's ARRAY_VALID bit, in the data path and in firmware's copy of it (R193). -/
def State.setValid (s : State) (t a : Nat) (on : Bool) : State :=
  ((s.modTile t (fun x => { x with valid := if on then x.valid ||| 2 ^ a else clearBits x.valid (2 ^ a) })).restream t).syncMgmt [t]

/-- Whether an array is valid and holds an epoch (R301, R320). -/
def State.holdsEpoch (s : State) (t a epoch : Nat) : Bool :=
  Nat.testBit (s.tile t).valid a && ((s.gov t a).map (fun g => g.epoch == epoch)).getD false

/-- Whether every placed array of a position is valid for an epoch on a tile. -/
def State.placedValid (s : State) (c : CueSheet) (home t epoch : Nat) : Bool :=
  (c.placed home).all (fun p => s.holdsEpoch t p.array epoch)

/-- The copy of an epoch, where one is held. -/
def State.copyOf (s : State) (epoch : Nat) : Option Copy :=
  ([s.ldr.serving, s.ldr.old, s.ldr.recast.map (fun r => r.copy), s.ldr.sealRun.map (fun r => r.copy), s.ldr.current].filterMap
    id).find? (fun c => decide (c.man.epoch = epoch))

/-- Whether a placed array serves an epoch that it does not hold: its contents, column scales and outlier rows are equal in that epoch's
copy and in the one that it holds (R310). -/
def State.equalUnder (s : State) (t epoch : Nat) (p : Placement) : Bool :=
  match s.gov t p.array with
  | none => false
  | some g =>
    match s.copyOf g.epoch, s.copyOf epoch with
    | some o, some n =>
      match o.man.tensors[p.tensor]?, n.man.tensors[p.tensor]? with
      | some x, some y =>
        Nat.testBit (s.tile t).valid p.array && s.newDigest n y p == g.digest && s.scaleArea n y p == s.scaleArea o x p &&
          s.outlierArea n y p == s.outlierArea o x p
      | _, _ => false
    | _, _ => false

/-- Whether a placement belongs to a layer. -/
def inLayer (m : Manifest) (layer : Nat) (p : Placement) : Bool :=
  ((m.tensors[p.tensor]?).map (fun t => t.recastLayer == layer)).getD false

/-- Whether the layer of a placement is REWRITING for a scene: its arrays serve no one from the first scene on that starts at or
after the scene change at which it became so (R309, R310). -/
def State.rewriting (s : State) (scene : Nat) (p : Placement) : Bool :=
  s.ldr.recast.any (fun r => r.current.any (fun l => inLayer r.copy.man l p) && decide (r.barrier ≤ scene))

/-- Whether an array serves both productions of a rolling recast throughout (R310). -/
def State.equalUnderBoth (s : State) (t : Nat) (p : Placement) : Bool :=
  match s.ldr.serving, s.ldr.old with
  | some a, some b => s.equalUnder t a.man.epoch p && s.equalUnder t b.man.epoch p
  | _, _ => false

/-- The seal whose step 4 is under way (R307). -/
def State.sealing (s : State) : Option SealRun := s.ldr.sealRun.filter (fun r => !r.draining)

/-- The cue sheet whose placement table programs the arrays: the one that a seal will activate, else the active one (R306,
R309). -/
def State.programSheet (s : State) : Option CueSheet :=
  match s.sealing with
  | some r => some r.sheet
  | none => s.fabric.active

/-- Whether a layer is REWRITING or NEW in a rolling recast (R309). -/
def Recast.reached (r : Recast) (p : Placement) : Bool :=
  r.current.any (fun l => inLayer r.copy.man l p) || r.finished.any (fun l => inLayer r.copy.man l p)

/-- The copy that an understudy's array is programmed from: a seal's; in a rolling recast the new one's for a layer that is REWRITING
or NEW, and for an OLD one that of the epoch that the home array holds; else the serving production's (R189, R310, R314). -/
def State.understudyCopy (s : State) (home : Nat) (p : Placement) : Option Copy :=
  match s.sealing, s.ldr.recast with
  | some r, _ => some r.copy
  | none, some r =>
    if r.reached p then some r.copy
    else
      match (s.gov home p.array).bind (fun g => s.copyOf g.epoch) with
      | some c => some c
      | none => if s.ldr.old.isSome then s.ldr.old else s.ldr.serving
  | none, none => s.ldr.serving

/-- Whether a scene that started before the layer being rewritten became REWRITING is still in flight: none of the layer's arrays
is programmed until then (R310). -/
def Recast.held (r : Recast) (s : State) : Bool := s.prm.scenes.any (fun q => decide (q.id < r.barrier))

/-- Whether an array waits for the scenes in flight to leave its layer (R310). -/
def State.layerHeld (s : State) (p : Placement) : Bool :=
  s.ldr.recast.any (fun r => r.held s && r.current.any (fun l => inLayer r.copy.man l p))

/-- The position that a tile serves now. -/
def State.servedBy (s : State) (t : Nat) : Option Nat := (s.positionOf t).filter (fun h => s.servingTile h == t)

/-- The home tile that a passed rehearsal restores (R492). -/
def State.restoring (s : State) : Option Nat :=
  match s.integ.rehearsal with
  | some r => if r.passed && !isUnderstudy r.tile then some r.tile else none
  | none => none

/-- Arrays of understudies that serve on the streamed tier, and of a home tile that a passed rehearsal restores, that do not yet
hold their epoch (R188, R189, R492). None takes the Tromal layout: its position stays on the streamed tier (R323; DEDUCED, log 40). -/
def State.understudyLeft (s : State) : List (Nat × Placement × Copy) :=
  match s.programSheet with
  | none => []
  | some c =>
    ((s.fabric.substs.map (fun x => (x.home, x.under)) ++ (s.restoring.map (fun t => (t, t))).toList).map (fun x =>
      (c.placed x.1).filterMap (fun p =>
        match s.understudyCopy x.1 p with
        | some k =>
          if p.reversed || s.layerHeld p || s.holdsEpoch x.2 p.array k.man.epoch || ((s.gov x.2 p.array).map (fun g => g.failed && g.epoch == k.man.epoch)).getD false
          then none else some (x.2, p, k)
        | none => none))).flatten

/-- The arrays that a seal or a rolling recast has left, each with its placement and copy. -/
def State.recastLeft (s : State) : List (Nat × Placement × Copy) :=
  match s.programSheet with
  | none => []
  | some c =>
    let find := fun (k : Copy) (x : Nat × Nat) =>
      ((c.placed x.1).find? (fun p => p.array == x.2)).map (fun p => (s.servingTile x.1, p, k))
    (match s.sealing with
     | some r => r.left.filterMap (find r.copy)
     | none => []) ++
    (match s.ldr.recast with
     | some r => if r.held s then [] else r.left.filterMap (find r.copy)
     | none => [])

/-- Put an array in its place of a list that is sorted by tile and array. -/
def insertArray (x : Nat × Placement × Copy) : List (Nat × Placement × Copy) → List (Nat × Placement × Copy)
  | [] => [x]
  | y :: ys => if arrayKey x.1 x.2.1.array ≤ arrayKey y.1 y.2.1.array then x :: y :: ys else y :: insertArray x ys

/-- Every array to program: ascending tiles (R304). -/
def State.toProgram (s : State) : List (Nat × Placement × Copy) :=
  let xs := s.recastLeft
  let ys := s.understudyLeft.filter (fun y => !xs.any (fun x => x.1 == y.1 && x.2.1.array == y.2.1.array))
  (xs ++ ys).foldl (fun l x => insertArray x l) []

/-- An array of the tile that serves a position leaves the lists of arrays that a seal or a rolling recast has left. -/
def State.leaveLeft (s : State) (t a : Nat) : State :=
  let drop := fun (xs : List (Nat × Nat)) => xs.filter (fun x => !(s.servedBy t == some x.1 && x.2 == a))
  { s with ldr := { s.ldr with
      sealRun := s.ldr.sealRun.map (fun r => { r with left := drop r.left })
      recast := s.ldr.recast.map (fun r => { r with left := drop r.left }) } }

/-- Count an array, a home tile's or an understudy's, that a seal finds programmed or unchanged (R305, R306). -/
def State.tally (s : State) (changed : Bool) : State :=
  { s with ldr := { s.ldr with sealRun := s.ldr.sealRun.map (fun r =>
      if r.draining then r
      else if changed then { r with programmed := r.programmed + 1 }
      else { r with unchanged := r.unchanged + 1 }) } }

/-- Placed rows and columns in the fields of ARR_INFO_n (R71). -/
def shapeWord (x : Tensor) (p : Placement) : Nat := ((usedOf x p).1 <<< 11) + (usedOf x p).2

/-- Note the placed rows and columns of what an array is given (R71; DESIGN CHOICE, log 39). -/
def State.noteShape (s : State) (t a shape : Nat) : State :=
  { s with ldr := { s.ldr with shapes := Map.put s.ldr.shapes (arrayKey t a) shape } }

/-- ARR_INFO_n of an array, from the placement table (R71, R299). -/
def State.writeArrInfo (s : State) (t : Nat) (x : Tensor) (p : Placement) : State :=
  (s.noteShape t p.array (shapeWord x p)).setReg (tileReg t (0x20 + 4 * p.array)) ((x.format <<< 24) + shapeWord x p)

/-- Fill the areas of a placed array from a copy (R300). -/
def State.fillArea (s : State) (t : Nat) (c : Copy) (x : Tensor) (p : Placement) : State :=
  let s := s.sramWrite t p.scaleAddr (s.scaleArea c x p)
  if p.outlierAddr = 0 then s else s.sramWrite t p.outlierAddr (s.outlierArea c x p)

/-- An array holds its new contents: cells, ARR_INFO_n and row sums (R299, R306, R72), and where a cue sheet is active its areas too,
which belong to the epoch that the array holds (R300). -/
def State.fillArray (s : State) (t : Nat) (c : Copy) (x : Tensor) (p : Placement) : State :=
  let cells := ((List.range 1024).map (fun r => (List.range 1024).filterMap (fun j =>
    let v := s.cellOf c x p r j
    if v = 0 then none else some (cellKey p.array r j, v)))).flatten
  let s := s.modTile t (fun y => { y with
    cells := cells.foldl (fun m e => Map.put m e.1 e.2) (Map.dropKeys y.cells (fun k => decide (k / 1048576 = p.array))) })
  let s := (s.writeArrInfo t x p).writeRowSums t p.array
  if s.fabric.active.isSome then s.fillArea t c x p else s

/-- Journal fields of a new content (R315). -/
def JournalSlot.take (g : JournalSlot) (c : Copy) (digest format : Nat) : JournalSlot :=
  { g with epoch := c.man.epoch, identity := c.man.identity % 2 ^ 64, digest := digest, format := format }

/-- Mark an array IN_PROGRESS and start its pulses (R302, R304, R317). -/
def State.beginArray (s : State) (t : Nat) (p : Placement) (c : Copy) (d format : Nat) : State :=
  let s := s.journalWrite t p.array (fun g => { g.take c d format with
    inProgress := true, valid := false, failed := false, tromal := false, recasts := min 65535 (g.recasts + 1) })
  let s := match c.man.tensors[p.tensor]? with
    | some x => s.noteShape t p.array (shapeWord x p)
    | none => s
  let s := ((s.setValid t p.array false).modTile t (fun y => { y with programming := some p.array })).enableFl t
  if 10000 ≤ s.recasts t p.array then s.leaveLife t p.array else s

/-- Whether an array holds some contents, by its journal digest (R303). -/
def State.holdsContents (s : State) (t a digest : Nat) : Bool :=
  Nat.testBit (s.tile t).valid a &&
    ((s.gov t a).map (fun g => g.valid && !g.inProgress && g.digest == digest)).getD false

/-- An array takes a new epoch in its journal without a pulse (R303). -/
def State.adopt (s : State) (t : Nat) (p : Placement) (c : Copy) (x : Tensor) (d : Nat) : State :=
  let s := s.journalWrite t p.array (fun g => { g.take c d x.format with valid := true, inProgress := false })
  (s.writeArrInfo t x p).writeRowSums t p.array

/-- An array that fails is left with ARRAY_VALID 0 and journal state FAILED, and RECAST_VERIFY_FAIL is raised, which may substitute
its position as part of the same recast (R305, R306). -/
def State.failArray (s : State) (t a : Nat) (f : JournalSlot → JournalSlot) : State :=
  let s := s.journalWrite t a (fun g => { f g with inProgress := false, valid := false, failed := true })
  let planned := s.fabric.cutovers.length
  let s := (((s.setValid t a false).leaveLeft t a).orReg 0x000C0804 0x10).raise srcRecastVerify 1 t []
  let n := s.fabric.cutovers.length - planned
  let run := s.ldr.sealRun.map (fun (r : SealRun) => { r with substituted := r.substituted + n })
  { s with ldr := { s.ldr with sealRun := run } }

/-- Start the programming of an array (R303, R317): one that holds the new contents already takes the new epoch without a
pulse, in a rolling recast when its layer becomes NEW (R312); another is marked IN_PROGRESS. None is programmed in the Tromal
layout (R323). Where a group of its contents fails its CRC the array fails as under R305 (R286; DESIGN CHOICE, log 144). -/
def State.startArray (s : State) (t : Nat) (p : Placement) (c : Copy) : State :=
  match c.man.tensors[p.tensor]? with
  | none => s.leaveLeft t p.array
  | some x =>
    let d := s.newDigest c x p
    let rolling := s.ldr.recast.any (fun r => r.left.any (fun y => s.servedBy t == some y.1 && y.2 == p.array))
    if !s.blockSound c x p then s.failArray t p.array (fun g => g.take c d x.format)
    else if s.holdsContents t p.array d then
      let s := if rolling then s else s.adopt t p c x d
      (s.tally false).leaveLeft t p.array
    else if p.reversed then s.leaveLeft t p.array
    else s.beginArray t p c d x.format

/-- Tiles that program now (R304). -/
def State.programmingTiles (s : State) : List Nat := (s.tiles.filter (fun e => e.2.programming.isSome)).map (fun e => e.1)

/-- Start arrays until RCT_CONFIG.PARALLEL tiles program, one array for a tile, tiles ascending (R304); `fuel` bounds the
arrays that are looked at. -/
def State.pumpArrays : Nat → State → State
  | 0, s => s
  | fuel + 1, s =>
    let busy := s.programmingTiles
    if s.field 0x000C0810 16 8 ≤ busy.length then s
    else
      match s.toProgram.find? (fun x => !has busy x.1 && (s.tile x.1).inReset == 0) with
      | some x => State.pumpArrays fuel (s.startArray x.1 x.2.1 x.2.2)
      | none => s

/-- Start what may be programmed now; while a copy is being fetched again nothing is (R319). -/
def State.pump (s : State) : State := if s.ldr.refill.isEmpty then s.pumpArrays (s.toProgram.length + 1) else s

end Sys2Proof.Machine
end

