-- ==== Sys2Proof/Machine/Program.lean ====
section
/-!
DEFINITION. The actions of an engine program (04, 06; log 4), each on the tile that serves its position, for a scene in flight: what
a scheduled cycle of Machine/Cycle.lean runs. Weights that an action streams come from the packed copy in HBM (R27, R188,
R301), rows from the scene (R251).
-/
namespace Sys2Proof.Machine

/-- The production epoch of the sequence of a scene row, or of the active cue sheet (R249, R301). -/
def State.rowEpoch (s : State) (scene row : Nat) : Nat :=
  match (s.row? scene row).bind (fun r => s.seq? r.entry) with
  | some q => q.epoch
  | none => (s.fabric.active.map (fun c => c.epoch)).getD 0

/-- The packed copy that a scene row streams from, and one of its tensors (R301). While segments of a copy are being fetched again
there is none (R319). -/
def State.streamed (s : State) (scene row tensor : Nat) : Option (Copy × Tensor) :=
  if s.ldr.refill.isEmpty then
    (s.copyOf (s.rowEpoch scene row)).bind (fun c => (c.man.tensors[tensor]?).map (fun t => (c, t)))
  else none

/-- The placement of an array of a position in the active cue sheet (R298). -/
def State.placement? (s : State) (home array : Nat) : Option Placement :=
  s.fabric.active.bind (fun c => (c.placed home).find? (fun p => p.array == array))

/-- Whether an array serves the epoch of a scene row's sequence: it is valid and holds it, or holds the same for it, and its layer is
not REWRITING; an array that is equal under both productions serves throughout (R301, R310). -/
def State.servesEpoch (s : State) (t array scene row : Nat) : Bool :=
  let epoch := s.rowEpoch scene row
  match (s.positionOf t).bind (fun home => s.placement? home array) with
  | some p => s.equalUnderBoth t p || (!s.rewriting scene p && (s.holdsEpoch t array epoch || s.equalUnder t epoch p))
  | none => s.holdsEpoch t array epoch

/-- Whether a tile converts an MVM of a slot in its array for a scene row: the array serves the epoch of the row's sequence, is
calibrated and at rest, and no direct run of the tile is under way (R99, R188, R189, R301). -/
def State.usesArray (s : State) (t array scene row : Nat) : Bool :=
  Nat.testBit (s.tile t).trimsValid array && (s.tile t).programming.isNone && (s.tile t).calRun.all (fun r => !r.direct) &&
    s.servesEpoch t array scene row

/-- Streamed weights are not to be had, or a group of them fails its CRC: the scene fails. A failing group is a failing check value
at its consumer, the tile (R286, R319, R473). -/
def State.streamFail (s : State) (t scene : Nat) (held : Bool) : State :=
  if held then s.checkFail 1 t [scene] else s.failScenes (fun i => i == scene) 512

/-- The layer code of a section (R132, R255). -/
def State.sectionLayer (s : State) (sec : Nat) : Nat :=
  ((s.fabric.active.bind (fun c => c.sections[sec]?)).map (fun x => x.layer)).getD 0xFFFF

/-- The key of a close for a scene row, in a section's layer at a site; position 0 where the scene has no such row (R132, R133). -/
def State.closeKey (s : State) (scene row sec site : Nat) : List Byte :=
  keyBlock 0 (((s.row? scene row).map (fun r => r.pos)).getD 0) (s.sectionLayer sec) site 1

/-- Mark a unit of a tile as having issued work in the present cycle: bit 1 MAC, 2 softmax and merge, 3 LUT (R149). -/
def State.busy (s : State) (t bit : Nat) : State := s.modTile t (fun x => { x with active := x.active ||| 2 ^ bit })

/-- Sixteen lookups over a group of four rows of a tensor block, from the packed copy (R27, R135, R286). -/
def State.lookupWork (s : State) (t sec scene table lane tensor rowBlock colBlock group col : Nat) (v : VecRef) : State :=
  match s.streamed scene v.row tensor with
  | none => s.streamFail t scene false
  | some (c, x) =>
    let rows := (List.range 4).map (fun k => 1024 * rowBlock + 4 * group + k)
    let column := fun (i : Nat) => x.blockCols * colBlock + col + i
    if s.groupsSound c x ((List.range 16).flatMap (fun i => rows.map (fun r => (r, column i)))) then
      s.lookupAdd t sec scene table lane v (x.format == 2) (fun i => rows.map (fun r => s.weight c x r (column i)))
    else s.streamFail t scene true

/-- FP32 value of a weight of an INT8 or BF16 tensor: weight times the scale of its group (R283, R285). -/
def State.denseWeight (s : State) (c : Copy) (x : Tensor) (i col : Nat) : Nat :=
  let p := x.groupOf i col
  let g := s.copyGroup c x p.1
  let scale := num16 (fieldAt g 2 2)
  if x.format = 9 then rne32 ((num16 (fieldAt g (4 + 2 * p.2) 2)).mul scale) else rne32 ((numInt (groupWeight 8 g p.2)).mul scale)

/-- Write the FP32 results of an engine function to tile SRAM; a NaN among them is noted (R119). -/
def State.putFp (s : State) (t scene addr : Nat) (xs : List Nat) : State :=
  let s := s.sramPut t addr 4 xs
  if xs.any isNan32 then s.noteNan t scene else s

/-- Elements of a function of FP32 vectors whose arithmetic the spec leaves open (R24; free, log 124). -/
def openVec (kind : Nat) (xs ys : List Nat) (n : Nat) : List Nat := (List.range n).map (fun i => Config.openFp kind xs ys i % 2 ^ 32)

/-- An elementwise function of two FP32 vectors (R24): sums and products are rne32 (R119), the activations are free (log 124). -/
def vectorOp (op : VecOp) (a b : List Nat) : List Nat :=
  match op with
  | .add => (List.zip a b).map (fun p => fadd p.1 p.2)
  | .mul => (List.zip a b).map (fun p => fmul p.1 p.2)
  | .silu => openVec 4 a [] a.length
  | .gelu => openVec 5 a [] a.length

/-- Embedding row of a scene row's token (R24): column `token` of the tensor. -/
def State.embedWork (s : State) (t scene row tensor n dst : Nat) : State :=
  match s.row? scene row, s.streamed scene row tensor with
  | some r, some (c, x) =>
    if s.groupsSound c x ((List.range n).map (fun i => (i, r.token))) then
      s.putFp t scene dst ((List.range n).map (fun i => s.denseWeight c x i r.token))
    else s.streamFail t scene true
  | some _, none => s.streamFail t scene false
  | none, _ => s

/-- Logits of a scene row from the LM head in HBM: a function of the row's vector and of the head's column (R17, R24; its rounding is
free, log 124). The first logits of a row and head stay (R259). -/
def State.lmHeadWork (s : State) (t scene row head tensor src n : Nat) : State :=
  match s.row? scene row, s.streamed scene row tensor with
  | some _, some (c, x) =>
    let v := (s.tile t).sramNats src 4 n
    if s.groupsSound c x ((List.range x.colsO).flatMap (fun o => (List.range n).map (fun i => (i, o)))) then
      let z := (List.range x.colsO).map (fun o =>
        (BitVec.ofNat 32 (Config.openFp 6 v ((List.range n).map (fun i => s.denseWeight c x i o)) 0) : Word))
      s.modScene scene (fun sc =>
        if sc.logits.any (fun l => l.1 == row && l.2.1 == head) then sc else { sc with logits := sc.logits ++ [(row, head, z)] })
    else s.streamFail t scene true
  | some _, none => s.streamFail t scene false
  | none, _ => s

/-- Rows of a scene that selected an expert in a layer, in row order (R25). -/
def Scene.selected (c : Scene) (layer expert : Nat) : List Nat :=
  (c.experts.filter (fun e => e.1 == layer && has e.2.2 expert)).map (fun e => e.2.1)

/-- Index and slot of every MVM of an expert's projections in a layer that can serve one row more than the compiled slots hold: the
last slot of each array (R25, R26). -/
def lastSlots (c : CueSheet) (layer expert : Nat) : List (Nat × MvmSlot) :=
  let mine := (List.zip (List.range c.compiled.mvms.length) c.compiled.mvms).filter (fun p =>
    p.2.expert == some expert && ((c.sections[p.2.sec]?).map (fun x => x.layer)) == some layer)
  mine.filter (fun p => mine.all (fun q => !(q.2.tile == p.2.tile && q.2.array == p.2.array) || decide (q.2.row ≤ p.2.row)))

/-- A row has selected its experts (R25). Where an expert has more rows than a slot of each of its arrays, the row waits for an
additional slot of each (R26), which follows the array's last compiled one (log 125). -/
def State.selectExperts (s : State) (scene layer row : Nat) (chosen : List Nat) : State :=
  let s := s.modScene scene (fun sc => { sc with experts := sc.experts.filter (fun e => !(e.1 == layer && e.2.1 == row)) ++ [(layer, row, chosen)] })
  match s.fabric.active, s.prm.scenes.find? (fun x => x.id == scene) with
  | some c, some sc =>
    let more := chosen.flatMap (fun e =>
      (lastSlots c layer e).filterMap (fun p =>
        if p.2.row + 1 < (sc.selected layer e).length then some ({ slot := p.1, scene := scene, row := row } : Excess) else none))
    { s with fabric := { s.fabric with excess := s.fabric.excess ++ more } }
  | _, _ => s

/-- The router scores of a layer's experts stand in compensated lanes; the top k serve the row (R25). -/
def State.expertWork (s : State) (t sec scene row lane count k dst : Nat) : State :=
  match s.row? scene row with
  | none => s
  | some _ =>
    let x := s.tile t
    let chosen := topExperts ((List.range count).map (fun e => laneValue (unpackLane (x.lane (lane + e))))) k []
    (s.sramPut t dst 2 chosen).selectExperts scene (s.sectionLayer sec) row chosen

/-- Trailer bytes 0 to 15 of a check block (R470): CRC-32C over its data lines and trailer bytes 8 to 15, the count of its lines, its
buffer identity and its index. -/
def blockTrailer (data : List Byte) (lines buffer index : Nat) : List Byte :=
  let tail := leBytes 4 buffer ++ leBytes 4 index
  leBytes 4 (crc32c (data ++ tail)) ++ leBytes 2 lines ++ leBytes 2 0 ++ tail

/-- The outlier contribution of a scene row from an array's slots: from the outlier area where the array serves the row's epoch, and
else from the packed copy of that epoch (R85, R89, R300, R301). -/
def State.outlierWork (s : State) (t home sec scene row lane array col count xs : Nat) : State :=
  match s.placement? home array with
  | none => s
  | some p =>
    let area := fun (k c : Nat) => (s.tile t).outlierWeight p.outlierAddr k c
    if s.servesEpoch t array scene row then
      s.outlierAdd t sec scene lane col count xs p.slots.length (s.arrayFormat t array == 2) area
    else
      match s.streamed scene row p.tensor with
      | none => s.streamFail t scene false
      | some (c, x) =>
        let rows := p.slots.filter (fun r => decide (r < 1024))
        let cols := (List.range count).map (fun i => x.blockCols * p.colBlock + (if p.reversed then x.blockCols - 1 - (col + i) else col + i))
        if s.groupsSound c x (cols.flatMap (fun j => rows.map (fun r => (1024 * p.rowBlock + r, j)))) then
          s.outlierAdd t sec scene lane col count xs p.slots.length (x.format == 2) (fun k j =>
            let r := p.slots.getD k 0xFFFF
            if r < 1024 then cellWeight (s.cellOf c x p r j) else 0)
        else s.streamFail t scene true

/-- Scale-add of a row's array result by a factor and the scale of its column: from the column scale area where the array serves the
row's epoch, and else from the packed copy of that epoch (R89, R124, R285, R300, R301). -/
def State.scaleWork (s : State) (t home sec scene row lane array col n fa : Nat) : State :=
  match s.placement? home array with
  | none => s
  | some p =>
    let x := s.tile t
    let add := fun (b : Nat) =>
      s.arrive t { producer := .mac, sec := sec, fp := true, scene := scene
                   adds := [(lane, scaleAddends (signedOf 32 (x.sramNat n 4)) (x.sramNat fa 2) b)] }
    if s.servesEpoch t array scene row then add (x.sramNat (p.scaleAddr + 2 * col) 2)
    else
      match s.streamed scene row p.tensor with
      | none => s.streamFail t scene false
      | some (c, w) =>
        let j := w.blockCols * p.colBlock + (if p.reversed then w.blockCols - 1 - col else col)
        if s.groupsSound c w [(1024 * p.rowBlock, j)] then add (s.columnScale c w p.rowBlock j) else s.streamFail t scene true

/-- A unit that writes a block in tile SRAM makes its trailer word (R470, R472). -/
def State.sealWork (s : State) (t addr lines buffer index : Nat) : State :=
  s.sramWrite t (addr + 64 * lines) (blockTrailer (memReadList (s.tile t).sram addr (64 * lines)) lines buffer index)

/-- Whether a block in tile SRAM passes its check (R470, R472). -/
def Tile.blockOk (x : Tile) (addr lines buffer index : Nat) : Bool :=
  memReadList x.sram (addr + 64 * lines) 16 == blockTrailer (memReadList x.sram addr (64 * lines)) lines buffer index

/-- Bytes of a triple of a head dimension in tile SRAM (R166). -/
def triBytes (dim : Nat) : Nat := 64 + 8 * dim

/-- What an action of a position's engine program reads of the tile's SRAM and what it writes there, as spans of address and length
(R142, R144). -/
def State.workSpans (s : State) (t home : Nat) (w : Work) : List (Nat × Nat) × List (Nat × Nat) :=
  let dim := fun (a : Nat) => ((s.tile t).attRecord a).headDim
  match w with
  | .mac _ mode a b => ([(a, 16), (b, if mode = .int4x8 then 32 else 16)], [])
  | .scaleAdd _ n fa fb => ([(n, 4), (fa, 2), (fb, 2)], [])
  | .scaleColumn _ _ array col n fa =>
    ([(n, 4), (fa, 2)] ++ ((s.placement? home array).map (fun p => (p.scaleAddr + 2 * col, 2))).toList, [])
  | .outlier _ _ array _ _ xs =>
    (((s.placement? home array).map (fun p => [(xs, 4 * p.slots.length), (p.outlierAddr, 256 * p.slots.length)])).getD [], [])
  | .build _ first v => ([(v.acts + first, 4), (v.high + first, 4)], [])
  | .lookup _ _ _ _ _ _ _ _ => ([], [])
  | .quantise src n v scale _ _ => ([(src, 4 * n)], [(v.acts, n), (v.high, n), (scale, 2)])
  | .normalise _ src n param dst => ([(src, 4 * n), (param, 2 * n)], [(dst, 4 * n)])
  | .rotary _ src n dst => ([(src, 4 * n)], [(dst, 4 * n)])
  | .vector _ a b n dst => ([(a, 4 * n), (b, 4 * n)], [(dst, 4 * n)])
  | .embed _ _ n dst => ([], [(dst, 4 * n)])
  | .lmHead _ _ _ src n => ([(src, 4 * n)], [])
  | .expert _ _ _ k dst => ([], [(dst, 2 * k)])
  | .clearTriple tri d => ([], [(tri, triBytes d)])
  | .kvQuantise row att _ _ src own stride => ([(src, 4 * dim att)], [(own + stride * row, 2 * dim att + 4)])
  | .kvWrite row att _ own stride => ([(own + stride * row, 2 * dim att + 4)], [])
  | .attend tri row att _ q own stride => ([(q, 4 * dim att), (own + stride * row, 2 * dim att + 4)], [(tri, triBytes (dim att))])
  | .mergeTriple att _ dst src => ([(dst, triBytes (dim att)), (src, triBytes (dim att))], [(dst, triBytes (dim att))])
  | .addTriple _ tri d => ([(tri, triBytes d)], [])
  | .output tri d addr target _ _ _ => ([(tri, triBytes d)], [(addr, closeBytes target * d)])
  | .inject _ addr => ([(addr, 64)], [])
  | .receive (.sram addr) => ([], [(addr, 64)])
  | .receive (.lanes _) => ([], [])
  | .sealBlock addr lines _ _ => ([(addr, 64 * lines)], [(addr + 64 * lines, 64)])
  | .checkBlock addr lines _ _ => ([(addr, 64 * lines + 64)], [])

/-- An action on a tile for a scene (04, 06). `sec` is the section that it belongs to, whose tag its contributions carry. -/
def State.doWork (s : State) (t home sec scene : Nat) (w : Work) : State :=
  let x := s.tile t
  let tag := sec % 4096
  match w with
  | .mac lane mode a b => (s.busy t 1).macIssue t tag scene lane mode a b
  | .scaleAdd lane n fa fb =>
    (s.busy t 1).arrive t { producer := .mac, sec := tag, fp := true, scene := scene
                            adds := [(lane, scaleAddends (signedOf 32 (x.sramNat n 4)) (x.sramNat fa 2) (x.sramNat fb 2))] }
  | .scaleColumn row lane array col n fa => (s.busy t 1).scaleWork t home tag scene row lane array col n fa
  | .outlier row lane array col count xs => (s.busy t 1).outlierWork t home tag scene row lane array col count xs
  | .build table first v => (s.busy t 3).buildTable t scene table first v
  | .lookup table lane tensor rowBlock colBlock group col v => (s.busy t 3).lookupWork t tag scene table lane tensor rowBlock colBlock group col v
  | .quantise src n v scale slotRows k => if (s.row? scene v.row).isSome then s.quantise t scene src n v scale slotRows k else s
  | .normalise layer src n param dst =>
    s.putFp t scene dst (openVec (if layer then 2 else 1) (x.sramNats src 4 n) (x.sramNats param 2 n) n)
  | .rotary row src n dst =>
    match s.row? scene row with
    | some r => s.putFp t scene dst (openVec 3 (x.sramNats src 4 n) [r.pos] n)
    | none => s
  | .vector op a b n dst => s.putFp t scene dst (vectorOp op (x.sramNats a 4 n) (x.sramNats b 4 n))
  | .embed row tensor n dst => s.embedWork t scene row tensor n dst
  | .lmHead row head tensor src n => s.lmHeadWork t scene row head tensor src n
  | .expert row lane count k dst => s.expertWork t sec scene row lane count k dst
  | .clearTriple tri dim => s.setTri t scene tri (Tri.padded {} dim)
  | .kvQuantise row att head value src own stride => s.kvQuantise t scene row (x.attRecord att) head value src ⟨own, stride⟩
  | .kvWrite row att head own stride => s.kvWrite t scene row (x.attRecord att) head ⟨own, stride⟩
  | .attend tri row att head q own stride => ((s.busy t 1).busy t 2).attend t scene tri row (x.attRecord att) head q ⟨own, stride⟩
  | .mergeTriple att level dst src => (s.busy t 2).mergeAt t scene (x.attRecord att) level dst src
  | .addTriple lane tri dim =>
    (s.busy t 2).arrive t { producer := .smu, sec := tag, fp := true, scene := scene
                            adds := (List.zip (List.range dim) (x.tri tri dim).o).map (fun p => (lane + p.1, .lane (packLane p.2))) }
  | .output tri dim addr target row site element =>
    (s.busy t 2).outputTri t scene tri dim addr target (s.closeKey scene row sec site) element
  | .inject side addr => s.injectFlit home { side := side, payload := leNat (memReadList x.sram addr 64) }
  | .receive _ => s
  | .sealBlock addr lines buffer index => s.sealWork t addr lines buffer index
  | .checkBlock addr lines buffer index => if x.blockOk addr lines buffer index then s else s.checkFail 1 t [scene]

end Sys2Proof.Machine
end

