-- ==== Sys2Proof/Machine/ChorusStep.lean ====
section
/-!
DEFINITION. Collective steps and the wings (R157, R171, R356, R359, R364): the opening of a step when the schedule reaches its first
wing line, the lines that bring its results and take its own data, and its failure.
-/
namespace Sys2Proof.Machine

/-- A line becomes ready; hold cause WING_IN drops once no wing waits for a line (R171, R173). -/
def State.lineReady (s : State) (rowEnd line : Nat) : State :=
  let s := s.modWing rowEnd (fun w =>
    let awaited := without w.awaited line
    { w with ready := insertNat line w.ready, awaited := awaited, inCause := w.inCause && !awaited.isEmpty })
  if s.fabric.wings.any (fun e => e.2.inCause) then s else s.dropCause 0

/-- Put the data of a line in place (R157). -/
def State.fillLine (s : State) (rowEnd line : Nat) (data : List Byte) : State :=
  s.modWing rowEnd (fun w => { w with lines := Map.put w.lines line ((data ++ List.replicate 64 0).take 64) })

/-- The lines of some numbers are released as zero-filled lines (R473). -/
def State.releaseZero (s : State) (rowEnd : Nat) (lines : List Nat) : State :=
  lines.foldl (fun s l => (s.fillLine rowEnd l []).lineReady rowEnd l) s

/-- A deadline in force grows by a notice's EXTEND, for the first four that are sent or received (R365). -/
def Step.extend (x : Step) (us : Nat) : Step :=
  if x.extensions < 4 then { x with extensions := x.extensions + 1, deadline := x.deadline + us }
  else { x with lateIgnored := x.lateIgnored + 1 }

/-- The lines that a step's failure leaves missing: those that bring its data, of its scene, not yet emitted and not ready, by row end
(R364). -/
def State.missingLines (s : State) (x : Step) : List (Nat × Nat) :=
  match s.fabric.active, s.prm.scenes.find? (fun c => c.id == x.plan.scene) with
  | some c, some sc =>
    let v := c.variants.getD sc.variant ⟨0, 0, 0, 0, 0, 0⟩
    let brings := fun (l : WingLine) => match l.other with
      | .chorus k _ => k == x.plan.index
      | _ => false
    (c.compiled.wingLines.filter (fun l =>
      l.inbound && brings l && decide (v.first ≤ l.sec) && decide (l.sec < v.first + v.count) &&
        decide (s.fabric.counter ≤ wingTime c l + sc.start) && !has (Map.getD s.fabric.wings l.rowEnd {}).ready l.line)).map (fun l =>
      (l.rowEnd, l.line))
  | _, _ => []

/-- A step fails, and the wing releases its missing lines as zero-filled lines (R361, R364). -/
def State.abandonStep (s : State) (x : Step) (src cause member : Nat) : State :=
  (s.missingLines x).foldl (fun s l => s.releaseZero l.1 [l.2]) (s.failStep x src cause member)

/-- A frame acts on a step that has opened here: data are held and the step goes on, a notice extends it, an abort fails it, and
a digest that failed twice fails it (R360, R361, R364, R365). -/
def State.stepFrame (s : State) (f : ChorusFrame) : State :=
  match s.net.steps.find? (fun x => x.number == f.stepNo && !x.failed) with
  | none => s
  | some x =>
    if f.digest ≠ crc64 f.payload then if x.closed then s else s.abandonStep x srcChorusDigest 2 f.src
    else
      match f.op with
      | 0x11 => s.modStep f.stepNo (fun x => x.extend f.extend)
      | 0x12 => s.abandonStep x srcChorusDeadline 3 f.src
      | _ =>
        if x.closed || x.holds (f.op, f.src, f.offset, f.offset + f.payload.length) then s
        else
          let frag : Frag := { op := f.op, src := f.src, offset := f.offset, data := f.payload }
          (s.modStep f.stepNo (fun x => { x with frags := x.frags ++ [frag] })).stepProgress f.stepNo

/-- Counter value of a step's first wing line in a scene in flight, where the scene's variant holds its section (R255, R364). -/
def State.stepAt (s : State) (index scene : Nat) : Option Nat :=
  match s.fabric.active, s.prm.scenes.find? (fun c => c.id == scene) with
  | some c, some sc =>
    match c.compiled.steps[index]?, c.variants[sc.variant]? with
    | some x, some v => if v.first ≤ x.sec ∧ x.sec < v.first + v.count then some (sc.start + (sectionSpan c x.sec).1 + x.at_) else none
    | _, _ => none
  | _, _ => none

/-- A step of a scene opens under the next number, with CHORUS_CONFIG as it stands (R372), once, and what came early for that number acts (R356, R360, R364, R365). Without
a bound group no step opens. -/
def State.openStep (s : State) (index scene : Nat) : State :=
  match s.boundGroup, s.fabric.active.bind (fun c => c.compiled.steps[index]?) with
  | some _, some p =>
    if s.net.opened.any (fun k => k == (index, scene)) then s
    else
      let n := s.net.nextStep
      let d := s.field 0x000B000C 6 10
      let plan : StepPlan :=
        { index := index, collective := p.collective, bytes := p.bytes, root := p.root, peer := p.peer, format := p.format
          scene := scene, own := none }
      let x : Step := { number := n, plan := plan, base := d, deadline := d, udpPort := s.field 0x000B000C 16 16 }
      let fs := Map.getD s.net.early n []
      let inFlight := s.net.opened.filter (fun k => s.prm.scenes.any (fun c => c.id == k.2))
      let s := { s with net := { s.net with
          steps := s.net.steps ++ [x], nextStep := n + 1, early := Map.erase s.net.early n, opened := inFlight ++ [(index, scene)] } }
      (fs.foldl (fun s f => s.stepFrame f) s).stepProgress n
  | _, _ => s

/-- The steps of the scenes in flight whose first wing line has the counter's value (R364). -/
def State.stepsDue (s : State) (c : CueSheet) (now : Nat) : List (Nat × Nat) :=
  s.prm.scenes.flatMap (fun sc =>
    ((List.range c.compiled.steps.length).filter (fun i => s.stepAt i sc.id == some now)).map (fun i => (i, sc.id)))

/-- The step of a scene by its number among the cue sheet's. -/
def State.stepOf? (s : State) (index scene : Nat) : Option Step :=
  s.net.steps.find? (fun x => x.plan.index == index && x.plan.scene == scene)

/-- Bytes that the member owes a step as its own data (R359): a shard of an all-gather, a barrier's token, or the vector. -/
def StepPlan.ownBytes (p : StepPlan) (g : ChorusGroup) : Nat :=
  let r := shardRange p.bytes g.size g.own
  match p.collective with
  | 2 => r.2 - r.1
  | 4 => 8
  | _ => p.bytes

/-- A line of the member's own data leaves a wing for its step; once all of them have, the step has its own data (R359). -/
def State.chorusPut (s : State) (scene index offset : Nat) (data : List Byte) : State :=
  match s.boundGroup, s.stepOf? index scene with
  | some (_, g), some x =>
    let xs := Map.put x.ownLines offset data
    let s := s.modStep x.number (fun y => { y with ownLines := xs })
    let n := x.plan.ownBytes g
    let lines := (List.range (ceilDiv n 64)).map (fun k => Map.get? xs (64 * k))
    if x.sent || x.plan.own.isSome || lines.any (fun l => l.isNone) then s
    else s.chorusOwn x.number ((lines.flatMap (fun l => l.getD [])).take n)
  | _, _ => s

/-- A byte of a step's result at this member, where it is held (R359, R360). -/
def Step.resultByte (x : Step) (g : ChorusGroup) (o : Nat) : Option Byte :=
  let p := x.plan
  let mine := shardRange p.bytes g.size g.own
  let inMine := decide (mine.1 ≤ o) && decide (o < mine.2)
  let held := fun (op src : Nat) => (x.fragAt op src o).map (fun f => f.data.getD (o - f.offset) 0)
  let shard := fun (_ : Unit) => held 0x02 (o / (64 * ceilDiv p.bytes (64 * g.size)))
  let own := p.own.map (fun b => b.getD o 0)
  match p.collective with
  | 0 => if inMine then (if x.gathered then some (x.result.getD (o - mine.1) 0) else none) else shard ()
  | 1 => if inMine && x.gathered then some (x.result.getD (o - mine.1) 0) else none
  | 2 => if inMine then p.own.map (fun b => b.getD (o - mine.1) 0) else shard ()
  | 3 => if g.own = p.root then own else held 0x03 p.root
  | 4 => if g.own = 0 then (if x.gathered then own else none) else held 0x05 0
  | _ => held 0x06 p.root

/-- The 64 bytes of a step's result from an offset on, once they are all held; past its end they are zero. -/
def Step.line (x : Step) (g : ChorusGroup) (offset : Nat) : Option (List Byte) :=
  let n := if x.plan.collective = 4 then 8 else x.plan.bytes
  (List.range 64).foldr (fun i (acc : Option (List Byte)) =>
    let b := if n ≤ offset + i then some 0 else x.resultByte g (offset + i)
    acc.bind (fun bs => b.map (fun v => v :: bs))) (some [])

/-- The line that a collective step of a line's consuming scene gives a wing (R171, R359). -/
def State.chorusLine (s : State) (scenes : List Nat) (index offset : Nat) : Option (List Byte) :=
  match s.boundGroup, scenes.findSome? (fun k => s.stepOf? index k) with
  | some (_, g), some x => if x.failed then none else x.line g offset
  | _, _ => none

end Sys2Proof.Machine
end

