-- ==== Sys2Proof/Machine/Cycle.lean ====
section
/-!
DEFINITION. The stage cycle (R158, R177, R510): in a scheduled cycle, what the running sections schedule at the counter's value, the
wings and the routers; in every stage cycle the contributions to lanes in their order (R127), the drains of closed groups
(R128), streamed MVMs (R188), and the holds. A step on an empty queue is one stage cycle (DESIGN CHOICE, log 2); an event that
the schedule places later brings the cycles up to it (DESIGN CHOICE, log 28). Cycles in which nothing is scheduled and nothing
is under way are passed in one go.
-/
namespace Sys2Proof.Machine

/-- The scene row that a slot of the active cue sheet serves: the row of its number, or in a slot of a placed expert the row with
that number among those that selected the expert (R25). Padding has none (R254). -/
def State.slotRow (s : State) (slot : MvmSlot) (scene : Nat) : Option Nat :=
  match s.prm.scenes.find? (fun c => c.id == scene) with
  | none => none
  | some c =>
    match slot.expert with
    | some e => (c.selected (s.sectionLayer slot.sec) e)[slot.row]?
    | none => if slot.row < (s.rows c).length then some slot.row else none

/-- Stage cycles of a streamed MVM: 256 table builds and 16,384 lookup cycles (R188), twice in a format encore (R136). -/
def streamCycles (fmt16 : Bool) : Nat := if fmt16 then 33280 else 16640

/-- MVM slots that begin at the counter's value on tiles that do not convert them run on the LUT engine (R188, R301). -/
def State.startStreams (s : State) (c : CueSheet) (now : Nat) : State :=
  s.fabric.running.foldl (fun s r =>
    (List.zip (List.range c.compiled.mvms.length) c.compiled.mvms).foldl (fun s p =>
      if p.2.sec = r.index ∧ p.2.start + r.start = now then
        let t := s.servingTile p.2.tile
        match s.slotRow p.2 r.scene with
        | some row =>
          if !s.serves t || s.usesArray t p.2.array r.scene row then s
          else
            s.modTile t (fun x => { x with
              streams := x.streams ++ [{
                slot := p.1, row := row, scene := r.scene, lane := p.2.lane, deliver := now + (p.2.deliver - p.2.start)
                left := streamCycles (s.isWide r.scene row p.2.input) }] })
        | none => s
      else s) s) s

/-- The placement of the array of a streamed MVM, and the packed copy and tensor that it reads (R188, R301). -/
def State.streamSource (s : State) (c : CueSheet) (r : StreamRun) : Option (Placement × Copy × Tensor) :=
  ((c.compiled.mvms[r.slot]?).bind (fun slot => (c.placed slot.tile).find? (fun p => p.array == slot.array))).bind (fun p =>
    (s.streamed r.scene r.row p.tensor).map (fun k => (p, k)))

/-- The column results of a streamed MVM, from the packed copy of its row's epoch (R27, R188); `none` where a group of the copy fails
its CRC (R286). -/
def State.streamResult (s : State) (c : CueSheet) (t : Nat) (r : StreamRun) (p : Placement) (k : Copy × Tensor) : Option (List Int) :=
  match c.compiled.mvms[r.slot]? with
  | none => none
  | some slot =>
    let x := k.2
    let acts := (List.range 1024).map (fun i =>
      if has (outlierRows c slot) i ∨ x.rowsI ≤ 1024 * p.rowBlock + i then 0 else s.slotElement t slot r.row r.scene i)
    let cols := min x.blockCols (x.colsO - x.blockCols * p.colBlock)
    let place := fun (i j : Nat) => (1024 * p.rowBlock + i, x.blockCols * p.colBlock + j)
    if s.groupsSound k.1 x ((List.range cols).flatMap (fun j => (List.range 1024).map (fun i => place i j))) then
      some ((List.range cols).map (fun j => lutColumn (x.format == 2) (s.isWide r.scene r.row slot.input) acts (fun i => s.weight k.1 x (place i j).1 (place i j).2)))
    else none

/-- A streamed MVM has come to its delivery slot, or comes to it within two cycles, so that a hold stands there (R177, R188). -/
def State.streamLate (s : State) : Bool :=
  s.tiles.any (fun e => e.2.streams.any (fun r => !r.excess && decide (r.deliver ≤ s.fabric.counter + 2)))

/-- Cause STREAM stays raised while a streamed MVM that is due is not complete (R188). -/
def State.streamHold (s : State) : State := if s.streamLate then s.raiseCause 9 else s
def State.streamDone (s : State) : State := if s.streamLate then s else s.dropCause 9

/-- A streamed MVM is complete: its results wait in the output register (R48, R188, R511). -/
def State.endStream (s : State) (t : Nat) (r : StreamRun) : State :=
  match s.fabric.active.bind (fun c => (s.streamSource c r).map (fun k => (c, k))) with
  | none => s.streamFail t r.scene false
  | some (c, p, k) =>
    match c.compiled.mvms[r.slot]?, s.streamResult c t r p k with
    | some slot, some v =>
      let s := s.modTile t (fun x => { x with
        outs := x.outs ++ [{
          array := slot.array, sec := slot.sec % 4096, scene := r.scene, lane := r.lane, deliver := r.deliver, acc := []
          excess := r.excess, slot := r.slot, row := r.row, streamed := some v }] })
      ((s.count 32 1).count 40 1).streamDone
    | _, _ => s.streamFail t r.scene true

/-- Whether the lookups of a streamed MVM go on in the present stage cycle: in a hold they do under their own cause, STREAM, or EXPERT
for an excess row (R146, R177). -/
def State.streamRuns (s : State) (r : StreamRun) : Bool := !s.held || Nat.testBit s.fabric.causes (if r.excess then 7 else 9)

/-- A stage cycle of the LUT engines that stream (R177, R188). -/
def State.streamCycle (s : State) : State :=
  s.tiles.foldl (fun s e =>
    match e.2.streams with
    | [] => s
    | r :: rest =>
      if !s.streamRuns r then s
      else if r.left ≤ 1 then (s.modTile e.1 (fun x => { x with streams := rest })).endStream e.1 r
      else (s.modTile e.1 (fun x => { x with streams := { r with left := r.left - 1 } :: rest })).busy e.1 3) s

/-- Lines of a row end's wing program with counter value T, over the scenes in flight, whether their sections have begun or not
(R171). -/
def State.wingDue (s : State) (rowEnd at_ : Nat) : List WingLine :=
  match s.fabric.active with
  | none => []
  | some c => s.prm.scenes.flatMap (fun sc =>
      match c.variants[sc.variant]? with
      | none => []
      | some v => c.compiled.wingLines.filter (fun l =>
          l.rowEnd == rowEnd && decide (v.first ≤ l.sec) && decide (l.sec < v.first + v.count) && wingTime c l + sc.start == at_))

/-- Lines that a wing's store holds (R157, R175). -/
def Wing.used (w : Wing) : Nat := w.lines.length + w.outbound.length

/-- The test at S = T − 8: a line that is not ready raises WING_IN, and a store without room for the lines that the schedule fills at
T raises WING_OUT (R173). -/
def State.wingTest (s : State) (rowEnd at_ : Nat) : State :=
  let due := s.wingDue rowEnd at_
  let w := Map.getD s.fabric.wings rowEnd {}
  let missing := (due.filter (fun l => l.inbound && !has w.ready l.line)).map (fun l => l.line)
  let fills := (due.filter (fun l => !l.inbound)).length
  let full := decide (0 < fills) && decide (4096 < w.used + fills)
  let s := if missing.isEmpty then s
    else (s.modWing rowEnd (fun w => { w with awaited := missing.foldl (fun xs l => insertNat l xs) w.awaited, inCause := true })).raiseCause 0
  if full then (s.modWing rowEnd (fun w => { w with outCause := true })).raiseCause 1 else s

/-- The wings in a scheduled cycle: the tests for T = S + 8 and the lines that leave at T = S (R171, R173). -/
def State.wingCycle (s : State) (c : CueSheet) (now : Nat) : State :=
  (sheetRowEnds c).foldl (fun s r =>
    ((s.wingSlots r now).filter (fun l => l.1.inbound)).foldl (fun s l => s.wingDrive l.1) (s.wingTest r (now + 8))) s

/-- A footlight call acts on the tile that serves its position: enabled, and the hold armed through the call's end (R53, R57). -/
def State.footlightCall (s : State) (k : FlCall) : State :=
  s.modTile (s.servingTile k.tile) (fun x => { x with
    fl := { x.fl.enable with
      holds := x.fl.holds.filter (fun u => decide (s.fabric.counter ≤ u) && u != k.until_) ++ [k.until_], untilCall := false, idle := 0 } })

/-- Open and close the groups that the running sections schedule in a cycle (R125, R128). -/
def State.groupCycle (s : State) (c : CueSheet) (now : Nat) (closing : Bool) : State :=
  s.fabric.running.foldl (fun s r =>
    c.compiled.groups.foldl (fun s g =>
      let t := s.servingTile g.tile
      if g.sec ≠ r.index then s
      else if closing then (if g.closes + r.start = now then s.beginClose t g.slot else s)
      else if g.opens + r.start = now then s.openGroup t r.scene g (s.closeKey r.scene g.row g.sec g.site)
      else s) s) s

/-- The actions that the running sections schedule in a cycle, each with its scene. -/
def State.actsAt (s : State) (c : CueSheet) (now : Nat) : List (Act × Nat) :=
  s.fabric.running.flatMap (fun r =>
    (c.compiled.acts.filter (fun a => a.sec == r.index && a.at_ + r.start == now)).map (fun a => (a, r.scene)))

/-- An action runs on the tile that serves its position; a tile that has stopped serving starts none (R185, R190). A word that it
reads and that is uncorrectable is never used: the action does nothing, and its scene is the consuming one (R144). -/
def State.runAct (s : State) (a : Act × Nat) : State :=
  let t := s.servingTile a.1.tile
  if !s.serves t then s
  else
    match (s.tile t).badWord (s.workSpans t a.1.tile a.1.work).1 with
    | some w => s.sramUe t w [a.2]
    | none => s.doWork t a.1.tile a.1.sec a.2 a.1.work

/-- The SRAM banks that the scheduled actions of a tile use in the present cycle (R142, R145). -/
def State.banksUsed (s : State) (t : Nat) : List Nat :=
  match s.fabric.active with
  | none => []
  | some c => ((s.actsAt c s.fabric.counter).filter (fun a => s.servingTile a.1.tile == t)).flatMap (fun a =>
      let p := s.workSpans t a.1.tile a.1.work
      banksOf (p.1 ++ p.2))

/-- SRAM_SCRUB_ACCESS: the scrubber reads the next SRAM word, where the cue sheet leaves its bank free in the present cycle (R145).
It does nothing while SCRUB_EN is 0, and no access starts in a hold (R146). -/
def execSramScrubAccess (tile ecc : Nat) (s : State) : Host.Outcome State Fault Refusal :=
  if Config.tiles ≤ tile then .fault .noSuchUnit
  else if !Nat.testBit (s.reg (tileReg tile 0x16C)) 31 || s.held || has (s.banksUsed tile) (sramBank (16 * (s.tile tile).scrubAt)) then
    .next s
  else .next (s.scrubWord tile ecc)

/-- Where the local output of a position goes in a cycle, by its engine program (R126, R159). -/
def receiveSlot (acts : List (Act × Nat)) (home : Nat) : LocalSlot :=
  acts.findSome? (fun a =>
    match a.1.work with
    | .receive d => if a.1.tile = home then some (d, a.2) else none
    | _ => none)

/-- Whether a position's router has something to do: a flit at an input, in an output or in its understudy lane, or a program that
runs. -/
def State.routerBusy (s : State) (home : Nat) : Bool :=
  let r := (s.tile home).router
  !r.inbox.isEmpty || !r.delay.isEmpty || !(s.sequencer home).1.idle || (s.sequencer home).1.alu.isSome ||
    (Map.getD s.fabric.lanes (laneOf (s.servingTile home)) []).any (fun l => l.home == home)

/-- Counter value at which the windows of a slot end for a scene whose section runs (R34). -/
def State.slotEnd (s : State) (c : CueSheet) (slot : MvmSlot) (scene : Nat) : Option Nat :=
  (s.fabric.running.find? (fun r => r.index == slot.sec && r.scene == scene)).map (fun r =>
    r.start + slot.start + baseWindow c slot + 768)

/-- The excess rows whose additional slots are due: the last compiled slot of their array ends within two cycles, so that the
hold stands when it has ended (R26, R177). -/
def State.excessDue (s : State) (c : CueSheet) : List Excess :=
  s.fabric.excess.filter (fun e =>
    match c.compiled.mvms[e.slot]? with
    | none => true
    | some slot => (s.slotEnd c slot e.scene).all (fun v => decide (v ≤ s.fabric.counter + 2)))

/-- Column results of an array of a position, by the tensor that its placement names (R31, R283, R298). -/
def State.resultWidth (s : State) (c : CueSheet) (slot : MvmSlot) (scene row : Nat) : Nat :=
  match (c.placed slot.tile).find? (fun p => p.array == slot.array) with
  | none => 0
  | some p =>
    match (s.copyOf (s.rowEpoch scene row)).bind (fun k => k.man.tensors[p.tensor]?) with
    | some x => min x.blockCols (x.colsO - x.blockCols * p.colBlock)
    | none => 0

/-- Lanes of an excess row's results: behind those of the last compiled slot, row by row of the results' width (log 125). -/
def State.excessLane (s : State) (c : CueSheet) (slot : MvmSlot) (e : Excess) : Nat :=
  let width := s.resultWidth c slot e.scene e.row
  let rows := match s.prm.scenes.find? (fun c => c.id == e.scene), slot.expert with
    | some c, some x => c.selected (s.sectionLayer slot.sec) x
    | _, _ => []
  slot.lane + width * (rows.idxOf e.row - slot.row)

/-- The delivery slot for which an excess row's results wait: that of the last compiled slot of the array (R177; log 125). -/
def State.excessDeliver (s : State) (slot : MvmSlot) (e : Excess) : Nat :=
  ((s.fabric.running.find? (fun r => r.index == slot.sec && r.scene == e.scene)).map (fun r => r.start + slot.deliver)).getD
    s.fabric.counter

/-- An excess row waits no more. -/
def State.dropExcess (s : State) (e : Excess) : State := { s with fabric := { s.fabric with excess := s.fabric.excess.erase e } }

/-- Excess rows take hold cause EXPERT when their additional slots are due; one whose tile streams goes to its LUT engine (R26,
R188). -/
def State.takeExcess (s : State) (c : CueSheet) : State :=
  (s.excessDue c).foldl (fun s e =>
    let s := s.raiseCause 7
    match c.compiled.mvms[e.slot]? with
    | none => s.dropExcess e
    | some slot =>
      let t := s.servingTile slot.tile
      if s.usesArray t slot.array e.scene e.row then s
      else
        let run : StreamRun := {
          slot := e.slot, row := e.row, scene := e.scene, lane := s.excessLane c slot e, deliver := s.excessDeliver slot e
          left := streamCycles (s.isWide e.scene e.row slot.input), excess := true }
        (s.dropExcess e).modTile t (fun x => { x with streams := x.streams ++ [run] })) s

/-- Drop cause EXPERT once no excess row that is due waits or runs (R26, R177). -/
def State.settleExcess (s : State) : State :=
  let waits := (s.fabric.active.map (fun c => !(s.excessDue c).isEmpty)).getD false
  let busy := s.tiles.any (fun e =>
    (e.2.mvm.any (fun m => m.excess && !m.complete)) || e.2.streams.any (fun r => r.excess))
  if waits || busy then s else s.dropCause 7

/-- Column results leave the output register: the placed columns, in the order of the block that a REVERSED array holds (R322), go to the lanes of the slot, in the INT32 group of its section (R49,
R126). An MVM that is to deliver nothing has no results there (R81). -/
def State.deliverOut (s : State) (t : Nat) (o : OutReg) : State :=
  let s := s.modTile t (fun x => { x with outs := x.outs.erase o })
  let used := s.field (tileReg t (0x20 + 4 * o.array)) 0 11
  let int2 := s.arrayFormat t o.array == 2
  let reversed := (((s.positionOf t).bind (fun home => s.placement? home o.array)).map (fun p => p.reversed)).getD false
  let rs := match o.streamed with
    | some v => v
    | none => (columnResults int2 (if reversed then o.acc.reverse else o.acc)).take (if int2 then used / 2 else used)
  s.arrive t { producer := .array, sec := o.sec, fp := false, scene := o.scene
               adds := (List.zip (List.range rs.length) rs).map (fun p => (o.lane + p.1, .int p.2)) }

/-- The results in a tile's output register whose delivery slot has come by a counter value (R49). -/
def Tile.dueOuts (x : Tile) (counter : Nat) : List OutReg := x.outs.filter (fun o => decide (o.deliver ≤ counter))

/-- The results in the output register that are delivered next: those of the earliest delivery slot (R49). -/
def Tile.nextOut (x : Tile) : Option OutReg :=
  x.outs.foldl (fun best o =>
    match best with
    | some b => if o.deliver < b.deliver then some o else some b
    | none => some o) none

/-- The tiles with results in the output register at their delivery slot (R49). -/
def State.dueTiles (s : State) : List Nat :=
  (s.tiles.filter (fun e => !(e.2.dueOuts s.fabric.counter).isEmpty)).map (fun e => e.1)

/-- Deliver what has come to its delivery slot in a tile's output register. -/
def State.deliverDue (s : State) (t : Nat) : State :=
  ((s.tile t).dueOuts s.fabric.counter).foldl (fun s o => s.deliverOut t o) s

/-- Barrier tokens that have reached a wing leave for the open barrier step that waits for the member's own (R179, R359). -/
def State.barrierCycle (s : State) : State :=
  s.fabric.tokens.foldl (fun s k =>
    match s.net.steps.find? (fun x => !x.closed && !x.failed && !x.sent && x.plan.collective == 4) with
    | none => s
    | some x => ({ s with fabric := { s.fabric with tokens := s.fabric.tokens.erase k } }).chorusOwn x.number (leBytes 8 k.2)) s

/-- One scheduled cycle at counter value S: groups and collective steps open, actions run, wings and routers work, and groups whose close cycle this is
begin to close (R127, R158, R177). -/
def State.scheduledCycle (s : State) (c : CueSheet) : State :=
  let now := s.fabric.counter
  let s := (s.stepsDue c now).foldl (fun s k => s.openStep k.1 k.2) (s.groupCycle c now false)
  let acts := s.actsAt c now
  let s := acts.foldl (fun s a => s.runAct a) s
  let s := s.dueTiles.foldl (fun s t => s.deliverDue t) s
  let s := (((s.startStreams c now).streamHold).takeExcess c).wingCycle c now
  let s := (c.calls.filter (fun k => k.act == now)).foldl (fun s k => s.footlightCall k) s
  let scenes := s.fabric.running.map (fun r => r.scene)
  let s := (((Map.keys s.tiles).filter s.routerBusy).foldl (fun s t => s.routerCycle t (receiveSlot acts t) scenes) s).barrierCycle
  s.groupCycle c now true

/-- In every stage cycle: contributions reach their lanes in order, closed groups drain, streamed MVMs go on (R127, R128, R146,
R188). -/
def State.engineCycle (s : State) : State :=
  let s := (Map.keys s.tiles).foldl (fun s t => (s.takeArrivals t).drainGroups t) s
  s.streamCycle.settleExcess

/-- The FORMAT hold lasts as many stage cycles as were taken (R88). -/
def State.formatCycle (s : State) : State :=
  let n := s.fabric.formatLeft
  if n = 0 then s
  else
    let s := { s with fabric := { s.fabric with formatLeft := n - 1 } }
    if n = 1 then s.dropCause 5 else s

/-- One stage cycle: scheduled or hold, counted, and the causes raised in it shift on (R158, R177, R510, R511). -/
def State.stageCycle (s : State) : State :=
  if !s.clockRuns then s
  else
    let held := s.fabric.history2
    let s := (s.count 0 1).count (if held = 0 then 1 else 2) 1
    let s := (List.range 10).foldl (fun s h => if Nat.testBit held h then s.count (3 + h) 1 else s) s
    let s := s.mapTiles (fun _ x => { x with active := 0 })
    let at_ := s.fabric.counter
    let s := match s.fabric.active with
      | some c =>
        if held = 0 then
          let s := s.scheduledCycle c
          { s with fabric := { s.fabric with counter := (at_ + 1) % 2 ^ 64 } }.tileCycles at_ 1
        else s
      | none => s
    let s := s.engineCycle.formatCycle
    let s := if 4 ≤ held then s.markStall else s
    let s := if held = 0 then s else { s with pwr := { s.pwr with switchHeld := s.pwr.switchHeld + 1 } }
    let s := { s with fabric := { s.fabric with history2 := s.fabric.history1, history1 := s.fabric.causes } }
    s.handoverCycle

/-- Counter values at which something is scheduled: actions, groups, MVMs and wing lines of the sections that run, tests and
collective steps of the scenes in flight, footlight calls. -/
def State.eventTimes (s : State) (c : CueSheet) : List Nat :=
  s.fabric.running.flatMap (fun r =>
    (c.compiled.acts.filter (fun a => a.sec == r.index)).map (fun a => a.at_ + r.start) ++
    (c.compiled.groups.filter (fun g => g.sec == r.index)).flatMap (fun g => [g.opens + r.start, g.closes + r.start]) ++
    (c.compiled.mvms.filter (fun m => m.sec == r.index)).map (fun m => m.start + r.start) ++
    (c.compiled.wingLines.filter (fun l => l.sec == r.index)).map (fun l => l.at_ + r.start)) ++
  s.prm.scenes.flatMap (fun sc => c.compiled.wingLines.map (fun l => wingTime c l + sc.start - 8) ++
    (List.range c.compiled.steps.length).filterMap (fun i => s.stepAt i sc.id)) ++
  c.calls.map (fun k => k.act) ++
  s.tiles.flatMap (fun e => e.2.outs.map (fun o => max s.fabric.counter o.deliver)) ++
  s.fabric.excess.filterMap (fun e => (c.compiled.mvms[e.slot]?).bind (fun slot => (s.slotEnd c slot e.scene).map (fun v => v - 2)))

/-- Nothing is under way in engines, routers, lanes and holds: a cycle in which nothing is scheduled changes only counters and
timers. -/
def State.quiet (s : State) : Bool :=
  s.tiles.all (fun e =>
    let r := e.2.router
    e.2.arrivals.isEmpty && e.2.groups.all (fun g => g.2.draining.isNone) && e.2.streams.isEmpty && r.inbox.isEmpty &&
      r.delay.isEmpty && r.seq.idle && r.stn.idle && r.seq.alu.isNone && r.stn.alu.isNone && e.2.active == 0) &&
    s.fabric.lanes.all (fun l => l.2.isEmpty) && s.fabric.tokens.isEmpty && s.fabric.handover == 0 && s.fabric.formatLeft == 0

/-- So many scheduled cycles in which nothing happens (R54, R158, R510). -/
def State.passQuiet (s : State) (n : Nat) : State :=
  let at_ := s.fabric.counter
  (({ s with fabric := { s.fabric with counter := at_ + n } }.count 0 n).count 1 n).tileCycles at_ n

/-- The stage cycles up to a counter value, while no cause holds the counter; each round passes one at least. -/
def State.runTo (c : CueSheet) (at_ : Nat) : Nat → State → State
  | 0, s => s
  | fuel + 1, s =>
    let now := s.fabric.counter
    if now < at_ && s.schedulable then
      let next := (s.eventTimes c).foldl (fun m t => if now ≤ t then min m t else m) at_
      if now < next && s.quiet then State.runTo c at_ fuel (s.passQuiet (next - now)) else State.runTo c at_ fuel s.stageCycle
    else s

/-- The scheduled cycles up to a counter value, where it lies ahead and no cause holds the counter (R158). -/
def State.advanceTo (s : State) (at_ : Nat) : State :=
  match s.fabric.active with
  | some c => s.runTo c at_ (at_ - s.fabric.counter)
  | none => s

/-- So many stage cycles. -/
def State.runCycles (s : State) (n : Nat) : State := (List.range n).foldl (fun s _ => s.stageCycle) s

end Sys2Proof.Machine
end

