-- ==== Sys2Proof/Machine/PowerCmds.lean ====
section
/-!
DEFINITION. The cap controller, bubbles, the ramp and the debt (R440 to R448), UNIT_TUNE and the change of the stage clock step
(R434, R437, R497), supply faults (R436, R439), droop (R449, R450) and the clock (R433). Power is measured in whole watts,
and the events of this file do nothing while the package is unpowered or its clocks have stopped.
-/
namespace Sys2Proof.Machine

/-- PWR_EVENT records an event (R462). -/
def State.pwrEvent (s : State) (bit : Nat) : State := s.orReg 0x00080004 (2 ^ bit)

/-- A power demand after a control interval (R444). -/
def demandNext (prev limit p act : Nat) : Nat :=
  min 60 (max (if p = 0 then 0 else 64 - act * limit / p) (prev - 4))

/-- The average of the newest `n` measured intervals (R441, R452): the sum of those that there are, and their number. -/
def averageOf (n : Nat) (samples : List Nat) : Nat × Nat :=
  let xs := samples.take n
  (xs.foldl (· + ·) 0, xs.length)

/-- A sample of the phase in force (R445). -/
def learnPhase (l : Nat × Nat) (p act : Nat) : Nat × Nat :=
  (min 4095 (if l.2 = 0 then quot (64 * p) act else quot (15 * l.1 * act + 64 * p) (16 * act)), min 16 (l.2 + 1))

/-- The demands and learned powers at the end of a control interval (R444, R445). -/
def Power.interval (w : Power) (p tag : Nat) (flight : Bool) : Power :=
  let act := 64 - w.bubbles
  let limit := w.throttle.getD w.cap
  let cd := demandNext w.capDemand w.cap p act
  { w with
    capDemand := cd
    throttleDemand := if limit < w.cap then demandNext w.throttleDemand limit p act else 0
    atLimit := if cd = 60 then min 101 (w.atLimit + (if w.atLimit < 100 then 1 else 0)) else 0
    learned :=
      if flight && w.steady == some tag then Map.put w.learned tag (learnPhase (Map.getD w.learned tag (0, 0)) p act)
      else w.learned
    steady := if flight then some tag else none }

/-- A measured interval enters PWR_ENERGY and the averages, which go back 100,000 intervals (R440, R441, R463). -/
def State.measure (s : State) (power : Nat) : State :=
  let s := { s with pwr := { s.pwr with energy := s.pwr.energy + power, samples := (power :: s.pwr.samples).take (10 ^ 5) } }
  let avg := averageOf (10 ^ 5) s.pwr.samples
  s.setReg 0x0008000C (min 0xFFFF (quot avg.1 avg.2) * 65536 + min 0xFFFF power)

/-- CAP_UNMET: the cap demand has stood at 60 for 100 intervals and the power still exceeds the cap; once, until the demand
falls (R444). -/
def State.capUnmet (s : State) (power : Nat) : State :=
  if s.pwr.atLimit = 100 ∧ s.pwr.cap < power then
    ({ s with pwr := { s.pwr with atLimit := 101 } }.pwrEvent 4).raise srcCapUnmet 0 0 []
  else s

/-- Package power in watts: what the on-die monitors measure of VDD_STAGE, VDD_ARRAY and VDD_CONV, and the last telemetry of the
other rails (R438, R440). The rounding is open (log 7). -/
def State.packagePower (s : State) (onDie : Nat) : Nat :=
  onDie + quot ((s.pwr.telemetry.filter (fun r => decide (3 ≤ r.1))).foldl (fun n r => n + r.2) 0) 1000

/-- CONTROL_INTERVAL: power is measured over 1 µs, energy accumulates, and the demands are updated (R440, R441, R444, R445). The
operand is the power of the three rails that on-die monitors measure. -/
def execControlInterval (onDie : Nat) (s : State) : Host.Outcome State Fault Refusal :=
  if !s.powered then .next s
  else
    let power := s.packagePower onDie
    let s := (s.elapse 1).measure power
    let w := s.pwr.interval power s.fabric.phaseTag (!s.prm.scenes.isEmpty)
    .next ({ s with pwr := w }.capUnmet power)

/-- The debt limit: 15 % of a deadline in force in microseconds, in stage cycles at a step (R446). -/
def debtLimit (deadline step : Nat) : Nat := deadline * stageMhz step * 15 / 100

/-- The bubble target of a block, the debt after it, the cycles deferred, and whether the debt limit was met (R442, R447,
R448). `window` is the deadline in force of the earliest open step, where one is open. -/
def Power.block (w : Power) (window : Option Nat) : Nat × Nat × Nat × Bool :=
  let soft := max (64 - w.ceiling) w.capDemand
  let full := max soft w.throttleDemand
  match window with
  | some d =>
    let e := soft - w.throttleDemand
    if w.debt + e ≤ debtLimit d w.step then (w.throttleDemand, w.debt + e, e, false) else (full, w.debt, 0, true)
  | none =>
    let total := min 60 (full + min w.debt 16)
    (total, w.debt - (total - full), 0, false)

/-- What the cycles of a bubble block have come to: the state, the hold cycles of the block so far and its bubbles (R442). -/
structure Blocked where
  state : State
  held : Nat := 0
  bubbles : Nat := 0

/-- BUBBLE is raised in the stage cycle that has just run, and in no other (R442). -/
def State.bubble (s : State) : State :=
  ({ s with fabric := { s.fabric with history1 := s.fabric.history1 ||| 4 } }).orReg 0x00000408 4

/-- Stage cycle j − 2 of a block with target `t`, which decides whether cycle j is a bubble: the hold cycles of the block before it
are known by then, and it is one when floor((j + 1) × t ÷ 64) exceeds them and no other cause makes it a hold cycle (R442). -/
def Blocked.cycle (t : Nat) (b : Blocked) (j : Nat) : Blocked :=
  let f := b.state.fabric
  let held := b.held + (if 2 ≤ j ∧ f.history2 ≠ 0 then 1 else 0)
  let h := held + (if 1 ≤ j ∧ f.history1 ≠ 0 then 1 else 0)
  let s := b.state.stageCycle
  if h < (j + 1) * t / 64 ∧ s.fabric.history1 = 0 then { state := s.bubble, held := held, bubbles := b.bubbles + 1 }
  else { state := s, held := held, bubbles := b.bubbles }

/-- BUBBLE_BLOCK: the target of a block is fixed, and the 64 stage cycles that decide on its cycles run (R442, R447, R448). -/
def execBubbleBlock (s : State) : Host.Outcome State Fault Refusal :=
  if !s.powered || !s.clockRuns then .next s
  else
    let r := s.pwr.block (s.openStep?.map (fun x => x.deadline))
    let s := { s with pwr := { s.pwr with target := r.1, debt := r.2.1 } }.count 13 r.2.2.1
    let s := if r.2.2.2 then s.pwrEvent 3 else s
    let start : Blocked := { state := s }
    let b := (List.range 64).foldl (Blocked.cycle r.1) start
    .next { b.state with pwr := { b.state.pwr with bubbles := b.bubbles } }

/-- The device is idle: no scene in flight, no calibration run, array programming or rehearsal (R443). -/
def State.deviceIdle (s : State) : Bool :=
  s.prm.scenes.isEmpty && s.integ.rehearsal.isNone &&
    !s.tiles.any (fun t => t.2.calRun.isSome || t.2.programming.isSome)

/-- RAMP_STEP: the step interval of the ramp has passed, or 1 µs of idleness where `idle` is set (R443). -/
def execRampStep (idle : Bool) (s : State) : Host.Outcome State Fault Refusal :=
  if !s.powered then .next s
  else if idle then
    .next (if s.deviceIdle then { s with pwr := { s.pwr with ceiling := 4 } } else s)
  else if s.deviceIdle then .next s
  else .next { s with pwr := { s.pwr with ceiling := min 64 (s.pwr.ceiling + 1) } }

/-- CAP_SET returns the previous cap; a throttle limit above the new cap comes down to it (R396, R444, R452). -/
def execCapSet (e : Entry) (s : State) : Host.Outcome State Fault Refusal :=
  runCmd e 0x60 false (fun s =>
    let v := e.op 8 2
    if v < 500 || 1350 < v then done s .invalid []
    else
      done { s with pwr := { s.pwr with cap := v, throttle := s.pwr.throttle.map (min v) } } .ok (leBytes 2 s.pwr.cap)) s

/-- The end of a step change: the command that asked for it completes (R434). -/
def State.endStep (s : State) (st : Status) : State :=
  match s.pwr.change with
  | none => s
  | some (_, _, job) =>
    let s := { s with pwr := { s.pwr with change := none } }
    match job with
    | none => s
    | some j =>
      s.finishJobs (fun x =>
        if x.id = j then
          some (st, match x.kind with
            | .step old => if st = .ok then leBytes 1 old else []
            | _ => [])
        else none)

/-- The rows of R497 that both kinds share, after a kind's own operand checks: the regulator value that would result, and
then the command. -/
def tuneChecks (e : Entry) (s : State) (mv : Nat) (go : State × Option (Status × List Byte)) :
    State × Option (Status × List Byte) :=
  if e.op 16 4 ≠ s.fabric.epoch then done s .staleEpoch []
  else if 850 < mv then done s .invalid []
  else if s.pwr.change.isSome then done s .busy []
  else if !s.pwr.avsFaults.isEmpty then done s .timeout []
  else go

/-- The row trims with one changed (R437). -/
def trimsWith (trims : Map Nat) (row v : Nat) : Map Nat := if v = 0 then Map.erase trims row else Map.put trims row v

/-- UNIT_TUNE kind 0 sets a row's header trim and the regulator; a kind above 1 is INVALID (R437, R497). -/
def execUnitTuneTrim (e : Entry) (s : State) : Host.Outcome State Fault Refusal :=
  if entryWf e && decide (e.op 8 1 = 1) then .next s
  else
    runCmd e 0x54 false (fun s =>
      let row := e.op 10 2
      let v := e.op 12 1
      if 1 < e.op 8 1 || 159 < row || 4 < v then done s .invalid []
      else
        let old := s.rowTrim row
        tuneChecks e s (s.regulatorFor s.pwr.step (trimsWith s.pwr.rowTrims row v))
          (done (if v = old then s else ((s.setTrim row v).tuneRecord false false row old v).ledgerSettle) .ok (leBytes 1 old))) s

/-- UNIT_TUNE kind 1 changes the stage clock step (R434, R497). -/
def execUnitTuneStep (e : Entry) (s : State) : Host.Outcome State Fault Refusal :=
  if entryWf e && decide (e.op 8 1 ≠ 1) then .next s
  else
    runCmd e 0x54 false (fun s =>
      let v := e.op 12 1
      if 3 < v then done s .invalid []
      else
        tuneChecks e s (s.regulatorFor v s.pwr.rowTrims)
          (if v = s.pwr.step then done s .ok (leBytes 1 v)
           else later ((s.addJob e.ring e.tag (.step s.pwr.step)).beginStep v (some s.mbx.nextJob)))) s

/-- Raise cause BUBBLE for the switch (R434 step 2). -/
def State.raiseSwitch (s : State) (target : Nat) (job : Option Nat) : State :=
  { s with pwr := { s.pwr with change := some (target, .switching, job), switchHeld := 0 } }.raiseCause 2

/-- STEP_CHANGE_PROCEED: no collective window is open, or the wait of 10 ms has expired. A faster step first writes its
voltage (R434 steps 1 and 2). -/
def execStepChangeProceed (expired : Bool) (s : State) : Host.Outcome State Fault Refusal :=
  match s.pwr.change with
  | some (target, .waiting, job) =>
    if !s.powered || (!expired && s.openStep?.isSome) then .next s
    else if target < s.pwr.step then .next { s with pwr := { s.pwr with change := some (target, .voltage, job) } }
    else .next (s.raiseSwitch target job)
  | _ => .next s

/-- REGULATOR_REACHED: the regulator reports the voltage that was written; a faster step then raises the switch cause, and a
slower one is done (R434 steps 1, 2 and 5). -/
def execRegulatorReached (s : State) : Host.Outcome State Fault Refusal :=
  match s.pwr.change with
  | some (target, .voltage, job) =>
    if !s.powered then .next s
    else
      let s := { s with pwr := { s.pwr with regulator := s.regulatorFor target s.pwr.rowTrims } }
      if s.pwr.step = target then .next (s.endStep .ok) else .next (s.raiseSwitch target job)
  | _ => .next s

/-- The stage cycles up to the 256th hold cycle of a switch; a hold that stands already counts from the raise (R434, R435). -/
def State.runSwitch (s : State) : State :=
  (List.range 258).foldl (fun s _ => if s.pwr.switchHeld < 256 then s.stageCycle else s) s

/-- STEP_SWITCH: the divider switches after 256 hold cycles, and two stage cycles later the switch cause drops, whose hold of 260
cycles ends with the next two (R434, R435). A command's change writes its tuning record here (R497). -/
def execStepSwitch (s : State) : Host.Outcome State Fault Refusal :=
  match s.pwr.change with
  | some (target, .switching, job) =>
    if !s.powered || !s.clockRuns then .next s
    else
      let old := s.pwr.step
      let s := s.runSwitch
      let s := (({ s with pwr := { s.pwr with step := target } }.runCycles 2).dropCause 2).runCycles 2
      let s := s.setReg 0x00080020 (min 0xFFFF (s.reg 0x00080020 + 1))
      let s := s.writeTuning target
      let s := (if job.isSome then s.tuneRecord true false 0 old target else s).ledgerSettle
      if target < old then .next (s.endStep .ok)
      else if !s.pwr.avsFaults.isEmpty then .next (s.endStep .timeout)
      else .next { s with pwr := { s.pwr with change := some (target, .voltage, job) } }
  | _ => .next s

/-- AVS_FAULT: a regulator does not acknowledge or does not reach its target within 200 µs (R439). A step change that waits
for the regulator or has not begun to switch ends with TIMEOUT. -/
def execAvsFault (rail : Nat) (s : State) : Host.Outcome State Fault Refusal :=
  if 8 ≤ rail then .fault .noSuchUnit
  else if !s.powered then .next s
  else
    let s := { s with pwr := { s.pwr with avsFaults := insertNat rail s.pwr.avsFaults } }
    let s := match s.pwr.change with
      | some (_, .switching, _) => s
      | _ => s.endStep .timeout
    .next ((s.pwrEvent 5).raise srcAvsFault 9 rail [])

/-- AVS_TELEMETRY: the 100 µs telemetry of every rail, but for one whose regulator failed, which keeps its last (R439, R440). -/
def execAvsTelemetry (milliwatts : List Nat) (s : State) : Host.Outcome State Fault Refusal :=
  if !s.powered then .next s
  else
    .next { s with pwr := { s.pwr with
      telemetry := (milliwatts.take 8).zipIdx.foldl (fun m x =>
        if has s.pwr.avsFaults x.2 then m else Map.put m x.2 x.1) s.pwr.telemetry } }

/-- Age column of some service hours (R436). -/
def ageColumnOf (hours : Nat) : Nat := if hours < 8760 then 0 else if hours < 26280 then 1 else if hours < 43800 then 2 else 3

/-- AGE_COLUMN_CROSSING: the ledger's service hours reach a value; where they cross a boundary, firmware raises the voltage at
once, unless the regulator has failed (R436, R439). -/
def execAgeColumnCrossing (hours : Nat) (s : State) : Host.Outcome State Fault Refusal :=
  if !s.powered || !s.firmwareRuns then .next s
  else
    let s := { s with pwr := { s.pwr with hours := max hours s.pwr.hours } }
    let col := ageColumnOf s.pwr.hours
    if col = s.pwr.ageColumn then .next s
    else
      let s := { s with pwr := { s.pwr with ageColumn := col } }
      .next (if s.pwr.avsFaults.isEmpty then
        { s with pwr := { s.pwr with regulator := s.regulatorFor s.pwr.step s.pwr.rowTrims } } else s)

/-- Fire a trigger of a half's injected sequence, where HKM_CTRL enables it: it starts a run, or joins the further run that
follows the one in progress (R458). -/
def State.trigger (s : State) (half bit : Nat) : State :=
  if Nat.testBit (s.field (0x00090000 + 0x1000 * half) 24 4) bit then
    let m := Map.getD s.hkm half {}
    let m := if m.injActive = 0 then { m with injActive := 2 ^ bit } else { m with injPending := m.injPending ||| 2 ^ bit }
    { s with hkm := Map.put s.hkm half m }
  else s

/-- DROOP: a detector of a row reads below its level (R449, R450): cause DROOP, the counts, the source at most once per
millisecond, and the injected sequence of the row's half. -/
def execDroop (row : Nat) (s : State) : Host.Outcome State Fault Refusal :=
  if Config.rows ≤ row then .fault .noSuchUnit
  else if !s.powered then .next s
  else
    let s := { s with pwr := { s.pwr with droopActive := true, droopQuiet := false } }.raiseCause 3
    let s := s.setReg 0x0008002C (min 0xFFFFFFFF (s.reg 0x0008002C + 1))
    let s := (((s.count 14 1).pwrEvent 2).trigger (row / 80) 0)
    match s.pwr.droopRaised with
    | some t =>
      if s.integ.clock < t + 1000 then .next s
      else .next ({ s with pwr := { s.pwr with droopRaised := some s.integ.clock } }.raise srcDroop 2 row [])
    | none => .next ({ s with pwr := { s.pwr with droopRaised := some s.integ.clock } }.raise srcDroop 2 row [])

/-- DROOP_RECOVERY: every detector has read above the level plus 10 mV for MIN_HOLD cycles; the cause drops once every re-run
has completed (R449). -/
def execDroopRecovery (s : State) : Host.Outcome State Fault Refusal :=
  if !s.powered then .next s
  else
    let s := { s with pwr := { s.pwr with droopActive := false, droopQuiet := true } }
    .next (if s.pwr.rerunsLeft = 0 then s.dropCause 3 else s)

/-- PLL_UNLOCK: the stage clock stops at once and the source is raised (R433). -/
def execPllUnlock (s : State) : Host.Outcome State Fault Refusal :=
  if !s.powered || !s.pwr.pllLocked then .next s
  else
    let s := { s with pwr := { s.pwr with pllLocked := false, stageStopped := true } }
    .next (s.raise srcPllUnlock 0 0 s.flight)

end Sys2Proof.Machine
end

