-- ==== Sys2Proof/Machine/Hkm.lean ====
section
/-!
DEFINITION. The housekeeping monitor (R456 to R458), the thermal zones with their warning, throttle and shutdown (R451 to
R453), and the coolant (R454, R456). Temperatures stand in sixteenths of a degree.
-/
namespace Sys2Proof.Machine

/-- Offset of a register of half `h` of the monitor (R467). -/
def hkmReg (h off : Nat) : Nat := 0x00090000 + 0x1000 * h + off

/-- A code as its input reads: inputs 63 and the south half's 60 read 0 (R456). -/
def inputCode (half input code : Nat) : Nat := if input = 63 ∨ (input = 60 ∧ half = 1) then 0 else code % 4096

/-- The coolant inlet temperature of a code (R456, R465); the rounding is open (log 7). -/
def coolantTemp (cal code : Nat) : Int :=
  let num : Int := 16 * (code * 1800000 : Nat) - (16 * 4096000 * bitsOf cal 16 16 : Nat)
  let den := 4096 * bitsOf cal 0 16
  num / (den : Int) + (if num % (den : Int) ≠ 0 ∧ Config.roundUp num.natAbs den = true then 1 else 0)

/-- A conversion of an input: the coolant inlet sensor sets THERM_TEMP.COOLANT_IN (R456, R465). -/
def State.convert (s : State) (half input code : Nat) : State :=
  if half = 0 ∧ input = 60 then s.setField 0x00080034 16 16 (unsignedOf 16 (coolantTemp (s.reg 0x0008003C) code)) else s

/-- The thresholds of a zone: warning, throttle and shutdown (R451). -/
def thresholds (die : Bool) : Int × Int × Int := if die then (1520, 1680, 1840) else (1360, 1440, 1600)

/-- The hysteresis of a zone (R451, R465). -/
def State.hysteresis (s : State) (die : Bool) : Int := 16 * (s.field 0x00080038 (if die then 0 else 8) 4 : Nat)

/-- A zone's reading, as THERM_STATUS holds it (R465). -/
def State.zoneReading (s : State) (die : Bool) : Int := signedOf 16 (s.field 0x00080030 (if die then 16 else 0) 16)

/-- A zone state after a reading: entered at the threshold, left below it less the hysteresis (R451). -/
def zoneState (reading threshold hyst : Int) (was : Bool) : Bool :=
  decide (threshold ≤ reading) || (was && decide (threshold - hyst ≤ reading))

/-- The lowest key of the highest value, and that value (R465). -/
def hottest : Map Int → Option (Nat × Int)
  | [] => none
  | (k, v) :: m =>
    match hottest m with
    | some (j, w) => if v < w then some (j, w) else some (k, v)
    | none => some (k, v)

/-- Entering throttle: the limit is the 100 µs average in whole steps of 25 W, at most the cap, lowered by 25 W at once; a limit
already in force stays (R452). -/
def State.enterThrottle (s : State) : State :=
  let avg := averageOf 100 s.pwr.samples
  let limit := min s.pwr.cap (avg.1 / (25 * avg.2) * 25) - 25
  let s := { s with pwr := { s.pwr with throttle := some (s.pwr.throttle.getD limit) } }
  (s.pwrEvent 1).raise srcThermalThrottle 0 0 []

/-- Entering warning: the source and both halves' injected sequences (R451, R458). -/
def State.enterWarning (s : State) : State :=
  (((s.pwrEvent 0).raise srcThermalWarning 0 0 []).trigger 0 1).trigger 1 1

/-- Evaluate a zone's state after its reading was refreshed (R451, R452). -/
def State.evalZone (s : State) (die : Bool) (reading : Int) : State :=
  let t := thresholds die
  let h := s.hysteresis die
  let w := s.pwr
  let warn := zoneState reading t.1 h (if die then w.dieWarn else w.hbmWarn)
  let hot := zoneState reading t.2.1 h (if die then w.dieThrottle else w.hbmThrottle)
  let newWarn := warn && !(if die then w.dieWarn else w.hbmWarn)
  let newHot := hot && !(if die then w.dieThrottle else w.hbmThrottle)
  let s := { s with pwr := { w with
      dieWarn := if die then warn else w.dieWarn
      dieThrottle := if die then hot else w.dieThrottle
      hbmWarn := if die then w.hbmWarn else warn
      hbmThrottle := if die then w.hbmThrottle else hot } }
  let s := if newWarn then s.enterWarning else s
  if newHot then s.enterThrottle else s

/-- Every clock stops and THERMTRIP_N asserts (R453 step 3). -/
def State.tripThermal (s : State) : State :=
  { s with
    pwr := { s.pwr with allStopped := true, stageStopped := true, thermtrip := true, shutdownDue := false }
    boot := { s.boot with stopped := true } }

/-- A zone reaches shutdown: the stage clock stops, the source is raised, and firmware writes the record and has every clock
stopped; without firmware the hardware does so when the time is out (R453, R455). -/
def State.shutdown (s : State) (die : Bool) (sensor : Nat) (reading : Int) : State :=
  if s.pwr.shutdownDue || s.pwr.allStopped then s
  else
    let s := { s with pwr := { s.pwr with stageStopped := true, shutdownDue := true } }
    let s := s.raise srcThermalShutdown 0 0 s.flight
    if s.firmwareRuns then (s.ledgerWrite (if die then 1 else 2) sensor (unsignedOf 16 reading) []).ledgerSettle.tripThermal else s

/-- Readings of sensors of a zone, compared with the shutdown threshold: a sensor whose last two readings reach it shuts the
device down (R453). -/
def State.watchShutdown (s : State) (die : Bool) (readings : List (Nat × Int)) : State :=
  let t := (thresholds die).2.2
  readings.foldl (fun s r =>
    let key := (if die then 0 else 128) + r.1
    if t ≤ r.2 then
      if has s.pwr.overShutdown key then s.shutdown die r.1 r.2
      else { s with pwr := { s.pwr with overShutdown := insertNat key s.pwr.overShutdown } }
    else { s with pwr := { s.pwr with overShutdown := without s.pwr.overShutdown key } }) s

/-- The results of a regular pass: each of the REG_LEN entries replaces its input's result with the number of the pass, the
passes completed before it (R457, R467). -/
def State.regularResults (s : State) (half : Nat) (codes : List Nat) : State :=
  let pass := (Map.getD s.hkm half {}).passes
  (List.range (s.field (hkmReg half 0) 0 7)).foldl (fun s e =>
    let input := s.field (hkmReg half (0x100 + 4 * e)) 0 6
    let code := inputCode half input (codes.getD e 0)
    (s.setReg (hkmReg half (0x400 + 4 * input)) (2 ^ 31 + pass % 32768 * 65536 + code)).convert half input code) s

/-- The temperatures of a half's 48 diodes after a pass, whose first 48 entries read them in order (R456, R457; log 158). -/
def diodeReadings (half : Nat) (codes : List Nat) : List (Nat × Int) :=
  (List.range 48).map (fun d => (48 * half + d, Config.diodeTemp (48 * half + d) (codes.getD d 0 % 4096)))

/-- HKM_PASS: a regular pass of a half completes, its corrections are applied, and the die zone is evaluated (R451, R457, R459). -/
def execHkmPass (half : Nat) (codes : List Nat) (s : State) : Host.Outcome State Fault Refusal :=
  if 2 ≤ half then .fault .noSuchUnit
  else if !s.powered then .next s
  else
    let s := s.regularResults half codes
    let m := Map.getD s.hkm half {}
    let ts := diodeReadings half codes
    let s := { s with
      hkm := Map.put s.hkm half { m with passes := (m.passes + 1) % 65536, regIndex := 0 }
      pwr := { s.pwr with dieTemps := ts.foldl (fun (d : Map Int) (x : Nat × Int) => Map.put d x.1 x.2) s.pwr.dieTemps } }
    let s := s.compensatePass half
    match hottest s.pwr.dieTemps with
    | none => .next s
    | some (k, v) =>
      let s := (s.setField 0x00080030 16 16 (unsignedOf 16 v)).setField 0x00080034 8 8 k
      .next ((s.evalZone true v).watchShutdown true ts)

/-- HBM_SENSOR_READ: the highest sensor of each stack, read every 100 µs (R451). -/
def execHbmSensorRead (temps : List Int) (s : State) : Host.Outcome State Fault Refusal :=
  if !s.powered then .next s
  else
    let ts := (temps.take 12).zipIdx.map (fun x => (x.2, x.1))
    let s := { s with pwr := { s.pwr with hbmTemps := ts } }
    match hottest ts with
    | none => .next s
    | some (k, v) =>
      let s := (s.setField 0x00080030 0 16 (unsignedOf 16 v)).setField 0x00080034 0 4 k
      .next ((s.evalZone false v).watchShutdown false ts)

/-- THROTTLE_LIMIT_STEP: the limit falls while any zone reads at or above its throttle threshold, rises while every zone reads
below it less its hysteresis, and holds between; throttle ends at the cap (R452). -/
def execThrottleLimitStep (s : State) : Host.Outcome State Fault Refusal :=
  match s.pwr.throttle with
  | none => .next s
  | some l =>
    if !s.powered then .next s
    else
      let zones := [true, false]
      let hot := zones.any (fun z => decide ((thresholds z).2.1 ≤ s.zoneReading z))
      let cool := zones.all (fun z => decide (s.zoneReading z < (thresholds z).2.1 - s.hysteresis z))
      let limit := if hot then some (max (min l 250) (l - 25)) else if cool then (if s.pwr.cap ≤ l + 25 then none else some (l + 25))
        else some l
      .next { s with pwr := { s.pwr with throttle := limit } }

/-- THERMTRIP_TIMEOUT: 5 ms after a shutdown without a record, hardware asserts THERMTRIP_N and stops every clock (R453). -/
def execThermtripTimeout (s : State) : Host.Outcome State Fault Refusal :=
  .next (if s.powered && s.pwr.shutdownDue then s.tripThermal else s)

/-- INJECTED_SEQUENCE: the injected run that a trigger asked for converts its INJ_LEN entries, and the merged further run, if
any, is due next (R458, R467). -/
def execInjectedSequence (half : Nat) (codes : List Nat) (s : State) : Host.Outcome State Fault Refusal :=
  if 2 ≤ half then .fault .noSuchUnit
  else
    let m := Map.getD s.hkm half {}
    if !s.powered || m.injActive = 0 then .next s
    else
      let s := (List.range (s.field (hkmReg half 0) 16 4)).foldl (fun s e =>
        let input := s.field (hkmReg half (0x200 + 4 * e)) 0 6
        let code := inputCode half input (codes.getD e 0)
        (s.setReg (hkmReg half (0x600 + 4 * e)) (2 ^ 31 + m.injActive * 2 ^ 27 + code)).convert half input code) s
      .next { s with hkm := Map.put s.hkm half { m with injActive := m.injPending, injPending := 0 } }

/-- SW_TRIGGER: a write of HKM_CTRL with bit 31 set fires the software trigger (R458, R467). -/
def execSwTrigger (half : Nat) (value : Word) (s : State) : Host.Outcome State Fault Refusal :=
  if 2 ≤ half then .fault .noSuchUnit
  else
    let o := hkmReg half 0
    let s := match regRow? o with
      | some (r, _, _) => s.setReg o (r.written (s.reg o) value.toNat)
      | none => s
    .next (if Nat.testBit value.toNat 31 then s.trigger half 3 else s)

/-- THERMAL_SET sets each hysteresis from 2 to 10 °C and returns the previous values (R396, R451, R465). -/
def execThermalSet (e : Entry) (s : State) : Host.Outcome State Fault Refusal :=
  runCmd e 0x61 false (fun s =>
    let d := e.op 8 1
    let h := e.op 9 1
    if d < 2 || 10 < d || h < 2 || 10 < h then done s .invalid []
    else
      let old := s.reg 0x00080038
      done (s.setReg 0x00080038 (h * 256 + d)) .ok (leBytes 1 (bitsOf old 0 4) ++ leBytes 1 (bitsOf old 8 4))) s

/-- COOLANT_LOSS: the stage clock stops, the power event record is written, ERR_N asserts, the source is raised and firmware
stops (R454, R455). What its reading holds the spec does not say (log 9). -/
def execCoolantLoss (s : State) : Host.Outcome State Fault Refusal :=
  let was := s.pwr.coolantOk
  let s := { s with pwr := { s.pwr with coolantOk := false } }
  if !was then .next s
  else if !s.powered then
    -- power-good is gone and the rails are still up: no record, but ERR_N is driven (R536)
    .next (if s.pwr.rails && !s.pwr.powerGood then { s with outside := { s.outside with errLow := true } } else s)
  else
    let s := ({ s with pwr := { s.pwr with stageStopped := true } }.trigger 0 2).trigger 1 2
    let s := (s.ledgerWrite 3 0xFF (leNat [Config.openByte 3 0, Config.openByte 3 1]) []).ledgerSettle
    let s := { s with outside := { s.outside with errLow := true } }.raise srcCoolantLoss 0 0 s.flight
    .next { s with boot := { s.boot with stopped := true } }

/-- COOLANT_OK_RESTORED: the injected sequences are triggered, and a ROM that waits at boot starts the stage clock; after a
loss only a reset does (R454, R458). -/
def execCoolantOkRestored (s : State) : Host.Outcome State Fault Refusal :=
  let was := s.pwr.coolantOk
  let s := { s with pwr := { s.pwr with coolantOk := true } }
  if !s.powered || was then .next s
  else
    let s := (s.trigger 0 2).trigger 1 2
    if s.pwr.pllLocked && !s.integ.fatalStop && !s.boot.stopped then
      .next { s with pwr := { s.pwr with stageStopped := false } }
    else .next s

end Sys2Proof.Machine
end

