-- ==== Sys2Proof/Machine/Boot.lean ====
section
/-!
DEFINITION. Boot and trust (R408 to R422): firmware staging and its verification, the start of firmware, the playbill, pattern
packs, and mailbox readiness.
-/
namespace Sys2Proof.Machine

/-- Pieces of an image (R412). -/
def pieceCount (length : Nat) : Nat := ceilDiv length 32768

/-- FWS_LENGTH: in WAIT a length of 4 KiB to 4 MiB starts receiving; any other write is dropped (R412, R429). -/
def execFwsLength (value : Word) (s : State) : Host.Outcome State Fault Refusal :=
  let n := value.toNat % 8388608
  if s.boot.fws ≠ .wait || n < 4096 || 4194304 < n then .next s
  else .next { s with boot := { s.boot with length := n, fws := .receiving, pieces := [], image := [] } }

/-- FWS_PIECE: an index below the piece count starts the copy of the window; dropped while BUSY is 1 (R412, R429). -/
def execFwsPiece (value : Word) (s : State) : Host.Outcome State Fault Refusal :=
  let i := value.toNat % 256
  if s.boot.fws ≠ .receiving || s.boot.busy || pieceCount s.boot.length ≤ i then .next s
  else .next { s with boot := { s.boot with pieceIndex := i, busy := true } }

/-- FWS_PIECE_COPIED: the window is copied; once every piece has arrived the image is verified (R412). -/
def execFwsPieceCopied (s : State) : Host.Outcome State Fault Refusal :=
  if s.boot.fws ≠ .receiving || !s.boot.busy then .next s
  else
    let ps := insertNat s.boot.pieceIndex s.boot.pieces
    let image := Map.put s.boot.image s.boot.pieceIndex (memReadList s.boot.window 0 32768)
    .next { s with boot := { s.boot with
      busy := false, image := image, pieces := ps
      fws := if ps.length = pieceCount s.boot.length then .verifying else .receiving } }

/-- The bytes of the received image. -/
def Boot.imageBytes (b : Boot) : List Byte := ((b.image.map (fun p => p.2)).flatten).take b.length

/-- The check of R414 that an image fails first, if it fails one: its code. -/
def Boot.imageCheck (b : Boot) (bs : List Byte) : Option Nat :=
  let key := shake32 (sliceBytes bs 20 57)
  let operator := if b.fuses.operatorRoot.isSome then (b.config.map (fun c => c.firmwareKeys)).getD [] else []
  let svn := fieldAt bs 16 4
  if fieldAt bs 0 4 ≠ 0x57465146 ∨ fieldAt bs 5 1 ≠ 0xB0 ∨ fieldAt bs 6 2 ≠ 256 ∨ fieldAt bs 77 179 ≠ 0 then some 1
  else if fieldAt bs 8 4 ≠ b.length then some 2
  else if !has (b.fuses.firmwareKeys ++ operator) key then some 3
  else if svn < (b.config.map (fun c => c.minSvn)).getD 0 ∨ svn < b.fuses.minSvn then some 4
  else if !ed448Verify "FQB-FW1" (sliceBytes bs 20 57) (bs.take (bs.length - 114)) (bs.drop (bs.length - 114)) then some 5
  else none

/-- FWS_FAIL records a code (R411, R414, R429). -/
def State.fwsFail (s : State) (code : Nat) : State :=
  let n := s.reg 0x000D000C % 65536
  s.setReg 0x000D000C (2 ^ 31 + code * 65536 + n)

/-- An image is discarded: the window and the pieces are cleared, ATTEMPTS increments, and the ROM waits again (R414). -/
def State.rejectImage (s : State) (code : Nat) : State :=
  let s := { s with boot := { s.boot with fws := .wait, window := [], image := [], pieces := [] } }
  let s := s.setField 0x000D000C 0 16 (satAdd 0xFFFF (s.field 0x000D000C 0 16) 1)
  s.fwsFail code

/-- The governing tuning slot is applied: its step and trims, or step 0 and trims 0 (R498). -/
def State.applyTuning (s : State) : State :=
  let step := if s.ledger.tuneValid then s.ledger.tuneStep else 0
  let trims := if s.ledger.tuneValid then s.ledger.tuneTrims else []
  { s with pwr := { s.pwr with step := step, rowTrims := trims, regulator := s.regulatorFor step trims } }

/-- Firmware starts: it is measured, the window is locked, the history chain is zero (R411, R415, R418, R419); it applies the
tuning slot (R498) and raises what it finds (R410, R454). -/
def State.startFirmware (s : State) (bs : List Byte) : State :=
  let image : FwImage := { line := fieldAt bs 4 1, build := fieldAt bs 12 4, svn := fieldAt bs 16 4, digest := shake32 bs }
  let s := { s with boot := { s.boot with
      fws := .running, stopped := false, firmware := some image, window := [], image := [], pieces := []
      chain := List.replicate 64 0, chainCount := 0 } }
  let s := s.applyTuning.latchPlaybill
  let s := if s.boot.config.isNone then s.raise srcBootConfigInvalid 0 0 [] else s
  if s.pwr.coolantOk then s else s.raise srcCoolantLoss 0 0 []

/-- FIRMWARE_VERIFIED: the verification of the received image completes (R414, R415). -/
def execFirmwareVerified (s : State) : Host.Outcome State Fault Refusal :=
  if s.boot.fws ≠ .verifying then .next s
  else
    let bs := s.boot.imageBytes
    match s.boot.imageCheck bs with
    | some code => .next (s.rejectImage code)
    | none => .next (s.startFirmware bs)

/-- MBX_READY: HBM is trained and firmware has laid out the reserved regions; rings may be enabled (R237, R426). -/
def execMbxReady (s : State) : Host.Outcome State Fault Refusal :=
  if s.firmwareRuns then
    .next { s with kv := { s.kv with laidOut := true }, mbx := { s.mbx with ready := true } }
  else .next s

/-- The CALIBRATION measurement (R418). -/
def State.calibrationDigest (s : State) : Nat :=
  shake32 (((List.range Config.tiles).map s.calHead).flatten ++ leBytes 4 (s.reg 0x200))

/-- The flags of a playbill (R420). -/
def State.playbillFlags (s : State) : Nat :=
  (if s.boot.fuses.operatorRoot.isSome then 1 else 0) + (if s.boot.config.isSome then 2 else 0) +
    (if s.boot.latched.rolling then 4 else 0) + (if s.boot.fuses.variant = 0x45 then 8 else 0)

/-- The report of a playbill, without its signature (R420). -/
def State.playbillBody (s : State) (nonce : List Byte) : List Byte :=
  let p := s.boot.latched
  let f := s.boot.firmware.getD { line := 0, build := 0, svn := 0, digest := 0 }
  [0x46, 0x51, 0x50, 0x42, 0x01, 0xB0] ++ leBytes 1 s.boot.fuses.variant ++ leBytes 1 f.line ++
    leBytes 8 s.boot.fuses.serial ++ nonce ++ leBytes 8 p.time ++ leBytes 8 p.count ++
    s.boot.fuses.idPublic ++ s.boot.fuses.xPublic ++ List.replicate 7 0 ++
    leBytes 32 s.boot.fuses.romDigest ++ leBytes 32 ((s.boot.config.map (fun c => c.digest)).getD 0) ++ leBytes 32 f.digest ++
    leBytes 32 p.sheet ++ leBytes 32 p.production ++ leBytes 32 s.calibrationDigest ++ leBytes 4 p.epoch ++
    leBytes 4 p.fence ++ p.chain ++ leBytes 4 p.chainCount ++ leBytes 4 s.playbillFlags ++ leBytes 4 p.pack ++
    leBytes 4 f.svn ++ List.replicate 16 0

/-- PLAYBILL writes the report of the state at the most recent scene change, signed by the identity key (R396, R420). -/
def execPlaybill (e : Entry) (s : State) : Host.Outcome State Fault Refusal :=
  runCmd e 0x03 true (fun s =>
    if e.op 48 4 < 594 || !bufferOk (e.op 8 8) then done s .invalid []
    else if !s.ldr.bootVerified then done s .notReady []
    else
      let body := s.playbillBody (sliceBytes e.bytes 16 32)
      done (s.dmaWrite e.tag (e.op 8 8) (body ++ ed448Sign "FQB-PB1" s.boot.fuses.idPrivate body)) .ok (leBytes 4 594)) s

/-- Whether the header of a pattern pack is well formed (R421): it holds itself and the signature at least. -/
def packOk (b : List Byte) : Bool :=
  decide (fieldAt b 0 4 = 0x50535146) && decide (fieldAt b 4 1 = 0xB0) && decide (fieldAt b 5 3 = 0) &&
    decide (370 ≤ fieldAt b 8 4) && decide (fieldAt b 8 4 ≤ 2 ^ 25) && decide (fieldAt b 73 183 = 0)

/-- Whether the signature of a pattern pack verifies (R421). -/
def packSigned (b : List Byte) : Bool :=
  let n := fieldAt b 8 4
  ed448Verify "FQB-SP1" (sliceBytes b 16 57) (b.take (n - 114)) (sliceBytes b (n - 114) 114)

/-- PATTERN_INSTALL, by the first row of R422 that matches; an accepted pack is written to the free slot. -/
def execPatternInstall (e : Entry) (pack : Dma) (s : State) : Host.Outcome State Fault Refusal :=
  runCmd e 0x53 true (fun s =>
    if !bufferOk (e.op 8 8) then done s .invalid []
    else
      withDma pack s (fun p =>
        let s := s.dmaRead e.tag p
        let length := fieldAt p 8 4
        let version := fieldAt p 12 4
        if !packOk p || e.op 24 4 < length then done s .invalid []
        else if !packSigned p ||
            !has (s.boot.fuses.patternKeys ++ (s.boot.config.map (fun c => c.patternKeys)).getD []) (shake32 (sliceBytes p 16 57)) then
          done s .badSignature []
        else if version ≤ s.boot.packVersion then done s .invalid []
        else if s.boot.installing.isSome then done s .busy []
        else
          let s := s.addJob e.ring e.tag (.patternInstall version)
          later { s with boot := { s.boot with installing := some (version, shake32 (p.take length), p.take length) } })) s

/-- Flash address of a pattern pack slot (R408). -/
def packAddr (slot : Nat) : Nat := if slot = 0 then 0x400000 else 0x2400000

/-- PATTERN_WRITE_DONE: the flash write and its readback are over. A pack whose write succeeded is installed and enters the
history chain (R408, R419, R422); one whose command has ended at a FATAL stop is not. What a write that failed leaves in the free slot is
not held, as nothing reads it (log 157). -/
def execPatternWriteDone (ok : Bool) (s : State) : Host.Outcome State Fault Refusal :=
  match s.boot.installing with
  | none => .next s
  | some (v, d, bytes) =>
    let s := { s with boot := { s.boot with installing := none } }
    let isIt := fun (k : JobKind) => k == .patternInstall v
    if !s.hasJob isIt then .next s
    else if ok then
      let slot := 1 - s.boot.packSlot
      let flash := memWriteList s.boot.flash (packAddr slot) bytes
      let s := { s with boot := { s.boot with packVersion := v, packDigest := d, packSlot := slot, flash := flash } }.record 0x04 d
      .next (s.finishJobs (fun j => if isIt j.kind then some (.ok, leBytes 4 v) else none))
    else .next (s.finishJobs (fun j => if isIt j.kind then some (.crcFail, []) else none))

end Sys2Proof.Machine
end

