-- ==== Sys2Proof/Machine/Section.lean ====
section
/-!
DEFINITION. A section of a scene (R162, R255): at its start the routers begin its programs, and from then on the stage cycles run
what it schedules. The wings: source transfers, line data and check blocks, the tests at T − 8, the outbound store and step
descriptors (R157, R171 to R174, R470 to R476).
-/
namespace Sys2Proof.Machine

/-- An HBM controller's ECC event (R475). -/
def State.hbmEcc (s : State) (stack : Nat) (ue : Bool) (scenes : List Nat) : State :=
  if ue then (s.orReg 0x00030800 0x8).raise srcHbmUe 7 stack scenes
  else ((s.orReg 0x00030800 0x4).count 53 1).raise srcHbmCe 7 stack []

/-- A fault of a row link domain: the row cannot serve until a reset of the row clears it (R190, R204). -/
def State.rowLinkFault (s : State) (row : Nat) (scenes : List Nat) : State :=
  ({ s with fabric := { s.fabric with rowFaults := insertNat row s.fabric.rowFaults } }.syncMgmt [row * Config.cols]).raise
    srcRowLinkFault 2 row scenes

/-- A byte with one bit changed. -/
def flipped (b : Byte) : Byte := b ^^^ 1

/-- A byte of HBM changes without notice. -/
def State.flipHbm (s : State) (a : Nat) : State :=
  { s with kv := { s.kv with hbm := memWrite s.kv.hbm a (flipped (memRead s.kv.hbm a)) } }.uncheck a

/-- An error of R144, R195, R190 or R475, or a silent change, while a section runs. Data that HBM ECC cannot correct are a failing
check of what holds them (R475). -/
def State.sectionError (scene : Nat) (s : State) (e : SecError) : State :=
  match e with
  | .sram tile word ue => if ue then s.sramUe tile word [scene] else s.sramCe tile word
  | .slot tile addr ue => s.slotError tile addr ue
  | .rowLink row => s.rowLinkFault row [scene]
  | .hbm addr ue =>
    let s := s.hbmEcc (addr / Config.frameBytes % 12) ue [scene]
    if ue then s.flipHbm addr else s
  | .flipHbm addr => s.flipHbm addr
  | .flipSram tile addr => s.sramWrite tile addr [flipped (memRead (s.tile tile).sram addr)]
  | .flipDescriptor frame =>
    let d := s.frame frame
    { s with kv := { s.kv with frames := Map.put s.kv.frames frame { d with descCrc := (d.descCrc + 1) % 2 ^ 32 } } }
  | .flipDirectory entry =>
    match Map.get? s.kv.dir entry with
    | some d => { s with kv := { s.kv with dir := Map.put s.kv.dir entry { d with crc := (d.crc + 1) % 2 ^ 32 } } }
    | none => s
  | .ledger attempts => { s with ledger := { s.ledger with badWrites := attempts } }

/-- The section record of a scene in flight, where the scene's variant holds the section (R255, R256). -/
def State.sectionOf (s : State) (index scene : Nat) : Option (Scene × Section) :=
  match s.fabric.active, s.prm.scenes.find? (fun c => c.id == scene) with
  | some c, some sc =>
    match c.variants[sc.variant]?, c.sections[index]? with
    | some v, some x => if v.first ≤ index ∧ index < v.first + v.count then some (sc, x) else none
    | _, _ => none
  | _, _ => none

/-- Every router that a section gives a start address takes it, and so does the station unit of an understudy that runs a
position's program (R162, R182, R257). -/
def Router.startSection (r : Router) (index : Nat) : Router :=
  { r with
    seq := r.seq.start (r.starts.getD index 0xFFFF)
    stn := if r.stationActive then r.stn.start (r.stationStarts.getD index 0xFFFF) else r.stn }

/-- A section begins for a scene at a counter value (R162, R255). -/
def State.beginSection (s : State) (index scene start tag : Nat) : State :=
  let s := s.mapTiles (fun _ t => { t with router := t.router.startSection index })
  let run : RunSec := { index := index, scene := scene, start := start }
  { s with fabric := { s.fabric with running := s.fabric.running ++ [run] } }.takePhase tag

/-- SECTION_START: the schedule reaches the section's start offset, every router starts it and the phase tag changes (R162, R255).
The errors are those that the environment brings from then on. -/
def execSectionStart (index scene : Nat) (errors : List SecError) (s : State) : Host.Outcome State Fault Refusal :=
  match s.sectionOf index scene with
  | none => .next s
  | some (sc, x) =>
    let start := sc.start + x.start
    let s := s.advanceTo start
    if !s.reached start || s.fabric.running.any (fun r => r.index == index && r.scene == scene) then .next s
    else .next (errors.foldl (State.sectionError scene) (s.beginSection index scene start x.tag))

/-- Targets of step descriptors: stacks 0 to 11, port dies 12 and 13, the PCIe endpoint 14 (R476). -/
def stepTargets : Nat := 15

/-- Key of a wing's alive counter for a target (R476). -/
def stepKey (rowEnd target : Nat) : Nat := rowEnd * stepTargets + target

/-- WING_SOURCE_ISSUE: at S = T − L the wing issues a line's source transfer, a step descriptor that advances its counter. None goes
before that value, or behind one of a greater T (R172, R476). -/
def execWingSourceIssue (rowEnd _line target at_ : Nat) (s : State) : Host.Outcome State Fault Refusal :=
  if 320 ≤ rowEnd || stepTargets ≤ target then .fault .noSuchUnit
  else
    match s.fabric.active with
    | none => .next s
    | some c =>
      let s := s.advanceTo (at_ - c.lookahead)
      if s.fabric.counter + c.lookahead < at_ || decide (at_ < (Map.getD s.fabric.wings rowEnd {}).issued) then .next s
      else
        let s := s.modWing rowEnd (fun w => { w with issued := at_ })
        let k := stepKey rowEnd target
        .next { s with fabric := { s.fabric with
          stepIssued := Map.put s.fabric.stepIssued k ((Map.getD s.fabric.stepIssued k 0 + 1) % 65536) } }

/-- The next use of one of a wing's lines: of the entries by which the wing programs of the scenes in flight emit it, the one at the
lowest counter value to come, with its scene (R171). -/
def State.nextUse (s : State) (rowEnd : Nat) (lines : List Nat) : Option (WingLine × Nat) :=
  match s.fabric.active with
  | none => none
  | some c =>
    let uses := s.prm.scenes.flatMap (fun sc =>
      match c.variants[sc.variant]? with
      | none => []
      | some v => (c.compiled.wingLines.filter (fun l =>
          l.rowEnd == rowEnd && l.inbound && has lines l.line && decide (v.first ≤ l.sec) && decide (l.sec < v.first + v.count) &&
            decide (s.fabric.counter ≤ wingTime c l + sc.start))).map (fun l => (wingTime c l + sc.start, l, sc.id)))
    match uses with
    | [] => none
    | u :: us => some (us.foldl (fun m x => if x.1 < m.1 then x else m) u).2

/-- The scene that consumes a line next (R473). -/
def State.lineScene (s : State) (rowEnd : Nat) (lines : List Nat) : List Nat := ((s.nextUse rowEnd lines).map (fun u => u.2)).toList

/-- Whether the lines of a check block in a wing pass their check: CRC, count, buffer identity and index (R470, R472). -/
def Wing.blockOk (w : Wing) (b : LineBlock) : Bool :=
  let data := b.lines.flatMap (fun l => Map.getD w.lines l [])
  (Map.getD w.lines b.trailer []) == blockTrailer data b.lines.length b.buffer b.index ++ List.replicate 48 0

/-- A line's data are in it. A line of a check block becomes ready with its block, once that is complete and passes its check; the
lines of one that fails are released zero-filled and the consuming scene fails (R171, R472, R473). -/
def State.lineArrives (s : State) (c : CueSheet) (rowEnd line : Nat) (data : List Byte) : State :=
  let s := s.fillLine rowEnd line data
  match c.compiled.blocks.find? (fun b => b.rowEnd == rowEnd && (has b.lines line || b.trailer == line)) with
  | none => s.lineReady rowEnd line
  | some b =>
    let w := Map.getD s.fabric.wings rowEnd {}
    let all := b.lines ++ [b.trailer]
    if all.all (fun l => (Map.get? w.lines l).isSome) then
      if w.blockOk b then all.foldl (fun s l => s.lineReady rowEnd l) s
      else (s.releaseZero rowEnd all).checkFail 0 rowEnd (s.lineScene rowEnd all)
    else s

/-- WING_LINE_READY: the source transfer that fills a line for its next use brings the data, from HBM, from a collective step that
holds them, or from the endpoint (R171, R359, R472). A line without a use to come has no transfer. -/
def execWingLineReady (rowEnd line : Nat) (data : List Byte) (s : State) : Host.Outcome State Fault Refusal :=
  if 320 ≤ rowEnd || 4096 ≤ line then .fault .noSuchUnit
  else
    match s.fabric.active with
    | none => .next s
    | some c =>
      match s.nextUse rowEnd [line] with
      | none => .next s
      | some (l, scene) =>
        match l.other with
        | .hbm a => .next (s.lineArrives c rowEnd line (memReadList s.kv.hbm a 64))
        | .outside => .next (s.lineArrives c rowEnd line data)
        | .chorus index offset =>
          match s.chorusLine [scene] index offset with
          | some bs => .next (s.lineArrives c rowEnd line bs)
          | none => .next s

/-- WING_READY_TEST: at S = T − 8 a line that is not ready raises WING_IN, and an outbound store without room for the lines
that the schedule fills at T raises WING_OUT (R173, R175). -/
def execWingReadyTest (rowEnd at_ : Nat) (s : State) : Host.Outcome State Fault Refusal :=
  if 320 ≤ rowEnd then .fault .noSuchUnit
  else
    let s := s.advanceTo (at_ - 8)
    .next (if s.reached (at_ - 8) && decide (s.fabric.counter ≤ at_) then s.wingTest rowEnd at_ else s)

/-- WING_OUTBOUND_DRAIN: the oldest line of the outbound store drains to its destination, and WING_OUT drops once no wing waits for
room (R173). -/
def execWingOutboundDrain (rowEnd : Nat) (s : State) : Host.Outcome State Fault Refusal :=
  if 320 ≤ rowEnd then .fault .noSuchUnit
  else
    let w := Map.getD s.fabric.wings rowEnd {}
    let s := match w.outbound with
      | { dest := .hbm a, data := data, .. } :: _ => { s with kv := { s.kv with hbm := memWriteList s.kv.hbm a data } }
      | { dest := .chorus index offset, scene := scene, data := data, .. } :: _ => s.chorusPut scene index offset data
      | _ => s
    let s := s.modWing rowEnd (fun w => { w with outbound := w.outbound.drop 1, outCause := false })
    .next (if s.fabric.wings.any (fun e => e.2.outCause) then s else s.dropCause 1)

/-- WING_STALL: a wing cause stayed raised for WING_TIMEOUT (R174). -/
def execWingStall (rowEnd : Nat) (s : State) : Host.Outcome State Fault Refusal :=
  if 320 ≤ rowEnd then .fault .noSuchUnit
  else
    let w := Map.getD s.fabric.wings rowEnd {}
    if w.inCause || w.outCause then .next ((s.setReg 0x00000418 (2 ^ 31 + rowEnd)).raise srcWingStall 3 rowEnd s.flight)
    else .next s

/-- STEP_DESCRIPTOR_COMPLETION: the counter that a target returns is the one expected next; another is discarded, raises
STEP_ALIVE, releases the line zero-filled, whose scene fails, and is expected plus one next (R473, R476). -/
def execStepDescriptorCompletion (rowEnd target alive line : Nat) (s : State) : Host.Outcome State Fault Refusal :=
  if 320 ≤ rowEnd || stepTargets ≤ target || 4096 ≤ line then .fault .noSuchUnit
  else
    let k := stepKey rowEnd target
    let bad := decide (alive ≠ Map.getD s.fabric.stepExpected k 0)
    let s := { s with fabric := { s.fabric with stepExpected := Map.put s.fabric.stepExpected k ((alive + 1) % 65536) } }
    if bad then
      .next (((s.orReg 0x00030800 0x2).raise srcStepAlive 3 rowEnd (s.lineScene rowEnd [line])).releaseZero rowEnd [line])
    else .next s

end Sys2Proof.Machine
end

