-- ==== Sys2Proof/Machine/Chorus.lean ====
section
/-!
DEFINITION. Chorus commands and events (R354 to R365, R400): group slots, steps, received frames, requests for missing ranges,
deadlines and late notices.
-/
namespace Sys2Proof.Machine

/-- A member record of R400: its port, its IP version and the bytes that are zero. -/
def memberRecordOk (b : List Byte) : Bool :=
  decide (fieldAt b 0 1 < 16) && (fieldAt b 1 1 == 4 || fieldAt b 1 1 == 6) && decide (fieldAt b 24 8 = 0)

/-- CHORUS_GROUP_SET writes a group slot and starts its alive counters at 0; the bound slot is BUSY (R356, R362, R400). -/
def execChorusGroupSet (e : Entry) (records : Dma) (s : State) : Host.Outcome State Fault Refusal :=
  runCmd e 0x70 true (fun s =>
    let slot := e.op 8 1
    let m := e.op 12 2
    let own := e.op 14 2
    if 2 ≤ slot || m < 2 || 1024 < m || m ≤ own || !bufferOk (e.op 16 8) then done s .invalid []
    else if s.net.bound = some slot then done s .busy []
    else
      withDma records s (fun bs =>
        let s := s.dmaRead e.tag (sliceBytes bs 0 (32 * m))
        let rs := (List.range m).map (fun i => sliceBytes bs (32 * i) 32)
        if rs.all memberRecordOk then
          let g : ChorusGroup := { identity := e.op 10 2, size := m, own := own, members := rs }
          done { s with net := { s.net with groups := Map.put s.net.groups slot g } } .ok []
        else done s .invalid [])) s

/-- The group slot that a received frame belongs to: the bound one where it matches, else the lower one that does. -/
def State.groupOf (s : State) (f : ChorusFrame) : Option (Nat × ChorusGroup) :=
  let fits := fun (p : Nat × ChorusGroup) =>
    p.2.identity == f.group && p.2.own == f.dst && decide (f.src < p.2.size) && f.src != p.2.own
  match s.boundGroup with
  | some p => if fits p then some p else s.net.groups.find? fits
  | none => s.net.groups.find? fits

/-- Ask a member again for a range, at most once for a range and source of a step (R361, R363). -/
def State.requestRange (s : State) (i step op src offset length : Nat) : State :=
  if s.net.requested.any (fun r => r == (step, src, offset)) then s
  else
    let k : Kept := { op := 0x10, dst := src, offset := offset, last := false, alive := 0, payload := leBytes 8 op }
    let s := ((s.chorusSend i step k length 0 0).1.orReg 0x000B0004 0x10).count 68 1
    { s with net := { s.net with requested := s.net.requested ++ [(step, src, offset)] } }

/-- Send kept frames of a range again, with their counters and RETRANSMIT (R362, R363). -/
def State.resend (s : State) (g : ChorusGroup) (f : ChorusFrame) : State :=
  let op := fieldAt f.payload 0 1
  let scenes := s.net.scenesSent.filter (fun p => decide (p.1 = f.stepNo))
  let steps := s.net.steps.filter (fun x => decide (x.number = f.stepNo))
  let kept := (steps.map (fun x => x.kept.map (fun k => (x.plan.format, x.udpPort, k)))).flatten ++ scenes.map (fun p => (0, p.2))
  (kept.filter (fun p => p.2.2.op == op && p.2.2.dst == f.src && decide (p.2.2.offset < f.offset + f.length) &&
      decide (f.offset < p.2.2.offset + p.2.2.payload.length))).foldl (fun s p =>
    s.sendFrame g p.2.1 p.2.2 (g.frame f.stepNo p.2.2 p.2.2.payload.length p.1 0 true)) s

/-- A frame for a step: it acts at once where the step has opened; data and notices that come early wait for it (R360, R365). -/
def State.routeStep (s : State) (f : ChorusFrame) : State :=
  if f.stepNo < s.net.nextStep then s.stepFrame f
  else if f.op = 0x12 then s
  else { s with net := { s.net with early := Map.put s.net.early f.stepNo (Map.getD s.net.early f.stepNo [] ++ [f]) } }

/-- How a receiver of the bound group acts on a frame whose counter it accepts (R355, R357, R361, R363, R365). -/
def State.acceptFrame (s : State) (i : Nat) (g : ChorusGroup) (f : ChorusFrame) : State :=
  let key := (f.stepNo, f.src, f.offset)
  if f.digest ≠ crc64 f.payload then
    let s := s.count 69 1
    if s.net.mismatched.any (fun r => r == key) then s.routeStep f
    else
      let s := { s with net := { s.net with mismatched := s.net.mismatched ++ [key] } }
      s.requestRange i f.stepNo f.op f.src f.offset f.payload.length
  else
    match f.op with
    | 0x07 =>
      if g.own = 0 || f.src != 0 || (f.retransmit && s.net.sceneQueue.any (fun q => q.1 == f.alive)) then s
      else { s with net := { s.net with sceneQueue := s.net.sceneQueue ++ [(f.alive, f.payload)] } }
    | 0x10 => s.resend g f
    | 0x11 => ((s.orReg 0x000B0004 0x20).count 67 1).routeStep f
    | 0x12 => s.routeStep f
    | op => if 0x01 ≤ op ∧ op ≤ 0x06 then s.routeStep f else s

/-- A counter repeats when it lies between 32,767 behind and equal to the last accepted value (R362). -/
def aliveRepeats (last : Option Nat) (a : Nat) : Bool :=
  match last with
  | none => false
  | some l => (a + 65536 - l) % 65536 == 0 || decide (32769 ≤ (a + 65536 - l) % 65536)

/-- A gap: the counter is not the one after the last accepted value, or 0 before any was (R362). -/
def aliveGap (last : Option Nat) (a : Nat) : Bool :=
  match last with
  | none => a != 0
  | some l => a != (l + 1) % 65536

/-- A CE mark on a Chorus frame is counted (R345). -/
def State.countCe (s : State) (ce : Bool) : State :=
  if ce then { s with net := { s.net with ceMarks := s.net.ceMarks + 1 } } else s

/-- A group with a frame's counter as the last accepted from its source; a retransmitted frame leaves it (R362). -/
def ChorusGroup.accept (g : ChorusGroup) (f : ChorusFrame) : ChorusGroup :=
  let last := Map.get? g.recvAlive f.src
  if f.retransmit then g
  else { g with recvAlive := Map.put g.recvAlive f.src f.alive, gaps := g.gaps + (if aliveGap last f.alive then 1 else 0) }

/-- A frame of a group slot: its counter, and what it does where the slot is bound (R362). -/
def State.groupFrame (s : State) (i : Nat) (g : ChorusGroup) (f : ChorusFrame) : State :=
  if !f.retransmit && aliveRepeats (Map.get? g.recvAlive f.src) f.alive then s.orReg 0x000B0004 0x80
  else
    let s := { s with net := { s.net with groups := Map.put s.net.groups i (g.accept f) } }
    if s.net.bound = some i then s.acceptFrame i (g.accept f) f else s

/-- The frame whose body some bytes are: header, payload, digest (R354). -/
def readFrame (b : List Byte) : ChorusFrame :=
  let flags := fieldAt b 22 1
  { op := fieldAt b 1 1, group := fieldAt b 2 2, src := fieldAt b 4 2, dst := fieldAt b 6 2, stepNo := fieldAt b 8 6
    alive := fieldAt b 14 2, offset := fieldAt b 16 4, length := fieldAt b 20 2, last := Nat.testBit flags 0
    retransmit := Nat.testBit flags 1, format := fieldAt b 23 1, extend := fieldAt b 24 4
    payload := sliceBytes b 32 (b.length - 40), digest := fieldAt b (b.length - 8) 8 }

/-- A Chorus frame is received: its FCS and header CRC, its group, its alive counter, its digest and its OP (R354, R355, R361,
R362). -/
def execChorusFrame (ce fcsOk : Bool) (bytes : List Byte) (s : State) : Host.Outcome State Fault Refusal :=
  if !fcsOk || decide (bytes.length < 40) || !crcTrailed (bytes.take 32) then
    .next { s with net := { s.net with badFrames := s.net.badFrames + 1 } }
  else
    let s := s.countCe ce
    let frame := readFrame bytes
    match s.groupOf frame with
    | none => .next s
    | some (i, g) => .next ((s.ethIn (g.portOf frame.src) (5, some g.identity) frame.payload).groupFrame i g frame)

/-- CHORUS_STEP_OPEN: the schedule reaches the first wing line of a step of a scene in flight, which opens it (R364). -/
def execChorusStepOpen (index scene : Nat) (s : State) : Host.Outcome State Fault Refusal :=
  match s.stepAt index scene with
  | none => .next s
  | some at_ =>
    let s := s.advanceTo at_
    .next (if s.reached at_ then s.openStep index scene else s)

/-- Half the deadline in force has elapsed: one RETX_REQUEST for each range of at most 8,192 bytes that is missing (R363). -/
def execChorusRetxTimer (stepNo : Nat) (s : State) : Host.Outcome State Fault Refusal :=
  match s.boundGroup, s.liveStep? stepNo with
  | some (i, g), some x =>
    let pieces := ((x.plan.expected g).map (fun r =>
      (List.range (ceilDiv (r.2.2.2 - r.2.2.1) 8192)).map (fun k =>
        (r.1, r.2.1, r.2.2.1 + 8192 * k, min r.2.2.2 (r.2.2.1 + 8192 * k + 8192))))).flatten
    .next ((pieces.filter (fun r => !x.holds r)).foldl (fun s r =>
      s.requestRange i stepNo r.1 r.2.1 r.2.2.1 (r.2.2.2 - r.2.2.1)) s)
  | _, _ => .next s

/-- A frame without data for every other member: LATE_NOTICE or STEP_ABORT (R355). -/
def State.tellAll (s : State) (i : Nat) (g : ChorusGroup) (step op extend : Nat) : State :=
  g.others.foldl (fun s m =>
    (s.chorusSend i step { op := op, dst := m, offset := 0, last := false, alive := 0, payload := [] } 0 0 extend).1) s

/-- The lowest-indexed member whose frames are missing; the member itself where only its own are (R364). -/
def Step.missingMember (x : Step) (g : ChorusGroup) : Nat :=
  match ((x.plan.expected g).filter (fun r => !x.holds r)).map (fun r => r.2.1) with
  | [] => g.own
  | m :: ms => ms.foldl (fun a b => min a b) m

/-- The deadline in force passes before the step closes: the fault, STEP_ABORT to every member, and the scene fails (R364). -/
def execChorusDeadline (stepNo : Nat) (s : State) : Host.Outcome State Fault Refusal :=
  match s.boundGroup, s.liveStep? stepNo with
  | some (i, g), some x => .next ((s.tellAll i g stepNo 0x12 0).abandonStep x srcChorusDeadline 1 (x.missingMember g))
  | _, _ => .next s

/-- LATE_NOTICE, where the three conditions of R365 hold, at most four times for a step. -/
def execLateNotice (stepNo : Nat) (s : State) : Host.Outcome State Fault Refusal :=
  match s.boundGroup, s.liveStep? stepNo with
  | some (i, g), some x =>
    if (x.sent && x.gathered) || !x.stalled || 4 ≤ x.notices then .next s
    else
      let s := ((s.tellAll i g stepNo 0x11 x.base).orReg 0x000B0004 0x20).count 66 1
      .next (s.modStep stepNo (fun x => { x.extend x.base with notices := x.notices + 1 }))
  | _, _ => .next s

/-- The deadline in force has elapsed since the step closed: its frames, those that told its scene, and what is known of it, go (R363). -/
def execChorusFrameRelease (stepNo : Nat) (s : State) : Host.Outcome State Fault Refusal :=
  if (s.liveStep? stepNo).isSome then .next s
  else
    let steps := s.net.steps.filter (fun (x : Step) => x.number ≠ stepNo)
    let scenes := s.net.scenesSent.filter (fun (x : Nat × Nat × Kept) => x.1 ≠ stepNo)
    let asked := s.net.requested.filter (fun (r : Nat × Nat × Nat) => r.1 ≠ stepNo)
    let bad := s.net.mismatched.filter (fun (r : Nat × Nat × Nat) => r.1 ≠ stepNo)
    .next { s with net := { s.net with steps := steps, scenesSent := scenes, requested := asked, mismatched := bad } }

end Sys2Proof.Machine
end

