-- ==== Sys2Proof/Machine/CounterCmds.lean ====
section
/-!
DEFINITION. The commands and events of the performance counters (R512 to R518).
-/
namespace Sys2Proof.Machine

/-- Whether a mode 1 snapshot is pending (R516, R520). -/
def State.snapPending (s : State) : Bool :=
  s.hasJob (fun k => match k with
    | .snapshot _ => true
    | _ => false)

/-- COUNTER_SNAPSHOT (R516). During a FATAL stop no scene change follows, so mode 1 completes as a pending one does (DEDUCED,
log 49). -/
def execCounterSnapshot (e : Entry) (s : State) : Host.Outcome State Fault Refusal :=
  runCmd e 0x80 false (fun s =>
    let mode := e.op 8 1
    let target := e.op 16 8
    let now := s.prm.scCount
    if 1 < mode then done s .invalid []
    else if s.snapPending then done s .busy []
    else if mode = 1 ∧ (target ≤ now ∨ now + 2 ^ 20 < target) then done s .invalid []
    else if mode = 0 then done (s.takeSnapshot now) .ok (leBytes 8 now)
    else if s.integ.fatalStop then done s .notReady []
    else later (s.addJob e.ring e.tag (.snapshot target))) s

/-- CNT_CLEAR: the counters of the named groups go to zero (R513, R520). -/
def execCntClear (value : Word) (s : State) : Host.Outcome State Fault Refusal :=
  let v := value.toNat
  .next (s.clearGroups (if Nat.testBit v 31 then 0x7FFF else v % 2 ^ 15))

/-- CNT_BW_CFG_w: the window restarts, and its results and peaks are zero (R518, R521). -/
def execCntBwCfg (window : Nat) (value : Word) (s : State) : Host.Outcome State Fault Refusal :=
  if 22 ≤ window then .fault .noSuchUnit
  else
    let o := bwReg window 0
    let s := match regRow? o with
      | some (r, _, _) => s.setReg o (r.written (s.reg o) value.toNat)
      | none => s
    .next (s.clearRegs (fun x => decide (bwReg window 8 ≤ x ∧ x < bwReg window 0x28)))

/-- A window's result and peak of one direction (R518): `off` is the offset of the result, the peak lies 16 bytes above. -/
def State.latchWindow (s : State) (window off bytes : Nat) : State :=
  let s := s.setPair (bwReg window off) (bytes % 2 ^ 64)
  if s.pair (bwReg window (off + 16)) < bytes then s.setPair (bwReg window (off + 16)) (bytes % 2 ^ 64) else s

/-- BW_WINDOW_END: results, peaks and the count of completed windows (R518, R521). A window that does not run ends none. -/
def execBwWindowEnd (window bytesA bytesB : Nat) (s : State) : Host.Outcome State Fault Refusal :=
  if 22 ≤ window then .fault .noSuchUnit
  else if s.field (bwReg window 0) 31 1 = 0 then .next s
  else
    let s := (s.latchWindow window 8 bytesA).latchWindow window 0x10 bytesB
    .next (s.setField (bwReg window 4) 0 16 (s.field (bwReg window 4) 0 16 + 1))

/-- COUNTER_SATURATED: a counter that reached its maximum raises the source, once for each entry into saturation (R512). -/
def execCounterSaturated (index : Nat) (s : State) : Host.Outcome State Fault Refusal :=
  if has s.cnt.saturated index then
    .next ({ s with cnt := { s.cnt with saturated := without s.cnt.saturated index } }.raise srcCounterSaturated 0 0 [])
  else .next s

end Sys2Proof.Machine
end

