-- ==== Sys2Proof/Machine/RoceBase.lean ====
section
/-!
DEFINITION. Queue pairs as requester (R350, R351, R353): the READ requests and WRITE packets of a command, their acknowledgement, and
recovery by go-back-N. Packet sequence numbers count modulo 2^24, as InfiniBand has them (PRESUMED, log 155).
-/
namespace Sys2Proof.Machine

/-- Change a queue pair. -/
def State.modQp (s : State) (n : Nat) (f : QueuePair → QueuePair) : State :=
  match Map.get? s.net.qps n with
  | some q => { s with net := { s.net with qps := Map.put s.net.qps n (f q) } }
  | none => s

/-- Whether a queue pair is established and not in its error state (R351, R353). -/
def State.qpUsable (s : State) (qp : Nat) : Bool := ((Map.get? s.net.qps qp).map (fun q => !q.error)).getD false

/-- A queue pair's retries are exhausted: it enters the error state (R353). -/
def State.qpFails (s : State) (n : Nat) : State :=
  ((s.modQp n (fun q => { q with error := true, unacked := [], inbound := none })).orReg 0x000B0004 0x8).raise srcRoceQpError 5 n []

/-- A packet sequence number so many packets on. -/
def psnAdd (a n : Nat) : Nat := (a + n) % 16777216

/-- How far one packet sequence number lies behind another, modulo 2^24. -/
def psnGap (a b : Nat) : Nat := (a + 16777216 - b % 16777216) % 16777216

/-- Whether a packet sequence number is at or after another: less than half the numbers ahead of it. -/
def psnFrom (a b : Nat) : Bool := decide (psnGap a b < 8388608)

/-- Packets that carry some bytes, at least one (R350). -/
def packetsOf (q : QueuePair) (len : Nat) : Nat := max 1 (ceilDiv len q.mtu)

/-- The packets of a message: each has the path MTU of bytes, the last the rest (R350). -/
def splitPackets (q : QueuePair) (data : List Byte) : List (PacketPart × List Byte) :=
  let n := packetsOf q data.length
  (List.range n).map (fun i =>
    (if n = 1 then .only else if i = 0 then .first else if i + 1 = n then .last else .middle, (data.drop (i * q.mtu)).take q.mtu))

/-- Retransmission is go-back-N: every request packet that is not acknowledged, from a packet sequence number on, is sent again and
counted. The retry count, and the RNR retry count, is 7 (R353, R511). -/
def State.goBack (s : State) (n psn : Nat) (rnr : Bool) : State :=
  match Map.get? s.net.qps n with
  | none => s
  | some q =>
    let again := q.unacked.filter (fun p => psnFrom p.1 psn)
    if q.error || again.isEmpty then s
    else if 7 ≤ (if rnr then q.rnrRetries else q.retries) then s.qpFails n
    else
      let s := s.modQp n (fun q => if rnr then { q with rnrRetries := q.rnrRetries + 1 } else { q with retries := q.retries + 1 })
      again.foldl (fun s p => s.sendRoce n p.2) (s.count 70 again.length)

/-- An acknowledgement: every request packet up to its packet sequence number is done, and the retries start afresh (R353). -/
def State.acknowledge (s : State) (n psn : Nat) : State :=
  s.modQp n (fun q => { q with
    unacked := q.unacked.filter (fun p => !psnFrom psn p.1), ackedPsn := psn, retries := 0, rnrRetries := 0 })

/-- A request packet leaves under a packet sequence number, and is kept until it is acknowledged (R353). -/
def State.request (s : State) (n psn : Nat) (x : Sent) : State :=
  (s.modQp n (fun q => { q with unacked := q.unacked ++ [(psn, x)] })).sendRoce n x

/-- READ requests for a range of a remote buffer, of at most 2^31 bytes each, one after the other, so that never more than the 16 of R351
are outstanding. The response takes a packet sequence number for each of its packets (R350). Where it does not come, the request
is sent again until the retries are exhausted (R353). -/
def State.readRemote (n addr rkey : Nat) (answered : Bool) : Nat → Nat → State → State
  | 0, _, s => s
  | fuel + 1, len, s =>
    match Map.get? s.net.qps n with
    | none => s
    | some q =>
      if q.error || len = 0 then s
      else
        let part := min len 2147483648
        let t := (s.modQp n (fun q => { q with sendPsn := psnAdd q.sendPsn (packetsOf q part) })).request n q.sendPsn
          (.roceRead n q.sendPsn addr part rkey)
        if answered then
          State.readRemote n (addr + part) rkey true fuel (len - part)
            (t.acknowledge n (psnAdd q.sendPsn (packetsOf q part - 1)))
        else (List.range 8).foldl (fun s _ => s.goBack n q.sendPsn false) t

/-- Read a range of a remote buffer (R351, R395). -/
def State.remoteRead (s : State) (n addr rkey len : Nat) (answered : Bool) : State :=
  s.readRemote n addr rkey answered (len / 2147483648 + 1) len

/-- Write bytes to a remote buffer by RDMA WRITE, in packets that are kept until they are acknowledged (R269, R350). -/
def State.remoteWrite (s : State) (n addr rkey : Nat) (data : List Byte) : State :=
  match Map.get? s.net.qps n with
  | none => s
  | some q =>
    let parts := splitPackets q data
    let s := s.modQp n (fun q => { q with sendPsn := psnAdd q.sendPsn parts.length })
    let s := s.ethOut q.port (4, some n) data
    (List.zip (List.range parts.length) parts).foldl (fun s p =>
      let psn := psnAdd q.sendPsn p.1
      s.request n psn (.roceWrite n psn p.2.1 addr data.length rkey p.2.2)) s

/-- A host buffer where the queue pair is 0xFFFF, a remote one otherwise (R395). -/
def transferOk (e : Entry) (addr qp : Nat) : Bool := e.op qp 2 != 0xFFFF || bufferOk (e.op addr 8)

/-- What a command does with data from a buffer: of host memory where the queue pair is 0xFFFF, else remote and read by RDMA READ, when a
transfer that gave up, or whose pair is not usable, ends the command with TIMEOUT (R353, R395, R401; DEDUCED, log 41). -/
def withBuffer {α : Type} (qp addr rkey len : Nat) (x : Option α) (s : State)
    (k : State → α → State × Option (Status × List Byte)) : State × Option (Status × List Byte) :=
  if qp = 0xFFFF then withDma x s (k s)
  else if !s.qpUsable qp then done s .timeout []
  else
    let s := s.remoteRead qp addr rkey len x.isSome
    match x with
    | some v => k s v
    | none => done s .timeout []

/-- The same for a command that names its buffer: the address at byte `at_` of the entry, the R_KEY at byte `at_` + 8 and the queue pair at byte
`at_` + 12 (R395, R396). -/
def withTransfer {α : Type} (e : Entry) (at_ len : Nat) (x : Option α) (s : State)
    (k : State → α → State × Option (Status × List Byte)) : State × Option (Status × List Byte) :=
  withBuffer (e.op (at_ + 12) 2) (e.op at_ 8) (e.op (at_ + 8) 4) len x s k

end Sys2Proof.Machine
end

