-- ==== Sys2Proof/Machine/Fabric.lean ====
section
/-!
DEFINITION. Cue sheets in force (R167 to R170, R300, R320, R356), substitutions and their cut-over (R183 to R192), and the roll
call (R193). Firmware's preparation of an understudy is the event UNDERSTUDY_PREPARED.
-/
namespace Sys2Proof.Machine

/-- The copy and tensor that an array of a tile holds a block of, by its journal; the cue sheet's epoch where it holds none (R300). -/
def State.heldTensor (s : State) (sheet : CueSheet) (t : Nat) (p : Placement) : Option (Copy × Tensor) :=
  let mine := if Nat.testBit (s.tile t).valid p.array then (s.gov t p.array).bind (fun g => s.copyOf g.epoch) else none
  (if mine.isSome then mine else s.copyOf sheet.epoch).bind (fun c => (c.man.tensors[p.tensor]?).map (fun x => (c, x)))

/-- Fill the areas of a position's arrays on a tile, each from the epoch that the array holds (R300). -/
def State.fillAreas (s : State) (sheet : CueSheet) (home t : Nat) : State :=
  (sheet.placed home).foldl (fun s p =>
    match s.heldTensor sheet t p with
    | none => s
    | some k => s.fillArea t k.1 k.2 p) s

/-- Write ARR_INFO_n and the row sums of the valid arrays of a position on a tile that comes to serve it (R71, R72). -/
def State.fillSums (s : State) (sheet : CueSheet) (home t : Nat) : State :=
  (sheet.placed home).foldl (fun s p =>
    if Nat.testBit (s.tile t).valid p.array then
      match s.heldTensor sheet t p with
      | none => s.writeRowSums t p.array
      | some k => (s.writeArrInfo t k.2 p).writeRowSums t p.array
    else s) s

/-- The same for the active cue sheet. -/
def State.servingSums (s : State) (home t : Nat) : State :=
  match s.fabric.active with
  | some c => s.fillSums c home t
  | none => s

/-- Load a position's tile image on a tile, and then its areas (R168, R298, R300). -/
def State.loadImage (s : State) (sheet : CueSheet) (home t : Nat) : State :=
  (s.sramWrite t 0x8000 (Map.getD sheet.images home [])).fillAreas sheet home t

/-- The slot program of a position in a cue sheet: its words by address, and its start addresses (R160, R257). -/
def slotProgram (sheet : CueSheet) (home : Nat) : Map DWord × List Nat :=
  match sheet.programs.find? (fun p => p.tile == home) with
  | some p => (List.zip (List.range p.words.length) p.words, p.starts)
  | none => ([], [])

/-- A router as a cue sheet finds it: its mode stays, its sequencers stop, and no flit is on its way; its station unit runs no
program (R158, R162, R192, R197). -/
def Router.fresh (r : Router) : Router := { mode := r.mode, fenced := r.fenced, faulty := r.faulty }

/-- A station unit takes the slot program of a position, where the cue sheet gives it one (R182, R187, R197). -/
def Router.runStation (r : Router) (program : Map DWord × List Nat) : Router :=
  { r with stationActive := !program.1.isEmpty, station := program.1, stationStarts := program.2 }

/-- A tile as a cue sheet finds it: its router stopped, its accumulator file, table buffer and results empty, no hold of an earlier
call armed (R158, R162, R170; DEDUCED, log 36). -/
def Tile.fresh (x : Tile) : Tile :=
  { x with
    groups := x.groups.map (fun (e : Nat × AccGroup) => (e.1, e.2.freed)), lanes := [], mvm := none, outs := [], streams := [], arrivals := [], tables := [], nanScenes := []
    satScenes := [], active := 0
    fl := { x.fl with holds := [], repeatHold := false }
    calFrom := 0
    router := x.router.fresh }

/-- Arrays of a tile that need a direct run before the first scene: placed, valid and with TRIMS_VALID 0 (R99). -/
def State.needRun (s : State) (c : CueSheet) (home t : Nat) : List Nat :=
  ((c.placed home).map (fun p => p.array)).filter (fun a =>
    Nat.testBit (s.tile t).valid a && !Nat.testBit (s.tile t).trimsValid a)

/-- The runs of a tile at an activation: its placed arrays without trims take a direct run before the first scene, which a run in
progress joins; otherwise a run in progress goes on in the tile's slots, or directly, and a queued one starts where the tile
has no slot (R98, R99). -/
def State.activationRun (s : State) (c : CueSheet) (t : Nat) : State :=
  let need := ((s.servedBy t).map (fun h => s.needRun c h t)).getD []
  if need.isEmpty then s.placeRun t
  else
    let s := s.directRun t need
    { s with fabric := { s.fabric with firstRuns := insertNat t s.fabric.firstRuns } }

/-- The Chorus group that a cue sheet of a multi-device group matches: the lowest slot of its member count and index (R356). -/
def State.groupFor (s : State) (c : CueSheet) : Option Nat :=
  if Nat.testBit c.flags 2 then
    (s.net.groups.find? (fun g => g.2.size == c.members && g.2.own == c.member)).map (fun g => g.1)
  else none

/-- STREAMED bits follow what each understudy's arrays hold (R188, R189). -/
def State.markStreamed (s : State) : State :=
  match s.fabric.active with
  | none => s
  | some c =>
    let xs := s.fabric.substs.map (fun x => { x with streamed := !s.allServe c x.home x.under })
    { s with fabric := { s.fabric with substs := xs } }.syncMgmt (xs.map (fun (x : Subst) => x.under))

/-- Complete a CUESHEET_ACTIVATE once the first scene can be formed: the direct runs are over, and a switch of PRM_EPOCH that the
activation made due has been taken (R170, R249; DEDUCED, log 37). The activation enters the history chain with it (R419). -/
def State.endActivation (s : State) : State :=
  if s.fabric.firstRuns.isEmpty && s.fabric.activating.isNone && s.prm.pointerDue.isNone then
    let digest := (s.fabric.active.map (fun c => c.digest)).getD 0
    let s := if s.hasJob (fun k => k == .activate) then s.record 0x01 digest else s
    s.finishJobs (fun j => if j.kind = .activate then some (.ok, []) else none)
  else s

/-- A cue sheet takes effect with S = 0 (R158, R170, R300, R307, R419, R479): programs and images go to the tiles that serve
their positions, the wings and alive counters start afresh (R476), and the direct runs of R99 follow. Where PRM_EPOCH is not
the epoch that the cue sheet names, its switch falls due at the next scene change (R249; DEDUCED, log 37). -/
def State.activate (s : State) (c : CueSheet) : State :=
  let causes := clearBits s.fabric.causes 675
  let s := { s with
    fabric := { s.fabric with
      active := some c, counter := 0, storeLost := false, wings := []
      causes := if s.pwr.droopQuiet && !s.pwr.droopActive then clearBits causes 8 else causes
      lanes := [], running := [], excess := [], formatLeft := 0, formatAt := none, tokens := []
      stepIssued := [], stepExpected := [], phaseTag := 0, activating := none, firstRuns := [] }
    prm := { s.prm with
      lastStart := none, pointerDue := if s.prm.epoch = c.epoch then s.prm.pointerDue else some c.epoch }
    pwr := { s.pwr with learned := [], rerunsLeft := 0 }
    net := { s.net with
      bound := s.groupFor c, steps := [], nextStep := 0, opened := [], early := [], requested := [], mismatched := []
      sceneQueue := [], scenesSent := [] }
    boot := { s.boot with sheetDigest := c.digest } }
  let s := s.mapTiles (fun _ x => x.fresh)
  let s := c.programs.foldl (fun s p => s.modRouter p.tile (fun r => { r with
    slots := (slotProgram c p.tile).1, starts := (slotProgram c p.tile).2 })) s
  let s := s.fabric.substs.foldl (fun s x =>
    if x.bypass then s.modRouter x.under (fun r => r.runStation (slotProgram c x.home)) else s) s
  let s := (Map.keys c.images).foldl (fun s home => s.loadImage c home (s.servingTile home)) s
  let s := s.chkService.markStreamed
  -- that of a seal enters the history chain at once, that of a command when the command completes (R419)
  let s : State := if s.hasJob (fun k => k == .activate) then s else s.record 0x01 c.digest
  let s : State := if s.ownIndex = some 0 then s else { s with net := { s.net with relays := [] } }
  let tiles := c.placements.foldl (fun xs p => insertNat (s.servingTile p.tile) xs) (Map.keys s.tiles)
  (tiles.foldl (fun s t => s.activationRun c t) s).settleCauses.endActivation

/-- Stop serving the active cue sheet (R307 step 3): the routers stop, and every queued run and run in progress is direct from now
on (R99). -/
def State.deactivate (s : State) : State :=
  let s := { s with
    fabric := { s.fabric with active := none, running := [], excess := [], lanes := [], tokens := [] }
    net := { s.net with bound := none } }.mapTiles (fun _ x => { x with router := x.router.fresh })
  (Map.keys s.tiles).foldl (fun s t => s.leaveSlots t) s

/-- Whether every array that a cue sheet's placement uses is valid for its epoch (R320). A position that a substitution serves
may run on the streamed tier (R188; DEDUCED, log 38). -/
def State.arraysValid (s : State) (c : CueSheet) : Bool :=
  c.placements.all (fun p => (s.substOf p.tile).isSome || s.holdsEpoch p.tile p.array c.epoch)

/-- Whether a seal or a rolling recast is in progress. -/
def State.recasting (s : State) : Bool := s.ldr.sealRun.isSome || s.ldr.recast.isSome

/-- FAB_CS_CHECK (R203). -/
def State.setCheck (s : State) (code tile : Nat) : State := s.setReg 0x0000041C ((code <<< 24) + (tile <<< 10))

/-- A cue sheet is stored as the loaded one, in the place of any that has not been activated (R170). One whose activation waits for
the scenes in flight is replaced too, and its CUESHEET_ACTIVATE, which has no loaded cue sheet any more, completes with
INVALID (DESIGN CHOICE, log 131). The old cue sheet that a complete rolling recast keeps is none of the two of R170: beside it
and the active one, another can be loaded (DESIGN CHOICE, log 151). -/
def State.storeSheet (s : State) (c : CueSheet) : State :=
  let waiting := s.fabric.activating.isSome
  let s := { s with fabric := { s.fabric with loaded := some c, activating := none } }
  if waiting then s.finishJobs (fun j => if j.kind = .activate then some (.invalid, []) else none) else s

/-- A cue sheet with the compiled form that its digest has: every load of the same bytes has the same one (R17; log 4). -/
def State.compiledAs (s : State) (c : CueSheet) : CueSheet :=
  match Map.get? s.fabric.forms c.digest with
  | some k => { c with compiled := k, calls := k.calls }
  | none => c

/-- Note the compiled form of a cue sheet whose digest holds (log 4). -/
def State.noteForm (s : State) (c : CueSheet) : State :=
  if c.digestOk then { s with fabric := { s.fabric with forms := Map.put s.fabric.forms c.digest c.compiled } } else s

/-- CUESHEET_LOAD checks a cue sheet in order and stores it as the loaded one, or refills a lost store (R169, R170, R425). -/
def execCuesheetLoad (e : Entry) (sheet : Option SheetIn) (s : State) : Host.Outcome State Fault Refusal :=
  runCmd e 0x20 (e.op 20 2 == 0xFFFF) (fun s =>
    if s.recasting then done s .busy []
    else if !transferOk e 8 20 then done s .invalid []
    else
      withTransfer e 8 (e.op 24 8) (sheet.map readSheet) s (fun s x =>
        let c := s.compiledAs x
        let s := s.noteForm c
        match sheetCheck c (e.op 24 8) with
        | some (code, tile) => done (s.setCheck code tile) .invalid (leBytes 1 code ++ leBytes 1 0 ++ leBytes 2 tile)
        | none =>
          let s := s.setReg 0x0000041C 0
          if s.fabric.storeLost && (s.fabric.active.map (fun a => a.digest == c.digest)).getD false then
            done { s with fabric := { s.fabric with storeLost := false } } .ok []
          else done (s.storeSheet c) .ok [])) s

/-- CUESHEET_ACTIVATE: refused by R170, R306, R308, R318, R320 and R356; otherwise the loaded cue sheet takes effect once no
scene is in flight. -/
def execCuesheetActivate (e : Entry) (s : State) : Host.Outcome State Fault Refusal :=
  runCmd e 0x21 false (fun s =>
    if !s.ldr.bootVerified || s.recasting then done s .busy []
    else
    match s.fabric.loaded with
    | none => done s (if s.fabric.activating.isSome then .busy else .invalid) []
    | some c =>
      if s.hasJob (fun k => k == .activate) then done s .busy []
      else if !s.ldr.resident.any (fun r => r == (c.identity, c.epoch)) || !s.arraysValid c ||
          (Nat.testBit c.flags 2 && (s.groupFor c).isNone) then done s .notReady []
      else
        let s := (s.addJob e.ring e.tag .activate)
        let s := { s with fabric := { s.fabric with loaded := none, activating := some c } }
        later (if s.prm.scenes.isEmpty then s.activate c else s)) s

/-- The understudy that a cut-over takes when it takes effect: the one chosen, or another where that one is no longer free
(R183, R190). -/
def State.cutoverTarget (s : State) (c : Cutover) : Option Nat :=
  let fit := !has s.fabric.unavailable c.under && !(s.tile c.under).router.fenced &&
    (match s.servesAs c.under with
     | some x => x.home == c.home
     | none => true)
  if fit then some c.under
  else { s with fabric := { s.fabric with cutovers := [] } }.chooseUnderstudy c.home

/-- A tile stops serving: its engine and arrays stop, and its calls' first-call hold ends (R184). -/
def Tile.stopServing (x : Tile) : Tile :=
  { x with
    mvm := none, outs := [], streams := [], arrivals := [], active := 0
    fl := { x.fl with untilCall := false, repeatHold := false } }

/-- A tile stops serving; a phase of its MVM that waits to run again under R46 waits no more. -/
def State.stopServing (s : State) (t : Nat) : State :=
  let s := match (s.tile t).mvm with
    | some m => s.untaint m
    | none => s
  s.modTile t (fun x => x.stopServing)

/-- The MVMs that a tile has begun and not delivered, as runs on a LUT engine from their start (R188). -/
def State.undelivered (s : State) (t : Nat) : List StreamRun :=
  let x := s.tile t
  let wide := fun (slot scene row : Nat) =>
    ((s.fabric.active.bind (fun c => c.compiled.mvms[slot]?)).map (fun k => s.isWide scene row k.input)).getD false
  let run := fun (o : OutReg) => ({
    slot := o.slot, row := o.row, scene := o.scene, lane := o.lane, deliver := o.deliver
    left := streamCycles (wide o.slot o.scene o.row), excess := o.excess } : StreamRun)
  x.outs.map run ++ (x.mvm.toList.filter (fun m => !m.complete)).map (fun m => run m.result) ++
    x.streams.map (fun r => { r with left := streamCycles (wide r.slot r.scene r.row) })

/-- Copy a position's SRAM regions and accumulator file with its group tags and generator inputs from one tile to another, and run
again there what the first has begun and not delivered (R187, R188). The tables of the LUT engine and the marks of the
scenes that have reported a NaN or a saturation go with them (DEDUCED, log 132: no result changes). -/
def State.copyTile (s : State) (a b : Nat) : State :=
  let x := s.tile a
  s.modTile b (fun y => { y with
    lanes := x.lanes, groups := x.groups, tables := x.tables, nanScenes := x.nanScenes, satScenes := x.satScenes
    streams := s.undelivered a
    sram := (y.sram.filter (fun e => decide (e.1 < 0x8000))) ++ x.sram.filter (fun e => decide (0x8000 ≤ e.1)) })

/-- What a cut-over does to the data of its position: COPY moves it, DISCARD starts from the tile image and fails every scene in
flight (R187). -/
def State.handOver (s : State) (copy : Bool) (home a b : Nat) : State :=
  let s := s.stopServing b
  if copy then s.copyTile a b
  else
    let s := s.modTile b (fun y => { y with lanes := [], groups := y.groups.map (fun (e : Nat × AccGroup) => (e.1, e.2.freed)), tables := [], nanScenes := [], satScenes := [] })
    let s := match s.fabric.active with
      | some c => s.loadImage c home b
      | none => s
    s.failScenes (fun _ => true) 512

/-- The flits of a position in the understudy lane of one row end move to that of the other (R181, R183). -/
def State.moveLane (s : State) (home a u : Nat) : State :=
  if laneOf a = laneOf u then s
  else
    let mine := (Map.getD s.fabric.lanes (laneOf a) []).filter (fun l => l.home == home)
    (s.modSubLanes a (fun l => l.filter (fun x => x.home != home))).modSubLanes u (fun l => l ++ mine)

/-- The flits of a position in its understudy lane are in the home router's delay lines and local input, as its timing has them,
once the position is back (R181, R183, R191). -/
def State.emptyLane (s : State) (home u : Nat) : State :=
  let mine := (Map.getD s.fabric.lanes (laneOf u) []).filter (fun l => l.home == home)
  (s.modSubLanes u (fun l => l.filter (fun x => x.home != home))).modRouter home (fun r => { r with
    delay := r.delay ++ (mine.filter (fun l => l.way == .out || l.way == .back)).map (fun l => (l.sub, l.due, l.flit))
    inbox := r.inbox ++ (mine.filter (fun l => l.way == .inject)).map (fun l => (codeL, l.due, l.flit)) })

/-- A station unit without a program (R182). -/
def Router.noStation (r : Router) : Router := { r with stationActive := false, station := [], stationStarts := [], stn := {} }

/-- Arrays of an understudy that hold a position's weights stay valid; the others wait to be programmed (R188, R191). -/
def State.keptArrays (s : State) (home u : Nat) : Nat :=
  ((List.range 8).filter (fun a => Nat.testBit (s.tile u).valid a &&
    (match s.gov u a, s.gov home a with
     | some x, some y => x.digest == y.digest && x.epoch == y.epoch
     | _, _ => false))).foldl (fun m a => m + 2 ^ a) 0

/-- A position's slot program changes hands at a cut-over: it goes on where it stands, in the sequencer that runs it from now on
(R182, R184). -/
def State.passProgram (s : State) (c : Cutover) (a u : Nat) : State :=
  let q := (s.sequencer c.home).1
  let program := match s.fabric.active with
    | some k => slotProgram k c.home
    | none => ([], [])
  let s := s.modRouter a Router.noStation
  let s := s.modRouter u (fun r =>
    if c.bypass then r.noStation.runStation program else r.noStation)
  s.modRouter c.home (fun r => { r with mode := if c.bypass then .bypass else .relay, seq := if c.bypass then {} else q })

/-- A position moves to an understudy (R183, R184, R187, R190). -/
def State.moveToUnderstudy (s : State) (c : Cutover) (u : Nat) : State :=
  let a := s.servingTile c.home
  let same := a == u
  let kept := s.keptArrays c.home u
  let q := (s.sequencer c.home).1
  let s := s.handOver c.copy c.home a u
  let s := if same then s else s.stopServing a
  let s := ((s.passProgram c a u).moveLane c.home a u).modTile u (fun x => { x with valid := if same then x.valid else kept })
  let streamed := match s.fabric.active with
    | some k => !s.allServe k c.home u
    | none => true
  let now : Subst := { home := c.home, under := u, bypass := c.bypass, streamed := streamed }
  let s := { s with fabric := { s.fabric with substs := s.fabric.substs.filter (fun (x : Subst) => x.home ≠ c.home) ++ [now] } }
  let s := if c.bypass then s.setSequencer c.home q else s
  let s := if same then s else s.servingSums c.home u
  let s := (((if same then s else (s.placeRun a).placeRun u).holdUntilCall u).settleCauses).streamDone
  let s := match c.mark with
    | some t => s.fenceTile t true
    | none => s
  s.syncMgmt [c.home, a, u]

/-- A position returns to its home tile, with handover COPY in the reverse direction (R191). -/
def State.moveHome (s : State) (c : Cutover) : State :=
  let u := s.servingTile c.home
  let q := (s.sequencer c.home).1
  let s := ((s.stopServing c.home).copyTile u c.home).stopServing u
  let s := ((s.modRouter u Router.noStation).emptyLane c.home u).modRouter c.home (fun r => { r with
    mode := .normal, fenced := false, seq := q })
  let s := { s with fabric := { s.fabric with substs := s.fabric.substs.filter (fun x => x.home ≠ c.home) } }
  let s := s.servingSums c.home c.home
  (((((s.placeRun u).placeRun c.home).holdUntilCall c.home).settleCauses).streamDone).syncMgmt [c.home, u]

/-- What a cut-over is to the rehearsal that asked for it: fenced, its tile's trims are saved; restored, FL_HOLD_FORCE clears and
the rehearsal ends (R491, R492). -/
def State.rehearsalCut (s : State) (c : Cutover) : State :=
  if !c.rehearse then s
  else if c.restore then (s.setField (tileReg c.home 0x10) 0 1 0).endRehearsal
  else
    { s with integ := { s.integ with rehearsal := s.integ.rehearsal.map (fun (r : Rehearsal) =>
        { r with trims := (s.tile r.tile).trims }) } }

/-- A cut-over takes effect: the fence epoch increments, and cause HANDOVER holds for 640 stage cycles, after which the command
completes (R187, R190, R191, R201); REHEARSE completes with its restore (R492). Of several that share one hold, each increments
the epoch (DESIGN CHOICE, log 152). -/
def State.cutOver (s : State) (c : Cutover) (u : Nat) : State :=
  let s := (if c.restore then s.moveHome c else s.moveToUnderstudy c u).rehearsalCut c
  let epoch := (s.fabric.epoch + 1) % 2 ^ 32
  let result := if c.rehearse then [0] else leBytes 2 (if c.restore then 0 else u) ++ leBytes 2 0 ++ leBytes 4 epoch
  let job := if c.rehearse && !c.restore then none else c.job
  ({ s with fabric := { s.fabric with
      epoch := epoch, mgmtEpoch := epoch, handover := 642
      completing := s.fabric.completing ++ (job.map (fun j => (j, result))).toList } }).raiseCause 8

/-- Whether a cut-over may take effect: its preparation is complete; a restore waits for the home tile's footlights, and after a
rehearsal for its arrays (R187, R191, R492). -/
def State.cutoverDue (s : State) (c : Cutover) : Bool :=
  if c.restore then
    c.prepared && (s.tile c.home).fl.state == .ready && (!c.rehearse || !s.understudyLeft.any (fun x => x.1 == c.home))
  else c.prepared

/-- One cut-over at step 7 of a scene change. A command whose epoch is no longer FAB_FENCE_EPOCH is rejected (R194). Where no
understudy is free any more, the command completes with NO_SPACE, or the source of R190 is raised. -/
def State.takeCutover (s : State) (c : Cutover) : State :=
  let finish := fun (s : State) (st : Status) =>
    (if c.rehearse then s.endRehearsal else s).finishJobs (fun j =>
      if c.job = some j.id then some (st, []) else none)
  if !c.auto && (c.expect.map (fun e => e != s.fabric.epoch)).getD false then finish s .staleEpoch
  else if c.restore then s.cutOver c 0
  else
    match s.cutoverTarget c with
    | some u => s.cutOver c u
    | none => if c.auto then s.raiseBase srcUnderstudyExhausted 2 (rowOf c.home) s.flight else finish s .noSpace

/-- Step 7 of R265: automatic substitutions, then commands (R187, R190, R194). -/
def State.cutovers (s : State) : State :=
  let due := s.fabric.cutovers.filter s.cutoverDue
  let s := { s with fabric := { s.fabric with cutovers := s.fabric.cutovers.filter (fun c => !s.cutoverDue c) } }
  let s := (due.filter (fun c => c.auto)).foldl State.takeCutover s
  (due.filter (fun c => !c.auto)).foldl State.takeCutover s

/-- FAB_ROLLCALL records a mismatch at a tile (R203). -/
def State.noteRollCall (s : State) (t : Nat) : State :=
  let o := 0x00000414
  ((s.setField o 16 16 (satAdd 0xFFFF (s.field o 16 16) 1)).setField o 0 16 ((rowOf t <<< 8) + 0x80 + colOf t))

/-- The roll call (R193): tiles whose state vector differs from firmware's copy raise ROLL_CALL_MISMATCH, the first is
recorded, and the copy takes the snapshot. Firmware refreshes its copy of the fault state with it (R489). -/
def State.rollCall (s : State) : State :=
  let s := s.refreshCopy
  let tiles := (Map.keys s.tiles ++ Map.keys s.fabric.mgmt ++ s.fabric.rowFaults.map (· * Config.cols)).foldl (fun xs t => insertNat t xs) []
  let bad := tiles.filter (fun t => Map.getD s.fabric.mgmt t 0 ≠ s.vectorOf t)
  let s := s.syncMgmt bad
  let badEpoch := decide (s.fabric.mgmtEpoch ≠ s.fabric.epoch)
  let s := { s with fabric := { s.fabric with mgmtEpoch := s.fabric.epoch } }
  let s := match bad with
    | t :: _ => (s.setField 0x00000414 16 16 (satAdd 0xFFFF (s.field 0x00000414 16 16) (bad.length - 1))).noteRollCall t
    | [] => s
  let s := bad.foldl (fun s t => s.raise srcRollCall 1 t []) s
  if badEpoch then
    (s.setField 0x00000414 16 16 (satAdd 0xFFFF (s.field 0x00000414 16 16) 1)).raise srcRollCall 0 0 []
  else s

/-- Result of a fence or restore that completes at once: no understudy and the current epoch (R186, R191). -/
def State.fenceResult (s : State) (under : Nat) : List Byte := leBytes 2 under ++ leBytes 2 0 ++ leBytes 4 s.fabric.epoch

/-- Whether a fence or restore of a tile is in progress. -/
def State.fenceBusy (s : State) (t : Nat) : Bool := s.hasJob (fun k => k == .fence t || k == .restore t)

/-- TILE_FENCE, by the first row of R186 that matches. A tile index or a handover kind out of range is INVALID (R396). -/
def execTileFence (e : Entry) (s : State) : Host.Outcome State Fault Refusal :=
  runCmd e 0x50 false (fun s =>
    let t := e.op 8 2
    let kind := e.op 16 1
    if Config.tiles ≤ t || 2 ≤ kind then done s .invalid []
    else if e.op 12 4 ≠ s.fabric.epoch then done s .staleEpoch []
    else if s.fenceBusy t then done s .busy []
    else if (s.tile t).router.fenced || s.rehearsing t then done s .fenced []
    else if s.fabric.storeLost then done s .notReady []
    else
      match s.positionOf t with
      | none => done (s.fenceTile t true) .ok (s.fenceResult 0xFFFF)
      | some home =>
        match s.chooseUnderstudy home with
        | none => done s .noSpace []
        | some u =>
          let c : Cutover := { home := home, under := u, restore := false, copy := !isUnderstudy t && kind == 0,
                               bypass := (s.tile home).router.faulty, auto := false, prepared := false,
                               job := some s.mbx.nextJob, expect := some s.fabric.epoch, mark := some t }
          let s := s.addJob e.ring e.tag (.fence t)
          later { s with fabric := { s.fabric with cutovers := s.fabric.cutovers ++ [c] } }) s

/-- TILE_RESTORE, by the first row of R191 that matches. -/
def execTileRestore (e : Entry) (s : State) : Host.Outcome State Fault Refusal :=
  runCmd e 0x51 false (fun s =>
    let t := e.op 8 2
    if Config.tiles ≤ t || !(s.tile t).router.fenced || (!isUnderstudy t && (s.tile t).router.faulty) then done s .invalid []
    else if e.op 12 4 ≠ s.fabric.epoch then done s .staleEpoch []
    else if s.fenceBusy t || s.rehearsing t then done s .busy []
    else if isUnderstudy t then done (s.fenceTile t false) .ok (leBytes 4 0 ++ leBytes 4 s.fabric.epoch)
    else
      let c : Cutover := { home := t, under := s.servingTile t, restore := true, copy := true, bypass := false, auto := false,
                           prepared := true, job := some s.mbx.nextJob, expect := some s.fabric.epoch }
      let s := (s.addJob e.ring e.tag (.restore t)).enableFl t
      later { s with fabric := { s.fabric with cutovers := s.fabric.cutovers ++ [c] } }) s

/-- UNDERSTUDY_PREPARED: firmware has prepared an understudy; its cut-over waits for the next scene change (R187, R190). -/
def execUnderstudyPrepared (tile : Nat) (s : State) : Host.Outcome State Fault Refusal :=
  if Config.tiles ≤ tile then .fault .noSuchUnit
  else
    .next { s with fabric := { s.fabric with cutovers := s.fabric.cutovers.map (fun c =>
      if c.under = tile && !c.restore then { c with prepared := true } else c) } }

/-- UNDERSTUDY_ARRAYS_READY: once every placed array serves, the STREAMED bit clears (R189). -/
def execUnderstudyArraysReady (row : Nat) (east : Bool) (s : State) : Host.Outcome State Fault Refusal :=
  if Config.rows ≤ row then .fault .noSuchUnit
  else
    let u := row * Config.cols + (if east then 65 else 0)
    match s.servesAs u, s.fabric.active with
    | some x, some c =>
      if x.streamed && s.allServe c x.home u then
        let xs := s.fabric.substs.map (fun (y : Subst) => if y.under = u then { y with streamed := false } else y)
        .next ({ s with fabric := { s.fabric with substs := xs } }.syncMgmt [u])
      else .next s
    | _, _ => .next s

end Sys2Proof.Machine
end

