-- ==== Sys2Proof/Machine/Ports.lean ====
section
/-!
DEFINITION. Port blocks, ports and lanes (R335 to R344, R374, R375, R399): modes, training and equalisation, alignment,
preemption and flow control.
-/
namespace Sys2Proof.Machine

/-- Offset of PORT_CONFIG of a block (R370). -/
def portConfig (b : Nat) : Nat := 0x000B1000 + 0x100 * b
/-- Offset of a lane's register: 0 LANE_CTRL, 4 LANE_TXEQ, 8 LANE_STATUS (R370). -/
def laneReg (n off : Nat) : Nat := 0x000B2000 + 0x40 * n + off

/-- Mode code of a port block (R336, R374). -/
def State.portMode (s : State) (b : Nat) : Nat := s.field (portConfig b) 28 4

/-- Lanes of a port in the mode of its block (R335, R336); none where the block has no such port. -/
def State.portLanes (s : State) (p : Nat) : List Nat :=
  let b := p / 2
  let first := 4 * b
  match s.portMode b with
  | 2 => [first + 2 * (p % 2), first + 2 * (p % 2) + 1]
  | 1 => if p % 2 = 0 then (List.range 4).map (first + ·) else []
  | 3 => if p % 2 = 0 then (List.range 4).map (first + ·) else []
  | 4 => if p % 2 = 0 then (List.range 8).map (first + ·) else []
  | _ => []

/-- The port that a lane belongs to (R335, R336). -/
def State.portOfLane (s : State) (n : Nat) : Option Nat := (List.range 16).find? (fun p => has (s.portLanes p) n)

/-- Rate of a port in bit/s (R336). -/
def State.portRate (s : State) (p : Nat) : Nat :=
  match s.portMode (p / 2) with
  | 1 => 16 * 10 ^ 11
  | 2 => 8 * 10 ^ 11
  | 3 => 8 * 10 ^ 11
  | 4 => 16 * 10 ^ 11
  | _ => 0

/-- A port that was up goes down: NET_EVENT and LINK_DOWN (R369, R371). What waits to be sent on it is lost (DESIGN CHOICE, log 154). -/
def State.portDown (s : State) (p : Nat) : State :=
  if (s.port p).up then
    ((s.modPort p (fun x => { x with up := false, preempt := false, attempts := 0, paused := 0, xoff := 0, waiting := [], shares := (0, 0) })).orReg
      0x000B0004 1).raise srcLinkDown 4 p []
  else s

/-- The lanes of a block start again from a training state (R336, R339). -/
def State.restartLanes (s : State) (b : Nat) (train : TrainState) : State :=
  (List.range 4).foldl (fun s k => s.modLane (4 * b + k) (fun x => { train := train, checks := x.checks })) s

/-- A block takes a mode: its ports go down and its lanes retrain, or power down (R336). -/
def State.setMode (s : State) (b mode : Nat) (an : Bool) : State :=
  let s := (s.portDown (2 * b)).portDown (2 * b + 1)
  (s.setReg (portConfig b) (mode * 2 ^ 28 + (if an then 2 ^ 27 else 0))).restartLanes b
    (if mode = 0 then .off else .signalWait)

/-- A LINK_CONFIG command of subfunction `sub`; another subfunction's entry is another command's (R399). -/
def linkCmd (e : Entry) (sub : Nat) (body : Body) (s : State) : Host.Outcome State Fault Refusal :=
  if entryWf e && decide (e.op 8 1 ≠ sub) then .next s else runCmd e 0x71 false body s

/-- PORT_MODE: LINK_CONFIG subfunction 0 sets a block's mode; mode 4 slaves the odd block above, and leaving it disables that
block (R336, R338, R374, R399). An unlisted subfunction is INVALID. -/
def execPortMode (e : Entry) (s : State) : Host.Outcome State Fault Refusal :=
  if entryWf e && decide (1 ≤ e.op 8 1) && decide (e.op 8 1 ≤ 4) then .next s
  else
    runCmd e 0x71 false (fun s =>
      let b := e.op 9 1
      let mode := e.op 10 1
      let old := s.portMode b
      let an := (mode == 3 || mode == 4) && decide (e.op 11 1 % 2 = 1)
      if e.op 8 1 ≠ 0 || 7 < b || 4 < mode || (mode == 4 && b % 2 == 1) || old == 5 then done s .invalid []
      else if mode = old then done (s.setField (portConfig b) 27 1 (if an then 1 else 0)) .ok []
      else
        let s := s.setMode b mode an
        let s := if mode = 4 then s.setMode (b + 1) 5 false else if old = 4 then s.setMode (b + 1) 0 false else s
        done s .ok []) s

/-- PORT_ADDR sets a port's MAC and IP address (R399). -/
def execPortAddr (e : Entry) (s : State) : Host.Outcome State Fault Refusal :=
  linkCmd e 3 (fun s =>
    let p := e.op 9 1
    let v := e.op 10 1
    if 15 < p || !(v == 4 || v == 6) || (if v = 4 then 32 else 128) < e.op 36 1 then done s .invalid []
    else
      done (s.modPort p (fun x => { x with
        mac := e.op 14 6, ip := e.op 20 (if v = 4 then 4 else 16), ipVersion := v, ipBits := e.op 36 1 })) .ok []) s

/-- The position of a tap in LANE_TXEQ: its low bit (R339, R375). -/
def tapBit (tap : Nat) : Nat := 24 - 6 * tap
/-- A tap of a LANE_TXEQ word, c(−3), c(−2), c(−1), c(0), c(+1) for 0 to 4 (R340, R375). -/
def tapOf (w tap : Nat) : Int := if tap = 3 then (bitsOf w 6 6 : Nat) else signedOf 6 (bitsOf w (tapBit tap) 6)
/-- Sum of the tap magnitudes (R340). -/
def tapSum (w : Nat) : Nat := (List.range 5).foldl (fun n k => n + (tapOf w k).natAbs) 0
/-- LANE_TXEQ after a preset (R340). -/
def presetTaps : Nat := 48 * 64

/-- A LANE_TXEQ word after a request, or `none` where a limit of R340 refuses it (R339). -/
def requestTaps (w tap request : Nat) : Option Nat :=
  match request with
  | 0 => some w
  | 3 => some presetTaps
  | r =>
    if 4 < tap then none
    else
      let v := tapOf w tap + (if r = 1 then 1 else -1)
      let inRange := if tap = 3 then decide (0 ≤ v) && decide (v ≤ 63) else decide (-32 ≤ v) && decide (v ≤ 31)
      let w' := putBits w (tapBit tap) 6 (unsignedOf 6 v)
      if inRange && decide (tapSum w' ≤ 64) then some w' else none

/-- Signal is detected: a lane that waits for it starts training, from the preset (R339, R340, R375). -/
def execLaneSignalDetect (lane : Nat) (s : State) : Host.Outcome State Fault Refusal :=
  if Config.lanes ≤ lane then .fault .noSuchUnit
  else
    match (s.lane lane).train with
    | .off => .next s
    | .signalWait =>
      .next ((s.setReg (laneReg lane 4) presetTaps).modLane lane (fun x => { train := .training, signal := true, checks := x.checks }))
    | _ => .next (s.modLane lane (fun x => { x with signal := true }))

/-- A control word with its CRC (R339). -/
def controlWord (ready : Bool) (applied : Nat) : Nat :=
  let c := (if ready then 64 else 0) + applied * 256
  c + controlCrc c * 65536

/-- A lane locks once both ends report receiver ready (R339). -/
def EthLane.settled (x : EthLane) : EthLane := if x.partnerReady && x.selfReady then { x with train := .locked } else x

/-- A training frame on a native lane: a control word whose CRC fails is ignored; a new request is applied or refused, and its
number echoed (R339, R340). In modes 3 and 4, which train as IEEE 802.3dj has it, only readiness is taken. -/
def execTrainingFrame (lane control : Nat) (ready : Bool) (snr : Nat) (s : State) : Host.Outcome State Fault Refusal :=
  if Config.lanes ≤ lane then .fault .noSuchUnit
  else
    let x := s.lane lane
    let partner := Nat.testBit control 6
    if x.train ≠ .training then .next s
    else if 3 ≤ s.portMode (lane / 4) then
      .next (s.modLane lane (fun x => ({ x with partnerReady := partner, selfReady := ready, snr := snr }).settled))
    else if bitsOf control 16 16 ≠ controlCrc control then .next s
    else
      let seq := bitsOf control 12 4
      let w := s.reg (laneReg lane 4)
      let w' := if x.lastApplied = some seq then w else (requestTaps w (bitsOf control 0 3) (bitsOf control 3 2)).getD w
      let s := (s.setReg (laneReg lane 4) w').modLane lane (fun x => ({ x with
        partnerReady := partner, selfReady := ready, snr := snr, precode := Nat.testBit control 5
        lastApplied := some seq }).settled)
      .next (s.send (.handshake lane (controlWord ready seq)))

/-- Training has not locked within 500 ms (R339). -/
def execTrainingTimeout (lane : Nat) (s : State) : Host.Outcome State Fault Refusal :=
  if Config.lanes ≤ lane then .fault .noSuchUnit
  else if (s.lane lane).train = .training then .next (s.modLane lane (fun x => { x with train := .failed }))
  else .next s

/-- 100 ms in FAILED have passed (R339). -/
def execTrainingRetry (lane : Nat) (s : State) : Host.Outcome State Fault Refusal :=
  if Config.lanes ≤ lane then .fault .noSuchUnit
  else if (s.lane lane).train = .failed then
    .next (s.modLane lane (fun x => { x with train := .signalWait, signal := false }))
  else .next s

/-- The port of a lane goes down, where it has one that is up. -/
def State.laneDown (s : State) (lane : Nat) : State :=
  match s.portOfLane lane with
  | some p => s.portDown p
  | none => s

/-- A locked lane loses signal or lock; its port goes down (R339). -/
def execLaneLockLoss (lane : Nat) (s : State) : Host.Outcome State Fault Refusal :=
  if Config.lanes ≤ lane then .fault .noSuchUnit
  else if (s.lane lane).train = .locked then
    .next ((s.modLane lane (fun x => { x with train := .signalWait, signal := false })).laneDown lane)
  else .next s

/-- Whether LANE_CTRL takes a lane's port down: a loopback, a pattern or a silent transmitter (R341, R375). -/
def State.laneBlocked (s : State) (lane : Nat) : Bool :=
  decide (s.field (laneReg lane 0) 28 4 ≠ 0) || decide (s.field (laneReg lane 0) 26 1 = 1)

/-- A write of LANE_CTRL (R341, R375). -/
def execLaneCtrl (lane : Nat) (value : Word) (s : State) : Host.Outcome State Fault Refusal :=
  if Config.lanes ≤ lane then .fault .noSuchUnit
  else
    let s := s.writeReg (laneReg lane 0) value.toNat
    .next (if s.laneBlocked lane then s.laneDown lane else s)

/-- The PCS of a port locks alignment, and the port is up once all its lanes are LOCKED, when preemption is offered; or it loses
alignment (R339, R344). -/
def execPcsAlignment (port : Nat) (locked : Bool) (s : State) : Host.Outcome State Fault Refusal :=
  if 16 ≤ port then .fault .noSuchUnit
  else if !locked then .next (s.portDown port)
  else
    let ls := s.portLanes port
    if !(s.port port).up && !ls.isEmpty && ls.all (fun n => (s.lane n).train == .locked && !s.laneBlocked n) then
      let offer := decide (s.field 0x000B000C 2 1 = 1)
      let s := s.modPort port (fun x => { x with up := true, preempt := false, attempts := if offer then 1 else 0 })
      .next (if offer then s.send (.verify port) else s)
    else .next s

/-- The partner answers verification, or its 10 ms pass and it is tried again, three times in all (R344). -/
def execPreemptVerify (port : Nat) (responded : Bool) (s : State) : Host.Outcome State Fault Refusal :=
  if 16 ≤ port then .fault .noSuchUnit
  else
    let x := s.port port
    if !x.up || x.attempts = 0 || x.preempt then .next s
    else if responded then .next (s.modPort port (fun x => { x with preempt := true }))
    else if x.attempts < 3 then .next ((s.modPort port (fun x => { x with attempts := x.attempts + 1 })).send (.verify port))
    else .next s

/-- PCP of a lossless class, 0 CHORUS and 1 ROCE, and whether PFC acts on it (R342, R371). -/
def State.classPcp (s : State) (cls : Nat) : Nat := s.field 0x000B0008 (if cls = 0 then 26 else 23) 3
def State.pfcOn (s : State) (cls : Nat) : Bool := decide (s.field 0x000B0008 cls 1 = 1)

/-- A received PFC frame pauses, or with quanta 0 resumes, the lossless classes that it names, whose frames wait meanwhile; one that names the EXPRESS PCP is
ignored (R343). -/
def execPfcFrame (port classes quanta : Nat) (s : State) : Host.Outcome State Fault Refusal :=
  if 16 ≤ port then .fault .noSuchUnit
  else if Nat.testBit classes (s.field 0x000B0008 29 3) then .next s
  else
    let named := ((List.range 2).filter (fun c => s.pfcOn c && Nat.testBit classes (s.classPcp c))).foldl
      (fun m c => m + 2 ^ c) 0
    .next (if quanta = 0 then s.resumePort port named else s.modPort port (fun x => { x with paused := x.paused ||| named }))

/-- The pause of a class runs out, and what waited leaves (R343). -/
def execPfcPauseExpiry (port cls : Nat) (s : State) : Host.Outcome State Fault Refusal :=
  if 16 ≤ port || 2 ≤ cls then .fault .noSuchUnit
  else .next (s.resumePort port (2 ^ cls))

/-- A lossless class's occupancy, in bytes: above 1 MiB XOFF is sent and then repeated, below 512 KiB XON is sent (R343). -/
def execPfcXoffRepeat (port cls occupancy : Nat) (s : State) : Host.Outcome State Fault Refusal :=
  if 16 ≤ port || 2 ≤ cls then .fault .noSuchUnit
  else if !s.pfcOn cls then .next s
  else
    let was := Nat.testBit (s.port port).xoff cls
    let off := decide (1048576 < occupancy) || (was && decide (524288 ≤ occupancy))
    let s := s.modPort port (fun x => { x with xoff := if off then x.xoff ||| 2 ^ cls else clearBits x.xoff (2 ^ cls) })
    if off then .next (((s.send (.pfc port (2 ^ s.classPcp cls) 0xFFFF)).orReg 0x000B0004 2).count 72 1)
    else if was then .next (s.send (.pfc port (2 ^ s.classPcp cls) 0))
    else .next s

/-- A global PAUSE frame is discarded and counted (R338). -/
def execPauseFrame (port : Nat) (s : State) : Host.Outcome State Fault Refusal :=
  if 16 ≤ port then .fault .noSuchUnit
  else .next (s.modPort port (fun x => { x with pauseFrames := x.pauseFrames + 1 }))

/-- PTP_STEP_HI adds the signed 64-bit step to the timebase, which is set from then on (R347, R373). -/
def execPtpStepHi (value : Word) (s : State) : Host.Outcome State Fault Refusal :=
  let step := value.toNat * 2 ^ 32 + s.reg 0x000B002C
  .next { s with net := { s.net with ptpNs := (s.net.ptpNs + step) % 2 ^ 64, ptpSet := true } }

end Sys2Proof.Machine
end

