-- ==== Sys2Proof/Machine/HostFrames.lean ====
section
/-!
DEFINITION. Host frames and their rings (R338, R348, R349, R372, R399): descriptors handed over and returned, frames received
and transmitted.
-/
namespace Sys2Proof.Machine

/-- A host frame ring: transmit or receive. -/
def State.hostRing (s : State) (rx : Bool) : HostRing := if rx then s.net.rxRing else s.net.txRing

/-- Change a host frame ring. -/
def State.modHostRing (s : State) (rx : Bool) (f : HostRing → HostRing) : State :=
  if rx then { s with net := { s.net with rxRing := f s.net.rxRing } }
  else { s with net := { s.net with txRing := f s.net.txRing } }

/-- Offset of a ring's tail register (R370). -/
def hostTail (rx : Bool) : Nat := if rx then 0x000B0018 else 0x000B0014

/-- HOST_RING places a ring and resets its tail to 0 (R349, R399). -/
def execHostRing (e : Entry) (s : State) : Host.Outcome State Fault Refusal :=
  linkCmd e 4 (fun s =>
    let n := e.op 10 2
    if 1 < e.op 9 1 || n < 64 || 4096 < n || e.op 16 8 % 4096 ≠ 0 then done s .invalid []
    else
      let rx := decide (e.op 9 1 = 1)
      done ((s.modHostRing rx (fun _ => { base := e.op 16 8, count := n })).setReg (hostTail rx) 0) .ok []) s

/-- Descriptors that were handed over are read by DMA, once the function may issue requests (R349, R380). -/
def State.readDescriptors (s : State) (rx : Bool) : State :=
  if !s.mayRequest then s
  else
    let s := (s.hostRing rx).unread.foldl (fun s d => s.snoop 8 [(1, none)] d) s
    s.modHostRing rx (fun g => { g with queue := g.queue ++ g.unread, unread := [] })

/-- A tail write hands the descriptors from the old tail to the new one to the device, which reads them by DMA (R349). A tail that
names no descriptor of the ring, and a tail of a ring that is not placed, is held and hands none over. -/
def State.handTail (s : State) (rx : Bool) (value : Nat) (descriptors : List (List Byte)) : State :=
  let g := s.hostRing rx
  let t := value % 4096
  let s := s.setReg (hostTail rx) t
  if g.count ≤ t then s
  else
    let ds := descriptors.take ((t + g.count - g.tail) % g.count)
    (s.modHostRing rx (fun g => { g with tail := t, unread := g.unread ++ ds })).readDescriptors rx

/-- NET_HOST_TX_TAIL (R349, R372). -/
def execNetHostTxTail (value : Word) (descriptors : List (List Byte)) (s : State) : Host.Outcome State Fault Refusal :=
  .next (s.handTail false value.toNat descriptors)

/-- NET_HOST_RX_TAIL (R349, R372). -/
def execNetHostRxTail (value : Word) (descriptors : List (List Byte)) (s : State) : Host.Outcome State Fault Refusal :=
  .next (s.handTail true value.toNat descriptors)

/-- A descriptor as its owner wrote it: 32 bytes with their CRC-32C (R349). -/
def descriptorOk (d : List Byte) : Bool := decide (d.length = 32) && crcTrailed d

/-- Bytes of a descriptor that the device returns: the length, the port, the flags and the timestamp; OWN is clear (R349). -/
def returned (d : List Byte) (length port flags timestamp : Nat) : List Byte :=
  withCrc (sliceBytes d 0 8 ++ leBytes 2 length ++ leBytes 1 port ++ leBytes 1 flags ++ List.replicate 4 0 ++
    leBytes 8 timestamp ++ List.replicate 4 0)

/-- The device returns the first descriptor of a ring's queue (R349). -/
def State.giveBack (s : State) (rx : Bool) (bs : List Byte) : State :=
  let g := s.hostRing rx
  ((s.snoop 9 [(1, none)] bs).hostWrite (g.base + 32 * g.head) bs).modHostRing rx (fun g =>
    { g with head := (g.head + 1) % g.count, queue := g.queue.drop 1 })

/-- Descriptors whose CRC fails, at the head of a ring's queue, return unused with byte 10 at 0xFF (R349). -/
def State.returnBad (rx : Bool) : List (List Byte) → State → State
  | [], s => s
  | d :: ds, s =>
    if descriptorOk d then s
    else
      State.returnBad rx ds (s.giveBack rx (returned d (fieldAt d 8 2) 0xFF (clearBits (fieldAt d 11 1) 1) (fieldAt d 16 8)))

/-- A received host frame is discarded and counted (R349). -/
def State.dropHostFrame (s : State) : State :=
  ((s.modHostRing true (fun g => { g with dropped := true })).orReg 0x000B0004 0x4).count 73 1

/-- A host frame, without its FCS, goes to the next receive descriptor with its length, port and timestamp (R348, R349). -/
def State.storeHostFrame (s : State) (port timestamp : Nat) (frame : List Byte) : State :=
  let s := State.returnBad true s.net.rxRing.queue s
  match s.net.rxRing.queue with
  | [] => s.dropHostFrame
  | d :: _ =>
    if fieldAt d 8 2 < frame.length then s.dropHostFrame
    else
      let flags := 4 + (if s.net.rxRing.dropped then 8 else 0)
      let s := (s.snoop 9 [(1, none)] frame).hostWrite (fieldAt d 0 8) frame
      (s.giveBack true (returned d frame.length port flags timestamp)).modHostRing true (fun g => { g with dropped := false })

/-- A host frame arrives: it is timestamped by the PTP timebase, and waits while the function may issue no request (R346, R348, R380). -/
def State.hostFrameIn (s : State) (port : Nat) (frame : List Byte) : State :=
  let s := s.ethIn port (7, none) frame
  if s.mayRequest then s.storeHostFrame port s.net.ptpNs frame
  else { s with net := { s.net with arrived := s.net.arrived ++ [(port, s.net.ptpNs, frame)] } }

/-- A frame is received whole, given without its FCS. The MAC accepts none of less than 64 bytes with its FCS, and discards and counts one
that is too long (R338). What the device consumes itself comes by its own rows; every other good frame is a host frame (R349). -/
def execHostFrameReceive (port : Nat) (frame : List Byte) (s : State) : Host.Outcome State Fault Refusal :=
  if 16 ≤ port then .fault .noSuchUnit
  else if 9216 < frame.length + 4 then .next (s.modPort port (fun x => { x with overlong := x.overlong + 1 }))
  else if frame.length + 4 < 64 || s.consumes frame then .next s
  else .next (s.hostFrameIn port frame)

/-- PCP of a host frame: that of its own tag, else PCP_HOST (R342, R371). -/
def State.hostPcp (s : State) (frame : List Byte) : Nat := if frameTagged frame then framePcp frame else s.field 0x000B0008 20 3

/-- The frame of the first transmit descriptor has left, as its buffer held it, with the FCS that the device appends; its descriptor
returns, with the timestamp where TS_REQ is set (R348, R349). The MAC sends no frame outside 64 to 9,216 bytes with its FCS, and
counts one that is too long (R338). DSCP and ECN field are host software's (R342). -/
def execHostFrameTransmitted (frame : List Byte) (s : State) : Host.Outcome State Fault Refusal :=
  if !s.mayRequest then .next s
  else
    let s := State.returnBad false s.net.txRing.queue s
    match s.net.txRing.queue with
    | [] => .next s
    | d :: _ =>
      let port := fieldAt d 10 1
      let len := fieldAt d 8 2
      let stamp := Nat.testBit (fieldAt d 11 1) 1
      let asked := if stamp then 2 else 0
      if 9216 < len + 4 then
        .next ((s.giveBack false (returned d len port asked 0)).modPort (port % 16) (fun x => { x with overlong := x.overlong + 1 }))
      else if len + 4 < 64 then .next (s.giveBack false (returned d len port asked 0))
      else
        let bytes := sliceBytes frame 0 len
        let mark := frameMark bytes
        let s := (s.snoop 8 [(1, none)] bytes).ethOut (port % 16) (8, none) bytes
        let s := s.send (.inClass (s.hostPcp bytes) (mark / 4) (mark % 4) (.hostFrame (port % 16) (withFcs bytes)))
        .next (s.giveBack false (returned d len port (if stamp then 6 else 0) (if stamp then s.net.ptpNs else 0)))

/-- Host-frame transfers that waited for the function go on (R380). -/
def State.resumeHostFrames (s : State) : State :=
  if !s.mayRequest then s
  else
    let s := (s.readDescriptors false).readDescriptors true
    let waiting := s.net.arrived
    waiting.foldl (fun s x => s.storeHostFrame x.1 x.2.1 x.2.2) { s with net := { s.net with arrived := [] } }

end Sys2Proof.Machine
end

