-- ==== Sys2Proof/Machine/Production.lean ====
section
/-!
DEFINITION. Taking a production in (R282 to R297): the checks of a manifest and of arriving groups, the copy's frames and bytes,
content keys; and the checks that a seal makes (R285, R299, R322, R323).
-/
namespace Sys2Proof

/-- A tensor record and its outlier list (R288). -/
def readTensor (b : List Byte) (o : Nat) : Tensor :=
  let list := fieldAt b (o + 20) 4
  { layer := fieldAt b o 2, kind := fieldAt b (o + 2) 1, format := fieldAt b (o + 3) 1, expert := fieldAt b (o + 4) 2
    layout := fieldAt b (o + 6) 1, rowsI := fieldAt b (o + 8) 4, colsO := fieldAt b (o + 12) 4, firstSeg := fieldAt b (o + 16) 2
    segCount := fieldAt b (o + 18) 2
    outliers := (List.range (fieldAt b (o + 24) 2)).map (fun i => fieldAt b (list + 4 * i) 4), listAt := list }

/-- A segment record (R289). -/
def readSegment (b : List Byte) (o : Nat) : SegRec :=
  { stored := fieldAt b o 8, digest := fieldAt b (o + 8) 32, encrypted := fieldAt b (o + 40) 1 % 2 == 1
    keySlot := fieldAt b (o + 41) 1, tensor := fieldAt b (o + 42) 2, firstGroup := fieldAt b (o + 44) 4, iv := sliceBytes b (o + 48) 12 }

/-- The manifest that some bytes hold (R287 to R291). -/
def readManifest (x : ManifestIn) : Manifest :=
  let b := x.bytes
  let t := fieldAt b 16 2
  let g := fieldAt b 18 2
  let tensors := (List.range t).map (fun i => 256 + 64 * i)
  let segments := (List.range g).map (fun i => 256 + 64 * t + 64 * i)
  { magicOk := fieldAt b 0 4 == 0x4D505146, minor := fieldAt b 4 1, major := fieldAt b 5 1, headerLen := fieldAt b 6 2
    length := fieldAt b 8 4, epoch := fieldAt b 12 4, tromal := fieldAt b 20 4 % 2 == 1
    reservedZero :=
      decide (fieldAt b 20 4 < 2) && decide (fieldAt b 145 111 = 0) &&
        tensors.all (fun o => decide (fieldAt b (o + 7) 1 = 0) && decide (fieldAt b (o + 26) 38 = 0)) &&
        segments.all (fun o => decide (fieldAt b (o + 40) 1 < 2) && decide (fieldAt b (o + 60) 4 = 0))
    model := x.model, keyDigest := Machine.shake32 (sliceBytes b 88 57), identity := Machine.shake32 b
    tensors := tensors.map (readTensor b), segments := segments.map (readSegment b), held := b.length }

/-- A tensor record that R288 admits; its layer codes are those of R132. -/
def Tensor.wf (t : Tensor) : Bool :=
  (decide (t.layer < 512) || (decide (0xFFF0 ≤ t.layer) && decide (t.layer ≤ 0xFFF5))) && decide (t.kind ≤ 11) &&
    has [1, 2, 3, 8, 9] t.format && (decide (t.expert ≤ 255) || t.expert == 0xFFFE || t.expert == 0xFFFF) &&
    decide (t.layout ≤ 1) && decide (0 < t.rowsI) && decide (t.rowsI % 64 = 0) && decide (0 < t.colsO) && decide (1 ≤ t.segCount) &&
    decide (t.outliers.length ≤ t.rowsI / 16) && (t.outliers.isEmpty || arrayPlaced t.format) &&
    t.outliers.all (fun r => decide (r < t.rowsI)) &&
    (List.zip t.outliers (t.outliers.drop 1)).all (fun p => decide (p.1 < p.2))

/-- A segment record that R289 admits. -/
def SegRec.wf (g : SegRec) (tensors : Nat) : Bool :=
  decide (64 ≤ g.plain) && decide (g.plain % 64 = 0) && decide (g.plain ≤ 2 ^ 30) && decide (g.keySlot < 16) &&
    decide (g.tensor < tensors) && (!g.encrypted || decide (16 ≤ g.stored))

/-- The segments of a tensor: consecutive, its own, and between them every group of it in order (R284, R289). -/
def Manifest.segmentsOf (m : Manifest) (i : Nat) (t : Tensor) : Bool :=
  let segs := (m.segments.drop t.firstSeg).take t.segCount
  let ends := segs.foldl (fun (n : Option Nat) g =>
    n.bind (fun k => if g.tensor = i ∧ g.firstGroup = k then some (k + g.plain / 64) else none)) (some 0)
  decide (segs.length = t.segCount) && ends == some t.groupCount

/-- Length of a manifest's header and records (R287). -/
def Manifest.tableEnd (m : Manifest) : Nat := 256 + 64 * m.tensors.length + 64 * m.segments.length

/-- Whether the records, the outlier lists and the signature lie apart in a manifest's bytes, in that order (R287, R288). -/
def Manifest.laidOut (m : Manifest) : Bool :=
  decide (m.tableEnd + 114 ≤ m.length) && m.tensors.all (fun t =>
    (t.outliers.isEmpty && t.listAt == 0) ||
      (decide (m.tableEnd ≤ t.listAt) && decide (t.listAt + 4 * t.outliers.length + 114 ≤ m.length)))

/-- A header and records that are well formed (R287 to R289). -/
def Manifest.wf (m : Manifest) (length : Nat) : Bool :=
  m.magicOk && decide (m.minor = 0) && decide (m.major = 1) && decide (m.headerLen = 256) && decide (m.length = length) &&
    decide (m.held = m.length) && m.laidOut &&
    decide (m.length ≤ 2 ^ 22) && decide (1 ≤ m.epoch) && decide (m.epoch ≤ 0xFFFFFFFE) && m.reservedZero &&
    decide (1 ≤ m.tensors.length) && decide (m.tensors.length ≤ 8192) && decide (1 ≤ m.segments.length) &&
    decide (m.segments.length ≤ 4096) && m.tensors.all Tensor.wf && m.segments.all (fun g => g.wf m.tensors.length) &&
    (List.zip (List.range m.tensors.length) m.tensors).all (fun p => m.segmentsOf p.1 p.2) &&
    decide ((m.tensors.map (fun t => t.segCount)).foldl (· + ·) 0 = m.segments.length)

/-- The segment that holds a tensor group (R289). -/
def Manifest.segOf (m : Manifest) (t : Tensor) (g : Nat) : Nat :=
  (((List.range t.segCount).map (t.firstSeg + ·)).find? (fun s =>
    ((m.segments[s]?).map (fun r => decide (r.firstGroup ≤ g ∧ g < r.firstGroup + r.plain / 64))).getD false)).getD t.firstSeg

end Sys2Proof

namespace Sys2Proof.Machine

/-- LDR_FAIL (R330). -/
def State.setFail (s : State) (code index : Nat) : State := s.setReg 0x000C0808 (2 ^ 31 + (code <<< 27) + ((index % 2 ^ 14) <<< 13))

/-- Whether an epoch is held under another identity, by a journal or a resident copy (R291). -/
def State.epochClash (s : State) (epoch identity : Nat) : Bool :=
  s.ldr.journal.any (fun j => ((governing j.2).map (fun g =>
    g.epoch == epoch && g.identity != identity % 2 ^ 64)).getD false) ||
    ([s.ldr.serving, s.ldr.old, s.ldr.current].filterMap id).any (fun c =>
      decide (c.man.epoch = epoch) && decide (c.man.identity ≠ identity))

/-- Take frames from FREE for a copy: the lowest, RESERVED, and the allocation reserve left (R218, R234, R295). -/
def State.takeCopyFrames (s : State) (n : Nat) : Option (List Nat × State) :=
  let fs := lowestFree s.kv.frames Config.firstFreeFrame n
  if n + Config.allocReserve ≤ s.freeCount ∧ fs.length = n then
    let s := { s with kv := { s.kv with hbm := fs.foldl zeroFrame s.kv.hbm } }
    some (fs, (fs.foldl (fun s f => s.setFrame f { state := .reserved }) s).count 51 n)
  else none

/-- Return a copy's frames to FREE (R307, R311, R313). -/
def State.freeCopy (s : State) (c : Copy) : State := s.freeFrames c.frames

/-- A copy without its content keys (R294). -/
def Copy.keyless (c : Copy) : Copy := { c with keys := [] }

/-- Every array of a cue sheet's placement for a test, by its home tile; the tile that serves the position is programmed (R305, R307,
R314). -/
def arraysOf (sheet : CueSheet) (p : Placement → Bool) : List (Nat × Nat) :=
  (sheet.placements.filter p).map (fun q => (q.tile, q.array))

/-- The tiles of a cue sheet that have a calibration run queued or in progress. -/
def State.runsLeft (s : State) (c : CueSheet) : Bool :=
  c.placements.any (fun p =>
    let x := s.tile (s.servingTile p.tile)
    x.calRun.isSome || x.calQueued || x.programming.isSome)

/-- The calibration run that follows the programming of a tile's arrays: queued (R304), but direct for the arrays of an understudy
that serves a position (R99). -/
def State.runProgrammed (s : State) (t : Nat) : State :=
  match s.servesAs t, s.programSheet with
  | some x, some c => s.directRun t (((c.placed x.home).map (fun p => p.array)).filter (Nat.testBit (s.tile t).valid))
  | _, _ => s.queueRun t

/-- The runs of tiles whose arrays are programmed follow once none of the tile's arrays is left to program (R304). -/
def State.settleRuns (s : State) : State :=
  (Map.keys s.tiles).foldl (fun s t =>
    let x := s.tile t
    if x.runDue && x.programming.isNone && !s.toProgram.any (fun y => y.1 == t) then
      (s.modTile t (fun x => { x with runDue := false })).runProgrammed t
    else s) s

/-- A seal whose arrays are programmed goes into service: the end of step 4 of R307 and step 5 (R306, R419). -/
def State.sealServes (s : State) (r : SealRun) : State :=
  let s := match s.ldr.serving with
    | some c => s.freeCopy c
    | none => s
  let s := s.record 0x02 r.copy.man.identity
  let s := { s with
    ldr := { s.ldr with
      state := .idle, sealRun := none, current := none, serving := some r.copy.keyless
      resident := [(r.copy.man.identity, r.copy.man.epoch)] }
    fabric := { s.fabric with loaded := none } }
  (s.activate r.sheet).finishJobs (fun j =>
    if j.id = r.job then some (.ok, leBytes 4 r.programmed ++ leBytes 4 r.unchanged ++ leBytes 2 r.substituted) else none)

/-- Close a seal, once every array is programmed, its understudies too, and the runs are done (R305, R306). Where a placed array is
not valid for the epoch then, FAILED and not substituted, the epoch is not served (R320): the seal ends with NOT_READY and the
production is STAGED again (DESIGN CHOICE, log 146). -/
def State.endSeal (s : State) : State :=
  match s.sealing with
  | none => s
  | some r =>
    if !r.left.isEmpty || !s.ldr.refill.isEmpty || !s.toProgram.isEmpty || s.runsLeft r.sheet || s.fabric.cutovers.any (fun c => c.auto) then s
    else if s.arraysValid r.sheet then s.sealServes r
    else
      { s with ldr := { s.ldr with state := .staged, sealRun := none } }.finishJobs (fun j =>
        if j.id = r.job then some (.notReady, []) else none)

/-- Program what may be programmed, start the runs that are due, and close a seal that has nothing left. -/
def State.proceed (s : State) : State := s.pump.settleRuns.endSeal

/-- Whether the publisher's signature of a manifest verifies (R290). -/
def manifestSigned (b : List Byte) : Bool :=
  ed448Verify "FQB-PM1" (sliceBytes b 88 57) (b.take (b.length - 114)) (b.drop (b.length - 114))

/-- A manifest with the model envelope that its identity has: every reading of the same bytes gives the same one (R287; log 4). -/
def State.envelopeOf (s : State) (m : Manifest) : Manifest := { m with model := Map.getD s.ldr.envelopes m.identity m.model }

/-- PRODUCTION_OPEN, by the first row of R295 that matches. -/
def execProductionOpen (e : Entry) (m : Option ManifestIn) (s : State) : Host.Outcome State Fault Refusal :=
  runCmd e 0x10 (e.op 20 2 == 0xFFFF) (fun s =>
    if s.ldr.state ≠ .idle || !s.ldr.bootVerified then done s .busy []
    else if !transferOk e 8 20 then done s .invalid []
    else
      withTransfer e 8 (e.op 24 4) m s (fun s x =>
        let m := s.envelopeOf (readManifest x)
        if !m.wf (e.op 24 4) || s.epochClash m.epoch m.identity then done s .invalid []
        else if !manifestSigned x.bytes || !has ((s.boot.config.map (fun c => c.publisherKeys)).getD []) m.keyDigest then
          done s .badSignature []
        else
          match s.takeCopyFrames m.copyFrames with
          | none => done s .noSpace []
          | some (fs, s) =>
            done { s with ldr := { s.ldr with
              state := .opened, current := some { man := m, frames := fs, accepted := [], keys := [] }
              envelopes := Map.put s.ldr.envelopes m.identity m.model } } .ok
              (leBytes 4 fs.length ++ leBytes 4 m.epoch))) s

/-- A group that passes the checks of R286: `n` is its index in its segment. -/
def groupOk (t : Tensor) (encrypted : Bool) (n : Nat) (g : List Byte) : Bool :=
  let b0 := fieldAt g 0 1
  decide (g.length = 64) && decide (fieldAt g 60 4 = crc32c (sliceBytes g 0 60)) && decide (fieldAt g 1 1 = n % 256) &&
    decide (b0 % 16 = t.format) && Nat.testBit b0 5 == encrypted && decide (b0 < 64) &&
    (t.format != 1 || ((List.range 51).all (fun j => decide (fieldAt g (4 + j) 1 ≤ 242)) && decide (fieldAt g 55 1 = 0) &&
      decide (fieldAt g 56 1 ≤ 242) && decide (fieldAt g 57 3 = 0)))

/-- The checks of a segment that fail as it arrives (R286, R289, R293); it is accepted where none does. -/
structure Arrived where
  group : Bool
  digest : Bool
  tag : Bool
  deriving DecidableEq, Repr

/-- Whether a segment is accepted. -/
def Arrived.accepted (a : Arrived) : Bool := !a.group && !a.digest && !a.tag

/-- The plaintext of a segment as stored, and whether its tag verifies; one that is not encrypted is its plaintext (R293). -/
def Copy.opened (c : Copy) (x : SegArrival) : List Byte × Bool :=
  match c.man.segments[x.seg]? with
  | none => ([], false)
  | some r =>
    if r.encrypted then
      let n := x.stored.length - 16
      let g := gcmOpen (Map.getD c.keys r.keySlot []) r.iv (leBytes 32 c.man.identity ++ leBytes 2 x.seg) (x.stored.take n)
      (g.1, g.2 == x.stored.drop n)
    else (x.stored, true)

/-- The 64-byte groups of a plaintext (R282). -/
def groupsOf (b : List Byte) : List (List Byte) := (List.range (b.length / 64)).map (fun i => sliceBytes b (64 * i) 64)

/-- Check a segment as it arrives: its groups, its digest and its tag (R286, R289, R293). -/
def checkArrival (m : Manifest) (x : SegArrival) (plain : List Byte) (tagOk : Bool) : Arrived :=
  match m.segments[x.seg]? with
  | none => { group := true, digest := false, tag := false }
  | some r =>
    let groups := groupsOf plain
    let sound := (m.tensors[r.tensor]?).any (fun t => decide (plain.length = r.plain) &&
      (List.zip (List.range groups.length) groups).all (fun p => groupOk t r.encrypted p.1 p.2))
    { group := !sound, digest := shake32 x.stored != r.digest, tag := !tagOk }

/-- Write a segment's plaintext to its place in the copy (R297). -/
def State.storeSegment (s : State) (c : Copy) (seg : Nat) (groups : List (List Byte)) : State :=
  (List.zip (List.range groups.length) groups).foldl (fun s p =>
    let o := c.man.segOffset seg + 64 * p.1
    s.hbmWrite (c.frames.getD (o / Config.frameBytes) 0) (c.addr o) p.2) s

/-- Zero every frame that a segment of a copy occupies (R293). What such a frame holds of a neighbouring segment goes too, and fails
its group checks where it is used (DESIGN CHOICE, log 145). -/
def State.zeroSegment (s : State) (c : Copy) (seg : Nat) : State :=
  let first := c.man.segOffset seg
  let last := first + ((c.man.segments[seg]?).map (fun r => r.plain)).getD 0 - 1
  let places := (List.range (last / Config.frameBytes + 1)).drop (first / Config.frameBytes)
  { s with kv := { s.kv with hbm := (places.map (fun i => c.frames.getD i 0)).foldl zeroFrame s.kv.hbm } }

/-- The events of a segment that is not accepted (R286, R289, R293, R330): a bit for every check that failed, and in LDR_FAIL the first of
them. The frames of a failed tag are zeroed. -/
def State.segmentFails (s : State) (c : Copy) (seg : Nat) (a : Arrived) : State :=
  let s := s.orReg 0x000C0804 (a.group.toNat + 2 * a.digest.toNat + 4 * a.tag.toNat)
  let s := s.setFail (if a.group then 1 else if a.digest then 2 else 3) seg
  if a.tag then s.zeroSegment c seg else s

/-- What a fetch has come to: the state, the segments accepted, and the first that failed with its status. -/
structure FetchRun where
  state : State
  accepted : Nat := 0
  failed : Option (Nat × Status) := none

/-- One segment of a fetch (R296). A failed one is not accepted. -/
def FetchRun.take (r : FetchRun) (x : SegArrival) : FetchRun :=
  match r.state.ldr.current with
  | none => r
  | some c =>
    if has c.accepted x.seg then r
    else
      let kinds : List (Nat × Option Nat) := [(1, none), (2, some x.seg)]
      let open_ := c.opened x
      let groups := groupsOf open_.1
      let s := r.state.snoop 22 kinds x.stored
      let a := checkArrival c.man x open_.1 open_.2
      if a.accepted then
        let s := (s.snoop 23 kinds groups.flatten).storeSegment c x.seg groups
        { r with
          state := { s with ldr := { s.ldr with current := some { c with accepted := insertNat x.seg c.accepted } } }
          accepted := r.accepted + 1 }
      else
        { r with
          state := s.segmentFails c x.seg a
          failed := some (r.failed.getD (x.seg, if a.group then .crcFail else .badSignature)) }

/-- Every segment of the current copy is accepted: the loader is STAGED (R296). A copy that a stack reset lost gives way to the
next such copy, and then to what the loader was doing (R319). -/
def State.copyComplete (s : State) : State :=
  match s.ldr.refill with
  | (_, true) :: (c, b) :: rest =>
    { s with ldr := { s.ldr with current := some { c with accepted := [] }, refill := (c, b) :: rest } }
  | [(_, true)] =>
    match s.ldr.sealRun with
    | some r => { s with ldr := { s.ldr with state := .sealing, current := some r.copy, refill := [] } }
    | none => { s with ldr := { s.ldr with state := .idle, current := none, refill := [] } }
  | _ => { s with ldr := { s.ldr with state := .staged, refill := [] } }

/-- PRODUCTION_FETCH and PRODUCTION_PUSH: a range of segments (R296). -/
def fetchRange (e : Entry) (remote : Bool) (arrived : Option (List SegArrival)) (s : State) :
    State × Option (Status × List Byte) :=
  let first := e.op 24 2
  let n := e.op 26 2
  match s.ldr.state, s.ldr.current with
  | .opened, some c =>
    if n = 0 || decide (c.man.segments.length < first + n) || (remote && e.op 20 2 == 0xFFFF) ||
        (!remote && !bufferOk (e.op 8 8)) then done s .invalid []
    else
      let wanted := ((List.range n).map (first + ·)).filter (fun g => !has c.accepted g)
      if wanted.any (fun g => ((c.man.segments[g]?).map (fun r => r.encrypted && (Map.get? c.keys r.keySlot).isNone)).getD false) then
        done s .notReady []
      else
        let long := ((List.range n).map (fun i => ((c.man.segments[first + i]?).map (fun r => r.stored)).getD 0)).sum
        (if remote then withTransfer e 8 long arrived s else fun k => withDma arrived s (k s)) (fun s xs =>
          let r := (xs.filter (fun x => has wanted x.seg)).foldl FetchRun.take { state := s }
          let s := r.state
          let all := (s.ldr.current.map (fun c => decide (c.accepted.length = c.man.segments.length))).getD false
          let s := if all then s.copyComplete.proceed else s
          match r.failed with
          | some (g, st) => done s st (leBytes 2 r.accepted ++ leBytes 2 g)
          | none => done s .ok (leBytes 2 r.accepted ++ leBytes 2 0xFFFF))
  | _, _ => done s .notReady []

/-- PRODUCTION_FETCH reads by RDMA READ over a queue pair (R296, R396). -/
def execProductionFetch (e : Entry) (arrived : Option (List SegArrival)) (s : State) : Host.Outcome State Fault Refusal :=
  runCmd e 0x11 false (fetchRange e true arrived) s

/-- PRODUCTION_PUSH reads by DMA from host memory (R296, R396). -/
def execProductionPush (e : Entry) (arrived : Option (List SegArrival)) (s : State) : Host.Outcome State Fault Refusal :=
  runCmd e 0x12 true (fetchRange e false arrived) s

/-- KEY_UNWRAP, by R292. A key enters the history chain (R419). -/
def execKeyUnwrap (e : Entry) (rec : Dma) (s : State) : Host.Outcome State Fault Refusal :=
  runCmd e 0x16 true (fun s =>
    match s.ldr.current with
    | none => done s .notReady []
    | some c =>
      if s.ldr.state = .sealing then done s .notReady []
      else if !bufferOk (e.op 8 8) then done s .invalid []
      else
        withDma rec s (fun b =>
          let s := s.dmaRead e.tag b
          let slot := fieldAt b 0 1
          if 16 ≤ slot ∨ fieldAt b 1 3 ≠ 0 ∨ fieldAt b 100 28 ≠ 0 ∨ (Map.get? c.keys slot).isSome then done s .invalid []
          else
            match s.boot.fuses.unwrap c.man.identity b with
            | none => done s .badSignature []
            | some key =>
              let s := { s with ldr := { s.ldr with current := some { c with keys := Map.put c.keys slot key } } }
              done (s.record 0x05 c.man.identity) .ok [])) s

/-- The first group that breaks R285 in a tensor: a column's groups in a row block carry one finite scale. -/
def State.scaleBad (s : State) (c : Copy) (t : Tensor) : Option Nat :=
  if !arrayPlaced t.format then none
  else
    (List.range t.colsO).findSome? (fun col =>
      (List.range (ceilDiv t.rowsI 1024)).findSome? (fun k =>
        let want := s.columnScale c t k col
        ((List.range (min 1024 (t.rowsI - 1024 * k))).map (fun i => (t.groupOf (1024 * k + i) col).1)).find? (fun g =>
          let v := fieldAt (s.copyGroup c t g) 2 2
          decide (v ≠ want) || decide (bitsOf v 7 8 = 255))))

/-- The first segment that breaks R285, if one does. -/
def State.scaleFail (s : State) (c : Copy) : Option Nat :=
  c.man.tensors.findSome? (fun t => (s.scaleBad c t).map (fun g => c.man.segOf t g))

/-- A placement whose tensor is not placed in arrays, whose block does not exist or whose slots name a row that is no outlier
(R299). -/
def placementBad (m : Manifest) (p : Placement) : Bool :=
  match m.tensors[p.tensor]? with
  | none => true
  | some t =>
    !arrayPlaced t.format || decide (t.blocks.1 ≤ p.rowBlock) || decide (t.blocks.2 ≤ p.colBlock) || decide (8 ≤ p.array) ||
      p.slots.any (fun r => r != 0xFFFF && !(decide (r < 1024) && has t.outliers (1024 * p.rowBlock + r)))

/-- The tile of the first placement that breaks R299, if one does: every block of a placed tensor once. -/
def placementFail (m : Manifest) (ps : List Placement) : Option Nat :=
  match ps.find? (placementBad m) with
  | some p => some p.tile
  | none =>
    (List.zip (List.range m.tensors.length) m.tensors).findSome? (fun it =>
      let mine := ps.filter (fun p => p.tensor == it.1)
      match mine with
      | [] => none
      | p :: _ =>
        let blocks := ((List.range it.2.blocks.1).map (fun k => (List.range it.2.blocks.2).map (fun m => (k, m)))).flatten
        if blocks.all (fun b => decide ((mine.filter (fun p => p.rowBlock == b.1 && p.colBlock == b.2)).length = 1)) then none
        else some ((mine.find? (fun p => decide (1 < (mine.filter (fun q =>
          q.rowBlock == p.rowBlock && q.colBlock == p.colBlock)).length))).getD p).tile)

/-- The placement that the Tromal layout gives: blocks in ascending tensor, row block and column block, arrays innermost
(R322). -/
def tromalOrder (m : Manifest) (ps : List Placement) : List (Nat × Nat × Nat × Nat × Nat) :=
  let placed := (List.zip (List.range m.tensors.length) m.tensors).filter (fun it => ps.any (fun p => p.tensor == it.1))
  let blocks := (placed.map (fun it => ((List.range it.2.blocks.1).map (fun k =>
    (List.range it.2.blocks.2).map (fun c => (it.1, k, c)))).flatten)).flatten
  (List.zip (List.range blocks.length) blocks).map (fun p =>
    let pos := p.1 / 8
    (pos / 64 * Config.cols + pos % 64 + 1, p.1 % 8, p.2.1, p.2.2.1, p.2.2.2))

/-- The tile of the first placement that breaks R323, if one does. Without the TROMAL flag no block is REVERSED, since the
device never programs that layout (DEDUCED, log 40). -/
def State.tromalFail (s : State) (c : Copy) (ps : List Placement) : Option Nat :=
  if c.man.tromal then
    let order := tromalOrder c.man ps
    (ps.find? (fun p =>
      let digest := ((c.man.tensors[p.tensor]?).map (fun t => s.newDigest c t p)).getD 0
      !(p.reversed && order.any (fun o => o == (p.tile, p.array, p.tensor, p.rowBlock, p.colBlock)) &&
        s.holdsContents p.tile p.array digest && ((s.gov p.tile p.array).map (fun g => g.tromal)).getD false))).map (fun p => p.tile)
  else (ps.find? (fun p => p.reversed)).map (fun p => p.tile)

/-- The first segment of an array-placed tensor with a group that fails its CRC as the seal reads it, if one does (R286). -/
def State.groupFail (s : State) (c : Copy) : Option Nat :=
  c.man.tensors.findSome? (fun t =>
    if arrayPlaced t.format then ((List.range t.groupCount).find? (fun g => !groupSound (s.copyGroup c t g))).map (c.man.segOf t)
    else none)

/-- The check of a seal that fails first: GROUP of R286 (DESIGN CHOICE, log 144), then those of R306, SCALE, PLACEMENT or TROMAL, with its
index. -/
def State.sealFail (s : State) (c : Copy) (sheet : CueSheet) : Option (Nat × Nat) :=
  match s.groupFail c, s.scaleFail c with
  | some g, _ => some (1, g)
  | none, some g => some (4, g)
  | none, none =>
    match placementFail c.man sheet.placements with
    | some t => some (5, t)
    | none => (s.tromalFail c sheet.placements).map (fun t => (7, t))

end Sys2Proof.Machine
end

