-- ==== Sys2Proof/Machine/Loader.lean ====
section
/-!
DEFINITION. Recasts (R302 to R314), the journal check at boot (R318), wear (R325 to R327), and the end of a calibration run,
on which a seal and an activation wait (R99, R170, R307).
-/
namespace Sys2Proof.Machine

/-- The direct run of an activation is done on a tile (R99, R170). -/
def State.firstRunDone (s : State) (t : Nat) : State :=
  { s with fabric := { s.fabric with firstRuns := without s.fabric.firstRuns t } }.endActivation

/-- A tile's run ends (R100, R101), and what waits for it goes on. -/
def State.runDone (s : State) (t : Nat) : State := ((s.endRun t).firstRunDone t).proceed

/-- The array under calibration has had its 46,080 windows: its fit is judged, and the next array of the run follows (R94, R95). -/
def State.endCalArray (s : State) (t : Nat) : State :=
  match (s.tile t).calRun with
  | none => s
  | some r =>
    match r.arrays with
    | [] => s.runDone t
    | a :: rest =>
      if r.window < 46080 then s
      else
        let s := s.applyFit t a r
        if rest.isEmpty then s.runDone t
        else s.modTile t (fun x => { x with calRun := some { arrays := rest, direct := r.direct } })

/-- CAL_RUN_COMPLETE: the run of the array under calibration ends, once its 46,080 windows have run (R94, R95). A direct run takes
here the windows that it lacks, while the stage clock runs and the footlights are READY (R99); the run of a tile under
rehearsal waits (R99, R491). -/
def execCalRunComplete (tile : Nat) (windows : List CalWindow) (s : State) : Host.Outcome State Fault Refusal :=
  if Config.tiles ≤ tile then .fault .noSuchUnit
  else if s.rehearsing tile then .next s
  else
    match (s.tile tile).calRun with
    | none => .next s
    | some r =>
      if r.direct && (!s.clockRuns || (s.tile tile).fl.state ≠ .ready) then .next s
      else
        let s := if r.direct then windows.foldl (fun s w => s.calWindow tile w) s else s
        .next (s.endCalArray tile)

/-- ARR_INFO_n of the arrays that a seal's placement table leaves unused, on the tiles that serve a position (R71, R298). -/
def State.clearUnused (s : State) (sheet : CueSheet) : State :=
  (Map.keys s.ldr.journal).foldl (fun s k =>
    match s.servedBy (k / 8) with
    | some home =>
      if (sheet.placed home).any (fun p => p.array == k % 8) then s
      else (s.noteShape (k / 8) (k % 8) 0).setReg (tileReg (k / 8) (0x20 + 4 * (k % 8))) 0
    | none => s) s

/-- Step 4 of R307 begins: every placed array is to be programmed. -/
def State.startProgramming (s : State) : State :=
  match s.ldr.sealRun with
  | some r =>
    ({ s with ldr := { s.ldr with
        sealRun := some { r with draining := false, left := arraysOf r.sheet (fun _ => true) } } }.clearUnused r.sheet).proceed
  | none => s

/-- PRODUCTION_SEAL, by R306. With a cue sheet active it is a full recast and drains first; PRM_EPOCH switches at the next
scene change (R307). -/
def execProductionSeal (e : Entry) (s : State) : Host.Outcome State Fault Refusal :=
  runCmd e 0x13 false (fun s =>
    if !s.ldr.bootVerified then done s .busy []
    else if 600000 < e.op 8 4 then done s .invalid []
    else
      match s.ldr.state, s.ldr.current, s.fabric.loaded with
      | .staged, some c, some sheet =>
        if sheet.identity ≠ c.man.identity ∨ sheet.epoch ≠ c.man.epoch then done s .notReady []
        else if s.ldr.recast.isSome || s.ldr.old.isSome then done s .busy []
        else
          match s.sealFail c sheet with
          | some (code, i) => done ((s.orReg 0x000C0804 (code == 1).toNat).setFail code i) .invalid []
          | none =>
            let run : SealRun := { copy := c, sheet := sheet, job := s.mbx.nextJob, drainMs := e.op 8 4,
                                   draining := s.fabric.active.isSome, full := s.fabric.active.isSome, left := [] }
            let s := s.addJob e.ring e.tag .production
            let s := { s with ldr := { s.ldr with state := .sealing, sealRun := some run } }
            if s.fabric.active.isSome then
              later { s with prm := { s.prm with pointerDue := some c.man.epoch } }
            else later s.startProgramming
      | _, _, _ => done s .notReady []) s

/-- DRAIN_TIMEOUT: the drain timeout of a seal expires, and every old-epoch sequence that is not PAUSED is cancelled (R307 step
2, R264). -/
def execDrainTimeout (s : State) : Host.Outcome State Fault Refusal :=
  match s.ldr.sealRun with
  | some r =>
    if r.draining && s.prm.pointerDue.isNone then
      let seqs := Map.mapVals s.prm.seqs (fun _ q =>
        if q.epoch ≠ r.copy.man.epoch ∧ q.state ≠ .paused then
          { q with cancelPend := true, pausePend := false } else q)
      .next ({ s with prm := { s.prm with seqs := seqs } }.orReg 0x000C0804 0x80)
    else .next s
  | none => .next s

/-- DRAIN_COMPLETE: no scene is in flight and no old-epoch sequence remains outside PAUSED; the cue sheet is deactivated and
programming starts (R307 steps 3 and 4). -/
def execDrainComplete (s : State) : Host.Outcome State Fault Refusal :=
  match s.ldr.sealRun with
  | some r =>
    let remains := s.prm.seqs.any (fun e => e.2.epoch != r.copy.man.epoch && e.2.state != .paused)
    if r.draining && s.prm.pointerDue.isNone && s.prm.scenes.isEmpty && !remains then .next s.deactivate.startProgramming
    else .next s
  | none => .next s

/-- Tensor fields that a rolling recast keeps (R308). -/
def sameShape (a b : Tensor) : Bool :=
  a.kind == b.kind && a.layer == b.layer && a.format == b.format && a.expert == b.expert && a.layout == b.layout &&
    a.rowsI == b.rowsI && a.colsO == b.colsO

/-- The first tensor in which two productions differ (R308). -/
def shapeFail (a b : Manifest) : Option Nat :=
  if a.tensors.length ≠ b.tensors.length then some (min a.tensors.length b.tensors.length)
  else ((List.zip (List.range a.tensors.length) (List.zip a.tensors b.tensors)).find? (fun x => !sameShape x.2.1 x.2.2)).map
    (fun x => x.1)

/-- Two cue sheets with one body, whose headers differ only in identity, epoch and digest (R308). -/
def sameBody (a b : CueSheet) : Bool :=
  decide ({ a with identity := b.identity, epoch := b.epoch, digest := b.digest } = b)

/-- The layers that hold arrays, ascending (R309). -/
def arrayLayers (m : Manifest) (sheet : CueSheet) : List Nat :=
  sheet.placements.foldl (fun xs p =>
    match m.tensors[p.tensor]? with
    | some t => insertNat t.recastLayer xs
    | none => xs) []

/-- A production goes into service by a rolling recast: the loader is IDLE again, the keys are erased (R294, R308, R419). -/
def State.acceptRolling (s : State) (c : Copy) (budget : Nat) (r : Recast) (old : Option Copy) : State :=
  { s with
    ldr := { s.ldr with
      state := .idle, current := none, serving := some c.keyless, old := old.map Copy.keyless, recast := some r, budget := budget
      resident := (c.man.identity, c.man.epoch) :: s.ldr.resident.filter (fun x => x ≠ (c.man.identity, c.man.epoch)) } }.record 0x02 c.man.identity

/-- ARR_INFO_n and row sums of the placed arrays that hold contents already, as a production comes into service without a seal after a
boot (R71, R72). -/
def State.refillSums (s : State) (sheet : CueSheet) : State :=
  (Map.keys sheet.images).foldl (fun s home => s.fillSums sheet home (s.servingTile home)) s

/-- RECAST_ROLLING, by R308, in its two forms (R309). A staged production is told BUSY before its cue sheet is looked at, which a
rolling recast keeps from being loaded (R314); a placement in the Tromal layout, which no array could be programmed in, is INVALID
(R323; DEDUCED, log 40). -/
def execRecastRolling (e : Entry) (s : State) : Host.Outcome State Fault Refusal :=
  runCmd e 0x14 false (fun s =>
    if !s.ldr.bootVerified then done s .busy []
    else if 294912 < e.op 8 4 then done s .invalid []
    else if s.ldr.state = .sealing ∨ (s.ldr.state = .staged ∧ (s.recasting || s.ldr.old.isSome)) then done s .busy []
    else
      match s.ldr.state, s.ldr.current, s.fabric.loaded with
      | .staged, some c, some sheet =>
        if sheet.identity ≠ c.man.identity ∨ sheet.epoch ≠ c.man.epoch then done s .invalid []
        else
          let shape := match s.fabric.active, s.ldr.serving with
            | some _, some o => shapeFail o.man c.man
            | _, _ => none
          match shape with
          | some i => done (s.setFail 6 i) .invalid []
          | none =>
            if (s.fabric.active.map (fun a => !sameBody sheet a)).getD false || c.man.tromal ||
                sheet.placements.any (fun p => p.reversed) then done s .invalid []
            else
              let layers := arrayLayers c.man sheet
              match s.fabric.active with
              | some _ =>
                done (s.acceptRolling c (e.op 8 4) { copy := c.keyless, todo := layers } s.ldr.serving) .ok []
              | none =>
                let holds := fun (l : Nat) => (sheet.placements.filter (inLayer c.man l)).all (fun p =>
                  s.holdsEpoch (s.servingTile p.tile) p.array c.man.epoch)
                let r : Recast := { copy := c.keyless, started := true, todo := layers.filter (fun l => !holds l),
                                    finished := layers.filter holds }
                let s := (s.acceptRolling c (e.op 8 4) r none).refillSums sheet
                done ({ s with fabric := { s.fabric with loaded := none } }.activate sheet) .ok []
      | _, _, _ => done s .invalid []) s

/-- RECAST_ABORT of an open production: its frames are freed (R313). Copies in service that are fetched again stay (R319); where
only such copies are, there is no open production. -/
def State.abortOpen (s : State) (c : Copy) : State × Option (Status × List Byte) :=
  match s.ldr.refill.reverse with
  | [] =>
    let s := s.freeCopy c
    done { s with ldr := { s.ldr with state := .idle, current := none } } .ok []
  | (_, true) :: _ => done s .invalid []
  | (x, false) :: rest =>
    let s := s.freeCopy x
    if rest.isEmpty then done { s with ldr := { s.ldr with state := .idle, current := none, refill := [] } } .ok []
    else done { s with ldr := { s.ldr with refill := rest.reverse } } .ok []

/-- The layers that a rolling recast has rewritten or is rewriting, in descending order (R313). -/
def Recast.touched (r : Recast) : List Nat := ((r.current.toList ++ r.finished).foldl (fun xs l => insertNat l xs) []).reverse

/-- The rolling recast that turns `r` back towards the copy `o`; what `r` has not touched holds `o` already (R313). -/
def Recast.turn (r : Recast) (o : Copy) : Recast :=
  { copy := o, back := !r.back, started := false, todo := r.touched, finished := r.todo }

/-- RECAST_ABORT, by R313. A rolling recast turns back where the old copy is held; one that has none to return to is refused
(DESIGN CHOICE, log 42). -/
def execRecastAbort (e : Entry) (s : State) : Host.Outcome State Fault Refusal :=
  runCmd e 0x15 false (fun s =>
    match s.ldr.sealRun, s.ldr.recast, s.ldr.current with
    | some _, _, _ => done s .busy []
    | none, some r, _ =>
      match s.ldr.old with
      | some o =>
        done { s with ldr := { s.ldr with recast := some (r.turn o), serving := some o, old := some r.copy } } .ok []
      | none => done s .invalid []
    | none, none, some c => s.abortOpen c
    | none, none, none => done s .invalid []) s

/-- PRM_EPOCH and the governing cue sheet switch for a rolling recast (R309, R313). -/
def State.switchEpoch (s : State) (r : Recast) : State :=
  let want := r.copy.man.epoch
  let s := { s with prm := { s.prm with epoch := want }, ldr := { s.ldr with recast := some { r with started := true } } }
  let take := fun (c : CueSheet) (s : State) =>
    { s with
      fabric := { s.fabric with active := some c, oldSheet := s.fabric.active }
      boot := { s.boot with sheetDigest := c.digest } }.record 0x01 c.digest
  match s.fabric.active, s.fabric.oldSheet, s.fabric.loaded with
  | some a, some o, _ => if a.epoch ≠ want ∧ o.epoch = want then take o s else s
  | some a, none, some l =>
    if a.epoch ≠ want ∧ l.epoch = want then { take l s with fabric := { (take l s).fabric with loaded := none } } else s
  | _, _, _ => s

/-- Whether an array is valid for a copy's epoch, or holds the contents that the copy gives it and takes the epoch as its layer becomes
NEW (R310, R312). -/
def State.validFor (s : State) (t : Nat) (p : Placement) (c : Copy) : Bool :=
  s.holdsEpoch t p.array c.man.epoch ||
    (c.man.tensors[p.tensor]?).any (fun x => s.holdsContents t p.array (s.newDigest c x p))

/-- Whether every array of the layer that is being rewritten is valid for its new epoch and nothing of it is left (R310). -/
def State.layerDone (s : State) (r : Recast) (layer : Nat) : Bool :=
  match s.fabric.active with
  | none => false
  | some c =>
    r.left.isEmpty && s.ldr.refill.isEmpty && !r.held s &&
      (c.placements.filter (inLayer r.copy.man layer)).all (fun p =>
        let t := s.servingTile p.tile
        s.validFor t p r.copy && (s.tile t).programming != some p.array)

/-- A layer becomes NEW: its unchanged arrays take the epoch in their journals (R312) and its areas the copy's values (R300). -/
def State.layerNew (s : State) (r : Recast) (layer : Nat) : State :=
  match s.fabric.active with
  | none => s
  | some c =>
    (c.placements.filter (inLayer r.copy.man layer)).foldl (fun s p =>
      let t := s.servingTile p.tile
      match r.copy.man.tensors[p.tensor]? with
      | none => s
      | some x =>
        let s := if s.holdsEpoch t p.array r.copy.man.epoch then (s.writeArrInfo t x p).writeRowSums t p.array
          else s.adopt t p r.copy x (((s.gov t p.array).map (fun g => g.digest)).getD 0)
        s.fillArea t r.copy x p) s

/-- The next layer becomes REWRITING, or the recast is complete (R310, R312). -/
def State.nextLayer (s : State) (r : Recast) : State :=
  match r.todo with
  | [] => { s with ldr := { s.ldr with recast := none } }
  | l :: rest =>
    let left := match s.fabric.active with
      | some c => arraysOf c (inLayer r.copy.man l)
      | none => []
    let next : Recast := { r with todo := rest, current := some l, left := left, barrier := s.prm.nextScene }
    { s with ldr := { s.ldr with recast := some next } }

/-- The pointer switches due at a scene change (R265 step 9, R307, R309, R310). -/
def State.pointerSwitch (s : State) : State :=
  let s := match s.prm.pointerDue with
    | some e => { s with prm := { s.prm with epoch := e, pointerDue := none } }.endActivation
    | none => s
  match s.ldr.recast with
  | none => s
  | some r =>
    let s := if r.started then s else s.switchEpoch r
    let r := { r with started := true }
    match r.current with
    | none => s.nextLayer r
    | some l =>
      if s.layerDone r l then (s.layerNew r l).nextLayer { r with current := none, finished := r.finished ++ [l] } else s

/-- The held old copy is freed, and the old cue sheet dropped, once no entry is bound to its epoch (R311). -/
def State.releaseOld (s : State) : State :=
  match s.ldr.old with
  | none => s
  | some o =>
    if s.prm.seqs.any (fun e => e.2.epoch == o.man.epoch) || !s.ldr.refill.isEmpty || (s.ldr.recast.map (fun r => !r.started)).getD false then s
    else
      let s := s.freeCopy o
      { s with
        ldr := { s.ldr with
          old := none, resident := s.ldr.resident.filter (fun x => x ≠ (o.man.identity, o.man.epoch)) }
        fabric := { s.fabric with oldSheet := none } }

/-- Whether the old-copy budget holds admission (R311). -/
def State.budgetHold (s : State) : Bool := (s.ldr.old.map (fun o => decide (s.ldr.budget < o.frames.length))).getD false

/-- Whether a pointer switch is due at the next scene change (R266). -/
def State.pointerPending (s : State) : Bool :=
  s.prm.pointerDue.isSome ||
    (match s.ldr.recast with
     | some r =>
       match r.current with
       | some l => !r.started || s.layerDone r l
       | none => true
     | none => false) ||
    (s.ldr.old.map (fun o => s.ldr.refill.isEmpty && !s.prm.seqs.any (fun e => e.2.epoch == o.man.epoch))).getD false

/-- Service hours, TREND and MARGIN of an array enter its wear record (R325). -/
def State.wearTouch (s : State) (t a : Nat) : State :=
  let w := Map.getD s.ldr.wear (arrayKey t a) {}
  let sums := trendSums (Map.getD (s.tile t).trend a [])
  let trend := if sums.1 = 0 then 0 else rneFrac false sums.2 (1000 * sums.1)
  let margin := (List.range 1040).foldl (fun m c =>
    max m (((bitsOf ((s.tile t).installedTrim (trimKey 0 a c)) 16 10 : Nat) : Int) - 512).natAbs) 0
  let now := s.pwr.hours
  let earlier := w.past.find? (fun p => decide (p.1 + 1000 ≤ now))
  let past := (now, trend, margin) :: (w.past.filter (fun p => decide (now < p.1 + 1000)) ++ earlier.toList)
  let ref := earlier.getD (0, 0, 0)
  let new : WearRecord :=
    { trend := trend, trendRef := ref.2.1, hours := now, margin := margin, marginRef := ref.2.2, past := past }
  { s with ldr := { s.ldr with wear := Map.put s.ldr.wear (arrayKey t a) new } }

/-- An FP32 value of at least 0 in units of 2^-149. -/
def scaled32 (x : Nat) : Nat := if bitsOf x 23 8 = 0 then bitsOf x 0 23 else (2 ^ 23 + bitsOf x 0 23) <<< (bitsOf x 23 8 - 1)

/-- Whether `n` days are no more than the logarithmic term of R326, (1000/24) ln(1e-6/trend) / ln(trend/ref): with both sides raised to
powers, (trend/ref)^(24n) is at most (1e-6/trend)^1000. -/
def trendReaches (trend ref n : Nat) : Bool :=
  decide (scaled32 trend ^ (24 * n) * (1000000 * scaled32 trend) ^ 1000 ≤ scaled32 ref ^ (24 * n) * (2 ^ 149) ^ 1000)

/-- The logarithmic term of R326 in whole days, 0 where the trend is at least 1e-6; a term above 131,071 days, which reads 0xFFFF in
every date, stays at that (log 8). -/
def trendDays (trend ref : Nat) : Nat :=
  (List.range 17).foldr (fun k n => n + (if trendReaches trend ref (n + 2 ^ k) then 2 ^ k else 0)) 0

/-- An array's wear record; one that nothing but a general update has touched holds the service hours alone (R325). -/
def State.wearOf (s : State) (t a : Nat) : WearRecord := Map.getD s.ldr.wear (arrayKey t a) { hours := s.ldr.wearHours }

/-- The lesser of two predictions; `none` is never. -/
def sooner : Option Nat → Option Nat → Option Nat
  | none, b => b
  | a, none => a
  | some a, some b => some (min a b)

/-- Remaining life of an array in whole days (R326, log 8). -/
def State.predictDays (s : State) (t a : Nat) : Option Nat :=
  let w := s.wearOf t a
  let recasts := s.recasts t a
  let byRecasts := if 0 < recasts ∧ 24 ≤ w.hours then some (quot ((10000 - recasts) * w.hours) (24 * recasts)) else none
  let byTrend := if 0 < w.trendRef ∧ order32 w.trendRef < order32 w.trend then some (trendDays w.trend w.trendRef) else none
  let byMargin := if w.marginRef < w.margin then some (quot (1000 * (480 - w.margin)) (24 * (w.margin - w.marginRef))) else none
  sooner byRecasts (sooner byTrend byMargin)

/-- A tile's end of life in days from now, with the array that sets it, over its placed arrays (R326). -/
def State.tileLife (s : State) (t : Nat) : Option (Nat × Nat) :=
  (s.calArrays t).foldl (fun (best : Option (Nat × Nat)) a =>
    match s.predictDays t a, best with
    | some d, some b => if d < b.1 then some (d, a) else best
    | some d, none => some (d, a)
    | none, _ => best) none

/-- A date as a 16-bit field (R326). -/
def dateField (today : Nat) (d : Option Nat) : Nat :=
  match d with
  | some d => if 65534 < today + d then 0xFFFF else today + d
  | none => 0xFFFF

/-- Put a number in its place of a rising list. -/
def insertSorted (x : Nat) : List Nat → List Nat
  | [] => [x]
  | y :: ys => if x ≤ y then x :: y :: ys else y :: insertSorted x ys

/-- The third-earliest of some dates. -/
def thirdOf (xs : List Nat) : Option Nat := (xs.foldl (fun l x => insertSorted x l) [])[2]?

/-- WEAR_UPDATE: wear records, the dates of every tile and of the device, and WEAR_FORECAST (R325 to R327). While the PTP
timebase is unset every date is 0xFFFF and the source is not raised (R347). -/
def execWearUpdate (s : State) : Host.Outcome State Fault Refusal :=
  let set := s.net.ptpSet
  let date := fun (d : Option Nat) => dateField (s.net.ptpNs / (dayUs * 1000)) (if set then d else none)
  let s := { s with ldr := { s.ldr with wearHours := s.pwr.hours } }
  let arrays := (Map.keys s.tiles).foldl (fun xs t => (List.range 8).foldl (fun xs a => insertNat (arrayKey t a) xs) xs)
    (Map.keys s.ldr.journal)
  let s := arrays.foldl (fun s k => s.wearTouch (k / 8) (k % 8)) s
  let tiles := (Map.keys s.ldr.journal).foldl (fun xs k => insertNat (k / 8) xs) []
  let s := tiles.foldl (fun s t =>
    match s.tileLife t with
    | some (d, a) => s.setReg (tileReg t 0x1D4) ((date (some d) <<< 16) + a)
    | none => s.setReg (tileReg t 0x1D4) 0xFFFF0000) s
  let lives := (List.range Config.rows).filterMap (fun r =>
    (thirdOf ((tiles.filter (fun t => rowOf t == r)).filterMap (fun t => (s.tileLife t).map (fun p => p.1)))).map (fun d => (d, r)))
  let first := lives.foldl (fun (best : Option (Nat × Nat)) x =>
    match best with
    | some b => if x.1 < b.1 then some x else best
    | none => some x) none
  match first with
  | some (d, r) =>
    let s := s.setReg 0x000C081C ((date (some d) <<< 16) + (r <<< 8))
    .next (if set && decide (d ≤ s.field 0x000C0810 0 16) then s.raise srcWearForecast 2 r [] else s)
  | none => .next (s.setReg 0x000C081C 0xFFFF0000)

/-- The placement and copy that the array being programmed on a tile takes: the copy of the epoch that its journal names (R317). -/
def State.target (s : State) (t a : Nat) : Option (Placement × Copy) :=
  match s.programSheet, s.positionOf t with
  | some c, some home =>
    match (c.placed home).find? (fun p => p.array == a) with
    | none => none
    | some p =>
      let begun := (s.gov t a).bind (fun g => if g.inProgress then s.copyOf g.epoch else none)
      (if begun.isSome then begun else s.understudyCopy home p).map (fun c => (p, c))
  | _, _ => none

/-- ARRAY_PROGRAMMED: the pulses and the readback of an array are done. It holds the new contents, or is left FAILED with
RECAST_VERIFY_FAIL (R302, R305, R317); its wear record is updated (R325), a run of the tile is due (R304), and the next array starts. -/
def execArrayProgrammed (tile array : Nat) (verified : Bool) (readbacks : List Nat) (s : State) :
    Host.Outcome State Fault Refusal :=
  if Config.tiles ≤ tile || 8 ≤ array then .fault .noSuchUnit
  else if (s.tile tile).programming ≠ some array then .next s
  else
    let s := s.modTile tile (fun x => { x with programming := none })
    match s.target tile array with
    | none => .next s.proceed
    | some (p, c) =>
      let want := ((s.gov tile array).map (fun g => g.digest)).getD 0
      let s := s.tally true
      let s := match c.man.tensors[p.tensor]? with
        | none => s
        | some x =>
          if verified && (readbacks.take 2).any (fun d => d == want) then
            let s := s.journalWrite tile array (fun g => { g with inProgress := false, valid := true })
            let s := (s.fillArray tile c x p).setValid tile array true
            (s.leaveLeft tile array).modTile tile (fun y => { y with runDue := true })
          else s.failArray tile array id
      .next (s.wearTouch tile array).proceed

/-- Whether the readings of an array agree with its journal: the first does, or else the second; none listed agrees (R318). -/
def JournalSlot.agrees (g : JournalSlot) (reads : List Nat) : Bool := reads.isEmpty || (reads.take 2).any (fun d => d == g.digest)

/-- The journal check of one array at boot (R318): its readings, of which a first that differs is followed by a second. -/
def State.verifyArray (s : State) (t a : Nat) (reads : List Nat) : State :=
  match s.gov t a with
  | none => s
  | some g =>
    if g.inProgress then ((s.orReg 0x000C0804 0x40).raise srcJournalIncomplete 1 t [])
    else if g.failed || !g.valid then s
    else if g.agrees reads then s.setValid t a true
    else
      let s := s.journalWrite t a (fun g => { g with valid := false, failed := true })
      (s.orReg 0x000C0804 0x20).raise srcReadback 1 t []

/-- ARR_INFO_n as boot writes it: the format code of the journal with the placed rows and columns of the array's contents; an array
that the last seal left unused reads 0 (R71, log 39). -/
def State.bootInfo (s : State) (t a : Nat) : Nat :=
  match ((s.gov t a).map (fun g => g.format)).getD 0, Map.getD s.ldr.shapes (arrayKey t a) 0 with
  | 0, _ => 0
  | _, 0 => 0
  | format, shape => (format <<< 24) + shape

/-- Whether the arrays that hold a production's epoch pass the journal check, one of them at least (R318, R321). -/
def State.allPass (s : State) (epoch : Nat) : Bool :=
  let mine := (Map.keys s.ldr.journal).filter (fun k => ((s.gov (k / 8) (k % 8)).map (fun g => g.epoch == epoch)).getD false)
  !mine.isEmpty && mine.all (fun k => Nat.testBit (s.tile (k / 8)).valid (k % 8))

/-- BOOT_VERIFY: firmware reads every governing slot, reads the valid arrays back and writes ARR_INFO_n (R71, R318). An array
for which no reading is listed reads back as its journal says. A production that the device knew as sealed is resident again where its
arrays pass (R321). -/
def execBootVerify (digests : Map (List Nat)) (s : State) : Host.Outcome State Fault Refusal :=
  if s.ldr.bootVerified || !s.firmwareRuns then .next s
  else
    let s := (Map.keys s.ldr.journal).foldl (fun s k =>
      let t := k / 8
      let a := k % 8
      let s := s.setReg (tileReg t (0x20 + 4 * a)) (s.bootInfo t a)
      s.verifyArray t a (Map.getD digests k [])) s
    .next { s with ldr := { s.ldr with bootVerified := true, resident := s.ldr.resident.filter (fun r => s.allPass r.2) } }

end Sys2Proof.Machine
end

