-- ==== Sys2Proof/Machine/Integrity.lean ====
section
/-!
DEFINITION. Rehearsal and its rotation (R490 to R494), policies and quiet periods (R481, R485), the watchdog (R415), the ledger as
the host reads it (R417, R499), firmware's copy of the fault state (R489) and the sideband (R402, R403).
-/
namespace Sys2Proof.Machine

/-- Whether the conditions of R490 give BUSY: a rehearsal, a seal, a recast or a step change is in progress. -/
def State.rehearsalBusy (s : State) : Bool := s.integ.rehearsal.isSome || s.recasting || s.pwr.change.isSome

/-- The row's other understudy (R183). -/
def otherUnderstudy (t : Nat) : Nat := rowOf t * Config.cols + (if colOf t = 0 then 65 else 0)

/-- The rows of R490 after the epoch, in order; `none` is "otherwise". -/
def State.rehearsalRefused (s : State) (t : Nat) : Option Status :=
  if s.boot.packVersion = 0 then some .notReady
  else if s.rehearsalBusy then some .busy
  else if isUnderstudy t && !s.understudyFree (otherUnderstudy t) then some .noSpace
  else if !isUnderstudy t && !(s.tile t).router.fenced && (s.chooseUnderstudy t).isNone then some .noSpace
  else none

/-- Step 1 of R491: an unfenced home tile is fenced with COPY, an understudy that serves hands its position over with DISCARD, a
free understudy becomes unavailable. -/
def State.rehearsalFence (s : State) (t : Nat) (job : Option Nat) : State :=
  let plan := fun (home under : Nat) (copy : Bool) =>
    let c : Cutover := { home := home, under := under, restore := false, copy := copy, bypass := (s.tile home).router.faulty,
                         auto := false, prepared := false, job := job, expect := some s.fabric.epoch, mark := some t,
                         rehearse := true }
    { s with fabric := { s.fabric with cutovers := s.fabric.cutovers ++ [c] } }
  if (s.tile t).router.fenced then s
  else if !isUnderstudy t then
    match s.chooseUnderstudy t with
    | some u => plan t u true
    | none => s
  else
    match s.servesAs t with
    | some x => plan x.home (otherUnderstudy t) false
    | none => { s with fabric := { s.fabric with unavailable := insertNat t s.fabric.unavailable } }

/-- A rehearsal of a tile begins (R491, R494, R506). -/
def State.startRehearsal (s : State) (t : Nat) (job : Option Nat) : State :=
  let r : Rehearsal := { tile := t, job := job, trims := (s.tile t).trims, passed := false, pack := s.boot.packVersion }
  (({ s with integ := { s.integ with rehearsal := some r } }).setField 0x00020010 16 14 t).rehearsalFence t job

/-- REHEARSE of a tile, by the first row of R490 that matches. -/
def execRehearse (e : Entry) (s : State) : Host.Outcome State Fault Refusal :=
  if entryWf e && decide (e.op 8 2 = 0xFFFF) then .next s
  else
    runCmd e 0x52 false (fun s =>
      let t := e.op 8 2
      if Config.tiles ≤ t then done s .invalid []
      else if e.op 12 4 ≠ s.fabric.epoch then done s .staleEpoch []
      else
        match s.rehearsalRefused t with
        | some st => done s st []
        | none => later ((s.addJob e.ring e.tag (.rehearse t)).startRehearsal t (some s.mbx.nextJob))) s

/-- REHEARSE with tile 0xFFFF sets the rotation period, or stops the rotation with 0 (R493). Like any command that carries an
epoch other than FAB_FENCE_EPOCH it completes with STALE_EPOCH (R194). -/
def execRehearseRotation (e : Entry) (s : State) : Host.Outcome State Fault Refusal :=
  if entryWf e && decide (e.op 8 2 ≠ 0xFFFF) then .next s
  else
    runCmd e 0x52 false (fun s =>
      if 86400 < e.op 16 4 then done s .invalid []
      else if e.op 12 4 ≠ s.fabric.epoch then done s .staleEpoch []
      else done (s.setReg 0x00020014 (e.op 16 4)) .ok [2]) s

/-- ROTATION_STEP: once per period firmware rehearses the next tile after the last one rotated that R493 does not skip. A step
that would be BUSY waits for the next period. -/
def execRotationStep (s : State) : Host.Outcome State Fault Refusal :=
  if s.reg 0x00020014 = 0 || !s.firmwareRuns || s.integ.fatalStop || s.rehearsalBusy then .next s
  else
    match ((List.range Config.tiles).map (fun i => (s.integ.lastRotated + 1 + i) % Config.tiles)).find? (fun t =>
      !(s.tile t).router.fenced && !has s.fabric.rowFaults (rowOf t) && (s.rehearsalRefused t).isNone) with
    | some t => .next (({ s with integ := { s.integ with lastRotated := t } }).startRehearsal t none)
    | none => .next s

/-- A tile that passed its rehearsal is restored (R492): trims written back, row sums as at seal; a home tile's position returns
at a scene change, an understudy is available again. A router that matched every window is no longer faulty. -/
def State.rehearsalPass (s : State) (r : Rehearsal) : State :=
  let t := r.tile
  let s := s.setField 0x00020018 0 16 (satAdd 0xFFFF (s.field 0x00020018 0 16) 1)
  let s := s.modTile t (fun x => { x with trims := r.trims, router := { x.router with faulty := false } })
  let s := (s.calArrays t).foldl (fun s a => s.writeRowSums t a) s
  if isUnderstudy t then
    let s := (({ s with fabric := { s.fabric with unavailable := without s.fabric.unavailable t } }).fenceTile t false).endRehearsal
    s.finishJobs (fun j => if r.job = some j.id then some (.ok, [0]) else none)
  else
    let c : Cutover := { home := t, under := s.servingTile t, restore := true, copy := true, bypass := false, auto := false,
                         prepared := true, job := r.job, rehearse := true }
    let s := { s with integ := { s.integ with rehearsal := some { r with passed := true } } }
    let s := (s.setField (tileReg t 0x10) 0 1 1).enableFl t
    { s with fabric := { s.fabric with cutovers := s.fabric.cutovers ++ [c] } }.proceed

/-- A tile that failed its rehearsal stays fenced: the source, the record, and the command's completion (R492, R500). -/
def State.rehearsalFail (s : State) (r : Rehearsal) (result first set : Nat) : State :=
  let t := r.tile
  let s := s.setField 0x00020018 16 16 (satAdd 0xFFFF (s.field 0x00020018 16 16) 1)
  let s := ({ s with fabric := { s.fabric with unavailable := without s.fabric.unavailable t } }).fenceTile t true
  let s := (s.setField (tileReg t 0x10) 0 1 0).endRehearsal
  let s := s.ledgerEvent 7 (leBytes 2 t ++ leBytes 1 result ++ leBytes 1 set ++ leBytes 4 r.pack ++ leBytes 4 first)
  let s := s.raise (if result = 1 then srcRehearsalFail else if result = 2 then srcRouterFault else srcReadback) 1 t []
  s.finishJobs (fun j => if r.job = some j.id then some (.ok, [1]) else none)

/-- Whether every array that a tile holds by its journal is read back with its digest (R318, R491 step 4). -/
def State.readsBack (s : State) (t : Nat) (digests : Map (List Nat)) : Bool :=
  (List.range 8).all (fun a =>
    match s.gov t a with
    | some g => g.inProgress || g.failed || !g.valid || g.agrees (Map.getD digests (8 * t + a) [])
    | none => true)

/-- What a rehearsal comes to: the tile scan fails, 1, or a readback, 3, or a window of the router check, 2, in the order of the steps of
R491; 0 is a pass (R506). -/
def State.rehearsalResult (s : State) (t found : Nat) (digests : Map (List Nat)) : Nat :=
  if found ≠ 1 ∧ s.readsBack t digests = false then 3 else found

/-- REHEARSAL_DONE: the scans, readbacks and router windows of a tile have ended, after its fence (R491, R492, R506). What the scan, 1, and the
router check, 2, found comes with the readings of the arrays; a reading that is not listed agrees with the journal. -/
def execRehearsalDone (found first set : Nat) (digests : Map (List Nat)) (s : State) : Host.Outcome State Fault Refusal :=
  match s.integ.rehearsal with
  | none => .next s
  | some r =>
    if r.passed || !s.firmwareRuns || s.fabric.cutovers.any (fun c => c.rehearse) || (s.tile r.tile).inReset ≠ 0 || 3 ≤ found then
      .next s
    else
      let result := s.rehearsalResult r.tile found digests
      let s := s.setField 0x00020010 0 8 result
      .next (if result = 0 then s.rehearsalPass r else s.rehearsalFail r result first set)

/-- Whether a location kind of R488 for a source maps to a block (R485, R486). -/
def blockSource (n : Nat) : Bool :=
  !has [25, 40, 41, 48, 49, 50, 56, 57, 64, 65, 66, 68, 69, 70, 71, 85, 86, 96] n

/-- FAULT_POLICY_SET replaces a source's policy and returns the previous word (R485, R504). The host's entry gives the severity,
mask and quiet period of R396. -/
def execFaultPolicySet (e : Entry) (s : State) : Host.Outcome State Fault Refusal :=
  runCmd e 0x90 false (fun s =>
    let n := e.op 8 2
    let sev := e.op 10 1
    let mask := e.op 11 1
    let quiet := e.op 12 4
    if (Map.get? sourceSeverity n).isNone || 3 < sev || 32 ≤ mask || quiet < 1 || 10000 < quiet ||
        (Nat.testBit mask 2 && !blockSource n) || (has [57, 64, 70, 71] n && sev < 3) ||
        (n == 57 && !Nat.testBit mask 3) then done s .invalid []
    else
      done (s.setReg (0x00021000 + 4 * n) ((sev <<< 30) + (mask <<< 24) + quiet)) .ok (leBytes 4 (s.policy n))) s

/-- FAULT_QUIET: a source's quiet period passes without a raise; it leaves its fault state and its recovery counter increments
(R481). -/
def execFaultQuiet (source : Nat) (s : State) : Host.Outcome State Fault Refusal :=
  if 512 ≤ source then .fault .noSuchUnit
  else if !s.inFault source then .next s
  else
    let o := 0x00021800 + 4 * source
    .next ((s.setField o 31 1 0).setField o 0 16 (satAdd 0xFFFF (s.field o 0 16) 1))

/-- FW_WATCHDOG: firmware does not service the watchdog within 100 ms (R415). -/
def execFwWatchdog (s : State) : Host.Outcome State Fault Refusal :=
  .next (if s.powered && s.boot.fws == .running then s.raise srcFwWatchdog 0 0 s.flight else s)

/-- A journal slot as the ledger holds it (R315). A slot whose CRC does not pass reads with a CRC that fails. -/
def JournalSlot.bytes (g : JournalSlot) : List Byte :=
  let b := leBytes 4 g.seq ++ leBytes 4 g.epoch ++ leBytes 8 g.identity ++ leBytes 8 g.digest ++ leBytes 2 g.recasts ++
    leBytes 1 ((if g.inProgress then 1 else 0) + (if g.valid then 2 else 0) + (if g.tromal then 4 else 0) +
      (if g.failed then 8 else 0)) ++ leBytes 1 g.format
  b ++ leBytes 4 (crc32c b + (if g.crcOk then 0 else 1))

/-- A wear record as the ledger holds it (R325). -/
def WearRecord.bytes (w : WearRecord) : List Byte :=
  withCrc (leBytes 4 w.trend ++ leBytes 4 w.trendRef ++ leBytes 4 w.hours ++ leBytes 2 w.margin ++ leBytes 2 w.marginRef)

/-- The identity record (R417). -/
def State.identityRecord (s : State) : List Byte :=
  leBytes 8 s.boot.fuses.serial ++ leBytes 1 0xB0 ++ leBytes 1 s.boot.fuses.variant ++ s.boot.fuses.idPublic ++
    s.boot.fuses.xPublic ++ List.replicate 5 0 ++ sliceBytes s.boot.fuses.idSignature 0 114 ++
    List.replicate 14 0

/-- The records that LEDGER_READ returns from `first` on, as many whole ones as fit `room` bytes (R499). -/
def State.ledgerRecords (s : State) (kind first room : Nat) : List (List Byte) :=
  match kind with
  | 0 => if 256 ≤ room then [s.identityRecord] else []
  | 1 => (List.range (min (room / 64) (8 * Config.tiles - first))).map (fun i =>
      let p := Map.getD s.ldr.journal (first + i) ({}, {})
      p.1.bytes ++ p.2.bytes)
  | 2 => (List.range (min (room / 20) (8 * Config.tiles - first))).map (fun i =>
      (Map.getD s.ldr.wear (first + i) { hours := s.ldr.wearHours }).bytes)
  | _ => ((s.ledger.records.reverse.filter (fun r => decide (first ≤ r.1))).take (room / 64)).map (fun r => r.2)

/-- LEDGER_READ (R396, R499). -/
def execLedgerRead (e : Entry) (s : State) : Host.Outcome State Fault Refusal :=
  runCmd e 0x81 true (fun s =>
    let kind := e.op 8 1
    let first := e.op 12 4
    if 3 < kind || !bufferOk (e.op 16 8) || ((kind == 1 || kind == 2) && 8 * Config.tiles ≤ first) then done s .invalid []
    else
      let bs := (s.ledgerRecords kind first (e.op 24 4)).flatten
      done (s.dmaWrite e.tag (e.op 16 8) bs) .ok (leBytes 4 bs.length)) s

/-- MGMT_REFRESH: firmware refreshes its copy of the fault state at least every 10 ms (R489). -/
def execMgmtRefresh (s : State) : Host.Outcome State Fault Refusal := .next (if s.firmwareRuns then s.refreshCopy else s)

/-- A temperature in sixteenths of a degree as a whole number of °C; the rounding is open (R403; log 7). -/
def wholeDegrees (v : Int) : Int := v / 16 + (if v % 16 ≠ 0 ∧ Config.roundUp (v + 65536).toNat 16 = true then 1 else 0)

/-- PLDM_SENSOR_REFRESH: the numeric sensors 1 to 16, temperatures in °C and power in watts (R403). -/
def execPldmSensorRefresh (s : State) : Host.Outcome State Fault Refusal :=
  if !s.firmwareRuns then .next s
  else
    let hbm := (List.range 12).map (fun i => (2 + i, wholeDegrees (Map.getD s.pwr.hbmTemps i 0)))
    .next { s with integ := { s.integ with sensors :=
      (1, wholeDegrees (s.zoneReading true)) :: hbm ++
        [(14, wholeDegrees (signedOf 16 (s.field 0x00080034 16 16))), (15, (s.field 0x0008000C 16 16 : Int)), (16, (s.limitInForce : Int))] } }

/-- Thermal state of the worst zone: Normal, Warning, Throttle (R403). -/
def State.thermalState (s : State) : Nat :=
  if s.pwr.dieThrottle || s.pwr.hbmThrottle then 2 else if s.pwr.dieWarn || s.pwr.hbmWarn then 1 else 0

/-- The 7-bit SMBus address: that of the boot configuration, 0x4C where defaults apply (R402, R410). -/
def State.smbusAddress (s : State) : Nat := (s.boot.config.map (fun c => c.smbusAddr)).getD 0x4C

/-- An MCTP control command (R402): Set Endpoint ID, 1, keeps the ID, which is its second data byte, and Get Endpoint ID, 2, returns it
(PRESUMED, log 9). The endpoint ID is the sideband's own address and no state of the device that R402 speaks of. -/
def State.mctpControl (s : State) (code : Nat) (data : List Byte) : State :=
  let s := if code = 1 then { s with integ := { s.integ with endpointId := fieldAt data 1 1 } } else s
  let own := if code ≤ 2 then leBytes 1 s.integ.endpointId else []
  s.send (.smbus (leBytes 1 code ++ leBytes 1 0 ++ own ++ (List.range 14).map (Config.openByte code)))

/-- Unit of a sensor, 2 for °C and 7 for watts by the codes of DSP0248 (PRESUMED, log 9), and the number of states of a state sensor (R403). -/
def pdrOf (id : Nat) : Sent := .pdr id (if id ≤ 14 then 2 else if id ≤ 16 then 7 else 0) (if id = 17 then 4 else if id = 18 then 3 else 0)

/-- SMBUS_MESSAGE: the sideband answers its address while firmware runs, and never changes the device's state (R402, R403). Readings are
answered with their value; the bodies of the other messages are DMTF's and free here (log 9). Requests that the device does
not support, and requests to another address, have no effect. -/
def execSmbusMessage (address : Nat) (request : SmbusRequest) (s : State) : Host.Outcome State Fault Refusal :=
  let body := fun (code : Nat) => Sent.smbus (leBytes 1 code ++ (List.range 16).map (Config.openByte code))
  if !s.firmwareRuns || address ≠ s.smbusAddress then .next s
  else
    match request with
    | .control code data => .next (if has [1, 2, 4, 5] code then s.mctpControl code data else s)
    | .pldmBase code => .next (if has [2, 3, 4, 5] code then s.send (body (0x100 + code)) else s)
    | .pdrInfo => .next (s.send (body 0x250))
    | .getPdr id => .next (if 1 ≤ id ∧ id ≤ 18 then s.send (pdrOf id) else s)
    | .numericSensor id => .next (if 1 ≤ id ∧ id ≤ 16 then s.send (.sensor id (Map.getD s.integ.sensors id 0)) else s)
    | .stateSensor id =>
      .next (if id = 17 then s.send (.sensor 17 s.integ.firmwareCopy)
             else if id = 18 then s.send (.sensor 18 s.thermalState) else s)
    | .other _ => .next s

end Sys2Proof.Machine
end

