-- ==== Sys2Proof/Machine/Prefix.lean ====
section
/-!
DEFINITION. Pages of a sequence: the frames that its next scene reserves (R219, R221, R233 to R235), the lookup of its blocks at
admission and resume (R222, R225, R228), and their registration at a scene change (R224).
-/
namespace Sys2Proof

/-- Page-map slots, as layer, plane and page or ring slot, of pages `lo` to `hi − 1` of the global layers. -/
def Model.globalSlots (m : Model) (lo hi : Nat) : List (Nat × Nat × Nat) :=
  (m.globalLayers.map (fun l => ((List.range 4).map (fun p =>
    ((List.range (hi - lo)).map (fun k => (l, p, lo + k))))).flatten)).flatten

/-- Page-map slots of every ring (R221). -/
def Model.ringSlots (m : Model) : List (Nat × Nat × Nat) :=
  (m.windowLayers.map (fun l => ((List.range 4).map (fun p =>
    ((List.range (m.ringLen l)).map (fun k => (l, p, k))))).flatten)).flatten

/-- Page-map slots that a scene of `n` positions from `pos` on uses (R233). -/
def Model.sceneSlots (m : Model) (pos n : Nat) : List (Nat × Nat × Nat) :=
  let top := min (pos + n - 1) Config.maxPosition
  m.globalSlots (pos / m.pagePos) (top / m.pagePos + 1) ++ m.ringSlots

/-- Pages of a global layer that the block range ending with registrable block `n` covers (R224). -/
def Model.blockPages (m : Model) (n : Nat) : Nat × Nat :=
  let hi := (n + 1) * 4096 / m.pagePos
  ((n + 1 - m.blocksPerPage) * 4096 / m.pagePos, hi)

/-- Page-map slots of an entry's global page set (R223, R224). -/
def Model.entrySlots (m : Model) (n : Nat) : List (Nat × Nat × Nat) :=
  m.globalSlots (m.blockPages n).1 (m.blockPages n).2

/-- Layer, plane and page of an entry's window page set: ⌈W ÷ P⌉ pages of every window layer and plane, the last before the block
end (R224). A page that would lie before position 0 holds no position (DEDUCED, log 69). -/
def Model.windowPages (m : Model) (n : Nat) : List (Nat × Nat × Option Nat) :=
  let last := (n + 1) * 4096 / m.pagePos
  (m.windowLayers.map (fun l =>
    let c := ceilDiv (m.window l) m.pagePos
    ((List.range 4).map (fun p => ((List.range c).map (fun k =>
      (l, p, if c ≤ last + k then some (last + k - c) else none))))).flatten)).flatten

end Sys2Proof

namespace Sys2Proof.Machine

/-- A frame and its annex copied to another (R224, R225, R269). -/
def copyFrame (m : List Host.Cell) (a b : Nat) : List Host.Cell :=
  let m := zeroFrame m b
  m.foldl (fun r e =>
    if frameAddr a ≤ e.1 ∧ e.1 < frameAddr a + Config.frameBytes then memWrite r (e.1 - frameAddr a + frameAddr b) e.2
    else if annexAddr a ≤ e.1 ∧ e.1 < annexAddr a + 8192 then memWrite r (e.1 - annexAddr a + annexAddr b) e.2
    else r) m

/-- Descriptors of a page set whose frames are chained by NEXT (R217). -/
def chained (fs : List Nat) (s : State) : State :=
  (List.zip fs (fs.drop 1)).foldl (fun s p => s.setFrame p.1 { s.frame p.1 with next := p.2 }) s

/-- The page-map slots that are not mapped yet. -/
def State.unmapped (s : State) (e : Nat) (xs : List (Nat × Nat × Nat)) : List (Nat × Nat × Nat) :=
  let m := s.model
  let pm := Map.getD s.kv.pageMaps e []
  xs.filter (fun x => (Map.get? pm (m.mapKey x.1 x.2.1 x.2.2)).isNone)

/-- The descriptor of a sequence's page (R217): a ring page of a window layer, else a private page. -/
def pageDesc (m : Model) (e epoch : Nat) (x : Nat × Nat × Nat) : Frame :=
  let ring := m.window x.1 != 0
  { state := if ring then .ring else .priv, plane := x.2.1, layer := x.1, firstPos := if ring then 0 else x.2.2 * m.pagePos
    owner := e, epoch := epoch }

/-- Map frames to page-map slots of a sequence. -/
def State.mapSlots (s : State) (e : Nat) (xs : List (Nat × Nat × Nat)) (fs : List Nat) : State :=
  let m := s.model
  (List.zip xs fs).foldl (fun s p => s.mapPage e (m.mapKey p.1.1 p.1.2.1 p.1.2.2) p.2) s

/-- A sequence's page map takes its frames at admission (R219); where frames are short, the first scene that reserves for it takes
them (R235). -/
def State.takeMap (s : State) (e : Nat) : State :=
  match s.seq? e with
  | none => s
  | some q =>
    let n := s.model.mapFrames
    if n = 0 || !q.mapFrames.isEmpty then s
    else
      let s := s.roomFor
      if s.canTake n 0 then
        let r := s.takeFrames (List.replicate n { state := .priv, owner := e, epoch := q.epoch })
        (chained r.1 r.2).modSeq e (fun q => { q with mapFrames := r.1 })
      else s

/-- Frames that a sequence lacks: page map and candidate set where it has none, and pages of slots that are not mapped (R233). -/
def State.lacking (s : State) (e : Nat) (slots : List (Nat × Nat × Nat)) : Nat × Nat × List (Nat × Nat × Nat) :=
  let m := s.model
  let q := (s.seq? e).getD {}
  (if q.mapFrames.isEmpty then m.mapFrames else 0, if q.candFrames.isEmpty then m.candFrames else 0, s.unmapped e slots)

/-- Reserve page map and candidate set once, and frames for some page-map slots that are not mapped yet (R233 to R235). Of the
allocations of R234 that may draw on the allocation reserve only a green-room return (`draws`) comes through here. The Bool
says whether all frames were reserved. -/
def State.reserveSlots (s : State) (e : Nat) (slots : List (Nat × Nat × Nat)) (draws : Bool) : Bool × State :=
  let m := s.model
  let q := (s.seq? e).getD {}
  let (maps, cands, pages) := s.lacking e slots
  let need := maps + cands + pages.length
  if need = 0 then (true, s)
  else
    let plain := if draws then 0 else need
    let s := s.roomFor
    if s.canTake plain (need - plain) then
      let own : Frame := { state := .priv, owner := e, epoch := q.epoch }
      let ds := List.replicate maps own ++ List.replicate cands { own with state := .candidate } ++
        pages.map (pageDesc m e q.epoch)
      let r := s.takeFrames ds
      let s := r.2.mapSlots e pages (r.1.drop (maps + cands))
      let s := chained (r.1.take maps) (chained ((r.1.drop maps).take cands) s)
      (true, s.modSeq e (fun q => { q with
        mapFrames := if maps = 0 then q.mapFrames else r.1.take maps
        candFrames := if cands = 0 then q.candFrames else (r.1.drop maps).take cands }))
    else (false, s)

/-- Reserve the frames that the next scene of a sequence needs for `n` positions from `pos` on (R233, R235). -/
def State.reserve (s : State) (e pos n : Nat) : Bool × State := s.reserveSlots e (s.model.sceneSlots pos n) false

/-- Whether the next scene of a sequence needs frames that it does not have (R235). -/
def State.needsFrames (s : State) (e pos n : Nat) : Bool :=
  let l := s.lacking e (s.model.sceneSlots pos n)
  decide (0 < l.1 + l.2.1) || !l.2.2.isEmpty

/-- Root of the hash chain of a sequence's production (R222): under the active cue sheet, or in a rolling recast under the other
production's, which the sequences of its epoch keep (R309). -/
def State.hashRoot (s : State) (epoch : Nat) : Nat :=
  let sheets := [s.fabric.active, s.fabric.oldSheet].filterMap id
  match (sheets.find? (fun c => c.epoch == epoch)) <|> sheets.head? with
  | some c => prefixRoot c.identity epoch c.kvLayout
  | none => 0

/-- The entries of the registrable blocks of a token sequence, in order, up to the first that misses (R225). -/
def State.matched (s : State) (hashes : List (Nat × Nat)) : List (Nat × Nat) × State :=
  let regs := (List.range hashes.length).filter s.model.registrable
  let r := regs.foldl (fun (a : List (Nat × Nat) × Bool × State) n =>
    if a.2.1 then a
    else
      match a.2.2.lookupEntry (hashes.getD n (0, 0)) with
      | (some i, s) => (a.1 ++ [(n, i)], false, s)
      | (none, s) => (a.1, true, s)) ([], false, s)
  (r.1, r.2.2)

/-- The ring frame of a sequence for a page of a window page set, with the page (R221). -/
def State.ringFrame (s : State) (m : Model) (e : Nat) (x : Nat × Nat × Option Nat) : Option (Nat × Nat) :=
  x.2.2.bind (fun k =>
    (Map.get? (Map.getD s.kv.pageMaps e []) (m.mapKey x.1 x.2.1 (k % m.ringLen x.1))).map (fun f => (f, k)))

/-- Copy an entry's window pages into a sequence's ring slots (R225). -/
def State.copyWindow (s : State) (e n : Nat) (frames : List Nat) : State :=
  let m := s.model
  (List.zip (m.windowPages n) frames).foldl (fun s p =>
    match s.ringFrame m e p.1 with
    | none => s
    | some (f, k) =>
      let s := { s with kv := { s.kv with hbm := copyFrame s.kv.hbm p.2 f } }
      s.setFrame f { s.frame f with firstPos := k * m.pagePos, written := m.pagePos, annexCrc := (s.frame p.2).annexCrc }) s

/-- The rings of a sequence reserved for a window copy (R234). -/
def State.reserveRings (s : State) (e : Nat) : Bool × State :=
  let m := s.model
  let q := (s.seq? e).getD {}
  let pages := s.unmapped e m.ringSlots
  let s := s.roomFor
  if s.canTake 0 pages.length then
    let r := s.takeFrames (pages.map (pageDesc m e q.epoch))
    (true, r.2.mapSlots e pages r.1)
  else (false, s)

/-- Take a hit: references, page map, rings and counts (R225, R228, R511). LAST_USE of the entries follows at step 11 of the next scene
change (R265). -/
def State.takeHit (s : State) (e n : Nat) (hits : List (Nat × Nat)) : State :=
  let m := s.model
  let used := hits.filter (fun h => decide (h.1 ≤ n))
  let s := used.foldl (fun s h =>
    let frames := ((Map.get? s.kv.dir h.2).map (fun d => d.globalFrames)).getD []
    (s.modDir h.2 (fun d => { d with refs := d.refs + 1 })).mapSlots e (m.entrySlots h.1) frames) s
  let fresh := used.map (fun (h : Nat × Nat) => (h.2, (Map.getD s.kv.dir h.2 {}).hash))
  let s := { s with kv := { s.kv with hits := s.kv.hits ++ fresh } }
  let window := ((used.getLast?).bind (fun h => (Map.get? s.kv.dir h.2).map (fun d => d.windowFrames))).getD []
  let s := s.copyWindow e n window
  (s.modSeq e (fun q => { q with
    refs := used.map (fun h => h.2), hitDepth := n + 1, kvLen := max q.kvLen ((n + 1) * 4096) })).count 27 (n + 1)

/-- The lookup of R225 over at most `blocks` blocks of a sequence's tokens; HIT_DEPTH and KV_LEN follow (R249). Where frames are
short for the rings of a hit, there is none (DEDUCED, log 44). -/
def State.lookup (s : State) (e blocks : Nat) : State :=
  match s.seq? e with
  | none => s
  | some q =>
    if s.field 0x000A0818 1 1 = 0 then s
    else
      let m := s.model
      let found := s.matched (hashChain (min blocks (q.tokens.length / 4096)) (s.hashRoot q.epoch) q.tokens)
      let hits := found.1
      let s := found.2
      let fit := hits.filter (fun h =>
        decide ((h.1 + 1) * 4096 + 1 ≤ q.tokens.length) &&
          (m.windowLayers.isEmpty || ((Map.get? s.kv.dir h.2).map (fun d => d.window)).getD false))
      match fit.getLast? with
      | none => s
      | some h =>
        if m.windowLayers.isEmpty then s.takeHit e h.1 hits
        else
          -- window pages under copy are not released (R226)
          let kept := s.modDir h.2 (fun d => { d with pins := d.pins + 1 })
          let r := kept.reserveRings e
          let s := r.2.modDir h.2 (fun d => { d with pins := d.pins - 1 })
          let c := s.checkPages (((Map.get? s.kv.dir h.2).map (fun d => d.windowFrames)).getD [])
          if r.1 && c.1 then s.takeHit e h.1 hits else c.2

/-- The window page set of a block that registers, copied from the sequence's rings into fresh pages; none where frames are
short (R224). -/
def State.windowSet (s : State) (e n index epoch : Nat) : Option (List Nat) × State :=
  let m := s.model
  let pages := m.windowPages n
  let c := s.checkPages (pages.filterMap (fun x => (s.ringFrame m e x).map (fun f => f.1)))
  let s := c.2
  if pages.isEmpty || !c.1 then (none, s)
  else
    let s := s.roomFor
    if s.canTake 0 pages.length then
      let r := s.takeFrames (pages.map (fun x =>
        { state := .shared, plane := x.2.1, layer := x.1, firstPos := (x.2.2.getD 0) * m.pagePos
          written := if x.2.2.isSome then m.pagePos else 0, entry := index, epoch := epoch }))
      let s := (List.zip pages r.1).foldl (fun s p =>
        match s.ringFrame m e p.1 with
        | some (f, _) => ({ s with kv := { s.kv with hbm := copyFrame s.kv.hbm f p.2 } }).setFrame p.2
            { s.frame p.2 with annexCrc := (s.frame f).annexCrc }
        | none => s) r.2
      (some r.1, chained r.1 s)
    else (none, s)

/-- Register block `n` of a sequence, with the hashes of its blocks up to n (R224). -/
def State.registerBlock (s : State) (e n : Nat) (hashes : List (Nat × Nat)) : State :=
  let m := s.model
  let q := (s.seq? e).getD {}
  let h := hashes.getD n (0, 0)
  let back := m.blocksPerPage
  if s.field 0x000A0818 0 1 = 0 then s
  else
    let (parent, s) := if n < back then (none, s) else s.lookupEntry (hashes.getD (n - back) (0, 0))
    let (own, s) := s.lookupEntry h
    if (decide (back ≤ n) && parent.isNone) || own.isSome then s
    else
      match insertSlot s.kv.dir 64 (h.1 % 65536) with
      | none => (s.orReg 0x000A080C 0x2).raise srcPrefixFull 0 0 []
      | some i =>
        let frames := (m.entrySlots n).filterMap (fun x =>
          Map.get? (Map.getD s.kv.pageMaps e []) (m.mapKey x.1 x.2.1 x.2.2))
        let s := frames.foldl (fun s f => s.setFrame f { s.frame f with state := .shared, owner := 0xFFFF, entry := i }) s
        let w := (chained frames s).windowSet e n i q.epoch
        let d : DirEntry := { hash := h.1, confirm := h.2, parent := parent.getD 0xFFFFFFFF, depth := n, refs := 1, valid := true
                              window := w.1.isSome, globalFrames := frames, windowFrames := w.1.getD []
                              lastUse := s.prm.scCount + 1 }
        let s := w.2.putDir i d
        let s := match parent with
          | some p => s.modDir p (fun d => { d with children := d.children + 1 })
          | none => s
        (s.modSeq e (fun q => { q with refs := q.refs ++ [i] })).count 28 1

/-- The registrable blocks of a sequence whose last position was committed between two lengths (R224). -/
def State.registerSeq (s : State) (e before after : Nat) : State :=
  match s.seq? e with
  | none => s
  | some q =>
    let m := s.model
    let due := (List.range (after / 4096)).filter (fun n => m.registrable n && decide (before < (n + 1) * 4096))
    if due.isEmpty then s
    else
      let hashes := hashChain (after / 4096) (s.hashRoot q.epoch) q.tokens
      due.foldl (fun s n => s.registerBlock e n hashes) s

/-- The lookup and the frames of a sequence that resumes (R228, R235, R271): page map, candidate set, and every page of the image
that the directory did not give. -/
def State.resumeFrames (s : State) (e : Nat) : Bool × State :=
  match s.seq? e with
  | none => (false, s)
  | some q =>
    let t := (s.setSeq e { q with hitDepth := 0, starved := false }).lookup e q.hitDepth
    match t.reserveSlots e (q.fetched.map (fun p => p.1)) true with
    | (true, t) =>
      let mine := (t.mapped e).filter (fun f => (t.frame f).state ≠ .shared)
      (true, mine.foldl (fun t f => t.setFrame f { t.frame f with state := .inTransit }) t)
    | (false, _) => (false, ((s.setSeq e { q with starved := true }).orReg 0x000A0004 0x10))

end Sys2Proof.Machine
end

