-- ==== Sys2Proof/Machine/Scene.lean ====
section
/-!
DEFINITION. Scenes (R251 to R256, R260): their formation, and the scene change with its eleven steps (R265 to R267).
-/
namespace Sys2Proof.Machine

/-- Lexicographic order of keys. -/
def lexLt : List Nat → List Nat → Bool
  | a :: as, b :: bs => decide (a < b) || (a == b && lexLt as bs)
  | _, _ => false

/-- Put an item in its place by a rising key. -/
def insertBy {α : Type} (key : α → List Nat) (x : α) : List α → List α
  | [] => [x]
  | y :: ys => if lexLt (key x) (key y) then x :: y :: ys else y :: insertBy key x ys

/-- Items by a rising key. -/
def sortBy {α : Type} (key : α → List Nat) (xs : List α) : List α := xs.foldl (fun l x => insertBy key x l) []

/-- Whether admission is held: ADMIT_EN 0, the old-copy budget (R250, R311), or a full recast (R307). -/
def State.admitHeld (s : State) : Bool :=
  s.field 0x000A0008 31 1 == 0 || s.budgetHold ||
    (s.ldr.sealRun.any (fun r => r.full) && s.prm.pointerDue.isNone)

/-- Placement point of a sequence (R251): the end of its last chunk in flight, or KV_LEN. -/
def State.placement (s : State) (e : Nat) (q : Seq) : Nat :=
  (s.prm.scenes.map (fun c => c.members)).flatten.foldl (fun p m =>
    match m.work with
    | .chunk _ stop => if m.entry = e ∧ m.order = q.order then max p stop else p
    | _ => p) q.kvLen

/-- Whether a sequence may enter a new scene (R252, R253, R275). One that is about to end with a FAILED record may not (R236, R237). -/
def State.eligible (s : State) (q : Seq) : Bool :=
  !q.cancelPend && !q.pausePend && q.failStatus == 0 && s.slotFree q.ring

/-- The sequences with decode or verify work, in the order of R253; members of a failed scene come first (R265 step 1). -/
def State.decodeOrder (s : State) : List (Nat × Seq) :=
  sortBy (fun x => [if x.2.front then 0 else 1, x.2.cls, x.2.lastServed, x.1])
    (s.prm.seqs.filter (fun x => x.2.state == .decode && !s.inFlight x.1 && s.eligible x.2))

/-- The sequences with prefill work, in the order of R253. -/
def State.prefillOrder (s : State) : List (Nat × Seq) :=
  sortBy (fun x => [if x.2.front then 0 else 1, x.2.cls, x.2.order])
    (s.prm.seqs.filter (fun x => (x.2.state == .prefill || (x.2.state == .queued && !s.admitHeld)) &&
      decide (s.placement x.1 x.2 < x.2.prefillEnd) && s.eligible x.2))

/-- A scene as it is formed (R253). -/
structure Forming where
  st : State
  chosen : List Member := []
  positions : Nat := 0
  used : Nat := 0

/-- Whether a sequence still waits for frames: it could not reserve some before, and needs new ones (R235). -/
def State.waits (s : State) (e pos n : Nat) : Bool :=
  ((s.seq? e).map (fun q => q.starved)).getD false && s.needsFrames e pos n

/-- Offer a work item that starts at a position: a scene that is full or whose capacity or share it passes leaves it out, and so
does one whose frames cannot be reserved (R252, R253, R235). -/
def Forming.offer (f : Forming) (limit cap share : Nat) (m : Member) (pos : Nat) : Forming :=
  if f.chosen.length = limit ∨ share < f.used + m.nodes ∨ cap < f.positions + m.nodes then f
  else
    match if f.st.waits m.entry pos m.nodes then (false, f.st) else f.st.reserve m.entry pos m.nodes with
    | (true, s) =>
      { st := s.modSeq m.entry (fun q => { q with starved := false }), chosen := f.chosen ++ [m]
        positions := f.positions + m.nodes, used := f.used + m.nodes }
    | (false, s) =>
      { f with st := ((s.modSeq m.entry (fun q => { q with starved := true })).orReg 0x000A0004 0x10).count 29 1 }

/-- The decode or verify item of a sequence (R251, R260). -/
def decodeItem (x : Nat × Seq) : Member :=
  let verify := x.2.cand && decide (1 < x.2.nodes)
  { entry := x.1, work := if verify then .verify else .decode, nodes := x.2.itemNodes.length, order := x.2.order }

/-- The next prefill chunk of a sequence (R251). -/
def State.chunkItem (s : State) (x : Nat × Seq) : Member :=
  let start := s.placement x.1 x.2
  let unit := 64 * s.field 0x000A0008 16 7
  let stop := min x.2.prefillEnd ((start / unit + 1) * unit)
  { entry := x.1, work := .chunk start stop, nodes := stop - start, order := x.2.order }

/-- Whether a sequence still waits for frames that was admitted before one of an order (R235). -/
def State.awaited (s : State) (order : Nat) : Bool :=
  s.prm.seqs.any (fun x => x.2.starved && decide (x.2.order < order) &&
    (x.2.state == .resuming || x.2.state == .queued || x.2.state == .prefill || x.2.state == .decode))

/-- The sequences that wait for frames take theirs in admission order, those that resume among them, each only once every earlier one
has (R235, R271). -/
def State.serveWaiting (s : State) : State :=
  let items := s.decodeOrder.map (fun x => (x.2, x.1, some (x.2.kvLen, (decodeItem x).nodes))) ++
    s.prefillOrder.map (fun x => (x.2, x.1, some (s.placement x.1 x.2, (s.chunkItem x).nodes))) ++
    (s.prm.seqs.filter (fun x => x.2.state == .resuming && x.2.failStatus == 0)).map (fun x => (x.2, x.1, none))
  let waiting := sortBy (fun (x : Seq × Nat × Option (Nat × Nat)) => [x.1.order]) (items.filter (fun x => x.1.starved))
  (waiting.foldl (fun (a : Bool × State) x =>
    if a.1 then a
    else
      match x.2.2 with
      | some w =>
        match a.2.reserve x.2.1 w.1 w.2 with
        | (true, s) => (false, s.modSeq x.2.1 (fun q => { q with starved := false }))
        | (false, s) => (true, s)
      | none =>
        let r := a.2.resumeFrames x.2.1
        (!r.1, r.2)) (false, s)).2

/-- The work items of the next scene, at most `limit` (R253): decode and verify first, then prefill within its share. -/
def State.choose (s : State) (limit cap : Nat) : Forming :=
  let s := s.serveWaiting
  let f := s.decodeOrder.foldl (fun (f : Forming) x => f.offer limit cap cap (decodeItem x) x.2.kvLen) { st := s }
  let share := if f.chosen.isEmpty then cap else cap * s.field 0x000A0008 8 4 / 16
  s.prefillOrder.foldl (fun (f : Forming) x => f.offer limit cap share (s.chunkItem x) (s.placement x.1 x.2)) { f with used := 0 }

/-- The variant of a scene (R254); capacities rise over the variants (R255). -/
def variantFor (vs : List Variant) (positions count : Nat) : Option (Nat × Variant) :=
  (List.zip (List.range vs.length) vs).find? (fun v => decide (positions ≤ v.2.capacity) && decide (count ≤ v.2.seqLimit))

/-- Nodes of the verify items of a scene (R511). -/
def verifyNodes (ms : List Member) : Nat :=
  ms.foldl (fun n m => match m.work with
    | .verify => n + m.nodes
    | _ => n) 0

/-- A scene starts at a counter value with its members (R253, R256, R281, R511). -/
def State.startScene (s : State) (v : Nat × Variant) (start : Nat) (ms : List Member) (positions : Nat) : State :=
  let s := ms.foldl (fun s m => s.modSeq m.entry (fun q =>
    { q with state := if q.state = .queued then .prefill else q.state, front := false })) s
  let c : Scene := { id := s.prm.nextScene, start := start, variant := v.1, members := ms, positions := positions }
  let s := if s.prm.scenes.isEmpty then { s with pwr := { s.pwr with steady := none } } else s
  let s := { s with prm := { s.prm with
      scenes := s.prm.scenes ++ [c], nextScene := s.prm.nextScene + 1, lastStart := some (start, v.2.interval)
      lastVariant := v.1, lastPositions := positions } }
  (((s.count 16 1).count 19 positions).count 20 (v.2.capacity - positions)).count 22 (verifyNodes ms)

/-- Earliest start of the next scene (R256). -/
def State.nextStart (s : State) : Nat :=
  max s.fabric.counter ((s.prm.lastStart.map (fun p => p.1 + p.2)).getD 0)

/-- Whether the prompter may form a scene: a cue sheet serves, fewer than 16 scenes are in flight (R252), and no FATAL stop
(R484), automatic substitution (R190), activation (R170) or direct run (R99) keeps it from starting. -/
def State.mayForm (s : State) : Bool :=
  s.clockRuns && !s.integ.fatalStop && decide (s.prm.scenes.length < 16) && !s.fabric.cutovers.any (fun c => c.auto) &&
    s.fabric.activating.isNone && s.fabric.firstRuns.isEmpty && (s.schedulable || s.nextStart == s.fabric.counter)

/-- The work items that a scene takes. Where they are more than the sequence limit of every variant that holds their positions, R254
leaves the scene without a variant, and the items are chosen again up to the limit of the largest (DESIGN CHOICE, log 111). -/
def State.chooseFor (s : State) (c : CueSheet) (big : Variant) : Forming :=
  let f := s.choose 256 big.capacity
  if (variantFor c.variants f.positions f.chosen.length).isSome then f else s.choose (min 256 big.seqLimit) big.capacity

/-- The sequence of a member, where its entry still holds it. -/
def State.memberSeq (s : State) (m : Member) : Option Seq :=
  match s.seq? m.entry with
  | some q => if q.order = m.order ∧ (q.state = .prefill ∨ q.state = .decode) then some q else none
  | none => none

/-- Step 1 for a member of a failed scene: RETRY increments, or the sequence ends where it would reach 3 (R265, R267). -/
def State.failMember (source : Nat) (s : State) (m : Member) : State :=
  match s.memberSeq m with
  | none => s
  | some q =>
    if 2 ≤ q.retry then s.setSeq m.entry { q with failStatus := (failStatus source).code, exhausted := true, front := true }
    else s.setSeq m.entry { q with retry := q.retry + 1, front := true }

/-- A sequence that is to finish with a FAILED record becomes FINISHING (R236, R237, R264, R265, R271). -/
def Seq.failing (q : Seq) : Seq :=
  if q.failStatus ≠ 0 ∧ q.state ≠ .paused then { q with state := .finishing, cancelReason := 6 } else q

/-- Whether a sequence maps or holds a frame that a block reset lost (R237; its page map and candidate set too, DEDUCED, log 45). -/
def State.usesLost (s : State) (e : Nat) (q : Seq) : Bool :=
  (s.mapped e ++ q.candFrames ++ q.mapFrames).any (has s.kv.lostFrames)

/-- What a scene change does about frames that a block reset lost (R237). -/
def State.settleLost (s : State) : State :=
  if s.kv.lostFrames.isEmpty then s
  else
    let seqs := Map.mapVals s.prm.seqs (fun e q =>
      if s.usesLost e q then { q with failStatus := Status.code .crcFail } else q)
    let s := { s with prm := { s.prm with seqs := seqs } }
    s.evictTree ((s.kv.lostFrames.map s.holders).flatten)

/-- Lost frames return to FREE once the sequences that held them are released, a quarantined one among them (R237). -/
def State.freeLost (s : State) : State :=
  let lost := s.kv.lostFrames
  { s with kv := { s.kv with lostFrames := [], frames := Map.dropKeys s.kv.frames (has lost) } }.count 52 lost.length

/-- Step 1 of R265 with the ends of R236, R237 and R271. -/
def State.stepFailure (s : State) (c : Option Scene) : State :=
  let s := match c with
    | some sc =>
      match sc.failed with
      | some source =>
        let again := sc.members.any (fun m => (s.memberSeq m).any (fun (q : Seq) => decide (q.retry < 2)))
        let s := sc.members.foldl (State.failMember source) s
        if again then s.orReg 0x000A0004 0x2 else s
      | none => s
    | none => s
  let s := s.settleLost
  { s with prm := { s.prm with seqs := Map.mapVals s.prm.seqs (fun _ q => q.failing) } }

/-- Step 2 of R265: a cancel that takes effect governs, whatever step 1 has marked the sequence with. -/
def State.stepCancel (s : State) : State :=
  { s with prm := { s.prm with seqs := Map.mapVals s.prm.seqs (fun e q =>
      if q.cancelPend ∧ !s.inFlight e ∧ q.state ≠ .paused then { q with state := .finishing, cancelReason := 5 } else q) } }

/-- An append takes effect (R273). -/
def Seq.take (q : Seq) (a : Append) : Seq :=
  { q with
    state := .prefill, tokens := q.tokens ++ a.tokens, srcBase := q.tokenLen
    tokenLen := q.tokenLen + a.tokens.length, prefillEnd := q.tokenLen + a.tokens.length, generated := 0
    maxNew := a.maxNew, stops := a.stops, tokenSrc := a.source, srcKey := a.key, srcQp := a.qp }

/-- The pending appends of an IDLE sequence take effect, in the order of their commands (R268, R273). -/
def Seq.appended (q : Seq) : Seq :=
  { (if q.state = .idle then q.append.foldl Seq.take q else q) with append := [] }

/-- The appends that are pending take effect after cancellation (R273; DEDUCED, log 46). -/
def State.stepAppend (s : State) : State :=
  { s with prm := { s.prm with seqs := Map.mapVals s.prm.seqs (fun _ q => q.appended) } }

/-- A sequence that has finished with a reason (R264). -/
def Seq.finished (q : Seq) (reason : Nat) : Seq :=
  { q with state := if q.keep then .idle else .finishing, cancelReason := reason, cand := false, candidates := [] }

/-- The 96-bit token field of a TOKENS record (R274). -/
def packTokens (ds : List Delivered) : Nat :=
  (List.zip (List.range ds.length) ds).foldl (fun v p => v + ((p.2.token % 2 ^ 18) <<< (18 * p.1))) 0

/-- Logits of the speculative heads for a row (R259). -/
def State.headLogits (s : State) (c : Scene) (row : Nat) : List (List Nat) :=
  (List.range s.model.specHeads).map (fun h => s.logitsOf c s.model.vocab row (h + 1))

/-- Deliver tokens to a sequence (R246, R259, R264, R274, R276): logit slots, the TOKENS record, and its end or its next
candidates. -/
def State.deliverTokens (s : State) (e : Nat) (q : Seq) (ds : List Delivered) (reason : Nat) (heads : List (List Nat)) : State :=
  let tokens := q.tokens ++ ds.map (fun d => d.token)
  let q : Seq := { q with
    tokens := tokens, tokenLen := q.kvLen + 1, generated := q.generated + ds.length, state := .decode
    pendingToken := (ds.getLast?.map (fun d => d.token)).getD q.pendingToken }
  let ready := decide (1 < q.nodes) && decide (0 < s.model.specHeads)
  let q' := if reason ≠ 0 then q.finished reason
    else { q with cand := ready, candidates := if ready then proposals q heads else [] }
  let s := ds.foldl (fun s d => s.writeLogits q d) (s.setSeq e q')
  let s := s.seqRecord e 1 .ok ds.length (reason ≠ 0) reason ((ds.head?.map (fun d => d.pos)).getD 0) (leBytes 12 (packTokens ds))
  if reason = 3 then s.orReg 0x000A0004 0x1 else s

/-- Step 3 for a prefill chunk, whose rows of the scene begin with `base` (R251, R264). -/
def State.commitChunk (s : State) (c : Scene) (base e : Nat) (q : Seq) (first stop : Nat) : State :=
  if q.kvLen ≠ first then s
  else
    let s := (s.count 21 (stop - first)).count 23 (stop - first)
    let q := { q with kvLen := stop, retry := 0 }
    if stop < q.prefillEnd then s.setSeq e q
    else if q.maxNew = 0 then
      (s.setSeq e (q.finished 4)).seqRecord e 2 .ok 0 true 4 0 (leBytes 4 q.kvLen ++ leBytes 2 q.hitDepth)
    else
      let last := base + (stop - first - 1)
      let z := s.logitsOf c s.model.vocab last 0
      let r := upToFinish q 0 [{ pos := stop, token := sampleToken q z stop, logits := z }]
      s.deliverTokens e q r.1 r.2 (s.headLogits c last)

/-- Verification of a decode or verify item, whose rows of the scene begin with `base` (R261, R264): the nodes that commit, the tokens
delivered and the reason with which the last one finishes. Nodes beyond the finishing token are not committed. -/
def State.verify (s : State) (c : Scene) (base : Nat) (q : Seq) (kept : List Nat) : List Nat × List Delivered × Nat :=
  let v := verifyFrom q kept (fun node => s.logitsOf c s.model.vocab (base + kept.idxOf node) 0) 33 0
  let r := upToFinish q 0 v.2
  (v.1.take r.1.length, r)

/-- Step 3 for a decode or verify item (R231, R261, R264). -/
def State.commitPath (s : State) (c : Scene) (base e : Nat) (q : Seq) (kept : List Nat) : State :=
  let (path, tokens, reason) := s.verify c base q kept
  let heads := s.headLogits c (base + kept.idxOf (path.getLast?.getD 0))
  let s := (List.zip (List.range path.length) path).foldl (fun s p => s.commitNode e p.2 (q.kvLen + p.1)) s
  let s := s.count 23 path.length
  s.deliverTokens e { q with kvLen := q.kvLen + path.length, retry := 0 } tokens reason heads

/-- The nodes that a member's decode or verify item has computed (R251, R260). -/
def Member.kept (m : Member) (q : Seq) : List Nat := if m.work = .verify then q.keptNodes else [0]

/-- Step 3 of R265 for one member, whose rows of the scene begin with `base`. -/
def State.commitMember (s : State) (c : Scene) (base : Nat) (m : Member) : State :=
  match s.memberSeq m with
  | none => s
  | some q =>
    match m.work with
    | .chunk first stop => s.commitChunk c base m.entry q first stop
    | .decode => s.commitPath c base m.entry q (m.kept q)
    | .verify => s.commitPath c base m.entry q (m.kept q)

/-- The members of a scene in slot order, each with the number of its first row (R253). -/
def State.memberBases (s : State) (c : Scene) : List (Nat × Member) :=
  (c.members.foldl (fun (a : Nat × List (Nat × Member)) m => (a.1 + (s.memberRows m).length, a.2 ++ [(a.1, m)])) (0, [])).2

/-- The first check that fails of what a commit of `n` nodes at a sequence's committed length adds to (R231, R236). -/
def State.commitFault (s : State) (e : Nat) (q : Seq) (n : Nat) : Option (Nat × Nat) :=
  let m := s.model
  (List.range n).findSome? (fun i => (List.range m.layers).findSome? (fun l =>
    (List.range (if m.headDim = 0 then 0 else m.kvWidth / m.headDim)).findSome? (fun h =>
      (List.range 4).findSome? (fun p => s.writeFault e l p h (q.kvLen + i)))))

/-- What a scene is about to commit: a candidate record that fails its CRC is never used, nor is a page that a check fails of added to, and
the scene fails (R231, R236). -/
def State.checkAccepted (s : State) (c : Scene) : State :=
  if c.failed.isSome then s
  else
    let s := match c.puts.findSome? (fun p => s.writeFault p.entry p.layer p.plane p.head p.pos) with
      | some f => s.kvCheckFail f.1 f.2 [c.id]
      | none => s
    (s.memberBases c).foldl (fun s b =>
      match s.memberSeq b.2, b.2.work with
      | _, .chunk _ _ => s
      | none, _ => s
      | some q, _ =>
        let path := (s.verify c b.1 q (b.2.kept q)).1
        match s.badRecord b.2.entry path, s.commitFault b.2.entry q path.length with
        | some f, _ => s.kvCheckFail f 0 [c.id]
        | none, some f => s.kvCheckFail f.1 f.2 [c.id]
        | none, none => s) s

/-- Committed length of a member's sequence, 0 where it has none. -/
def State.committed (s : State) (m : Member) : Nat := ((s.seq? m.entry).map (fun q => q.kvLen)).getD 0

/-- Steps 3 and 4 of R265: a chunk's last positions are in their pages, the members commit in slot order, and blocks register in
ascending entry index (R220, R224). -/
def State.stepCommit (s : State) (c : Scene) : State :=
  let live := c.members.filter (fun m => (s.memberSeq m).isSome)
  let after := (s.memberBases c).foldl (fun s b => s.commitMember c b.1 b.2) (s.writePuts c.puts)
  (sortBy (fun (m : Member) => [m.entry]) live).foldl (fun t m =>
    t.registerSeq m.entry (s.committed m) (after.committed m)) after

/-- Members in slot order, then the other sequences by ascending entry index (R265). -/
def State.changeOrder (s : State) (ms : List Member) : List Nat :=
  ms.map (fun m => m.entry) ++ (Map.keys s.prm.seqs).filter (fun e => !ms.any (fun m => m.entry == e))

/-- Status of a FAILED record from its code (R267). -/
def failCode (n : Nat) : Status := if n = 4 then .crcFail else if n = 0x0C then .encoreExhausted else .timeout

/-- Step 5 of R265 for one entry. PRM_EVENT.FAILED is set where the sequence ends by R267 (R278). -/
def State.releaseFinished (s : State) (e : Nat) : State :=
  match s.seq? e with
  | none => s
  | some q =>
    if q.state ≠ .finishing then s
    else
      let s := s.checkEntries q.refs
      if q.cancelReason = 5 then s.cancelSeq e
      else if q.cancelReason = 6 then
        let s := s.failSeq e (failCode q.failStatus)
        if q.exhausted then s.orReg 0x000A0004 0x4 else s
      else s.releaseSeq e

/-- Header length of a green-room image of Q pages (R269). -/
def imageHeader (pages : Nat) : Nat := ceilDiv (260 + 8 * pages) 4096 * 4096

/-- Length of a green-room image of Q pages (R269). -/
def imageLength (pages : Nat) : Nat := imageHeader pages + 2109440 * pages

/-- Step 6 of R265 for one entry: the copy begins, or the destination is too short (R269). Pages of the sequence alone are IN_TRANSIT
while they are copied (R218, R228). -/
def State.beginPause (s : State) (e : Nat) : State :=
  match s.seq? e with
  | none => s
  | some q =>
    if !q.pausePend || s.inFlight e || !(q.state == .prefill || q.state == .decode || q.state == .idle) then s
    else
      let frames := s.mapped e
      let need := imageLength frames.length
      if q.pauseTo.2.1 < need then
        (s.setSeq e { q with pausePend := false }).seqRecord e 4 .noSpace 0 false 0 0 (leBytes 8 need)
      else
        let s := frames.foldl (fun s f =>
          if (s.frame f).state = .shared then s else s.setFrame f { s.frame f with state := .inTransit }) s
        s.setSeq e { q with pausePend := false, former := q.state, state := .pausing }

/-- Step 10 of R265: the snapshots that were requested for a count, with their commands (R516). -/
def State.stepSnapshot (s : State) (count : Nat) : State :=
  let due := fun (k : JobKind) => k == JobKind.snapshot count
  if s.hasJob due then
    (s.takeSnapshot count).finishJobs (fun j => if due j.kind then some (.ok, leBytes 8 count) else none)
  else s

/-- Step 11 of R265, and what is latched with it (R281, R420, R511). -/
def State.stepCount (s : State) (ms : List Member) : State :=
  let n := s.prm.scCount + 1
  let s := ms.foldl (fun s m =>
    match s.seq? m.entry with
    | some q => if q.order = m.order then s.setSeq m.entry { q with lastServed := n } else s
    | none => s) s
  let s := s.kv.hits.foldl (fun s h => s.modDir h.1 (fun d => if d.hash = h.2 then { d with lastUse := n } else d)) s
  let s := { s with kv := { s.kv with hits := [] } }
  ({ s with prm := { s.prm with scCount := n, settled := s.prm.seqs } }.latchPlaybill).count 17 1

/-- The rest of a step list is not taken once a FATAL stop is set (R484). -/
def State.unlessStopped (s : State) (f : State → State) : State := if s.integ.fatalStop then s else f s

/-- The eleven steps of a scene change (R265); an empty one has no scene (R266). -/
def State.changeSteps (s : State) (c : Option Scene) : State :=
  let ms := (c.map (fun x => x.members)).getD []
  let s := ((s.stepFailure c).stepCancel).stepAppend
  let s := match c.filter (fun x => x.failed.isNone) with
    | some x => s.stepCommit x
    | none => s
  let s := s.unlessStopped (fun s => ((s.changeOrder ms).foldl State.releaseFinished s).freeLost)
  let s := s.unlessStopped (fun s => (s.changeOrder ms).foldl State.beginPause s)
  let s := s.unlessStopped State.cutovers
  let s := s.unlessStopped State.rollCall
  let s := s.unlessStopped (fun s => (s.pointerSwitch).releaseOld)
  let s := s.unlessStopped (fun s => s.stepSnapshot (s.prm.scCount + 1))
  s.unlessStopped (fun s => s.stepCount ms)

/-- What waits for the scenes in flight goes on: an activation (R170), and programming (R310). -/
def State.afterChange (s : State) : State :=
  if s.integ.fatalStop then s
  else
    match s.fabric.activating with
    | some c => if s.prm.scenes.isEmpty then (s.activate c).proceed else s.proceed
    | none => s.proceed

/-- A scene is over in the fabric: its sections, its excess rows and the marks of its tiles go (R26, R119, R122, R162). -/
def State.leaveFabric (s : State) (scene : Nat) : State :=
  let s := { s with fabric := { s.fabric with
      running := s.fabric.running.filter (fun r => r.scene != scene)
      excess := s.fabric.excess.filter (fun e => e.scene != scene) } }
  (s.mapTiles (fun _ x => { x with nanScenes := without x.nanScenes scene, satScenes := without x.satScenes scene })).settleExcess

/-- The oldest scene ends: the accepted nodes are checked, it leaves the fabric, and the eleven steps follow (R236, R265). -/
def State.endScene (s : State) (c : Scene) : State :=
  let s := s.checkAccepted c
  match s.prm.scenes with
  | sc :: rest => ((({ s with prm := { s.prm with scenes := rest } }.leaveFabric sc.id).changeSteps (some sc)).afterChange)
  | [] => s

/-- SCENE_CHANGE of the oldest scene, at or after its end (R256, R265). -/
def execSceneChange (s : State) : Host.Outcome State Fault Refusal :=
  match s.prm.scenes, s.fabric.active with
  | sc :: _, some c =>
    let stop := sc.start + ((c.variants[sc.variant]?).map (fun v => v.length)).getD 0
    let s := s.advanceTo stop
    if s.fabric.counter < stop then .next s
    else
      match s.prm.scenes with
      | sc :: _ => .next (s.endScene sc)
      | [] => .next s
  | _, _ => .next s

/-- Whether something waits for an empty scene change (R266, R237). -/
def State.emptyDue (s : State) : Bool :=
  s.prm.seqs.any (fun x => x.2.cancelPend || x.2.pausePend || !x.2.append.isEmpty || x.2.state == .resuming ||
    x.2.failStatus != 0) ||
  s.fabric.cutovers.any s.cutoverDue || s.pointerPending || !s.kv.lostFrames.isEmpty

/-- EMPTY_SCENE_CHANGE (R266): steps 2 and 4 to 11 without members. -/
def execEmptySceneChange (s : State) : Host.Outcome State Fault Refusal :=
  if !s.prm.scenes.isEmpty || s.integ.fatalStop || !s.emptyDue then .next s
  else .next ((s.changeSteps none).afterChange)

end Sys2Proof.Machine
end

