-- ==== Sys2Proof/Machine/Windows.lean ====
section
/-!
DEFINITION. What host software reads in BAR0 (R382): the registers that report state held elsewhere are composed here from that
state, and every other register is its word. A reserved offset reads zero.
-/
namespace Sys2Proof.Machine

/-- A field of a word from a flag. -/
def flag (b : Bool) (bit : Nat) : Nat := if b then 2 ^ bit else 0

/-- The word whose bits are those numbers below `n` that satisfy a test. -/
def bitSet (n : Nat) (p : Nat → Bool) : Nat := (List.range n).foldl (fun w i => w + flag (p i) i) 0

/-- The HI word that a shadow holds (R112, R280, R373, R463); zero before LO was read. -/
def State.shadow (s : State) (o : Nat) : Nat := ((Map.get? s.shadows o).map (fun w => w.toNat)).getD 0

/-- GLB_ID, GLB_REV and GLB_STATUS (R384). -/
def State.glbRead (s : State) (o : Nat) : Nat :=
  match o with
  | 0x0 => 0xB0121F4C
  | 0x4 =>
    let line := if s.boot.fws == .running then (s.boot.firmware.map (fun f => f.line)).getD 0 else 0
    0xB0000000 + (s.boot.fuses.variant % 256 <<< 16) + (line <<< 8)
  | 0x8 => flag (s.boot.fws == .running) 31 + flag s.mbx.ready 30 + flag s.errAsserted 29
  | _ => 0

/-- A half of FAB_SUBST_r, for the understudy at a physical column (R204). -/
def State.substWord (s : State) (t : Nat) : Nat :=
  match s.servesAs t with
  | none => 0
  | some x => flag true 15 + ((if x.bypass then 2 else 1) <<< 13) + flag x.streamed 12 + ((colOf x.home - 1) <<< 6)

/-- The fabric's global registers (R201, R204). -/
def State.fabRead (s : State) (o : Nat) : Nat :=
  if 0x1000 ≤ o then
    let r := (o - 0x1000) / 4
    (s.substWord (r * Config.cols) <<< 16) + s.substWord (r * Config.cols + 65) + flag (has s.fabric.rowFaults r) 0
  else
    match o with
    | 0x400 =>
      flag s.fabric.active.isSome 31 + flag (s.fabric.loaded.isSome || s.fabric.activating.isSome) 30 + flag s.held 29 +
        (s.tiles.filter (fun e => e.2.router.fenced)).length
    | 0x404 => s.fabric.causes
    | 0x40C => s.fabric.epoch
    | _ => 0

/-- MBX_RING_CFG_r with its ENABLE bit and MBX_RING_STATUS_r (R406). -/
def State.ringRead (s : State) (r off : Nat) : Nat :=
  let g := s.ring r
  if off = 0x18 then s.reg (ringReg r 0x18) % 2 ^ 26 + flag g.enabled 31
  else
    flag g.enabled 31 + flag (g.enabled && !g.waiting.isEmpty && !s.slotOpen r) 30 + flag g.phase 29 +
      (g.sqHead % 4096 <<< 16) + g.cqTail % 4096

/-- FLT_STATUS (R503). -/
def State.fltStatus (s : State) : Nat :=
  let xs := s.faulted
  flag s.integ.fatalStop 31 + flag (xs.any (fun n => s.severity n % 2 == 1)) 30 +
    (xs.foldl (fun m n => max m (s.severity n)) 0 <<< 28) + xs.length

/-- REH_STATUS (R506). -/
def State.rehStatus (s : State) : Nat :=
  let w := s.reg 0x00020010 % 2 ^ 30
  let w := match s.integ.rehearsal with
    | some r => putBits w 16 14 r.tile
    | none => w
  w + flag s.integ.rehearsal.isSome 31 + flag (decide (0 < s.reg 0x00020014)) 30

/-- A counter page: live counters, the snapshot copy and its header, at the offsets of a user page (R517, R520, R521). -/
def State.cntWord (s : State) (snap : Bool) (n : Nat) (hi : Bool) : Nat :=
  counterWord (if snap then Map.getD s.cnt.snap n 0 else s.counter n) hi

/-- Word `i` of the snapshot header (R515, R520). -/
def State.snapHeader (s : State) (i : Nat) : Nat :=
  match i with
  | 0 => s.cnt.snapSc % 2 ^ 32
  | 1 => s.cnt.snapSc / 2 ^ 32
  | 2 => s.cnt.snapTime % 2 ^ 32
  | 3 => s.cnt.snapTime / 2 ^ 32
  | 4 => s.cnt.snapStep <<< 30
  | _ => 0

/-- The groups of which a counter has OVF set (R520). -/
def State.ovfGroups (s : State) : Nat :=
  bitSet 15 (fun g => s.cnt.live.any (fun e => decide (e.1 / 16 = g) && decide (e.2 = counterTop)))

/-- The CNT block below the user pages (R519 to R521); a window's registers are words. -/
def State.cntRead (s : State) (o : Nat) : Nat :=
  if o = 0x40000 then flag s.snapPending 31 + flag s.cnt.snapHeld 30 + s.ovfGroups
  else if 0x40010 ≤ o ∧ o ≤ 0x40020 then s.snapHeader ((o - 0x40010) / 4)
  else if 0x41000 ≤ o ∧ o < 0x41780 then s.cntWord false ((o - 0x41000) / 8) (decide (o % 8 = 4))
  else if 0x42000 ≤ o ∧ o < 0x42780 then s.cntWord true ((o - 0x42000) / 8) (decide (o % 8 = 4))
  else s.reg o

/-- A user page: it reads zero while its mask bit is 0 (R517). -/
def State.userPage (s : State) (g o : Nat) : Nat :=
  if !Nat.testBit (s.reg 0x40008) g then 0
  else if g = 15 then (if o < 0x580 then s.reg (0x44000 + o) else 0)
  else if o < 0x80 then s.cntWord false (16 * g + o / 8) (decide (o % 8 = 4))
  else if 0x800 ≤ o ∧ o < 0x880 then s.cntWord true (16 * g + (o - 0x800) / 8) (decide (o % 8 = 4))
  else if 0xF00 ≤ o ∧ o ≤ 0xF10 then s.snapHeader ((o - 0xF00) / 4)
  else 0

/-- PWR_STATUS (R462). -/
def State.pwrStatus (s : State) : Nat :=
  (s.pwr.step <<< 30) + flag s.pwr.change.isSome 29 + flag (decide (s.throttleLimit < s.pwr.cap)) 28 +
    flag (decide (0 < s.pwr.capDemand)) 27 + flag s.openStep?.isSome 26 + flag s.pwr.coolantOk 25 +
    flag (s.pwr.dieWarn || s.pwr.dieThrottle) 24 + flag (s.pwr.hbmWarn || s.pwr.hbmThrottle) 23 + flag s.pwr.dieThrottle 22 +
    flag s.pwr.hbmThrottle 21 + (s.pwr.bubbles <<< 7) + s.pwr.ceiling

/-- PHASE_POWER_t (R466). -/
def State.phasePower (s : State) (t : Nat) : Nat :=
  let l := Map.getD s.pwr.learned t (0, 0)
  flag (decide (l.2 = 16)) 31 + (l.2 <<< 26) + min 4095 l.1

/-- The PWR registers that report the controller (R461 to R466). -/
def State.pwrRead (s : State) (o : Nat) : Nat :=
  let v := s.pwr
  if 0x80040 ≤ o ∧ o < 0x80080 then s.phasePower ((o - 0x80040) / 4)
  else if 0x80080 ≤ o ∧ o < 0x800D0 then
    (List.range 8).foldl (fun w k => w + (s.rowTrim (8 * ((o - 0x80080) / 4) + k) <<< (4 * k))) 0
  else if 0x80100 ≤ o ∧ o < 0x80140 then s.boot.fuses.voltages.getD ((o - 0x80100) / 4) 0
  else
    match o with
    | 0x80000 => s.pwrStatus
    | 0x80008 => (s.limitInForce <<< 16) + v.cap
    | 0x80010 => v.energy % 2 ^ 32
    | 0x80014 => s.shadow o
    | 0x8001C => v.debt
    | 0x80020 =>
      s.reg o % 65536 + flag v.pllLocked 31 + (((v.change.map (fun c => c.1)).getD 0) <<< 29)
    | 0x80024 =>
      (v.ageColumn <<< 30) + (v.regulator <<< 16) + (if v.regulator = 0 then 0 else s.tableMv v.step v.ageColumn)
    | _ => s.reg o

/-- HKM_STATUS of a half (R467). -/
def State.hkmStatus (s : State) (h : Nat) : Nat :=
  let m := Map.getD s.hkm h {}
  flag (decide (0 < m.injActive)) 31 + flag (decide (0 < m.injPending)) 30 + (m.regIndex <<< 16) + m.passes % 65536

/-- Entries of the sequence table in a state. -/
def State.inState (s : State) (x : SeqState) : Nat := (s.prm.seqs.filter (fun e => e.2.state == x)).length

/-- Prompter, key/value cache and directory registers (R240, R278, R280, R281). -/
def State.prmRead (s : State) (o : Nat) : Nat :=
  if 0xA0100 ≤ o ∧ o < 0xA01A0 then fieldAt s.prm.window (o - 0xA0100) 4
  else
    match o with
    | 0xA0000 => flag s.admitHeld 31 + (s.prm.scenes.length <<< 24) + s.prm.seqs.length
    | 0xA000C => s.prm.epoch
    | 0xA0010 => s.prm.scCount % 2 ^ 32
    | 0xA0014 => s.shadow o
    | 0xA0018 => (s.inState .paused <<< 16) + s.inState .queued
    | 0xA0020 => (s.prm.lastPositions <<< 16) + s.prm.lastVariant
    | 0xA0800 => s.freeCount
    | 0xA0804 => s.reservedCount
    | 0xA0808 => s.quarantineCount
    | 0xA0810 => s.dirUsed
    | 0xA0814 => s.dirPinned
    | _ => s.reg o

/-- The code of a lane's training state (R339, R375). -/
def TrainState.code : TrainState → Nat
  | .off => 0
  | .signalWait => 1
  | .training => 2
  | .locked => 3
  | .failed => 4

/-- Network registers (R371, R373 to R375). -/
def State.netRead (s : State) (o : Nat) : Nat :=
  if 0xB2000 ≤ o then
    let n := (o - 0xB2000) / 0x40
    let x := s.lane n
    if o % 0x40 = 8 then s.reg o % 65536 + (x.train.code <<< 28) + flag x.signal 27 + flag x.precode 26 + (x.snr <<< 16) else s.reg o
  else if 0xB1000 ≤ o then
    let a := s.port (2 * ((o - 0xB1000) / 0x100))
    let b := s.port (2 * ((o - 0xB1000) / 0x100) + 1)
    if o % 0x100 = 4 then
      flag a.up 31 + flag b.up 30 + flag (a.preempt || b.preempt) 29 + flag (decide (0 < a.paused + b.paused)) 28
    else s.reg o
  else
    match o with
    | 0xB0000 =>
      (bitSet 16 (fun p => (s.port p).up) <<< 16) + flag s.net.ptpSet 15 + s.net.qps.length
    | 0xB0020 => s.net.ptpNs % 2 ^ 32
    | 0xB0024 => s.shadow o
    | 0xB002C => 0
    | 0xB0030 => 0
    | _ => s.reg o

/-- The code of a loader state (R330). -/
def LdrState.code : LdrState → Nat
  | .idle => 0
  | .opened => 1
  | .staged => 2
  | .sealing => 3

/-- RCT_STATUS (R331). -/
def State.rctStatus (s : State) : Nat :=
  let mode := match s.ldr.recast with
    | some r => if r.back then 3 else 2
    | none => flag (s.ldr.sealRun.any (fun r => r.full)) 0
  let layer := ((s.ldr.recast.bind (fun r => r.current)).getD 0x3FF)
  let left := match s.ldr.recast, s.ldr.sealRun with
    | some r, _ =>
      if r.held s then r.left.length
      else (s.toProgram.filter (fun x => r.current.any (fun l => inLayer r.copy.man l x.2.1))).length
    | none, some r => if r.draining then r.sheet.placements.length else s.toProgram.length
    | none, none => 0
  (mode <<< 30) + flag s.ldr.old.isSome 29 + flag s.budgetHold 28 + (layer <<< 17) + left

/-- Loader and firmware staging registers (R330 to R332, R429). -/
def State.secRead (s : State) (o : Nat) : Nat :=
  let b := s.boot
  if 0xD8000 ≤ o then leNat (memReadList b.window (o - 0xD8000) 4)
  else
    match o with
    | 0xC0800 =>
      (s.ldr.state.code <<< 28) + flag s.ldr.bootVerified 27 + flag (s.ldr.sealRun.any (fun r => r.draining)) 26 +
        ((s.ldr.current.map (fun c => c.accepted.length)).getD 0)
    | 0xC080C => s.rctStatus
    | 0xC0814 => (s.ldr.old.map (fun c => c.man.epoch)).getD 0
    | 0xC0818 => s.ldr.budget
    | 0xD0000 =>
      let state := match b.fws with
        | .romInit => 0
        | .wait => 1
        | .receiving => 2
        | .verifying => 3
        | .running => 4
      (state <<< 28) + flag b.config.isSome 27 + flag b.fuses.operatorRoot.isSome 26 + (b.pieces.length <<< 8)
    | 0xD0004 => b.length
    | 0xD0008 => flag b.busy 31 + b.pieceIndex
    | _ => s.reg o

/-- The code of a phase's group size (R65). -/
def groupCode (rows : Nat) : Nat :=
  match rows with
  | 16 => 1
  | 8 => 2
  | 64 => 3
  | 128 => 4
  | 256 => 5
  | _ => 0

/-- ARR_STATUS (R65). An idle window of the reserve is a phase window of its MVM too (R34). -/
def State.arrStatus (s : State) (t : Nat) : Nat :=
  let x := s.tile t
  let runs := x.mvm.any (fun m => !m.past s.fabric.counter && !m.dead)
  let fl := match x.fl.state with
    | .off => 0
    | .settling => 1
    | .ready => 2
  (x.valid <<< 24) + flag s.performance 16 + (groupCode x.lastRows <<< 13) +
    flag (runs && x.mvm.any (fun m => m.start.fmt16)) 12 + flag runs 11 + (x.lastArray <<< 8) +
    flag (s.flHeld t) 5 + (fl <<< 3) + flag (runs && x.skipping) 2 + flag (runs && x.mvm.any (fun m => m.tainted)) 1

/-- CAL_STATUS (R111). -/
def Tile.calStatus (x : Tile) : Nat :=
  (x.calDisagree <<< 24) + (x.trimsValid <<< 16) + ((x.calRun.bind (fun r => r.arrays.head?)).getD 0 <<< 9) +
    flag x.calRun.isSome 8 + flag x.calPending 0

/-- ENG_GROUP_n (R151). -/
def AccGroup.word (g : AccGroup) : Nat := flag g.isOpen 31 + flag g.fp 30 + (g.sec <<< 18) + (g.base <<< 8) + g.count

/-- RTR_STATUS (R197). The slot word of an understudy whose station unit runs a program is that program's (R182). -/
def State.rtrStatus (s : State) (t : Nat) : Nat :=
  let r := (s.tile t).router
  let q := if r.stationActive then r.stn else r.seq
  let mode := match r.mode with
    | .normal => 0
    | .relay => 1
    | .bypass => 2
  let serving := match s.servesAs t with
    | some x => ((colOf x.home - 1) <<< 22) + flag true 21 + flag x.streamed 20
    | none => 0
  (mode <<< 30) + flag r.fenced 29 + flag r.stationActive 28 + serving + q.pc % 4096

/-- The register at an offset of a tile's window (R64 to R71, R108 to R116, R148 to R153, R196 to R199, R333, R334). -/
def State.tileRead (s : State) (t off : Nat) : Nat :=
  let x := s.tile t
  if !s.windowOpen t off then 0xFFFFFFFF
  else if 0x148 ≤ off ∧ off < 0x168 then (Map.getD x.groups ((off - 0x148) / 4) {}).word
  else if 0x1C4 ≤ off ∧ off < 0x1D4 then
    let a := 2 * ((off - 0x1C4) / 4)
    s.recasts t a + (s.recasts t (a + 1) <<< 16)
  else
    match off with
    | 0x000 => (rowOf t <<< 16) + (colOf t <<< 8) + flag (isUnderstudy t) 0
    | 0x004 => s.arrStatus t
    | 0x00C => ((if x.fl.state = .settling then x.fl.settle else 0) <<< 20) + min 300000 x.fl.idle
    | 0x108 => x.calStatus
    | 0x114 => s.shadow (tileReg t 0x114)
    | 0x11C => x.installedTrim (trimKey (s.calSelect t).1 (s.calSelect t).2.1 (s.calSelect t).2.2)
    | 0x140 =>
      (bitSet 8 (fun n => (Map.getD x.groups n {}).isOpen) <<< 16) + (bitSet 8 (fun n => (Map.getD x.groups n {}).isOpen && (Map.getD x.groups n {}).fp) <<< 8) +
        flag (Nat.testBit x.active 3 || !x.streams.isEmpty) 3 + flag (Nat.testBit x.active 2) 2 + flag (Nat.testBit x.active 1) 1 + flag s.held 0
    | 0x180 => s.rtrStatus t
    | 0x18C => if isUnderstudy t then 0 else 0x80 + (colOf t - 1)
    | 0x1C0 =>
      let gov := fun n => s.gov t n
      (bitSet 8 (fun n => (gov n).any (fun g => g.inProgress)) <<< 24) + (bitSet 8 (fun n => (gov n).any (fun g => g.failed)) <<< 16) +
        (bitSet 8 (fun n => (gov n).any (fun g => g.tromal)) <<< 8) + flag x.programming.isSome 3 + x.programming.getD 0
    | 0x1D4 => if s.net.ptpSet then s.reg (tileReg t 0x1D4) else 0xFFFF0000 + s.reg (tileReg t 0x1D4) % 8
    | _ => s.reg (tileReg t off)

/-- The tile whose window an offset lies in, if one does (R61). -/
def tileAt (o : Nat) : Option (Nat × Nat) :=
  if 0x01000000 ≤ o ∧ o < 0x01000000 + Config.tiles * 0x400 then some ((o - 0x01000000) / 0x400, o % 0x400) else none

/-- The word at a BAR0 offset that is a multiple of 4 (R9, R381). -/
def State.wordRead (s : State) (o : Nat) : Nat :=
  match tileAt o with
  | some (t, off) => s.tileRead t off % 2 ^ 32
  | none =>
    let w :=
      if o = 0 ∨ o = 4 ∨ o = 8 then s.glbRead o
      else if o = 0x400 ∨ o = 0x404 ∨ o = 0x40C ∨ (0x1000 ≤ o ∧ o < 0x1280) then s.fabRead o
      else if 0x10000 ≤ o ∧ o < 0x10400 ∧ (o % 0x40 = 0x18 ∨ o % 0x40 = 0x24) then s.ringRead ((o - 0x10000) / 0x40) (o % 0x40)
      else if o = 0x20000 then s.fltStatus
      else if o = 0x20010 then s.rehStatus
      else if 0x40000 ≤ o ∧ o < 0x70000 then s.cntRead o
      else if 0x70000 ≤ o ∧ o < 0x80000 then s.userPage ((o - 0x70000) / 0x1000) (o % 0x1000)
      else if 0x80000 ≤ o ∧ o < 0x90000 then s.pwrRead o
      else if o = 0x90004 ∨ o = 0x91004 then s.hkmStatus ((o - 0x90000) / 0x1000)
      else if 0xA0000 ≤ o ∧ o < 0xB0000 then s.prmRead o
      else if 0xB0000 ≤ o ∧ o < 0xC0000 then s.netRead o
      else if 0xC0000 ≤ o ∧ o < 0xE0000 then s.secRead o
      else s.reg o
    w % 2 ^ 32

/-- The word that a host read of a BAR0 offset returns; an unaligned one reads zero (R9, R382). -/
def State.hostRead (s : State) (o : Nat) : Nat := if o % 4 = 0 then s.wordRead o else 0

end Sys2Proof.Machine
end

