-- ==== Sys2Proof/Machine/HostAccess.lean ====
section
/-!
DEFINITION. Accesses of host software that have no row of their own elsewhere: register writes (R9, R10, R382), the reads that
change state (R9, R112, R280, R373, R463), the check-value units' writes (R478, R479), the BAR2 window (R294, R378), and
what the PCIe link brings (R376, R380, R404).
-/
namespace Sys2Proof.Machine

/-- Set what the last read returned. -/
def State.returnData (s : State) (v : Nat) : State := { s with outside := { s.outside with readData := v } }

/-- The live HI word behind a LO register whose read latches it (R112, R280, R373, R463). -/
def State.liveHi (s : State) (o : Nat) : Option Nat :=
  match tileAt o with
  | some (t, 0x110) => if s.windowOpen t 0x110 then some (s.reg (tileReg t 0x114)) else none
  | some _ => none
  | none =>
    match o with
    | 0x80010 => some (s.pwr.energy / 2 ^ 32 % 2 ^ 32)
    | 0xA0010 => some (s.prm.scCount / 2 ^ 32 % 2 ^ 32)
    | 0xB0020 => some (s.net.ptpNs / 2 ^ 32 % 2 ^ 32)
    | _ => none

/-- SHADOW_LO_READ: a read of a LO word returns it and latches HI (R112, R280, R373, R463). Another offset is another
command's. -/
def execShadowLoRead (offset : Nat) (s : State) : Host.Outcome State Fault Refusal :=
  match s.liveHi offset with
  | some hi =>
    .next ({ s with shadows := Map.put s.shadows (offset + 4) (BitVec.ofNat 32 hi) }.returnData (s.hostRead offset))
  | none => .next (s.returnData (s.hostRead offset))

/-- The read-to-clear bits of a register (R9). -/
def rcBits (o : Nat) : Nat := ((regRow? o).map (fun r => r.1.rc)).getD 0

/-- Whether a host access reaches a register: a tile's window may be closed by a block reset (R62). -/
def State.reaches (s : State) (o : Nat) : Bool :=
  match tileAt o with
  | some (t, off) => s.windowOpen t off
  | none => true

/-- A lane whose PATTERN is 1 or 2 has checked the pattern: the symbol errors of its receiver since the last read of LANE_STATUS, which are
free (log 156), add to PRBS_ERRORS, which saturates (R341, R375). -/
def State.countPattern (s : State) (o : Nat) : State :=
  let n := (o - 0xB2000) / 0x40
  let pattern := s.field (laneReg n 0) 28 2
  if 0xB2000 ≤ o ∧ o < 0xB2800 ∧ o % 0x40 = 8 ∧ (pattern = 1 ∨ pattern = 2) then
    (s.setField o 0 16 (satAdd 0xFFFF (s.field o 0 16) (Config.patternErrors n (s.lane n).checks))).modLane n
      (fun x => { x with checks := x.checks + 1 })
  else s

/-- Whether an access of a size reaches BAR0: an aligned 32-bit word, and in the MSI-X table, or by a write in the FWS window, an aligned
64-bit one too (R382, R428). -/
def accessOk (offset size : Nat) (write : Bool) : Bool :=
  let wide := (decide (0x1C000 ≤ offset) && decide (offset < 0x1C400)) || (write && decide (0xD8000 ≤ offset) && decide (offset < 0xE0000))
  (size == 4 && offset % 4 == 0) || (size == 8 && offset % 8 == 0 && wide)

/-- RC_READ: a read returns the word, then clears its read-to-clear fields, as one access (R9). One that is unaligned or of another size
reads zero and has no effect (R382). -/
def execRcRead (offset size : Nat) (s : State) : Host.Outcome State Fault Refusal :=
  if !accessOk offset size false then .next (s.returnData 0)
  else
    let s := s.countPattern offset
    let v := s.hostRead offset + (if size = 8 then s.hostRead (offset + 4) * 2 ^ 32 else 0)
    .next ((if s.reaches offset && decide (rcBits offset ≠ 0) then s.setReg offset (clearBits (s.reg offset) (rcBits offset))
      else s).returnData v)

/-- A register of the check-value units: engine, and its offset in the engine's window (R507). -/
def chkAt (o : Nat) : Option (Nat × Nat) :=
  if 0x30000 ≤ o ∧ o < 0x30600 then some ((o - 0x30000) / 0x40, o % 0x40) else none

/-- CHK_RUN_WRITE: the running CRC or the byte count of a channel is written; every step ends on a transfer boundary, so the
write takes effect at once (R478). Another offset is another command's. -/
def execChkRunWrite (offset : Nat) (value : Word) (s : State) : Host.Outcome State Fault Refusal :=
  match chkAt offset with
  | some (_, off) => .next (if off < 0x34 ∧ (off % 0xC = 8 ∨ (off % 0xC = 0 ∧ 0 < off)) then s.writeReg offset value.toNat else s)
  | none => .next s

/-- CHK_MODE_WRITE: a write of CHK_CTRL; MODE becomes 1 only while no cue sheet is active (R479, R508). -/
def execChkModeWrite (engine : Nat) (value : Word) (s : State) : Host.Outcome State Fault Refusal :=
  if 24 ≤ engine then .fault .noSuchUnit
  else
    let o := chkReg engine 0 0
    let v := value.toNat
    let blocked := s.fabric.active.isSome && Nat.testBit v 31 && !Nat.testBit (s.reg o) 31
    .next (s.writeReg o (if blocked then v % 2 ^ 31 else v))

/-- A NET_CLASS write that gives two classes one PCP is ignored as a whole (R371). -/
def netClassOk (v : Nat) : Bool := ([bitsOf v 29 3, bitsOf v 26 3, bitsOf v 23 3, bitsOf v 20 3] : List Nat).Nodup

/-- Registers whose writes are commands of their own, or need more than a word's bits to change (R386, R389, R391, R414, R430,
R478, R479, R504, R513, R518). -/
def ownRow (o : Nat) : Bool :=
  match tileAt o with
  | some (_, off) => has [0x10, 0x11C] off
  | none =>
    has [0x200, 0xA001C, 0xB0030, 0x14, 0xD0004, 0xD0008, 0x90000, 0x91000, 0x40004, 0xB0014, 0xB0018] o ||
      (decide (0x10000 ≤ o) && decide (o < 0x10400) && has [0x18, 0x1C, 0x20] (o % 0x40)) ||
      (decide (0x44000 ≤ o) && decide (o < 0x44580) && decide (o % 0x40 = 0)) ||
      ((chkAt o).any (fun x => x.2 % 0xC ≠ 4)) ||
      (decide (0xB2000 ≤ o) && decide (o < 0xB2800) && decide (o % 0x40 = 0))

/-- Send the MSI-X messages that wait and are not masked (R379). -/
def State.deliverPending (s : State) : State :=
  (List.range 64).foldl (fun s v =>
    let o := 0x1D000 + 4 * (v / 32)
    if s.maySignal && Nat.testBit (s.reg o) (v % 32) && decide (s.reg (0x1C00C + 0x10 * v) % 2 = 0) then
      { s.setReg o (clearBits (s.reg o) (2 ^ (v % 32))) with outside := { s.outside with msix := v :: s.outside.msix } }
    else s) s

/-- A write of the firmware staging window (R412, R428): dropped while the ROM copies it and once firmware runs (R415). -/
def State.windowWrite (s : State) (o v : Nat) : State :=
  if s.boot.busy || s.boot.fws == .running then s
  else { s with boot := { s.boot with window := memWriteList s.boot.window (o - 0xD8000) (leBytes 4 v) } }

/-- A write of one word of BAR0 (R9, R10, R382): to another register's offset, to a reserved one, or to the FWS block while firmware runs it
changes nothing (R382, R415). -/
def State.writeWord (s : State) (offset v : Nat) : State :=
  if ownRow offset || !s.reaches offset || (decide (offset / 65536 = 0xD) && s.boot.fws == .running) then s
  else if 0xD8000 ≤ offset ∧ offset < 0xE0000 then s.windowWrite offset v
  else if offset = 0xB0008 then (if netClassOk v then s.writeReg offset v else s)
  else if 0x10000 ≤ offset ∧ offset < 0x10400 ∧ offset % 0x40 < 0x18 then
    (if (s.ring ((offset - 0x10000) / 0x40)).enabled then s else s.writeReg offset v)
  else if 0x1C000 ≤ offset ∧ offset < 0x1C400 then (s.writeReg offset v).deliverPending
  else if (chkAt offset).isSome then
    (if kindListed ((offset - 0x30000) / 0x40) (bitsOf v 28 4) then s.writeReg offset v else s)
  else if 0xB2000 ≤ offset ∧ offset < 0xB2800 ∧ offset % 0x40 = 4 then
    (if tapSum v ≤ 64 then s.writeReg offset v else s)
  else s.writeReg offset v

/-- REGISTER_WRITE: a write to a register without a row of its own, of 4 bytes, or of 8 with the upper word in `high` (R382, R428). An
unaligned one, or one of another size, changes nothing. -/
def execRegisterWrite (offset : Nat) (value : Word) (size : Nat) (high : Word) (s : State) : Host.Outcome State Fault Refusal :=
  if !accessOk offset size true then .next s
  else
    let s := s.writeWord offset value.toNat
    .next (if size = 8 then s.writeWord (offset + 4) high.toNat else s)

/-- Whether a frame holds a production copy (R294). -/
def State.inCopy (s : State) (f : Nat) : Bool :=
  let refilled := s.ldr.refill.map (fun x => x.1)
  ([s.ldr.current, s.ldr.serving, s.ldr.old].filterMap id ++ (s.ldr.sealRun.map (fun r => r.copy)).toList ++
    (s.ldr.recast.map (fun r => r.copy)).toList ++ refilled).any (fun c => has c.frames f)

/-- The HBM address of a BAR2 offset: GLB_APERTURE.BASE in units of 256 MiB, its low bits below the BAR2 size taken as zero
(R378, R385). -/
def State.bar2Addr (s : State) (o : Nat) : Nat :=
  let unit := 2 ^ (s.pcie.bar2Log2 - 28)
  s.field 0x10 0 12 / unit * unit * 2 ^ 28 + o

/-- Whether an address lies past HBM or in a frame of a production copy (R294, R378). -/
def State.bar2Blocked (s : State) (a : Nat) : Bool :=
  decide (Config.frames * Config.frameBytes ≤ a) || s.inCopy (a / Config.frameBytes)

/-- First byte of the prefix directory: it follows the 9 MiB of the page frame table (R223, R234; DEDUCED, log 59). -/
def dirBase : Nat := 9437184
/-- First byte after the prefix directory of 4 MiB (R234). -/
def dirEnd : Nat := 13631488

/-- A frame state by its code (R218). -/
def frameStateOf (n : Nat) : Option FrameState :=
  [FrameState.free, .reserved, .priv, .shared, .ring, .candidate, .inTransit, .quarantine][n]?

/-- A page descriptor whose 32 bytes have been written (R217): BAR2 reads them back (R378). One with a code or bits that a descriptor does not
have goes on as it was there, and its DESC_CRC does not hold. -/
def Frame.ofImage (old : Frame) (b : List Byte) : Frame :=
  let f := fun off n => fieldAt b off n
  let x : Frame :=
    { old with
      state := (frameStateOf (f 0 1)).getD old.state, plane := f 1 1, layer := f 2 2, firstPos := f 4 4, owner := f 8 2
      written := f 10 2, next := f 12 4, entry := f 16 4, epoch := f 20 4, annexCrc := f 24 4 }
  if x.bytes = b.take 28 then { x with descCrc := f 28 4, raw := none }
  else { x with descCrc := (crc32c x.bytes + 1) % 2 ^ 32, raw := some b }

/-- A directory entry whose 64 bytes have been written (R223): BAR2 reads them back (R378). One with bits that an entry does not have, or with
page sets that are not its own, goes on as it was there, and its ENTRY_CRC does not hold. -/
def DirEntry.ofImage (old : DirEntry) (b : List Byte) : DirEntry :=
  let f := fun off n => fieldAt b off n
  let x : DirEntry :=
    { old with
      hash := f 0 8, confirm := f 8 8, parent := f 16 4, depth := f 20 4, refs := f 24 4, pins := f 28 2
      valid := bitsOf (f 30 1) 0 1 = 1, tombstone := bitsOf (f 30 1) 1 1 = 1, window := bitsOf (f 30 1) 2 1 = 1
      children := f 48 4, lastUse := f 52 8 }
  if x.bytes = b.take 60 then { x with crc := f 60 4, raw := none }
  else { x with crc := (crc32c x.bytes + 1) % 2 ^ 32, raw := some b }

/-- The descriptor of a frame as its 32 bytes stand in the page frame table (R217, R218). -/
def State.descriptor (s : State) (f : Nat) : List Byte :=
  match Map.get? s.kv.frames f with
  | some x => x.image
  | none => withCrc (s.frame f).bytes

/-- An entry as its 64 bytes stand in the directory; one that was never written is zero (R223). -/
def State.dirImage (s : State) (i : Nat) : List Byte :=
  match Map.get? s.kv.dir i with
  | some d => d.image
  | none => List.replicate 64 0

/-- The sequence and the page-map entry that a byte of a page-map frame belongs to (R219). -/
def State.mapPlace (s : State) (a : Nat) : Option (Nat × Nat) :=
  s.prm.seqs.findSome? (fun e =>
    (e.2.mapFrames.findIdx? (fun f => f == a / Config.frameBytes)).bind (fun k =>
      let i := (k * Config.frameBytes + a % Config.frameBytes) / 4
      if i < s.model.layers * 4 * s.model.mapN then some (e.1, i) else none))

/-- A byte of HBM as BAR2 reads it: the page frame table, the directory and the page maps as the device keeps them, and every other
byte as it was written (R217, R219, R223, R378; DEDUCED, log 59). -/
def State.hbmByte (s : State) (a : Nat) : Byte :=
  if s.kv.laidOut && decide (a < dirBase) then (s.descriptor (a / 32)).getD (a % 32) 0
  else if s.kv.laidOut && decide (a < dirEnd) then (s.dirImage ((a - dirBase) / 64)).getD (a % 64) 0
  else
    match s.mapPlace a with
    | some (e, i) => (leBytes 4 ((Map.get? (Map.getD s.kv.pageMaps e []) i).getD 0xFFFFFFFF)).getD (a % 4) 0
    | none => memRead s.kv.hbm a

/-- A byte of HBM written through BAR2, into a page, an annex, a descriptor or a reserved region too, where the next consumer's check
fails (R236, R378). -/
def State.hbmPut (s : State) (a : Nat) (b : Byte) : State :=
  if s.kv.laidOut && decide (a < dirBase) then
    let f := a / 32
    let x := (s.frame f).ofImage ((s.descriptor f).set (a % 32) b)
    { s with kv := { s.kv with frames := Map.put s.kv.frames f x } }
  else if s.kv.laidOut && decide (a < dirEnd) then
    let i := (a - dirBase) / 64
    let d := (Map.getD s.kv.dir i {}).ofImage ((s.dirImage i).set (a % 64) b)
    { s with kv := { s.kv with dir := Map.put s.kv.dir i d } }
  else
    match s.mapPlace a with
    | some (e, i) =>
      let m := Map.getD s.kv.pageMaps e []
      let v := leNat ((leBytes 4 ((Map.get? m i).getD 0xFFFFFFFF)).set (a % 4) b)
      let m := if v = 0xFFFFFFFF then Map.erase m i else Map.put m i v
      { s with kv := { s.kv with pageMaps := Map.put s.kv.pageMaps e m } }
    | none => { s with kv := { s.kv with hbm := memWrite s.kv.hbm a b } }.uncheck a

/-- One byte written through BAR2, seen by its stack's check-value engine; none where the window blocks it (R378, R480). -/
def State.bar2Put (s : State) (a : Nat) (b : Byte) : State :=
  if s.bar2Blocked a then s
  else (s.snoop (10 + a / Config.frameBytes % 12) [(2, none), (4, some (a / Config.frameBytes))] [b]).hbmPut a b

/-- Bytes written through BAR2 from an address on (R378). -/
def State.bar2Write (s : State) (a : Nat) : List Byte → State
  | [] => s
  | b :: bs => (s.bar2Put a b).bar2Write (a + 1) bs

/-- Bytes read through BAR2 from an address on: all ones where the window blocks them (R378). -/
def State.bar2Read (s : State) (a : Nat) : Nat → State × List Byte
  | 0 => (s, [])
  | n + 1 =>
    let f := a / Config.frameBytes
    let b := s.hbmByte a
    let one := if s.bar2Blocked a then (s, [0xFF]) else (s.snoop (10 + f % 12) [(1, none), (3, some f)] [b], [b])
    let r := one.1.bar2Read (a + 1) n
    (r.1, one.2 ++ r.2)

/-- BAR2_ACCESS: a write of bytes, or a read of `length` bytes, at an offset of the window (R378). An access to a frame of a
production copy sets APERTURE_BLOCKED (R294). Offsets beyond the BAR's size are not its. -/
def execBar2Access (offset : Nat) (write : Option (List Byte)) (length : Nat) (s : State) : Host.Outcome State Fault Refusal :=
  let n := match write with
    | some bs => bs.length
    | none => length
  if 2 ^ s.pcie.bar2Log2 < offset + n then .next s
  else
    let a := s.bar2Addr offset
    let hit := (List.range n).any (fun i => s.inCopy ((a + i) / Config.frameBytes))
    let s := if hit then s.orReg 0x000C0804 0x8 else s
    match write with
    | some bs => .next (s.bar2Write a bs)
    | none =>
      let r := s.bar2Read a length
      .next (r.1.returnData (leNat r.2))

end Sys2Proof.Machine
end

