-- ==== Sys2Proof/Machine/PcieFn.lean ====
section
/-!
DEFINITION. The PCIe function (R376, R377, R379, R380, R404, R411): what configuration space shows, what a write of it does, and the
errors of the link. The layout and the bits of its registers are the PCIe base specification's (PRESUMED, log 157).
-/
namespace Sys2Proof.Machine

/-- An item of configuration space (R376, R377). -/
inductive CfgItem where
  | vendorId | deviceId | revisionId | classCode | bar0 | bar2 | bar4 | bar5 | bar2Sizes | bar2Size
  | msixTable | msixPba | msixEntries | msixEnable | msixMask | noSoftReset | dState | busMaster
  | maxPayloadSupported | maxPayload | maxReadRequest | relaxedOrdering | aspmSupported | aspm | ecrcGenerate | ecrcCheck | aerMask
  deriving DecidableEq, Repr

/-- Largest payload of a request, in bytes: Max_Payload_Size of Device Control, 128 to 512 (R376). -/
def Pcie.maxPayload (p : Pcie) : Nat := 128 * 2 ^ bitsOf p.devControl 5 3
/-- Largest read request, in bytes: Max_Read_Request_Size of Device Control, 128 to 4,096 (R376). -/
def Pcie.maxReadRequest (p : Pcie) : Nat := 128 * 2 ^ bitsOf p.devControl 12 3

/-- Device Control as a write leaves it: a payload or read-request size that R376 does not list keeps the one before, and bit 15, which
starts a function-level reset, is the row FLR's (DESIGN CHOICE, log 157). -/
def Pcie.control (p : Pcie) (v : Nat) : Pcie :=
  let w := v % 32768
  let w := if bitsOf w 5 3 ≤ 2 then w else putBits w 5 3 (bitsOf p.devControl 5 3)
  { p with devControl := if bitsOf w 12 3 ≤ 5 then w else putBits w 12 3 (bitsOf p.devControl 12 3) }

/-- What configuration space shows (R376, R377). BAR0 is 64-bit and not prefetchable, of 64 MiB; BAR2 is 64-bit and prefetchable, and its
size one of 256 MiB to 16 GiB. -/
def State.config (s : State) : CfgItem → Nat
  | .vendorId => 0x1F4C
  | .deviceId => 0xB012
  | .revisionId => 0xB0
  | .classCode => 0x120000
  | .bar0 => s.pcie.bar0 / 2 ^ 26 * 2 ^ 26 + 4
  | .bar2 => s.pcie.bar2 / 2 ^ s.pcie.bar2Log2 * 2 ^ s.pcie.bar2Log2 + 12
  | .bar4 => 0
  | .bar5 => 0
  | .bar2Sizes => ((List.range 7).map (fun k => 2 ^ (28 + k))).sum
  | .bar2Size => 2 ^ s.pcie.bar2Log2
  | .msixTable => 0x1C000
  | .msixPba => 0x1D000
  | .msixEntries => 64
  | .msixEnable => flag s.pcie.msixEnable 0
  | .msixMask => flag s.pcie.msixMask 0
  | .noSoftReset => 1
  | .dState => if s.pcie.d3hot then 3 else 0
  | .busMaster => flag s.pcie.busMaster 0
  | .maxPayloadSupported => 512
  | .maxPayload => s.pcie.maxPayload
  | .maxReadRequest => s.pcie.maxReadRequest
  | .relaxedOrdering => bitsOf s.pcie.devControl 4 1
  | .aspmSupported => 2
  | .aspm => s.pcie.aspm
  | .ecrcGenerate => flag s.pcie.ecrcGenerate 0
  | .ecrcCheck => flag s.pcie.ecrcCheck 0
  | .aerMask => s.pcie.aerMask

/-- Whether the endpoint answers configuration requests: until the GLB and FWS blocks are ready it answers Request Retry Status (R411). They
are once the ROM waits for an image, and where it has stopped with a code in FWS_FAIL (DEDUCED, log 157). -/
def State.configReady (s : State) : Bool := s.powered && (s.boot.fws != .romInit || decide (s.field 0x000D000C 16 8 ≠ 0))

/-- What a write of configuration space changes (R376, R377, R379). ASPM is L1 only; a BAR2 size is one of 256 MiB to 16 GiB. -/
def Pcie.write (p : Pcie) : CfgWrite → Pcie
  | .busMaster on => { p with busMaster := on }
  | .dState d3hot => { p with d3hot := d3hot }
  | .devControl v => p.control v
  | .bar2Size log2 => if 28 ≤ log2 ∧ log2 ≤ 34 then { p with bar2Log2 := log2 } else p
  | .msix enable mask => { p with msixEnable := enable, msixMask := mask }
  | .aspm v => { p with aspm := v % 4 / 2 * 2 }
  | .ecrc generate check => { p with ecrcGenerate := generate, ecrcCheck := check }
  | .aerMask v => { p with aerMask := v % 2 ^ 32 }
  | .bar0 v => { p with bar0 := v % 2 ^ 64 }
  | .bar2 v => { p with bar2 := v % 2 ^ 64 }

/-- What waited for the function goes on, as far as it may issue requests: entries to be fetched, host frames and their descriptors, and
messages (R379, R380). -/
def State.resumeRequests (s : State) : State :=
  let rings := (Map.keys s.mbx.rings).filter (fun r => !(s.ring r).unfetched.isEmpty)
  ((rings.foldl State.fetchEntries s).resumeHostFrames).deliverPending

/-- PCIE_CONFIG_WRITE (R376, R377, R379, R380). A request that the endpoint answers with Request Retry Status has no effect (R411). -/
def execPcieConfigWrite (write : CfgWrite) (s : State) : Host.Outcome State Fault Refusal :=
  if s.configReady then .next { s with pcie := s.pcie.write write }.resumeRequests else .next s

/-- PCIE_LINK_ERROR: an uncorrectable error of AER, by its bit in the uncorrectable error registers, raises PCIE_UNCORRECTABLE (R404), but one
that is masked, and an ECRC error, bit 19, where ECRC checking is not enabled (R376; PRESUMED, log 157). -/
def execPcieLinkError (bit : Nat) (s : State) : Host.Outcome State Fault Refusal :=
  if Nat.testBit s.pcie.aerMask bit || (bit == 19 && !s.pcie.ecrcCheck) then .next s
  else .next (s.raise srcPcieUncorrectable 0 0 [])

end Sys2Proof.Machine
end

