-- ==== Sys2Proof/Machine/Prompter.lean ====
section
/-!
DEFINITION. Admission (R248 to R250, R398), the lifecycle commands (R268, R272, R273), the green room (R269 to R271) and the
latch of the sequence window (R281).
-/
namespace Sys2Proof.Machine

/-- Token IDs as the device reads them from a buffer of `n` (R245). -/
def readTokens (n : Nat) (ts : List Nat) : List Nat :=
  let r := (ts.take n).map (· % 2 ^ 32)
  r ++ List.replicate (n - r.length) 0

/-- A stop token is unused or below the vocabulary (R248). -/
def stopOk (m : Model) (t : Nat) : Bool := t == 0xFFFFFFFF || decide (t < m.vocab)

/-- Whether a buffer named in a record or an entry is one that R395 allows. -/
def sourceOk (addr qp : Nat) : Bool := if qp = 0xFFFF then bufferOk addr else decide (qp < 4096)

/-- The operand checks of SEQ_ADMIT over its record (R244, R248, R258, R398). -/
def admitOk (m : Model) (b : List Byte) : Bool :=
  let f := fun off n => fieldAt b off n
  let tree := (List.range 31).map (fun i => f (60 + i) 1)
  decide (1 ≤ f 16 4) && decide (f 16 4 ≤ 4194304) && decide (f 20 4 ≤ 4194304) && temperatureOk (f 32 2) && topPOk (f 34 2) &&
    decide (f 36 2 ≤ 4096) && decide (1 ≤ f 38 1) && decide (f 38 1 ≤ 32) && decide (f 39 1 ≤ 12) &&
    decide (bitsOf (f 14 1) 3 2 ≠ 3) && decide (bitsOf (f 14 1) 5 3 = 0) && decide (bitsOf (f 15 1) 4 4 = 0) &&
    decide (leNat (sliceBytes b 91 33) = 0) && stopOk m (f 40 4) && stopOk m (f 44 4) && stopOk m (f 48 4) &&
    sourceOk (f 0 8) (f 12 2) && (bitsOf (f 14 1) 3 2 == 0 || bufferOk (f 52 8)) && treeOk tree (f 38 1) m.specHeads

/-- The entry that an admission makes (R244, R246, R249, R398). -/
def admitted (b : List Byte) (tag epoch order : Nat) (tokens : List Nat) : Seq :=
  let f := fun off n => fieldAt b off n
  { state := .queued, cls := bitsOf (f 14 1) 0 2, keep := Nat.testBit (f 14 1) 2, logits := bitsOf (f 14 1) 3 2
    ring := bitsOf (f 15 1) 0 4, nodes := f 38 1, tag := tag, seed := f 24 8, epoch := epoch, tokenLen := f 16 4
    prefillEnd := f 16 4, maxNew := f 20 4, temperature := f 32 2, topP := f 34 2, topK := f 36 2
    stops := [f 40 4, f 44 4, f 48 4], tree := (List.range 31).map (fun i => f (60 + i) 1), logitSlots := f 39 1
    logitBuf := f 52 8, tokenSrc := f 0 8, srcKey := f 8 4, srcQp := f 12 2, order := order, tokens := readTokens (f 16 4) tokens }

/-- The page count Q of an image (R269). -/
def imagePageCount (im : Image) : Nat := fieldAt im.header 8 4

/-- Layer, plane and page or ring slot of the pages of an image (R269). -/
def imagePages (im : Image) : List (Nat × Nat × Nat) :=
  (List.range (imagePageCount im)).map (fun q =>
    (fieldAt im.header (256 + 8 * q) 2, fieldAt im.header (258 + 8 * q) 1, fieldAt im.header (260 + 8 * q) 4))

/-- An admission takes an entry, bound to PRM_EPOCH, with the prefix lookup of R225 (R244, R248, R249). -/
def State.enterSeq (s : State) (i tag : Nat) (b : List Byte) (tokens : List Nat) : State :=
  let q := admitted b tag s.prm.epoch (s.prm.order + 1) tokens
  let s := { s with prm := { s.prm with order := s.prm.order + 1 } }.setSeq i q
  ((s.takeMap i).lookup i (q.tokens.length / 4096)).count 25 1

/-- The pages of an image with their records; a byte that the image does not hold reads as zero (log 5). -/
def imageRecords (im : Image) : List ((Nat × Nat × Nat) × List Byte) :=
  (List.range (imagePageCount im)).map (fun q => ((imagePages im).getD q (0, 0, 0), im.records.getD q []))

/-- A sequence begins to resume from an image (R271); its frames wait for those of sequences admitted before it (R235). -/
def State.beginResume (s : State) (e : Nat) (q : Seq) (im : Image) : State :=
  let s := s.setSeq e { q with state := .resuming, deadline := 0, fetched := imageRecords im }
  if s.awaited q.order then (s.modSeq e (fun q => { q with starved := true })).orReg 0x000A0004 0x10
  else (s.resumeFrames e).2

/-- A sequence resumes, into a fresh entry with a completion ring of its own, or in the entry that was PAUSED (R271). -/
def State.resumeSeq (s : State) (i : Nat) (ring : Option Nat) (im : Image) : State :=
  match ring, s.seq? i with
  | some r, _ =>
    let q := seqOfImage (sliceBytes im.header 96 160)
    let order := s.prm.order + 1
    let q := { q with former := q.state, ring := r, order := order, tokens := im.tokens }
    { s with prm := { s.prm with order := order } }.beginResume i q im
  | none, some q => s.beginResume i q im
  | none, none => s

/-- An entry that a sequence still holds is freed for the one that comes into it. -/
def State.vacate (s : State) (i : Nat) : State := if (s.seq? i).isSome then s.releaseSeq i else s

/-- What an accepted sequence command does (R249, R268, R269, R271, R272, R273). -/
def State.carryOut (s : State) : Relay → State
  | .enter i tag b tokens => (s.vacate i).enterSeq i tag b tokens
  | .append i a => s.modSeq i (fun q => { q with append := q.append ++ [a] })
  | .cancel i => s.modSeq i (fun q => { q with cancelPend := true, pausePend := false })
  | .pause i dest key => s.modSeq i (fun q => { q with pausePend := true, pauseTo := dest, pauseKey := key })
  | .resume i ring im => (if ring.isSome then s.vacate i else s).resumeSeq i ring im
  | .evict i => s.vacate i

/-- A sequence command is accepted: it has its effect, and member 0 of a group carries that to the others in its next SCENE step (R358). -/
def State.accept (s : State) (r : Relay) : State :=
  let s := s.carryOut r
  if s.ownIndex = some 0 then { s with net := { s.net with relays := s.net.relays ++ [r] } } else s

/-- A command whose tokens are read from a buffer named in a record or an entry (R245, R395). -/
def withTokens (qp addr rkey n : Nat) (tokens : List Nat) (s : State) (k : State → State × Option (Status × List Byte)) :
    State × Option (Status × List Byte) :=
  if qp = 0xFFFF then k s else withBuffer qp addr rkey (4 * n) (some tokens) s (fun s _ => k s)

/-- SEQ_ADMIT (R248, R249): the lowest FREE entry. -/
def execSeqAdmit (e : Entry) (rec : Dma) (tokens : List Nat) (s : State) : Host.Outcome State Fault Refusal :=
  runCmd e 0x30 true (fun s =>
    if s.follower then done s .invalid []
    else if s.fabric.active.isNone then done s .notReady []
    else if !bufferOk (e.op 8 8) then done s .invalid []
    else
      withDma rec s (fun r =>
        let b := sliceBytes r 0 128
        let s := s.dmaRead e.tag b
        if fieldAt b 124 4 ≠ crc32c (b.take 124) then done s .crcFail []
        else if !admitOk s.model b then done s .invalid []
        else
          match s.freeEntry with
          | none => done s .noSpace []
          | some i =>
            withTokens (fieldAt b 12 2) (fieldAt b 0 8) (fieldAt b 8 4) (fieldAt b 16 4) tokens s (fun s =>
              done (s.accept (.enter i e.tag b tokens)) .ok (leBytes 2 i)))) s

/-- A command on a sequence: at a follower it is INVALID (R358), and so is one whose index is FREE or whose TAG differs (R268). -/
def seqCommand (e : Entry) (s : State) (k : Seq → State × Option (Status × List Byte)) : State × Option (Status × List Byte) :=
  if s.follower then done s .invalid []
  else
    match s.seq? e.seqIndex with
    | some q => if q.tag = e.seqTag then k q else done s .invalid []
    | none => done s .invalid []

/-- SEQ_CANCEL (R268). -/
def execSeqCancel (e : Entry) (s : State) : Host.Outcome State Fault Refusal :=
  runCmd e 0x32 false (fun s => seqCommand e s (fun q =>
    match q.state with
    | .queued | .prefill | .decode | .idle => done (s.accept (.cancel e.seqIndex)) .ok []
    | .pausing | .resuming => done s .busy []
    | .paused | .finishing => done s .invalid [])) s

/-- SEQ_PAUSE (R268, R269, R347, R396). -/
def execSeqPause (e : Entry) (s : State) : Host.Outcome State Fault Refusal :=
  runCmd e 0x33 false (fun s => seqCommand e s (fun q =>
    match q.state with
    | .queued => done s (if q.cancelPend || q.pausePend then .busy else .invalid) []
    | .prefill | .decode | .idle =>
      let ttl := e.op 40 4
      if q.cancelPend || q.pausePend then done s .busy []
      else if ttl = 0 || 86400 < ttl || !sourceOk (e.op 16 8) (e.op 28 2) then done s .invalid []
      else if !s.net.ptpSet then done s .notReady []
      else done (s.accept (.pause e.seqIndex (e.op 16 8, e.op 32 8, e.op 28 2, ttl) (e.op 24 4))) .ok []
    | .pausing | .resuming => done s .busy []
    | .paused | .finishing => done s .invalid [])) s

/-- SEQ_EVICT (R268, R272): the EVICTED record, and the entry is FREE. -/
def execSeqEvict (e : Entry) (s : State) : Host.Outcome State Fault Refusal :=
  runCmd e 0x35 false (fun s => seqCommand e s (fun q =>
    match q.state with
    | .paused =>
      let i := e.seqIndex
      -- the command completes before the record it causes (R393)
      later (((s.complete e .ok []).seqRecord i 7 .ok 0 true 0 0 []).accept (.evict i))
    | .pausing | .resuming => done s .busy []
    | .queued | .prefill | .decode | .idle | .finishing => done s .invalid [])) s

/-- SEQ_APPEND (R268, R273): the tokens take effect at the next scene change, after those of an append that is pending already. -/
def execSeqAppend (e : Entry) (tokens : List Nat) (s : State) : Host.Outcome State Fault Refusal :=
  runCmd e 0x31 false (fun s => seqCommand e s (fun q =>
    match q.state with
    | .idle =>
      let n := e.op 32 4
      let stops := [e.op 40 4, e.op 44 4, e.op 48 4]
      let known := q.append.foldl (fun k a => k + a.tokens.length) q.tokenLen
      if n = 0 || 4194305 < known + n || 4194304 < e.op 36 4 || !stops.all (stopOk s.model) ||
          !sourceOk (e.op 16 8) (e.op 28 2) then done s .invalid []
      else
        let a : Append :=
          { tokens := readTokens n tokens, maxNew := e.op 36 4, stops := stops, source := e.op 16 8, qp := e.op 28 2, key := e.op 24 4 }
        withTokens (e.op 28 2) (e.op 16 8) (e.op 24 4) n tokens s (fun s => done (s.accept (.append e.seqIndex a)) .ok [])
    | .queued | .prefill | .decode | .pausing | .resuming => done s .busy []
    | .paused | .finishing => done s .invalid [])) s

/-- A page record of a green-room image (R269). -/
def State.pageRecord (s : State) (f : Nat) : List Byte :=
  memReadList s.kv.hbm (frameAddr f) Config.frameBytes ++ memReadList s.kv.hbm (annexAddr f) 8192 ++ (s.frame f).image ++
    List.replicate 4064 0

/-- Layer, plane and page or ring slot of a page-map entry number (R219). -/
def slotOf (m : Model) (key : Nat) : Nat × Nat × Nat := (key / m.mapN / 4, key / m.mapN % 4, key % m.mapN)

/-- The green-room image of a sequence whose entry is `q` (R269), with the identities of the cue sheet of its epoch (R309); STATE is the one before the pause (DEDUCED, log 47). -/
def State.greenRoom (s : State) (e : Nat) (q : Seq) : List Byte :=
  let m := s.model
  let pages := Map.getD s.kv.pageMaps e []
  let sheet := ([s.fabric.active, s.fabric.oldSheet].filterMap id).find? (fun c => decide (c.epoch = q.epoch))
  let list := (pages.map (fun p =>
    let x := slotOf m p.1
    let flags := (if (s.frame p.2).state = .shared then 1 else 0) + (if m.window x.1 = 0 then 0 else 2)
    leBytes 2 x.1 ++ leBytes 1 x.2.1 ++ leBytes 1 flags ++ leBytes 4 x.2.2)).flatten
  let head := [0x46, 0x51, 0x47, 0x52] ++ leBytes 4 (imageHeader pages.length) ++ leBytes 4 pages.length ++ leBytes 4 0 ++
    leBytes 32 ((sheet.map (fun c => c.identity)).getD 0) ++ leBytes 4 q.epoch ++
    leBytes 32 ((sheet.map (fun c => c.kvLayout)).getD 0) ++ leBytes 8 q.deadline ++ leBytes 4 0 ++
    ({ q with state := q.former, mapFrames := [], candFrames := [] } : Seq).image ++ list
  withCrc (sliceBytes head 0 (imageHeader pages.length - 4)) ++ (pages.map (fun p => s.pageRecord p.2)).flatten

/-- PAUSE_COPY_DONE: the last byte of a green-room image is written (R269). A copy that may not leave stays in progress, and so does one
of a page that fails a check (R236) or of a sequence that a drain cancels (R307), until its sequence finishes. -/
def execPauseCopyDone (entry : Nat) (s : State) : Host.Outcome State Fault Refusal :=
  if Config.seqEntries ≤ entry then .fault .noSuchUnit
  else
    match s.seq? entry with
    | none => .next s
    | some q =>
      let qp := q.pauseTo.2.2.1
      let may := if qp = 0xFFFF then s.mayRequest else s.qpUsable qp
      let c := if q.state ≠ .pausing || q.cancelPend || !may then (false, s) else s.checkPages (s.mapped entry)
      if !c.1 then .next c.2
      else
        let s := c.2.checkEntries q.refs
        let q := { q with deadline := (s.net.ptpNs + q.pauseTo.2.2.2 * 1000000000) % 2 ^ 64, cand := false, candidates := [] }
        let bytes := s.greenRoom entry q
        let s := if qp = 0xFFFF then s.dmaWrite q.tag q.pauseTo.1 bytes else s.remoteWrite qp q.pauseTo.1 q.pauseKey bytes
        let s := ((s.setSeq entry q).dropRefs entry).freeSeqFrames entry
        let s := s.modSeq entry (fun q => { q with state := .paused })
        .next (s.seqRecord entry 4 .ok 0 false 0 0 (leBytes 8 bytes.length))

/-- GREEN_ROOM_EXPIRY: a PAUSED sequence is released after its DEADLINE (R270). -/
def execGreenRoomExpiry (entry : Nat) (s : State) : Host.Outcome State Fault Refusal :=
  if Config.seqEntries ≤ entry then .fault .noSuchUnit
  else
    match s.seq? entry with
    | none => .next s
    | some q =>
      if q.state ≠ .paused || s.net.ptpNs < q.deadline || s.integ.fatalStop then .next s
      else .next (((s.orReg 0x000A0004 0x8).seqRecord entry 6 .expired 0 true 0 0 []).releaseSeq entry)

/-- Whether the header check of an image passes: magic, header length and CRC-32C (R269, R271). -/
def imageHeaderOk (im : Image) : Bool :=
  let h := fieldAt im.header 4 4
  decide (fieldAt im.header 0 4 = 0x52475146) && decide (h % 4096 = 0) && decide (260 + 8 * imagePageCount im ≤ h) &&
    decide (h ≤ im.header.length) && decide (fieldAt im.header (h - 4) 4 = crc32c (im.header.take (h - 4)))

/-- The outcomes that R271 lists before NO_SPACE: the header, the deadline, residency and the KV layout. -/
def State.imageStatus (s : State) (im : Image) (deadline : Nat) : Option Status :=
  if !imageHeaderOk im then some .crcFail
  else if deadline < s.net.ptpNs then some .expired
  else if !s.ldr.resident.any (fun r => r == (fieldAt im.header 16 32, fieldAt im.header 48 4)) then some .notReady
  else
    match s.fabric.active with
    | none => some .notReady
    | some c => if fieldAt im.header 52 32 = c.kvLayout then none else some .invalid

/-- SEQ_RESUME of an image (R271, R347, R396). -/
def State.resumeImage (s : State) (e : Entry) (image : Option Image) : State × Option (Status × List Byte) :=
  if s.follower then done s .invalid []
  else if !s.net.ptpSet then done s .notReady []
  else if 15 < e.op 40 1 || !sourceOk (e.op 16 8) (e.op 28 2) then done s .invalid []
  else
    withTransfer e 16 (e.op 32 8) image s (fun s im =>
      if e.op 32 8 < imageLength (imagePageCount im) then done s .crcFail []
      else
        match s.imageStatus im (fieldAt im.header 84 8) with
        | some st => done s st []
        | none =>
          match s.freeEntry with
          | none => done s .noSpace []
          | some i => done (s.accept (.resume i (some (e.op 40 1)) im)) .ok (leBytes 2 i))

/-- Whether a SEQ_RESUME reads its image from host memory (R269, R395). -/
def State.resumeLocal (s : State) (e : Entry) : Bool :=
  if e.op 8 2 = 0xFFFF then e.op 28 2 == 0xFFFF
  else ((s.seq? e.seqIndex).map (fun q => q.state == .paused && q.pauseTo.2.2.1 == 0xFFFF)).getD false

/-- SEQ_RESUME (R268, R270, R271). What the device reads back of the image is its operand; of a PAUSED entry the entry itself is
the device's own (DEDUCED, log 48). -/
def execSeqResume (e : Entry) (image : Option Image) (s : State) : Host.Outcome State Fault Refusal :=
  runCmd e 0x34 (s.resumeLocal e) (fun s =>
    if e.op 8 2 = 0xFFFF then s.resumeImage e image
    else
      seqCommand e s (fun q =>
        match q.state with
        | .paused =>
          if q.deadline < s.net.ptpNs then done s .expired []
          else
            withBuffer q.pauseTo.2.2.1 q.pauseTo.1 q.pauseKey q.pauseTo.2.1 image s (fun s im =>
              match s.imageStatus im q.deadline with
              | some st => done s st []
              | none => done (s.accept (.resume e.seqIndex none im)) .ok (leBytes 2 e.seqIndex))
        | .pausing | .resuming => done s .busy []
        | .queued | .prefill | .decode | .idle | .finishing => done s .invalid [])) s

/-- The frame that a page of an image fills: mapped and IN_TRANSIT, so that the directory did not give it (R228). -/
def State.filledFrame (s : State) (e : Nat) (x : Nat × Nat × Nat) : Option Nat :=
  (Map.get? (Map.getD s.kv.pageMaps e []) (s.model.mapKey x.1 x.2.1 x.2.2)).filter (fun f => (s.frame f).state == .inTransit)

/-- The bytes of a page record go to its frame and annex, and WRITTEN, FIRST_POS and ANNEX_CRC of its descriptor image to the
descriptor (R215, R217, R269, R271). -/
def State.placeRecord (s : State) (e : Nat) (p : (Nat × Nat × Nat) × List Byte) : State :=
  match s.filledFrame e p.1 with
  | none => s
  | some f =>
    let hbm := memWriteList s.kv.hbm (frameAddr f) (sliceBytes p.2 0 Config.frameBytes)
    let hbm := memWriteList hbm (annexAddr f) (sliceBytes p.2 Config.frameBytes 8192)
    let d := sliceBytes p.2 (Config.frameBytes + 8192) 32
    { s with kv := { s.kv with hbm := hbm } }.setFrame f { s.frame f with
      firstPos := bitsOf (fieldAt d 4 4) 0 23, written := fieldAt d 10 2, annexCrc := fieldAt d 24 4 }

/-- Whether the descriptor image of a page record passes its DESC_CRC (R217, R236, R269). -/
def recordSound (b : List Byte) : Bool :=
  let d := sliceBytes b (Config.frameBytes + 8192) 32
  fieldAt d 28 4 == crc32c (d.take 28)

/-- A page that has passed its checks is the sequence's own (R271). -/
def State.landPage (s : State) (e : Nat) (x : Nat × Nat × Nat) : State :=
  match s.filledFrame e x with
  | none => s
  | some f => s.setFrame f { s.frame f with state := if s.model.window x.1 = 0 then .priv else .ring }

/-- RESUME_COMPLETE: every page has arrived and its annex and chunks are checked (R271). A sequence whose frames could not be reserved tries
again, after those admitted before it (R235). -/
def execResumeComplete (entry : Nat) (s : State) : Host.Outcome State Fault Refusal :=
  if Config.seqEntries ≤ entry then .fault .noSuchUnit
  else
    match s.seq? entry with
    | none => .next s
    | some q =>
      if q.state ≠ .resuming || q.failStatus ≠ 0 then .next s
      else if q.starved && s.awaited q.order then .next s
      else
        let r := if q.starved then s.resumeFrames entry else (true, s)
        if !r.1 then .next r.2
        else
          let placed := q.fetched.foldl (fun s p => s.placeRecord entry p) r.2
          if q.fetched.any (fun p => (placed.filledFrame entry p.1).any (fun f =>
              !recordSound p.2 || (placed.pageFault placed.model f).isSome)) then
            .next (r.2.modSeq entry (fun q => { q with failStatus := Status.code .crcFail }))
          else
          let s := q.fetched.foldl (fun s p => s.landPage entry p.1) placed
          let s := s.modSeq entry (fun q => { q with state := q.former, cand := false, candidates := [], fetched := [] })
          match s.seq? entry with
          | none => .next s
          | some q => .next (s.seqRecord entry 5 .ok 0 false 0 0 (leBytes 4 q.kvLen ++ leBytes 2 q.hitDepth))

/-- A write of PRM_SEQ_SELECT latches the entry as the last scene change left it (R281). -/
def execPrmSeqSelect (value : Word) (s : State) : Host.Outcome State Fault Refusal :=
  let i := value.toNat % 4096
  let bytes := match Map.get? s.prm.settled i with
    | some q => q.image
    | none => List.replicate 160 0
  .next ({ s with prm := { s.prm with window := bytes } }.setReg 0x000A001C i)

/-- First position and number of positions of a member's work item (R251). -/
def State.itemSpan (s : State) (m : Member) : Nat × Nat :=
  match m.work with
  | .chunk first stop => (first, stop - first)
  | _ => (((s.seq? m.entry).map (fun q => q.kvLen)).getD 0, m.nodes)

/-- A member other than member 0 starts the next scene that it was sent: the commands whose effect the descriptor carries come first, and
the frames of the scene's work items (R233, R357, R358; how firmware writes a descriptor is open, log 9). -/
def State.startSent (s : State) (c : CueSheet) : State :=
  match s.net.sceneQueue with
  | [] => s
  | d :: rest =>
    let x := Config.readDescriptor d.2
    let n := x.variant % max 1 c.variants.length
    let s := x.relays.foldl State.carryOut { s with net := { s.net with sceneQueue := rest } }
    match c.variants[n]? with
    | none => s
    | some v =>
      let ms := x.members.map (fun m => { m with order := ((s.seq? m.entry).map (fun q => q.order)).getD 0 })
      let s := ms.foldl (fun s m => (s.reserve m.entry (s.itemSpan m).1 (s.itemSpan m).2).2) s
      let start := s.nextStart
      (s.advanceTo start).startScene (n, v) start ms (min v.capacity x.positions)

/-- SCENE_FORM (R253, R254, R256). A member other than member 0 of a group starts the scenes it is sent; member 0 sends each
scene's descriptor before it starts (R357). -/
def execSceneForm (s : State) : Host.Outcome State Fault Refusal :=
  match s.fabric.active with
  | none => .next s
  | some c =>
    if !s.mayForm then .next s
    else if s.follower then .next (s.startSent c)
    else
      match c.variants.getLast? with
      | none => .next s
      | some big =>
        let f := s.chooseFor c big
        if f.chosen.isEmpty then .next f.st
        else
          match variantFor c.variants f.positions f.chosen.length with
          | none => .next f.st
          | some v =>
            let start := f.st.nextStart
            let d : SceneDesc := { variant := v.1, members := f.chosen, positions := f.positions }
            .next (((f.st.advanceTo start).sendScene d).startScene v start f.chosen f.positions)

end Sys2Proof.Machine
end

