-- ==== Sys2Proof/Machine/Reset.lean ====
section
/-!
DEFINITION. Resets (R411, R423 to R426, R430), power-down and the loss of rails (R531 to R533). Where a block reset makes scenes
fail without a fault source, the scene carries source number 512, which no source has.
-/
namespace Sys2Proof.Machine

/-- Whether magic, version and counts of a boot configuration are in range (R409, R410), its length holding the key digests, the
signer's key and the signature. -/
def bootRangeOk (b : List Byte) : Bool :=
  let p := fieldAt b 16 2
  let f := fieldAt b 18 2
  let k := fieldAt b 20 2
  decide (fieldAt b 0 4 = 0x43425146) && decide (fieldAt b 4 1 = 1) && decide (p ≤ 256) && decide (f ≤ 8) && decide (k ≤ 8) &&
    decide (fieldAt b 8 4 ≤ 65536) && decide (256 + 32 * (p + f + k) + 171 ≤ fieldAt b 8 4)

/-- Digests of 32 bytes each, `n` of them from an offset on. -/
def digestsAt (b : List Byte) (o n : Nat) : List Nat := (List.range n).map (fun i => fieldAt b (o + 32 * i) 32)

/-- The boot configuration, where the ROM accepts it (R409, R410). -/
def Fuses.accepts (f : Fuses) (b : List Byte) : Option BootConfig :=
  let length := fieldAt b 8 4
  let p := fieldAt b 16 2
  let n := fieldAt b 18 2
  let signer := shake32 (sliceBytes b (length - 171) 57)
  let trusted := match f.operatorRoot with
    | some d => signer == d
    | none => has f.configKeys signer
  let signed := ed448Verify "FQB-BC1" (sliceBytes b (length - 171) 57) (b.take (length - 171)) (sliceBytes b (length - 114) 114)
  if bootRangeOk b && signed && trusted then
    some { smbusAddr := fieldAt b 6 1 % 128, minSvn := fieldAt b 12 4
           publisherKeys := digestsAt b 256 p, firmwareKeys := digestsAt b (256 + 32 * p) n
           patternKeys := digestsAt b (256 + 32 * (p + n)) (fieldAt b 20 2), digest := shake32 (b.take length) }
  else none

/-- The boot configuration region of the flash, 64 KiB from address 0, as it was programmed from outside the device, which has no command that
writes it (R408; log 157). -/
def State.holdFlash (s : State) (boot : List Byte) : State :=
  let rest := s.boot.flash.filter (fun e => decide (65536 ≤ e.1))
  { s with boot := { s.boot with flash := memWriteList [] 0 (boot.take 65536) ++ rest } }

/-- The boot configuration as the ROM reads it: as many bytes of its region as its length field says (R408, R409). -/
def State.bootBytes (s : State) : List Byte :=
  memReadList s.boot.flash 0 (min 65536 (leNat (memReadList s.boot.flash 8 4)))

/-- The mask ROM sequence up to WAIT (R411, R410, R431): clocks, self-test, identity, boot configuration. The stage clock starts
where COOLANT_OK is asserted (R454), after the table voltage is written (R530). A failing self-test or identity stops the ROM. -/
def State.rom (s : State) (selfTestOk identityOk : Bool) (boot : List Byte) : State :=
  let s := { s with pwr := { s.pwr with pllLocked := true, ageColumn := ageColumnOf s.pwr.hours } }
  if !selfTestOk then { s.fwsFail 6 with outside := { (s.fwsFail 6).outside with errLow := true } }
  else if !identityOk then { s.fwsFail 7 with outside := { (s.fwsFail 7).outside with errLow := true } }
  else
    let s := s.holdFlash boot
    { s with
      pwr := { s.pwr with stageStopped := !s.pwr.coolantOk, regulator := s.tableMv 0 s.pwr.ageColumn }
      boot := { s.boot with fws := .wait, config := s.boot.fuses.accepts s.bootBytes } }

/-- Whether a register keeps its value: through a full reset, with the function's own registers where `chip` is set (R379,
R424). -/
def keptFull (chip : Bool) (o : Nat) : Bool :=
  match regRow? o with
  | some (r, _, _) => r.life == .always || (chip && r.life == .function)
  | none => false

/-- Whether a register keeps its value across hot reset and FLR (R11, R424), PWR_ENERGY_HI, PRM_SC_COUNT_HI and PTP_TIME_HI with their
shadows among them (R277, R370, R461). -/
def keptHot (o : Nat) : Bool :=
  has [0x80014, 0xA0014, 0xB0024] o ||
  match regRow? o with
  | some (r, _, _) => r.life == .always || r.life == .warm
  | none => false

/-- What a cold, fundamental or chip reset leaves (R424): array contents, journals, the ledger, wear, fuses, the installed pack
and what lies outside the device; after a chip reset the PCIe function too. -/
def State.full (s : State) (chip : Bool) : State :=
  { State.reset with
    pending := s.pending
    regs := Map.dropKeys s.regs (fun o => !keptFull chip o)
    tiles := (s.tiles.filter (fun e => !e.2.cells.isEmpty)).map (fun e => (e.1, { cells := e.2.cells }))
    ldr := { journal := s.ldr.journal, wear := s.ldr.wear, wearHours := s.ldr.wearHours, shapes := s.ldr.shapes
             resident := s.ldr.resident, envelopes := s.ldr.envelopes }
    fabric := { forms := s.fabric.forms }
    pcie := if chip then s.pcie else {}
    boot := { fuses := s.boot.fuses, packVersion := s.boot.packVersion, packDigest := s.boot.packDigest, packSlot := s.boot.packSlot
              flash := s.boot.flash }
    pwr := { powerGood := s.pwr.powerGood, perst := s.pwr.perst, sysRst := s.pwr.sysRst, coolantOk := s.pwr.coolantOk
             hours := s.pwr.hours, rails := s.pwr.rails }
    ledger := s.ledger
    outside := { hostMem := s.outside.hostMem, sent := s.outside.sent, msix := s.outside.msix } }

/-- COLD_RESET: power-good after power-up. The ROM starts unless a reset ball is still asserted (R411, R423, R426). -/
def execColdReset (selfTestOk identityOk : Bool) (boot : List Byte) (s : State) : Host.Outcome State Fault Refusal :=
  if s.pwr.powerGood then .next s
  else
    let s := s.full false
    let s := { s with pwr := { s.pwr with powerGood := true, rails := true } }
    .next (if s.pwr.perst || s.pwr.sysRst then s else s.rom selfTestOk identityOk boot)

/-- FUNDAMENTAL_RESET: PERST_N or SYS_RST_N is asserted; ignored while THERMTRIP_N is asserted or the package has no power-good
(R423, R453). -/
def execFundamentalReset (sysRst : Bool) (s : State) : Host.Outcome State Fault Refusal :=
  let s := { s with pwr := { s.pwr with perst := s.pwr.perst || !sysRst, sysRst := s.pwr.sysRst || sysRst } }
  if !s.pwr.powerGood || s.pwr.thermtrip then .next s else .next (s.full false)

/-- PERST_N_DEASSERT: a reset ball is released; once neither is asserted the ROM starts (R411, R426). -/
def execPerstNDeassert (sysRst selfTestOk identityOk : Bool) (boot : List Byte) (s : State) :
    Host.Outcome State Fault Refusal :=
  let was := s.pwr.perst || s.pwr.sysRst
  let s := { s with pwr := { s.pwr with perst := s.pwr.perst && sysRst, sysRst := s.pwr.sysRst && !sysRst } }
  if !was || s.pwr.perst || s.pwr.sysRst || !s.pwr.powerGood || s.pwr.thermtrip then .next s
  else .next (s.rom selfTestOk identityOk boot)

/-- A ring pair takes its reset values; records that wait for it are held (R392), but for a FATAL stop, after which none is posted
(R484). -/
def Ring.afresh (g : Ring) (stop : Bool) : Ring := { gen := g.gen + 1, waiting := g.waiting.filter (fun c => c.isRecord && !stop) }

/-- What a function reset leaves of a tile: all but what ARR_STATUS and ENG_GROUP_n show of a phase and of group slots that are over
(R11, R65, R151). -/
def Tile.functionReset (x : Tile) : Tile :=
  let x := { x with groups := x.groups.filter (fun (e : Nat × AccGroup) => e.2.isOpen) }
  if x.mvm.any (fun m => !m.complete) || x.calRun.isSome then x else { x with lastRows := 32, lastArray := 0, skipping := false }

/-- What a hot reset and a function-level reset do (R424): the registers that no rule keeps, the ring pairs, the content keys and
the PCIe function take their reset values; everything else stays, the HI words that R112, R277, R370 and R461 keep among it, and
a free group slot's last tag goes (R11, R148, R151). -/
def State.functionReset (s : State) : State :=
  let s := s.clearRegs (fun o => !keptHot o)
  let s := { s with mbx := { s.mbx with rings := Map.mapVals s.mbx.rings (fun _ g => g.afresh s.integ.fatalStop) } }
  let s := s.mapTiles (fun _ x => x.functionReset)
  { s with
    mbx := { s.mbx with ready := false }
    pcie := {}
    ldr := { s.ldr with
      current := s.ldr.current.map Copy.keyless
      sealRun := s.ldr.sealRun.map (fun r => { r with copy := r.copy.keyless })
      refill := s.ldr.refill.map (fun x => (x.1.keyless, x.2)) } }

/-- HOT_RESET (R423, R424). -/
def execHotReset (s : State) : Host.Outcome State Fault Refusal := .next (if s.powered then s.functionReset else s)

/-- FLR (R423, R424). -/
def execFlr (s : State) : Host.Outcome State Fault Refusal := .next (if s.powered then s.functionReset else s)

/-- Whether a chip reset takes place: a ROM that has stopped, and a device that lost its coolant, need a cold or fundamental reset (R411,
R454). -/
def State.mayChipReset (s : State) : Bool := s.powered && s.boot.fws != .romInit && !s.boot.stopped

/-- A chip reset: configuration space is kept, and the ROM runs (R411, R423, R424). -/
def State.chipReset (s : State) (selfTestOk identityOk : Bool) (boot : List Byte) : State :=
  if s.mayChipReset then (s.full true).rom selfTestOk identityOk boot else s

/-- CHIP_RESET: the chip reset that a fault reaction asked for (R423, R424). -/
def execChipReset (selfTestOk identityOk : Bool) (boot : List Byte) (s : State) : Host.Outcome State Fault Refusal :=
  .next (if s.integ.chipReset then s.chipReset selfTestOk identityOk boot else s)

/-- GLB_RESET with KIND 1 and KEY 0xB0: a chip reset takes effect at once, where INDEX is in range for BLOCK_TYPE, which R430 asks of every
write (R423, R430). What the self-test, the identity and the boot configuration of the ROM sequence come to are operands, as of the
other resets (log 3). -/
def execGlbResetChip (value : Word) (selfTestOk identityOk : Bool) (boot : List Byte) (s : State) : Host.Outcome State Fault Refusal :=
  .next (if bitsOf value.toNat 24 8 = 0xB0 ∧ bitsOf value.toNat 22 2 = 1 ∧
      blockWf (bitsOf value.toNat 20 2) (bitsOf value.toNat 0 14) = true then s.chipReset selfTestOk identityOk boot else s)

/-- A tile domain as its reset leaves it: footlights, calibration, MVM, accumulator file and programming attempt go; the cells, the
SRAM and the router stay (R57, R62, R103, R319, R424), and the trend history (DESIGN CHOICE, log 129). A block reset of the row
that lasts goes on lasting (R62, R196). What the registers of group slots and of the last phase show stays (R11, R65, R151). -/
def Tile.blockReset (x : Tile) (kind : Nat) : Tile :=
  { cells := x.cells, trend := x.trend, sram := x.sram, badWords := x.badWords, router := x.router
    groups := x.groups.map (fun (e : Nat × AccGroup) => (e.1, e.2.freed)), lastArray := x.lastArray, lastRows := x.lastRows
    inReset := if x.inReset = 2 then 2 else kind }

/-- A router as a row reset leaves it: its sequencers stop and its flits go; its mode, its fence and its programs stay, and so does
the station unit's activity, which R197 ties to its program (R62, R192). -/
def Router.rowReset (r : Router) : Router :=
  { mode := r.mode, fenced := r.fenced, slots := r.slots, starts := r.starts, station := r.station, stationStarts := r.stationStarts
    stationActive := r.stationActive, faulty := r.faulty }

/-- A reset of a tile domain begins (R62). -/
def State.resetTile (s : State) (kind t : Nat) : State :=
  let x := s.tile t
  let s := match x.mvm with
    | some m => s.untaint m
    | none => s
  let gone := fun (o : Nat) => (decide (tileReg t 0x20 ≤ o) && decide (o < tileReg t 0x40)) ||
    (decide (tileReg t 0x10C ≤ o) && decide (o < tileReg t 0x118))
  (((((s.clearRegs gone).setTile t (x.blockReset kind)).settleCauses).streamDone).restream t).syncMgmt [t]

/-- A port die is reset: its blocks' ports, lanes and queue pairs go (R370, R424). -/
def State.resetPortDie (s : State) (d : Nat) : State :=
  let s := (List.range 8).foldl (fun s p => s.portDown (8 * d + p)) s
  let here := fun (p : Nat) => decide (p / 8 = d)
  let gone := fun (o : Nat) =>
    (decide (portConfig (4 * d) ≤ o) && decide (o < portConfig (4 * d + 4))) ||
      (decide (laneReg (16 * d) 0 ≤ o) && decide (o < laneReg (16 * d + 16) 0))
  let ports := Map.dropKeys s.net.ports here
  let lanes := Map.dropKeys s.net.lanes (fun n => decide (n / 16 = d))
  let qps := s.net.qps.filter (fun (e : Nat × QueuePair) => !here e.2.port)
  ({ s with net := { s.net with ports := ports, lanes := lanes, qps := qps } }).clearRegs gone

/-- Copies that the loader holds, the ones in service or being programmed first, each once; an open one that waits while others are
fetched again is among them (R319). -/
def State.copies (s : State) : List (Copy × Bool) :=
  let busy := [s.ldr.sealRun.map (fun r => r.copy), s.ldr.recast.map (fun r => r.copy), s.ldr.serving, s.ldr.old].filterMap id
  let once := busy.foldl (fun (xs : List Copy) c => if xs.any (fun x => x.frames == c.frames) then xs else xs ++ [c]) []
  let fresh := (((s.ldr.refill.filter (fun x => !x.2)).map (fun x => x.1)) ++ s.ldr.current.toList).foldl
    (fun (xs : List Copy) c => if (once ++ xs).any (fun x => x.frames == c.frames) then xs else xs ++ [c]) []
  once.map (fun c => (c, true)) ++ fresh.map (fun c => (c, false))

/-- Every segment of every copy becomes unaccepted, and the loader returns to OPEN (R319). -/
def State.loseCopies (s : State) : State :=
  match s.copies with
  | [] => s
  | (c, b) :: rest =>
    { s with ldr := { s.ldr with
        state := .opened, current := some { c with accepted := [] }
        refill := if b then (c, b) :: rest else [] } }

/-- The stack whose reset takes a byte of HBM: that of its frame, and for a byte of an annex that of the annex's frame, since the pages of
other stacks are not lost (R214, R216, R237; DESIGN CHOICE, log 148). -/
def stackOf (a : Nat) : Nat :=
  let f := a / Config.frameBytes
  if 128 ≤ f ∧ f < 1280 then (a - 128 * Config.frameBytes) / 8192 % 12 else f % 12

/-- An HBM stack is reset: the bytes of its frames go, the pages among them are lost at the next scene change, every scene in
flight fails, the copies must be fetched again and the cue sheet store is lost (R237, R319, R424, R425). -/
def State.resetStack (s : State) (k : Nat) : State :=
  let hbm := s.kv.hbm.filter (fun e => decide (stackOf e.1 ≠ k))
  let lost := (s.kv.frames.filter (fun (e : Nat × Frame) =>
    decide (e.1 % 12 = k) && e.2.state != .free && e.2.state != .reserved)).map (fun e => e.1)
  let all := lost.foldl (fun xs f => insertNat f xs) s.kv.lostFrames
  let s := { s with kv := { s.kv with hbm := hbm, lostFrames := all } }
  let s := s.failScenes (fun _ => true) 512
  let s := s.loseCopies
  let active := s.fabric.active.isSome
  let s := s.finishJobs (fun j => if s.fabric.activating.isSome && j.kind == .activate then some (.invalid, []) else none)
  let s := { s with fabric := { s.fabric with loaded := none, activating := none, storeLost := s.fabric.storeLost || active } }
  if active && s.firmwareRuns then s.raise srcCuesheetStoreLost 7 k [] else s

/-- Tiles that a block reset of a kind covers. -/
def resetTiles (kind index : Nat) : List Nat :=
  match kind with
  | 0 => [index]
  | 1 => (List.range Config.cols).map (fun c => index * Config.cols + c)
  | _ => []

/-- Whether a reset of some tiles interrupts the scenes in flight: one of them serves a position, or a row's routers are among
them. -/
def State.interrupts (s : State) (kind : Nat) (ts : List Nat) : Bool :=
  s.fabric.active.isSome && (kind == 1 || ts.any (fun t => (s.positionOf t).any (fun home => s.servingTile home == t)))

/-- A block reset takes effect, whether or not a scene is in flight (R62, R423, R424). -/
def State.blockReset (s : State) (kind index : Nat) : State :=
  let ts := resetTiles kind index
  let s := if s.interrupts kind ts then s.failScenes (fun _ => true) 512 else s
  match kind with
  | 2 => s.resetPortDie index
  | 3 => s.resetStack index
  | _ =>
    let s := ts.foldl (fun s t => s.resetTile (kind + 1) t) s
    if kind = 1 then
      let s := ts.foldl (fun s t => s.modTile t (fun x => { x with router := x.router.rowReset })) s
      let lanes := Map.dropKeys s.fabric.lanes (fun r => decide (r / 2 = index))
      ({ s with fabric := { s.fabric with rowFaults := without s.fabric.rowFaults index, lanes := lanes } }).syncMgmt
        [index * Config.cols]
    else s

/-- BLOCK_RESET: a block reset that a fault reaction, a substitution or a rehearsal asked for (R423). -/
def execBlockReset (kind index : Nat) (s : State) : Host.Outcome State Fault Refusal :=
  if !blockWf kind index then .fault .noSuchUnit
  else if !s.powered || !s.integ.blockResets.any (fun b => b == (kind, index)) then .next s
  else
    let left := s.integ.blockResets.filter (fun (b : Nat × Nat) => b ≠ (kind, index))
    .next ({ s with integ := { s.integ with blockResets := left } }.blockReset kind index)

/-- GLB_RESET with KIND 2 and KEY 0xB0: a block reset takes effect at once, where INDEX is in range for BLOCK_TYPE (R423, R430). -/
def execGlbResetBlock (value : Word) (s : State) : Host.Outcome State Fault Refusal :=
  let kind := bitsOf value.toNat 20 2
  let index := bitsOf value.toNat 0 14
  .next (if bitsOf value.toNat 24 8 = 0xB0 ∧ bitsOf value.toNat 22 2 = 2 ∧ blockWf kind index = true ∧ s.powered = true then
    s.blockReset kind index else s)

/-- ARR_INFO_n after a block reset: from the active cue sheet's placement where its copy is held, else as at boot (R71). -/
def State.restoreArrInfo (s : State) (t a : Nat) : State :=
  let place := s.fabric.active.bind (fun c => (s.positionOf t).bind (fun home =>
    ((c.placed home).find? (fun p => p.array == a)).bind (fun p =>
      (s.copyOf c.epoch).bind (fun k => (k.man.tensors[p.tensor]?).map (fun x => (x, p))))))
  match place with
  | some (x, p) => s.writeArrInfo t x p
  | none => s.setReg (tileReg t (0x20 + 4 * a)) (s.bootInfo t a)

/-- A rehearsal starts again at step 2 once a block reset of its tile ends: the trims are saved anew (R491). -/
def State.saveTrims (s : State) (t : Nat) : State :=
  { s with integ := { s.integ with rehearsal := s.integ.rehearsal.map (fun (r : Rehearsal) => { r with trims := (s.tile t).trims }) } }

/-- A tile comes out of a block reset: its arrays are read back by R318, the row-sum store is rewritten and a run of every array
is queued; an array whose attempt was abandoned is programmed again (R65, R103, R319). -/
def State.endTileReset (s : State) (t : Nat) (digests : Map (List Nat)) : State :=
  let s := s.modTile t (fun x => { x with inReset := 0 })
  let s := if s.rehearsing t then s.saveTrims t else s
  let s := (List.range 8).foldl (fun s a =>
    match s.gov t a with
    | none => s
    | some g =>
      let s := s.restoreArrInfo t a
      if g.inProgress then s else (s.verifyArray t a (Map.getD digests (8 * t + a) [])).writeRowSums t a) s
  let s := s.syncMgmt [t]
  if (s.calArrays t).isEmpty then s else s.queueRun t

/-- BLOCK_RESET_END (R65, R103, R318, R319). A reading that is not listed agrees with the journal. -/
def execBlockResetEnd (kind index : Nat) (digests : Map (List Nat)) (s : State) : Host.Outcome State Fault Refusal :=
  if !blockWf kind index then .fault .noSuchUnit
  else
    let ts := (resetTiles kind index).filter (fun t => (s.tile t).inReset == kind + 1)
    if ts.isEmpty || !s.firmwareRuns then .next s
    else .next (ts.foldl (fun s t => s.endTileReset t digests) s).proceed

/-- POWER_DOWN: PWR_GOOD is deasserted; the stage clock stops and the array drivers park, so an attempt at an array is left
IN_PROGRESS (R317, R532). -/
def execPowerDown (s : State) : Host.Outcome State Fault Refusal :=
  if !s.pwr.powerGood then .next s
  else
    let s := { s with pwr := { s.pwr with powerGood := false, stageStopped := true } }
    .next (s.mapTiles (fun _ x => { x with programming := none }))

/-- RAIL_LOSS: the rails fall. Arrays that were not being programmed keep their contents, and an array that was is left
IN_PROGRESS (R533); THERMTRIP_N goes with the power (R453). -/
def execRailLoss (s : State) : Host.Outcome State Fault Refusal :=
  let s := s.full false
  .next { s with pwr := { s.pwr with powerGood := false, rails := false } }

end Sys2Proof.Machine
end

