-- ==== Sys2Proof/Machine/Roce.lean ====
section
/-!
DEFINITION. RoCEv2 queue pairs (R350 to R353, R229): establishment, the responder, recovery and congestion control.
-/
namespace Sys2Proof.Machine

/-- QP_ESTABLISH (R351, R399). An established pair is BUSY; one in the error state is established again (R353). A T of 0 takes
the default of 14. The send rate starts at the port rate. -/
def execQpEstablish (e : Entry) (s : State) : Host.Outcome State Fault Refusal :=
  linkCmd e 1 (fun s =>
    let n := e.op 10 2
    let port := e.op 12 1
    let v := e.op 13 1
    let t := e.op 43 1
    if 4095 < n || 15 < port || !(v == 4 || v == 6) || 2 < e.op 39 1 || 31 < t then done s .invalid []
    else if s.net.qps.any (fun q => q.1 == n && !q.2.error) then done s .busy []
    else
      let q : QueuePair :=
        { port := port, ipVersion := v, mac := e.op 14 6, ip := e.op 20 (if v = 4 then 4 else 16), peer := e.op 36 3
          mtu := 1024 * 2 ^ e.op 39 1, sendPsn := e.op 40 3, recvPsn := e.op 44 3, ackedPsn := psnAdd (e.op 40 3) 16777215
          timeoutExp := if t = 0 then 14 else t, rkey := e.op 48 4, rate := s.portRate port }
      done { s with net := { s.net with qps := Map.put s.net.qps n q } } .ok []) s

/-- QP_DESTROY (R399). Of a pair that is not established nothing is left to destroy, and the command returns OK. -/
def execQpDestroy (e : Entry) (s : State) : Host.Outcome State Fault Refusal :=
  linkCmd e 2 (fun s =>
    let n := e.op 10 2
    if 4095 < n then done s .invalid []
    else done { s with net := { s.net with qps := Map.erase s.net.qps n } } .ok []) s

/-- A range of the transfer staging frames, presented with the pair's R_Key (R352). -/
def stagingOk (q : QueuePair) (addr len rkey : Nat) : Bool := rkey == q.rkey && decide (addr + len ≤ 2 ^ 32)

/-- HBM address of a byte of the transfer staging frames (R234, R352). -/
def stagingAddr (addr : Nat) : Nat := frameAddr 9472 + addr

/-- The parts of a range of HBM that lie in one frame each: the frame, the first byte and the number of bytes (R214). -/
def framePieces (a n : Nat) : List (Nat × Nat × Nat) :=
  ((List.range (n / Config.frameBytes + 2)).map (fun k =>
    let f := a / Config.frameBytes + k
    let lo := max a (frameAddr f)
    (f, lo, min (a + n) (frameAddr (f + 1)) - lo))).filter (fun p => decide (0 < p.2.2))

/-- Write to the transfer staging frames, each frame seen by its stack's check-value engine (R352, R480). What enters gets its check
values (R471). -/
def State.stagingWrite (s : State) (a : Nat) (bs : List Byte) : State :=
  let s := (framePieces a bs.length).foldl (fun s p => s.hbmWrite p.1 p.2.1 (sliceBytes bs (p.2.1 - a) p.2.2)) s
  { s with kv := { s.kv with unchecked := s.kv.unchecked.filter (fun x => decide (x < a) || decide (a + bs.length ≤ x)) } }

/-- Read from the transfer staging frames, each frame seen by its stack's check-value engine (R352, R480). -/
def State.stagingRead (s : State) (a n : Nat) : State :=
  (framePieces a n).foldl (fun s p => (s.hbmRead p.1 p.2.1 p.2.2).1) s

/-- As responder, the device sends a CNP for a CE-marked packet, at most one per pair per 4 µs (R353). -/
def State.markCnp (s : State) (n : Nat) (q : QueuePair) : State :=
  if (match q.lastCnp with
      | some t => decide (t + 4 ≤ s.integ.clock)
      | none => true) then
    (s.modQp n (fun q => { q with lastCnp := some s.integ.clock })).sendRoce n (.cnp n)
  else s

/-- Request packets are accepted: the packet sequence number after them is expected (R350). -/
def State.takeRequest (s : State) (n packets : Nat) : State :=
  s.modQp n (fun q => { q with recvPsn := psnAdd q.recvPsn packets })

/-- Responses to READ requests of a pair that have still to leave its port (R351). -/
def State.readsOut (s : State) (n : Nat) (q : QueuePair) : Nat :=
  ((s.port q.port).waiting.filter (fun w => match w.2 with
    | .inClass _ _ _ (.roceResponse m _ part _) => m == n && (part == .last || part == .only)
    | _ => false)).length

/-- Whether the blocks of a range of the staging frames pass the port die's check (R472): no byte of it changed after its check value was
made. Where a block ends the spec leaves to firmware (R470; log 155). -/
def Kv.checks (k : Kv) (a n : Nat) : Bool := !k.unchecked.any (fun x => decide (a ≤ x) && decide (x < a + n))

/-- One packet of a READ response: it leaves where the blocks that it carries pass their check, and is not sent where one fails (R472,
R473, R480). -/
def State.readPacket (n : Nat) (q : QueuePair) (psn addr : Nat) (s : State) (p : Nat × PacketPart × List Byte) : State :=
  if s.kv.checks (stagingAddr (addr + p.1 * q.mtu)) p.2.2.length then
    (s.ethOut q.port (4, some n) p.2.2).sendRoce n (.roceResponse n (psnAdd psn p.1) p.2.1 p.2.2)
  else s.checkFail 2 q.port []

/-- The response to a READ request: the bytes of the staging frames in packets of the path MTU, numbered from the request's number on
(R350, R352, R480). -/
def State.answerRead (s : State) (n : Nat) (q : QueuePair) (psn addr len : Nat) : State :=
  let parts := splitPackets q (memReadList s.kv.hbm (stagingAddr addr) len)
  (List.zip (List.range parts.length) parts).foldl (State.readPacket n q psn addr) (s.stagingRead (stagingAddr addr) len)

/-- The record of an announced page, in its frame: chunks and annex as they came, WRITTEN and ANNEX_CRC of the descriptor image, and the
rest of the descriptor rebuilt (R217, R229). -/
def State.landRecord (s : State) (offset f : Nat) : State :=
  let b := memReadList s.kv.hbm (stagingAddr offset) (Config.frameBytes + 8192 + 32)
  let s := s.stagingRead (stagingAddr offset) (Config.frameBytes + 8192 + 32)
  let hbm := memWriteList s.kv.hbm (frameAddr f) (sliceBytes b 0 Config.frameBytes)
  let hbm := memWriteList hbm (annexAddr f) (sliceBytes b Config.frameBytes 8192)
  { s with kv := { s.kv with hbm := hbm } }.setFrame f { s.frame f with
    written := fieldAt b (Config.frameBytes + 8192 + 10) 2, annexCrc := fieldAt b (Config.frameBytes + 8192 + 24) 4 }

/-- Whether the descriptor image of an announced page passes its DESC_CRC (R217, R236). -/
def State.announcedSound (s : State) (offset : Nat) : Bool :=
  let d := memReadList s.kv.hbm (stagingAddr (offset + Config.frameBytes + 8192)) 32
  fieldAt d 28 4 == crc32c (d.take 28)

/-- Whether an arrived page passes its checks: its annex by the descriptor's ANNEX_CRC, and every chunk, where one that was never written is
zero with a zero CRC (R216, R217, R229). -/
def State.arrivedOk (s : State) (m : Model) (f : Nat) : Bool :=
  let d := s.frame f
  s.annexOk f && (List.range (if m.headDim = 0 then 0 else m.kvWidth / m.headDim)).all (fun h =>
    (List.range (m.pagePos / 64)).all (fun j =>
      s.chunkOk m f h (64 * j) (d.plane % 2 == 0) ||
        (decide (d.written ≤ 64 * j) && decide (leNat (memReadList s.kv.hbm (annexAddr f + 2048 + 4 * chunkNo m h (64 * j)) 4) = 0) &&
          (memReadList s.kv.hbm (sliceAddr m f h (64 * j)) (32 * m.headDim)).all (fun b => b == 0))))

/-- A page set that another device announces (R229): refused with INVALID where its layout is not that of the active cue sheet. Else it
takes frames of its own, whose descriptors are rebuilt, and every chunk CRC is checked before a page is PRIVATE. Records lie one
after the other as in a green-room image, a set outside the staging frames is refused with INVALID, one without frames with NO_SPACE,
and one with a failing check with CRC_FAIL. Its pages are PRIVATE with OWNER 0xFFFF, in no page map and no directory entry, as R229
does not say which sequence or entry they come to (DESIGN CHOICE, log 133). -/
def State.takePages (s : State) (qp layout offset : Nat) (pages : List (Nat × Nat × Nat)) : State :=
  match s.fabric.active with
  | none => s.sendRoce qp (.pageSet qp .invalid)
  | some c =>
    let s := if c.kvLayout = layout then s.roomFor else s
    if c.kvLayout ≠ layout || decide (2 ^ 32 < offset + 2109440 * pages.length) then s.sendRoce qp (.pageSet qp .invalid)
    else if !s.canTake pages.length 0 then s.sendRoce qp (.pageSet qp .noSpace)
    else
      let sound := (List.range pages.length).all (fun i => s.announcedSound (offset + 2109440 * i))
      let r := s.takeFrames (pages.map (fun p =>
        { state := .inTransit, layer := p.1, plane := p.2.1, firstPos := p.2.2 * s.model.pagePos, epoch := s.prm.epoch }))
      let s := (List.zip (List.range r.1.length) r.1).foldl (fun s p => s.landRecord (offset + 2109440 * p.1) p.2) r.2
      if !sound || r.1.any (fun f => !s.arrivedOk s.model f) then (s.freeFrames r.1).sendRoce qp (.pageSet qp .crcFail)
      else (r.1.foldl (fun s f => s.setFrame f { s.frame f with state := .priv }) s).sendRoce qp (.pageSet qp .ok)

/-- A NAK of Invalid Request, code 1, or Remote Access Error, code 2; a WRITE that had begun is given up (R350, R352). -/
def State.refuse (s : State) (n code : Nat) : State := (s.modQp n (fun q => { q with inbound := none })).sendRoce n (.roceNak n code)

/-- A packet of an RDMA WRITE whose number is the expected one (R350, R352). The first or only packet names address, length and key of
the message; first and middle ones carry the path MTU, and the last the rest. The packet that ends a message is acknowledged. A packet
out of this order, or of another length, draws a NAK Invalid Request (PRESUMED, log 155). -/
def State.takeWrite (s : State) (n : Nat) (q : QueuePair) (psn : Nat) (part : PacketPart) (addr len rkey : Nat) (data : List Byte) :
    State :=
  let fresh := part == .first || part == .only
  let ends := part == .last || part == .only
  let run : Option Inbound := if fresh then (if q.inbound.isSome then none else some { at_ := addr, count := len }) else q.inbound
  match run with
  | none => s.refuse n 1
  | some r =>
    let sized := if ends then decide (data.length = r.count ∧ r.count ≤ q.mtu) else decide (data.length = q.mtu ∧ q.mtu < r.count)
    if !sized then s.refuse n 1
    else if fresh && !stagingOk q addr len rkey then s.refuse n 2
    else
      let s := s.stagingWrite (stagingAddr r.at_) data
      let s := (s.takeRequest n 1).modQp n (fun q =>
        { q with inbound := if ends then none else some { at_ := r.at_ + data.length, count := r.count - data.length } })
      if ends then s.sendRoce n (.roceAck n psn) else s

/-- A SEND whose number is the expected one (R229, R352): one of up to 256 bytes, and so of a single packet, goes to firmware. -/
def State.takeSend (s : State) (n : Nat) (q : QueuePair) (psn : Nat) (part : PacketPart) (data : List Byte)
    (pageSet : Option (Nat × Nat × List (Nat × Nat × Nat))) : State :=
  if part ≠ .only || q.inbound.isSome || 256 < data.length then s.refuse n 1
  else
    let s := (s.takeRequest n 1).sendRoce n (.roceAck n psn)
    match pageSet with
    | some (layout, offset, pages) => if s.firmwareRuns then s.takePages n layout offset pages else s
    | none => s

/-- A READ request whose number is the expected one (R350, R352). A 17th at a time draws a NAK Invalid Request (R351; PRESUMED, log 155). -/
def State.takeRead (s : State) (n : Nat) (q : QueuePair) (psn addr len rkey : Nat) : State :=
  if q.inbound.isSome || decide (16 ≤ s.readsOut n q) then s.refuse n 1
  else if !stagingOk q addr len rkey then s.refuse n 2
  else (s.takeRequest n (packetsOf q len)).answerRead n q psn addr len

/-- A request packet (R350): of the expected number it is taken; one before it came already, and is acknowledged or answered again; one
after it shows that a packet is missing, and draws a NAK of a sequence error, code 0 (PRESUMED, log 155). -/
def State.onRequest (s : State) (n : Nat) (q : QueuePair) (psn : Nat) (take repeat_ : State → State) : State :=
  if psn = q.recvPsn then take s
  else if psnFrom psn q.recvPsn then s.sendRoce n (.roceNak n 0)
  else repeat_ s

/-- What a queue pair does with a packet (R350 to R353). -/
def State.onPacket (s : State) (n : Nat) (q : QueuePair) (ce : Bool) (packet : RocePacket) : State :=
  let cnp := fun (s : State) => if ce then s.markCnp n q else s
  let last := fun (s : State) => s.sendRoce n (.roceAck n (psnAdd q.recvPsn 16777215))
  match packet with
  | .badIcrc => s.modQp n (fun q => { q with badPackets := q.badPackets + 1 })
  | .read psn addr len rkey =>
    (cnp s).onRequest n q psn (fun s => s.takeRead n q psn addr len rkey)
      (fun s => if stagingOk q addr len rkey then s.answerRead n q psn addr len else s.refuse n 2)
  | .write psn part addr len rkey data =>
    let s := (cnp s).ethIn q.port (3, some n) data
    s.onRequest n q psn (fun s => s.takeWrite n q psn part addr len rkey data) last
  | .send psn part data pageSet => (cnp s).onRequest n q psn (fun s => s.takeSend n q psn part data pageSet) last
  | .ack psn => s.acknowledge n psn
  | .nak psn => s.goBack n psn false
  | .rnrNak psn => s.goBack n psn true
  | .cnp => (s.modQp n (fun q => { q with rate := max (q.rate / 2) (10 ^ 9) })).count 71 1
  | .unsupported => ((cnp s).refuse n 1).modQp n (fun q => { q with error := true })

/-- ROCE_PACKET (R350 to R353). A packet of a pair in its error state has no effect; one of a pair that is not established is a host frame
(R349). -/
def execRocePacket (qp port : Nat) (ce : Bool) (packet : RocePacket) (frame : List Byte) (s : State) : Host.Outcome State Fault Refusal :=
  if 16 ≤ port then .fault .noSuchUnit
  else
    match Map.get? s.net.qps qp with
    | some q => .next (if q.error then s else s.onPacket qp q ce packet)
    | none => .next (s.hostFrameIn port frame)

/-- The local ACK timeout of 4.096 µs × 2^T expires: what is not acknowledged is sent again (R353). -/
def execRoceAckTimeout (qp : Nat) (s : State) : Host.Outcome State Fault Refusal :=
  if 4096 ≤ qp then .fault .noSuchUnit
  else
    match Map.get? s.net.qps qp with
    | some q => .next (s.goBack qp (psnAdd q.ackedPsn 1) false)
    | none => .next s

/-- 50 µs without a CNP raise a pair's send rate by 1/32 of the port rate, up to it (R353). -/
def execRoceRateIncrease (qp : Nat) (s : State) : Host.Outcome State Fault Refusal :=
  if 4096 ≤ qp then .fault .noSuchUnit
  else
    match Map.get? s.net.qps qp with
    | some q =>
      let full := s.portRate q.port
      .next (s.modQp qp (fun q => { q with rate := if q.rate < full then min full (q.rate + full / 32) else q.rate }))
    | none => .next s

end Sys2Proof.Machine
end

