-- ==== Sys2Proof/Machine/Timeline.lean ====
section
/-!
DEFINITION. The events of arrays, footlights, groups and calibration slots, in the places that the schedule gives them (R34 to
R57, R90, R91, R98, R128). An event whose scheduled cycle lies ahead brings the stage cycles up to it; one whose cycle lies
behind has started there (log 28).
-/
namespace Sys2Proof.Machine

/-- Counter value of an offset in a section that runs for a scene (R162). -/
def State.sectionAt (s : State) (sec scene offset : Nat) : Option Nat :=
  (s.fabric.running.find? (fun r => r.index == sec && r.scene == scene)).map (fun r => r.start + offset)

/-- Take the FORMAT hold of an MVM slot in which a 16-plane MVM has started, once for all that start there: as long as the 8-plane
base window (R88). -/
def State.formatHold (s : State) (m : Mvm) : State :=
  if m.start.fmt16 && !m.excess && s.fabric.formatAt != some m.begun then
    { s with fabric := { s.fabric with
      formatLeft := m.start.basePhases / 2 * 64 + 1, formatAt := some m.begun } }.raiseCause 5
  else s

/-- An MVM begins with its first window; the trims installed for its array take effect, and the tile's temperature corrections (R34,
R88, R96, R459). -/
def State.beginMvm (s : State) (t : Nat) (m : Mvm) (input : PhaseIn) : State :=
  ((s.modTile t (fun x => { x.takeTrims m.start.array with
    flReference := s.compensation 1 (s.nearTemp t), integratorBias := s.compensation 2 (s.nearTemp t) })).mvmWindow t m input).formatHold m

/-- The MVM of a slot begins on the tile that serves its position, where the array converts for the scene's epoch and a row has the
slot (R25, R34, R188, R254). -/
def State.startSlot (s : State) (c : CueSheet) (t index scene : Nat) (input : PhaseIn) : State :=
  match c.compiled.mvms[index]? with
  | none => s
  | some slot =>
    match s.sectionAt slot.sec scene slot.start with
    | none => s
    | some at_ =>
      let s := s.advanceTo at_
      match s.slotRow slot scene with
      | none => s
      | some row =>
        if s.servingTile slot.tile = t ∧ s.reached at_ ∧ s.mayStart t slot.array ∧ s.usesArray t slot.array scene row then
          match (s.tile t).badWord (s.vectorSpans slot row scene) with
          | some w => s.sramUe t w [scene]
          | none => s.beginMvm t { s.openMvm c t at_ slot row scene with slot := index, row := row } input
        else s

/-- The MVM of an excess row begins as hold work on its tile, once its additional slot is due (R26, R177). -/
def State.startExcess (s : State) (c : CueSheet) (t : Nat) (input : PhaseIn) : State :=
  match (s.excessDue c).find? (fun e => ((c.compiled.mvms[e.slot]?).map (fun x => s.servingTile x.tile)) == some t) with
  | none => s
  | some e =>
    match c.compiled.mvms[e.slot]? with
    | none => s
    | some slot =>
      if s.clockRuns && Nat.testBit s.fabric.causes 7 && s.mayStart t slot.array then
        let m := s.openMvm c t s.fabric.counter slot e.row e.scene
        ((s.dropExcess e).beginMvm t { m with
          excess := true, slot := e.slot, row := e.row
          start := { m.start with lane := s.excessLane c slot e, deliver := s.excessDeliver slot e } } input).settleExcess
      else s

/-- The MVM in progress takes its next window, where one may start (R34, R45). -/
def State.nextWindow (s : State) (t : Nat) (m : Mvm) (input : PhaseIn) : State :=
  let s := if m.extending || s.holdWork m then s else s.advanceTo m.windowAt
  if m.complete && decide (m.start.basePhases + 12 ≤ m.windows) then s
  else if s.mayPhase m then
    let s := s.mvmWindow t m input
    if m.excess then s.settleExcess else s
  else s

/-- PHASE_WINDOW: one phase window of a tile, the first of a scheduled slot, the first of an excess row, or the next one of the MVM
in progress (R34 to R46, R79, R80). -/
def execPhaseWindow (tile : Nat) (start : Option MvmRef) (input : PhaseIn) (s : State) : Host.Outcome State Fault Refusal :=
  if Config.tiles ≤ tile then .fault .noSuchUnit
  else
    match s.fabric.active with
    | none => .next s
    | some c =>
      match start with
      | some (.slot index scene) => .next (s.startSlot c tile index scene input)
      | some .excess => .next (s.startExcess c tile input)
      | none =>
        match (s.tile tile).mvm with
        | some m => .next (s.nextWindow tile m input)
        | none => .next s

/-- MVM_DELIVERY: the schedule reaches the earliest delivery slot of the results in a tile's output register, and they are delivered
(R49, R126). Those of an excess row wait there for the slot of the array's last compiled MVM (R26, R177; log 125). -/
def execMvmDelivery (tile : Nat) (s : State) : Host.Outcome State Fault Refusal :=
  if Config.tiles ≤ tile then .fault .noSuchUnit
  else
    match (s.tile tile).nextOut with
    | none => .next s
    | some o =>
      let s := s.advanceTo o.deliver
      if s.reached o.deliver then .next (s.deliverDue tile) else .next s

/-- Counter values at which the running sections close a group slot of a tile (R125, R128). -/
def State.closeTimes (s : State) (c : CueSheet) (t slot : Nat) : List Nat :=
  s.fabric.running.flatMap (fun r =>
    (c.compiled.groups.filter (fun g => g.slot == slot && g.sec == r.index && s.servingTile g.tile == t)).map (fun g => g.closes + r.start))

/-- GROUP_CLOSE: the schedule reaches the next close of a tile's open group, which begins to drain behind the contributions of that
cycle (R127, R128). -/
def execGroupClose (tile slot : Nat) (s : State) : Host.Outcome State Fault Refusal :=
  if Config.tiles ≤ tile then .fault .noSuchUnit
  else
    match s.fabric.active with
    | none => .next s
    | some c =>
      match (s.closeTimes c tile slot).filter (fun v => decide (s.fabric.counter ≤ v)) with
      | [] => .next s
      | v :: vs =>
        let at_ := vs.foldl min v
        let s := s.advanceTo at_
        .next (if s.reached at_ then s.beginClose tile slot else s)

/-- A footlight call of the cue sheet acts on the tile that serves its position (R53, R57). -/
def execFootlightCall (call : FlCall) (s : State) : Host.Outcome State Fault Refusal :=
  if Config.tiles ≤ call.tile then .fault .noSuchUnit
  else
    match s.fabric.active with
    | none => .next s
    | some c =>
      if c.calls.any (fun k => k == call) then
        let s := s.advanceTo call.act
        .next (if s.reached call.act then s.footlightCall call else s)
      else .next s

/-- The settle timer completes (R52). -/
def execFlSettled (tile : Nat) (s : State) : Host.Outcome State Fault Refusal :=
  if Config.tiles ≤ tile then .fault .noSuchUnit
  else
    .next (s.modTile tile (fun x =>
      if x.fl.state = .settling then { x with fl := { x.fl with state := .ready, settle := 0 } } else x))

/-- The footlights of a tile power down; one whose phase windows have not passed finds them not READY (R54, R56). -/
def State.powerDownFl (s : State) (t : Nat) : State :=
  let s := (((s.modTile t (fun x => { x with
    fl := { x.fl with state := .off, settle := 0, idle := 300000, holds := [] } })).orReg (tileReg t 0x08) 0x8).count 43 1)
  match (s.tile t).mvm with
  | some m => if m.past s.fabric.counter then s else s.footlightEarly t m
  | none => s

/-- The idle counter reaches 300,000 and the footlights power down (R54): the schedule counter advances to that cycle. A
tile whose footlights are held or off does not power down. -/
def execFlPowerdown (tile : Nat) (s : State) : Host.Outcome State Fault Refusal :=
  if Config.tiles ≤ tile then .fault .noSuchUnit
  else
    let f := (s.tile tile).fl
    if f.state = .off || s.flHeld tile then .next s
    else
      let s := s.advanceTo (s.fabric.counter + (300000 - f.idle))
      .next (if (s.tile tile).fl.idle < 300000 || s.flHeld tile then s else s.powerDownFl tile)

/-- The tests at the end of a monitor window (R90, R91): σ_est is stored, DRIFT and BIAS are tested, either raises STAT_DRIFT and,
with AUTO_EN, queues a run. The last place of σ_est is free (log 7); one of 16 counts or more, which SIGMA_EST cannot hold,
is stored as 0xFFFF (DESIGN CHOICE, log 126). The limit is that of the array that the tile converted last in the window
(DESIGN CHOICE, log 127: R90 does not say whose freshness counts where a tile's arrays differ). -/
def State.endStatWindow (s : State) (t : Nat) (w : Int × Nat × Nat) : State :=
  -- σ_est in units of 2^-12 is the square root of Σd² ÷ 64
  let root := Nat.sqrt (w.2.1 / 64)
  let up := decide (64 * root * root ≠ w.2.1) && Config.roundUp 0 w.2.1
  let est := min 0xFFFF (root + (if up then 1 else 0))
  let l := s.sigmaLim t w.2.2
  let drift := decide (2 ^ 30 * (125 * l) ^ 2 < w.2.1 * 10 ^ 8)
  let bias := decide (2 ^ 30 < 50 * w.1.natAbs)
  let s := (s.setField (tileReg t 0x120) 0 16 est).orReg (tileReg t 0x120)
    ((if drift then 2 ^ 31 else 0) + (if bias then 2 ^ 30 else 0))
  if drift || bias then
    let s := s.raise srcStatDrift 1 t []
    if s.field 0x200 16 1 = 1 then s.queueRun t else s
  else s

/-- STAT_WINDOW_END: the tests of the oldest window of 2^20 groups that has ended (R90, R91). -/
def execStatWindowEnd (tile : Nat) (s : State) : Host.Outcome State Fault Refusal :=
  if Config.tiles ≤ tile then .fault .noSuchUnit
  else
    match (s.tile tile).statEnded with
    | [] => .next s
    | w :: rest => .next ((s.modTile tile (fun x => { x with statEnded := rest })).endStatWindow tile w)

/-- Start of the calibration slot that a tile's run takes next: slot k begins at k × period + offset (R98). It is the slot that has
begun last while that lasts, where it began at `start` or later; and else the one after it. A run that was queued or placed
within a slot waits for the next one (DESIGN CHOICE, log 139). -/
def nextSlot (counter period offset start : Nat) : Nat :=
  if counter < offset ∨ period = 0 then offset
  else
    let last := counter - (counter - offset) % period
    if start ≤ last ∧ counter < last + 4096 then last else last + period

/-- A tile's run takes a calibration slot of 64 windows from counter value `at_` on (R94, R98). -/
def State.runSlot (s : State) (t at_ : Nat) (windows : List CalWindow) : State :=
  let s := if (s.tile t).calQueued && (s.tile t).calRun.isNone then s.startRun t (s.calArrays t) false else s
  match (s.tile t).calRun with
  | none => s
  | some r =>
    if r.direct then s
    else
      let s := s.modTile t (fun x => { x with calFrom := at_ + 1 })
      (windows.take 64).foldl (fun s w => s.calWindow t w) s

/-- CAL_SLOT: the calibration slots of a position recur at its offset in every period; a slot with no queued run stays idle (R98). -/
def execCalSlot (tile : Nat) (windows : List CalWindow) (s : State) : Host.Outcome State Fault Refusal :=
  if Config.tiles ≤ tile then .fault .noSuchUnit
  else
    match s.fabric.active, (s.positionOf tile).filter (fun h => s.servingTile h == tile) with
    | some c, some home =>
      match Map.get? c.compiled.calOffsets home with
      | none => .next s
      | some offset =>
        let at_ := nextSlot s.fabric.counter c.calPeriod offset (s.tile tile).calFrom
        let s := s.advanceTo at_
        .next (if s.reached at_ then s.runSlot tile at_ windows else s)
    | _, _ => .next s

end Sys2Proof.Machine
end

