-- ==== Sys2Proof/Machine/Dispatch.lean ====
section
/-! DEFINITION. The dispatch: one arm for each command, one direct call of its meaning. -/
namespace Sys2Proof.Machine

def exec (i : Instr) (s : State) : Host.Outcome State Fault Refusal :=
  match i with
  | .echo e => Sys2Proof.Machine.execEcho e s
  | .queryInfo e => Sys2Proof.Machine.execQueryInfo e s
  | .playbill e => Sys2Proof.Machine.execPlaybill e s
  | .productionOpen e m => Sys2Proof.Machine.execProductionOpen e m s
  | .productionFetch e arrived => Sys2Proof.Machine.execProductionFetch e arrived s
  | .productionPush e arrived => Sys2Proof.Machine.execProductionPush e arrived s
  | .productionSeal e => Sys2Proof.Machine.execProductionSeal e s
  | .recastRolling e => Sys2Proof.Machine.execRecastRolling e s
  | .recastAbort e => Sys2Proof.Machine.execRecastAbort e s
  | .keyUnwrap e rec => Sys2Proof.Machine.execKeyUnwrap e rec s
  | .cuesheetLoad e sheet => Sys2Proof.Machine.execCuesheetLoad e sheet s
  | .cuesheetActivate e => Sys2Proof.Machine.execCuesheetActivate e s
  | .seqAdmit e rec tokens => Sys2Proof.Machine.execSeqAdmit e rec tokens s
  | .seqAppend e tokens => Sys2Proof.Machine.execSeqAppend e tokens s
  | .seqCancel e => Sys2Proof.Machine.execSeqCancel e s
  | .seqPause e => Sys2Proof.Machine.execSeqPause e s
  | .seqResume e image => Sys2Proof.Machine.execSeqResume e image s
  | .seqEvict e => Sys2Proof.Machine.execSeqEvict e s
  | .prefixPin e => Sys2Proof.Machine.execPrefixPin e s
  | .prefixUnpin e => Sys2Proof.Machine.execPrefixUnpin e s
  | .calRun e => Sys2Proof.Machine.execCalRun e s
  | .calExport e => Sys2Proof.Machine.execCalExport e s
  | .calImport e records => Sys2Proof.Machine.execCalImport e records s
  | .tileFence e => Sys2Proof.Machine.execTileFence e s
  | .tileRestore e => Sys2Proof.Machine.execTileRestore e s
  | .rehearse e => Sys2Proof.Machine.execRehearse e s
  | .rehearseRotation e => Sys2Proof.Machine.execRehearseRotation e s
  | .patternInstall e pack => Sys2Proof.Machine.execPatternInstall e pack s
  | .unitTuneTrim e => Sys2Proof.Machine.execUnitTuneTrim e s
  | .unitTuneStep e => Sys2Proof.Machine.execUnitTuneStep e s
  | .capSet e => Sys2Proof.Machine.execCapSet e s
  | .thermalSet e => Sys2Proof.Machine.execThermalSet e s
  | .chorusGroupSet e records => Sys2Proof.Machine.execChorusGroupSet e records s
  | .portMode e => Sys2Proof.Machine.execPortMode e s
  | .qpEstablish e => Sys2Proof.Machine.execQpEstablish e s
  | .qpDestroy e => Sys2Proof.Machine.execQpDestroy e s
  | .portAddr e => Sys2Proof.Machine.execPortAddr e s
  | .hostRing e => Sys2Proof.Machine.execHostRing e s
  | .counterSnapshot e => Sys2Proof.Machine.execCounterSnapshot e s
  | .ledgerRead e => Sys2Proof.Machine.execLedgerRead e s
  | .faultPolicySet e => Sys2Proof.Machine.execFaultPolicySet e s
  | .unsupportedOpcode e => Sys2Proof.Machine.execUnsupportedOpcode e s
  | .mbxSqTail ring value fetched => Sys2Proof.Machine.execMbxSqTail ring value fetched s
  | .mbxCqHead ring value => Sys2Proof.Machine.execMbxCqHead ring value s
  | .ringEnable ring value => Sys2Proof.Machine.execRingEnable ring value s
  | .ringDisable ring value => Sys2Proof.Machine.execRingDisable ring value s
  | .flHoldForce tile value => Sys2Proof.Machine.execFlHoldForce tile value s
  | .calDataWrite tile value => Sys2Proof.Machine.execCalDataWrite tile value s
  | .calDataRead tile => Sys2Proof.Machine.execCalDataRead tile s
  | .autoEn value => Sys2Proof.Machine.execAutoEn value s
  | .shadowLoRead offset => Sys2Proof.Machine.execShadowLoRead offset s
  | .rcRead offset size => Sys2Proof.Machine.execRcRead offset size s
  | .prmSeqSelect value => Sys2Proof.Machine.execPrmSeqSelect value s
  | .ptpStepHi value => Sys2Proof.Machine.execPtpStepHi value s
  | .glbResetChip value selfTestOk identityOk boot => Sys2Proof.Machine.execGlbResetChip value selfTestOk identityOk boot s
  | .glbResetBlock value => Sys2Proof.Machine.execGlbResetBlock value s
  | .fwsLength value => Sys2Proof.Machine.execFwsLength value s
  | .fwsPiece value => Sys2Proof.Machine.execFwsPiece value s
  | .swTrigger half value => Sys2Proof.Machine.execSwTrigger half value s
  | .cntClear value => Sys2Proof.Machine.execCntClear value s
  | .cntBwCfg window value => Sys2Proof.Machine.execCntBwCfg window value s
  | .chkRunWrite offset value => Sys2Proof.Machine.execChkRunWrite offset value s
  | .chkModeWrite engine value => Sys2Proof.Machine.execChkModeWrite engine value s
  | .netHostTxTail value descriptors => Sys2Proof.Machine.execNetHostTxTail value descriptors s
  | .netHostRxTail value descriptors => Sys2Proof.Machine.execNetHostRxTail value descriptors s
  | .laneCtrl lane value => Sys2Proof.Machine.execLaneCtrl lane value s
  | .registerWrite offset value size high => Sys2Proof.Machine.execRegisterWrite offset value size high s
  | .bar2Access offset write length => Sys2Proof.Machine.execBar2Access offset write length s
  | .coldReset selfTestOk identityOk boot => Sys2Proof.Machine.execColdReset selfTestOk identityOk boot s
  | .fundamentalReset sysRst => Sys2Proof.Machine.execFundamentalReset sysRst s
  | .hotReset => Sys2Proof.Machine.execHotReset s
  | .flr => Sys2Proof.Machine.execFlr s
  | .chipReset selfTestOk identityOk boot => Sys2Proof.Machine.execChipReset selfTestOk identityOk boot s
  | .blockReset kind index => Sys2Proof.Machine.execBlockReset kind index s
  | .blockResetEnd kind index digests => Sys2Proof.Machine.execBlockResetEnd kind index digests s
  | .powerDown => Sys2Proof.Machine.execPowerDown s
  | .railLoss => Sys2Proof.Machine.execRailLoss s
  | .coolantLoss => Sys2Proof.Machine.execCoolantLoss s
  | .pllUnlock => Sys2Proof.Machine.execPllUnlock s
  | .droop row => Sys2Proof.Machine.execDroop row s
  | .droopRecovery => Sys2Proof.Machine.execDroopRecovery s
  | .hkmPass half codes => Sys2Proof.Machine.execHkmPass half codes s
  | .hbmSensorRead temps => Sys2Proof.Machine.execHbmSensorRead temps s
  | .throttleLimitStep => Sys2Proof.Machine.execThrottleLimitStep s
  | .thermtripTimeout => Sys2Proof.Machine.execThermtripTimeout s
  | .injectedSequence half codes => Sys2Proof.Machine.execInjectedSequence half codes s
  | .controlInterval power => Sys2Proof.Machine.execControlInterval power s
  | .bubbleBlock => Sys2Proof.Machine.execBubbleBlock s
  | .rampStep idle => Sys2Proof.Machine.execRampStep idle s
  | .avsTelemetry milliwatts => Sys2Proof.Machine.execAvsTelemetry milliwatts s
  | .avsFault rail => Sys2Proof.Machine.execAvsFault rail s
  | .ageColumnCrossing hours => Sys2Proof.Machine.execAgeColumnCrossing hours s
  | .stepChangeProceed expired => Sys2Proof.Machine.execStepChangeProceed expired s
  | .regulatorReached => Sys2Proof.Machine.execRegulatorReached s
  | .stepSwitch => Sys2Proof.Machine.execStepSwitch s
  | .sectionStart index scene errors => Sys2Proof.Machine.execSectionStart index scene errors s
  | .phaseWindow tile start input => Sys2Proof.Machine.execPhaseWindow tile start input s
  | .mvmDelivery tile => Sys2Proof.Machine.execMvmDelivery tile s
  | .groupClose tile slot => Sys2Proof.Machine.execGroupClose tile slot s
  | .footlightCall call => Sys2Proof.Machine.execFootlightCall call s
  | .flSettled tile => Sys2Proof.Machine.execFlSettled tile s
  | .flPowerdown tile => Sys2Proof.Machine.execFlPowerdown tile s
  | .statWindowEnd tile => Sys2Proof.Machine.execStatWindowEnd tile s
  | .calTrigger half => Sys2Proof.Machine.execCalTrigger half s
  | .calSlot tile windows => Sys2Proof.Machine.execCalSlot tile windows s
  | .calRunComplete tile windows => Sys2Proof.Machine.execCalRunComplete tile windows s
  | .wingSourceIssue rowEnd line target at_ => Sys2Proof.Machine.execWingSourceIssue rowEnd line target at_ s
  | .wingLineReady rowEnd line data => Sys2Proof.Machine.execWingLineReady rowEnd line data s
  | .wingReadyTest rowEnd at_ => Sys2Proof.Machine.execWingReadyTest rowEnd at_ s
  | .wingStall rowEnd => Sys2Proof.Machine.execWingStall rowEnd s
  | .stepDescriptorCompletion rowEnd target alive line => Sys2Proof.Machine.execStepDescriptorCompletion rowEnd target alive line s
  | .sceneForm => Sys2Proof.Machine.execSceneForm s
  | .sceneChange => Sys2Proof.Machine.execSceneChange s
  | .emptySceneChange => Sys2Proof.Machine.execEmptySceneChange s
  | .understudyPrepared tile => Sys2Proof.Machine.execUnderstudyPrepared tile s
  | .understudyArraysReady row east => Sys2Proof.Machine.execUnderstudyArraysReady row east s
  | .faultQuiet source => Sys2Proof.Machine.execFaultQuiet source s
  | .fwWatchdog => Sys2Proof.Machine.execFwWatchdog s
  | .arrayProgrammed tile array verified readbacks => Sys2Proof.Machine.execArrayProgrammed tile array verified readbacks s
  | .drainTimeout => Sys2Proof.Machine.execDrainTimeout s
  | .drainComplete => Sys2Proof.Machine.execDrainComplete s
  | .bootVerify digests => Sys2Proof.Machine.execBootVerify digests s
  | .wearUpdate => Sys2Proof.Machine.execWearUpdate s
  | .pauseCopyDone entry => Sys2Proof.Machine.execPauseCopyDone entry s
  | .resumeComplete entry => Sys2Proof.Machine.execResumeComplete entry s
  | .greenRoomExpiry entry => Sys2Proof.Machine.execGreenRoomExpiry entry s
  | .fwsPieceCopied => Sys2Proof.Machine.execFwsPieceCopied s
  | .firmwareVerified => Sys2Proof.Machine.execFirmwareVerified s
  | .mbxReady => Sys2Proof.Machine.execMbxReady s
  | .laneSignalDetect lane => Sys2Proof.Machine.execLaneSignalDetect lane s
  | .trainingFrame lane control ready snr => Sys2Proof.Machine.execTrainingFrame lane control ready snr s
  | .trainingTimeout lane => Sys2Proof.Machine.execTrainingTimeout lane s
  | .trainingRetry lane => Sys2Proof.Machine.execTrainingRetry lane s
  | .laneLockLoss lane => Sys2Proof.Machine.execLaneLockLoss lane s
  | .chorusFrame ce fcsOk bytes => Sys2Proof.Machine.execChorusFrame ce fcsOk bytes s
  | .rocePacket qp port ce packet frame => Sys2Proof.Machine.execRocePacket qp port ce packet frame s
  | .pfcFrame port classes quanta => Sys2Proof.Machine.execPfcFrame port classes quanta s
  | .pauseFrame port => Sys2Proof.Machine.execPauseFrame port s
  | .hostFrameReceive port frame => Sys2Proof.Machine.execHostFrameReceive port frame s
  | .pfcXoffRepeat port cls occupancy => Sys2Proof.Machine.execPfcXoffRepeat port cls occupancy s
  | .preemptVerify port responded => Sys2Proof.Machine.execPreemptVerify port responded s
  | .roceAckTimeout qp => Sys2Proof.Machine.execRoceAckTimeout qp s
  | .roceRateIncrease qp => Sys2Proof.Machine.execRoceRateIncrease qp s
  | .chorusStepOpen index scene => Sys2Proof.Machine.execChorusStepOpen index scene s
  | .chorusRetxTimer stepNo => Sys2Proof.Machine.execChorusRetxTimer stepNo s
  | .chorusDeadline stepNo => Sys2Proof.Machine.execChorusDeadline stepNo s
  | .lateNotice stepNo => Sys2Proof.Machine.execLateNotice stepNo s
  | .chorusFrameRelease stepNo => Sys2Proof.Machine.execChorusFrameRelease stepNo s
  | .smbusMessage address request => Sys2Proof.Machine.execSmbusMessage address request s
  | .pldmSensorRefresh => Sys2Proof.Machine.execPldmSensorRefresh s
  | .dmaCompletion ring tag poisoned => Sys2Proof.Machine.execDmaCompletion ring tag poisoned s
  | .completionPost ring => Sys2Proof.Machine.execCompletionPost ring s
  | .coalTimer ring => Sys2Proof.Machine.execCoalTimer ring s
  | .bwWindowEnd window bytesA bytesB => Sys2Proof.Machine.execBwWindowEnd window bytesA bytesB s
  | .rehearsalDone result first set digests => Sys2Proof.Machine.execRehearsalDone result first set digests s
  | .rotationStep => Sys2Proof.Machine.execRotationStep s
  | .patternWriteDone ok => Sys2Proof.Machine.execPatternWriteDone ok s
  | .mgmtRefresh => Sys2Proof.Machine.execMgmtRefresh s
  | .pcsAlignment port locked => Sys2Proof.Machine.execPcsAlignment port locked s
  | .pfcPauseExpiry port cls => Sys2Proof.Machine.execPfcPauseExpiry port cls s
  | .coolantOkRestored => Sys2Proof.Machine.execCoolantOkRestored s
  | .perstNDeassert sysRst selfTestOk identityOk boot => Sys2Proof.Machine.execPerstNDeassert sysRst selfTestOk identityOk boot s
  | .pcieConfigWrite write => Sys2Proof.Machine.execPcieConfigWrite write s
  | .pcieLinkError bit => Sys2Proof.Machine.execPcieLinkError bit s
  | .sramScrubAccess tile ecc => Sys2Proof.Machine.execSramScrubAccess tile ecc s
  | .wingOutboundDrain rowEnd => Sys2Proof.Machine.execWingOutboundDrain rowEnd s
  | .counterSaturated index => Sys2Proof.Machine.execCounterSaturated index s
  | .hostFrameTransmitted frame => Sys2Proof.Machine.execHostFrameTransmitted frame s

end Sys2Proof.Machine
end

