-- ==== Sys2Proof/Laws/Memory.lean ====
section
/-!
SUPPORT. Laws of the byte memories and maps of Machine/Ops.lean: every memory operation keeps the canonical form, a read
after a write gives the byte written, a write leaves every other byte alone, and canonical memories that read alike are
equal.
-/
namespace Sys2Proof.Machine

/-- The canonical form as a property of the whole list: addresses strictly rising and no zero byte. -/
theorem memWf_iff (m : List Host.Cell) :
    memWf m = true ↔ m.Pairwise (fun x y => x.1 < y.1) ∧ ∀ e ∈ m, e.2 ≠ 0 := by
  induction m with
  | nil => simp [memWf]
  | cons x m ih =>
    obtain ⟨a, v⟩ := x
    cases m with
    | nil => simp [memWf]
    | cons y m =>
      obtain ⟨b, w⟩ := y
      simp only [memWf, Bool.and_eq_true, bne_iff_ne, decide_eq_true_eq, ih, List.pairwise_cons, List.forall_mem_cons]
      constructor
      · rintro ⟨⟨hv, hab⟩, ⟨hb, hp⟩, hw, hz⟩
        exact ⟨⟨⟨hab, fun e he => Nat.lt_trans hab (hb e he)⟩, hb, hp⟩, hv, hw, hz⟩
      · rintro ⟨⟨⟨hab, _⟩, hb, hp⟩, hv, hw, hz⟩
        exact ⟨⟨hv, hab⟩, ⟨hb, hp⟩, hw, hz⟩

/-- Leaving cells out keeps the canonical form. -/
theorem memWf_filter {m : List Host.Cell} (p : Host.Cell → Bool) (h : memWf m = true) : memWf (m.filter p) = true := by
  rw [memWf_iff] at *
  exact ⟨h.1.filter p, fun e he => h.2 e ((List.mem_filter.1 he).1)⟩

theorem memWf_memErase {m : List Host.Cell} (a : Nat) (h : memWf m = true) : memWf (memErase m a) = true :=
  memWf_filter _ h

/-- The cells of a memory after an insertion are the inserted one and old ones. -/
theorem mem_memInsert {m : List Host.Cell} {a : Nat} {b : Byte} {e : Host.Cell} (h : e ∈ memInsert m a b) :
    e = (a, b) ∨ e ∈ m := by
  induction m with
  | nil => simpa [memInsert] using h
  | cons x m ih =>
    obtain ⟨k, v⟩ := x
    unfold memInsert at h
    split at h
    · simpa using h
    · split at h
      · rcases List.mem_cons.1 h with h | h
        · exact .inl h
        · exact .inr (List.mem_cons_of_mem _ h)
      · rcases List.mem_cons.1 h with h | h
        · exact .inr (h ▸ List.mem_cons_self)
        · exact (ih h).imp id (List.mem_cons_of_mem _)

theorem memWf_memInsert {m : List Host.Cell} (a : Nat) {b : Byte} (hb : b ≠ 0) (h : memWf m = true) :
    memWf (memInsert m a b) = true := by
  rw [memWf_iff] at *
  refine ⟨?_, fun e he => (mem_memInsert he).elim (fun q => q ▸ hb) (h.2 e)⟩
  obtain ⟨h, -⟩ := h
  induction m with
  | nil => simp [memInsert]
  | cons x m ih =>
    obtain ⟨k, v⟩ := x
    obtain ⟨hk, hm⟩ := List.pairwise_cons.1 h
    unfold memInsert
    split
    · next q => exact List.pairwise_cons.2 ⟨fun e he => (List.mem_cons.1 he).elim (fun r => r ▸ q)
        (fun r => Nat.lt_trans q (hk e r)), h⟩
    · next q =>
      split
      · next r => exact List.pairwise_cons.2 ⟨fun e he => r ▸ hk e he, hm⟩
      · next r => exact List.pairwise_cons.2 ⟨fun e he => (mem_memInsert he).elim (fun z => by rw [z]; show k < a; omega)
          (hk e), ih hm⟩

/-- Writing a byte keeps the canonical form. -/
theorem memWf_memWrite {m : List Host.Cell} (a : Nat) (b : Byte) (h : memWf m = true) : memWf (memWrite m a b) = true := by
  unfold memWrite
  split
  · exact memWf_memErase a h
  · next hb => exact memWf_memInsert a hb h

/-- Writing bytes keeps the canonical form. -/
theorem memWf_memWriteList {m : List Host.Cell} (a : Nat) (bs : List Byte) (h : memWf m = true) :
    memWf (memWriteList m a bs) = true := by
  induction bs generalizing m a with
  | nil => exact h
  | cons b bs ih => exact ih (a + 1) (memWf_memWrite a b h)

/-- A byte that no cell lists reads as zero. -/
theorem memRead_of_not_listed {m : List Host.Cell} {a : Nat} (h : ∀ e ∈ m, e.1 ≠ a) : memRead m a = 0 := by
  induction m with
  | nil => rfl
  | cons x m ih =>
    obtain ⟨k, v⟩ := x
    have := h (k, v) List.mem_cons_self
    simp only [memRead]
    rw [if_neg this]
    exact ih (fun e he => h e (List.mem_cons_of_mem _ he))

theorem memRead_memErase (m : List Host.Cell) (a x : Nat) :
    memRead (memErase m a) x = if x = a then 0 else memRead m x := by
  induction m with
  | nil => simp [memErase, memRead]
  | cons y m ih =>
    obtain ⟨k, v⟩ := y
    unfold memErase at *
    by_cases hk : k = a
    · subst hk
      simp only [List.filter_cons, ne_eq, not_true_eq_false, decide_false, Bool.false_eq_true, if_false, ih, memRead]
      split
      · rfl
      · next q => rw [if_neg (Ne.symm q)]
    · simp only [List.filter_cons, ne_eq, hk, not_false_eq_true, decide_true, if_true, memRead, ih]
      split
      · next q => rw [if_neg (by rw [← q]; exact hk)]
      · rfl

theorem memRead_memInsert {m : List Host.Cell} (h : m.Pairwise (fun x y => x.1 < y.1)) (a x : Nat) (b : Byte) :
    memRead (memInsert m a b) x = if x = a then b else memRead m x := by
  induction m with
  | nil => simp only [memInsert, memRead, eq_comm]
  | cons y m ih =>
    obtain ⟨k, v⟩ := y
    obtain ⟨hk, hm⟩ := List.pairwise_cons.1 h
    unfold memInsert
    split
    · simp only [memRead, eq_comm]
    · next q =>
      split
      · next r =>
        subst r
        simp only [memRead]
        by_cases hx : a = x
        · rw [if_pos hx, if_pos hx.symm]
        · rw [if_neg hx, if_neg (Ne.symm hx), if_neg hx]
      · next r =>
        simp only [memRead, ih hm]
        by_cases hx : k = x
        · rw [if_pos hx, if_neg (by omega), if_pos hx]
        · rw [if_neg hx, if_neg hx]

/-- A read after a write of one byte of a canonical memory. -/
theorem memRead_memWrite {m : List Host.Cell} (h : memWf m = true) (a x : Nat) (b : Byte) :
    memRead (memWrite m a b) x = if x = a then b else memRead m x := by
  unfold memWrite
  split
  · next hb => rw [memRead_memErase, hb]
  · exact memRead_memInsert ((memWf_iff m).1 h).1 a x b

/-- A read after a write of bytes: the byte written, or what was there before. -/
theorem memRead_memWriteList {m : List Host.Cell} (h : memWf m = true) (a x : Nat) (bs : List Byte) :
    memRead (memWriteList m a bs) x = if a ≤ x then (bs[x - a]?).getD (memRead m x) else memRead m x := by
  induction bs generalizing m a with
  | nil => simp [memWriteList]
  | cons b bs ih =>
    simp only [memWriteList]
    rw [ih (memWf_memWrite a b h), memRead_memWrite h]
    by_cases h1 : a + 1 ≤ x
    · obtain ⟨d, rfl⟩ := Nat.exists_eq_add_of_le h1
      have e0 : a + 1 + d ≠ a := by omega
      have e3 : a ≤ a + 1 + d := by omega
      rw [if_pos h1, if_pos e3, if_neg e0]
      have e1 : a + 1 + d - (a + 1) = d := by omega
      have e2 : a + 1 + d - a = d + 1 := by omega
      rw [e1, e2, List.getElem?_cons_succ]
    · rw [if_neg h1]
      by_cases h2 : x = a
      · subst h2; simp
      · rw [if_neg h2, if_neg (by omega)]

/-- Reading back the bytes just written gives them. -/
theorem memReadList_memWriteList {m : List Host.Cell} (h : memWf m = true) (a : Nat) (bs : List Byte) :
    memReadList (memWriteList m a bs) a bs.length = bs := by
  have key : ∀ (n : Nat) (b : Nat) (q : List Host.Cell), memReadList q b n = (List.range n).map (fun i => memRead q (b + i)) := by
    intro n
    induction n with
    | zero => intro b q; rfl
    | succ n ih =>
      intro b q
      rw [memReadList, ih, List.range_succ_eq_map, List.map_cons, List.map_map]
      refine congrArg _ (List.map_congr_left (fun i _ => ?_))
      show memRead q (b + 1 + i) = memRead q (b + (i + 1))
      rw [Nat.add_assoc, Nat.add_comm 1 i]
  rw [key]
  refine List.ext_getElem (by simp) (fun i h1 h2 => ?_)
  simp only [List.getElem_map, List.getElem_range]
  rw [memRead_memWriteList h, if_pos (Nat.le_add_right a i)]
  simp [List.getElem?_eq_getElem h2]

/-- A write leaves every byte outside the stored ones as it was. -/
theorem memRead_memWriteList_other {m : List Host.Cell} (h : memWf m = true) (a x : Nat) (bs : List Byte)
    (hx : x < a ∨ a + bs.length ≤ x) : memRead (memWriteList m a bs) x = memRead m x := by
  rw [memRead_memWriteList h]
  split
  · rw [List.getElem?_eq_none (by omega)]; rfl
  · rfl

/-- Canonical memories that read alike are equal data. -/
theorem mem_ext {m n : List Host.Cell} (hm : memWf m = true) (hn : memWf n = true)
    (h : ∀ a, memRead m a = memRead n a) : m = n := by
  induction m generalizing n with
  | nil =>
    cases n with
    | nil => rfl
    | cons y n =>
      have := ((memWf_iff _).1 hn).2 y List.mem_cons_self
      have q := h y.1
      simp only [memRead, if_true] at q
      exact absurd q.symm this
  | cons x m ih =>
    obtain ⟨a, v⟩ := x
    obtain ⟨pm, zm⟩ := (memWf_iff _).1 hm
    obtain ⟨lm, pm⟩ := List.pairwise_cons.1 pm
    cases n with
    | nil =>
      have q := h a
      simp only [memRead, if_true] at q
      exact absurd q (zm (a, v) List.mem_cons_self)
    | cons y n =>
      obtain ⟨b, w⟩ := y
      obtain ⟨pn, zn⟩ := (memWf_iff _).1 hn
      obtain ⟨ln, pn'⟩ := List.pairwise_cons.1 pn
      have hv : v ≠ 0 := zm (a, v) List.mem_cons_self
      have hw : w ≠ 0 := zn (b, w) List.mem_cons_self
      have hab : a = b := by
        rcases Nat.lt_trichotomy a b with q | q | q
        · have r := h a
          simp only [memRead, if_true] at r
          rw [if_neg (by omega), memRead_of_not_listed (fun e he => by have := ln e he; simp only at this; omega)] at r
          exact absurd r hv
        · exact q
        · have r := h b
          simp only [memRead, if_true] at r
          rw [if_neg (by omega), memRead_of_not_listed (fun e he => by have := lm e he; simp only at this; omega)] at r
          exact absurd r.symm hw
      subst hab
      have hvw : v = w := by simpa [memRead] using h a
      subst hvw
      congr 1
      refine ih ((memWf_iff _).2 ⟨pm, fun e he => zm e (List.mem_cons_of_mem _ he)⟩)
        ((memWf_iff _).2 ⟨pn', fun e he => zn e (List.mem_cons_of_mem _ he)⟩) (fun x => ?_)
      by_cases q : a = x
      · subst q
        rw [memRead_of_not_listed (fun e he => by have := lm e he; simp only at this; omega),
          memRead_of_not_listed (fun e he => by have := ln e he; simp only at this; omega)]
      · have r := h x
        simp only [memRead] at r
        rwa [if_neg q, if_neg q] at r

end Sys2Proof.Machine
end

