-- ==== Sys2Proof/Laws/Hbm.lean ====
section
/-!
SUPPORT. What each shared operation does to HBM: it leaves it alone, or keeps its canonical form (memWf).
-/
namespace Sys2Proof.Machine

/-- HBM of a choice between two states. -/
@[simp] theorem ite_hbm {c : Prop} [Decidable c] (a b : State) : (if c then a else b).kv.hbm = if c then a.kv.hbm else b.kv.hbm := by
  split <;> rfl

/-- A fold whose every step leaves HBM alone leaves it alone. -/
@[simp] theorem foldl_hbm {α : Type} (f : State → α → State) (h : ∀ s x, (f s x).kv.hbm = s.kv.hbm) (xs : List α) (s : State) :
    (xs.foldl f s).kv.hbm = s.kv.hbm :=
  List.foldlRecOn xs f (motive := fun t => t.kv.hbm = s.kv.hbm) rfl fun t ht x _ => (h t x).trans ht

/-- A fold over a state and a second value whose every step leaves HBM alone leaves it alone. -/
theorem foldlPair_hbm {α β : Type} (f : State × β → α → State × β) (h : ∀ a x, (f a x).1.kv.hbm = a.1.kv.hbm)
    (xs : List α) (a : State × β) : (xs.foldl f a).1.kv.hbm = a.1.kv.hbm :=
  List.foldlRecOn xs f (motive := fun b => b.1.kv.hbm = a.1.kv.hbm) rfl fun b hb x _ => (h b x).trans hb

/-- A fold whose every step keeps a property keeps it. -/
theorem foldl_keeps {σ α : Type} (P : σ → Prop) (f : σ → α → σ) (h : ∀ s x, P s → P (f s x)) (xs : List α) (s : σ)
    (hs : P s) : P (xs.foldl f s) :=
  List.foldlRecOn xs f hs fun t ht x _ => h t x ht

/-- HBM is in its canonical form. -/
abbrev State.HbmOk (s : State) : Prop := memWf s.kv.hbm = true

/-- Zeroing frames keeps the canonical form. -/
theorem memWf_zeroFrames {m : List Host.Cell} (fs : List Nat) (h : memWf m = true) : memWf (fs.foldl zeroFrame m) = true :=
  foldl_keeps (fun m => memWf m = true) zeroFrame (fun _ _ q => memWf_filter _ q) fs m h

/-- Copying a frame keeps the canonical form. -/
theorem memWf_copyFrame {m : List Host.Cell} (a b : Nat) (h : memWf m = true) : memWf (copyFrame m a b) = true := by
  unfold copyFrame
  refine foldl_keeps (fun m => memWf m = true) _ (fun r e q => ?_) _ _ (memWf_filter _ h)
  split
  · exact memWf_memWrite _ _ q
  · split
    · exact memWf_memWrite _ _ q
    · exact q

/-- A state with the same HBM has it in canonical form too. -/
theorem hbmOk_of_eq {a b : State} (h : a.kv.hbm = b.kv.hbm) (q : b.HbmOk) : a.HbmOk := by
  unfold State.HbmOk
  rw [h]
  exact q

@[simp] theorem State.setTile_hbm (s : State) (t : Nat) (x : Tile) : (State.setTile s t x).kv.hbm = s.kv.hbm := by
  unfold State.setTile
  rfl

@[simp] theorem State.modTile_hbm (s : State) (t : Nat) (f : Tile → Tile) : (State.modTile s t f).kv.hbm = s.kv.hbm := by
  unfold State.modTile
  rfl

@[simp] theorem State.mapTiles_hbm (s : State) (f : Nat → Tile → Tile) : (State.mapTiles s f).kv.hbm = s.kv.hbm := by
  unfold State.mapTiles
  rfl

@[simp] theorem State.modRing_hbm (s : State) (r : Nat) (f : Ring → Ring) : (State.modRing s r f).kv.hbm = s.kv.hbm := by
  unfold State.modRing
  rfl

@[simp] theorem State.modPort_hbm (s : State) (p : Nat) (f : Port → Port) : (State.modPort s p f).kv.hbm = s.kv.hbm := by
  unfold State.modPort
  rfl

@[simp] theorem State.modLane_hbm (s : State) (n : Nat) (f : EthLane → EthLane) : (State.modLane s n f).kv.hbm = s.kv.hbm := by
  unfold State.modLane
  rfl

@[simp] theorem State.setFrame_hbm (s : State) (f : Nat) (x : Frame) : (State.setFrame s f x).kv.hbm = s.kv.hbm := by
  unfold State.setFrame
  rfl

@[simp] theorem State.setSeq_hbm (s : State) (e : Nat) (q : Seq) : (State.setSeq s e q).kv.hbm = s.kv.hbm := by
  unfold State.setSeq
  rfl

@[simp] theorem State.modSeq_hbm (s : State) (e : Nat) (f : Seq → Seq) : (State.modSeq s e f).kv.hbm = s.kv.hbm := by
  unfold State.modSeq
  repeat' split
  all_goals (first | with_reducible rfl | simp)

@[simp] theorem State.modScene_hbm (s : State) (scene : Nat) (f : Scene → Scene) : (State.modScene s scene f).kv.hbm = s.kv.hbm := by
  unfold State.modScene
  rfl

@[simp] theorem State.send_hbm (s : State) (x : Sent) : (State.send s x).kv.hbm = s.kv.hbm := by
  unfold State.send
  rfl

@[simp] theorem State.hostWrite_hbm (s : State) (a : Nat) (bs : List Byte) : (State.hostWrite s a bs).kv.hbm = s.kv.hbm := by
  unfold State.hostWrite
  rfl

@[simp] theorem State.setReg_hbm (s : State) (o v : Nat) : (State.setReg s o v).kv.hbm = s.kv.hbm := by
  unfold State.setReg
  rfl

@[simp] theorem State.orReg_hbm (s : State) (o mask : Nat) : (State.orReg s o mask).kv.hbm = s.kv.hbm := by
  unfold State.orReg
  rfl

@[simp] theorem State.setField_hbm (s : State) (o lo len v : Nat) : (State.setField s o lo len v).kv.hbm = s.kv.hbm := by
  unfold State.setField
  rfl

@[simp] theorem State.clearRegs_hbm (s : State) (p : Nat → Bool) : (State.clearRegs s p).kv.hbm = s.kv.hbm := by
  unfold State.clearRegs
  rfl

@[simp] theorem State.writeReg_hbm (s : State) (o v : Nat) : (State.writeReg s o v).kv.hbm = s.kv.hbm := by
  unfold State.writeReg
  repeat' split
  all_goals (first | with_reducible rfl | simp)

@[simp] theorem State.count_hbm (s : State) (i n : Nat) : (State.count s i n).kv.hbm = s.kv.hbm := by
  unfold State.count
  rfl

@[simp] theorem State.clearGroups_hbm (s : State) (mask : Nat) : (State.clearGroups s mask).kv.hbm = s.kv.hbm := by
  unfold State.clearGroups
  rfl

@[simp] theorem State.takeSnapshot_hbm (s : State) (count : Nat) : (State.takeSnapshot s count).kv.hbm = s.kv.hbm := by
  unfold State.takeSnapshot
  rfl

@[simp] theorem State.setPair_hbm (s : State) (o v : Nat) : (State.setPair s o v).kv.hbm = s.kv.hbm := by
  unfold State.setPair
  rfl

@[simp] theorem State.raiseVector_hbm (s : State) (v : Nat) : (State.raiseVector s v).kv.hbm = s.kv.hbm := by
  simp [State.raiseVector]

@[simp] theorem State.completeTo_hbm (s : State) (ring gen tag : Nat) (st : Status) (result : List Byte) (admits : Bool := false) : (State.completeTo s ring gen tag st result admits).kv.hbm = s.kv.hbm := by
  simp [State.completeTo]

@[simp] theorem State.postRecord_hbm (s : State) (ring tag : Nat) (st : Status) (result : List Byte) : (State.postRecord s ring tag st result).kv.hbm = s.kv.hbm := by
  simp [State.postRecord]

@[simp] theorem State.addJob_hbm (s : State) (ring tag : Nat) (k : JobKind) : (State.addJob s ring tag k).kv.hbm = s.kv.hbm := by
  unfold State.addJob
  rfl

@[simp] theorem State.finishJobs_hbm (s : State) (f : Job → Option (Status × List Byte)) : (State.finishJobs s f).kv.hbm = s.kv.hbm := by
  unfold State.finishJobs
  repeat' (first | with_reducible rfl | (simp; done) | (refine (foldl_hbm _ (fun _ _ => ?_) _ _).trans ?_) | split)

@[simp] theorem State.freeFrames_hbm (s : State) (fs : List Nat) : (State.freeFrames s fs).kv.hbm = s.kv.hbm := by
  unfold State.freeFrames
  rfl

@[simp] theorem State.dropPages_hbm (s : State) (fs : List Nat) : (State.dropPages s fs).kv.hbm = s.kv.hbm := by
  simp [State.dropPages]

@[simp] theorem State.putDir_hbm (s : State) (i : Nat) (d : DirEntry) : (State.putDir s i d).kv.hbm = s.kv.hbm := by
  unfold State.putDir
  rfl

@[simp] theorem State.modDir_hbm (s : State) (i : Nat) (f : DirEntry → DirEntry) : (State.modDir s i f).kv.hbm = s.kv.hbm := by
  unfold State.modDir
  repeat' split
  all_goals (first | with_reducible rfl | simp)

theorem State.modDir_ok (s : State) (i : Nat) (f : DirEntry → DirEntry) (h : s.HbmOk) : (s.modDir i f).HbmOk := by
  unfold State.HbmOk
  rw [State.modDir_hbm]
  exact h

@[simp] theorem State.evictEntry_hbm (s : State) (i : Nat) : (State.evictEntry s i).kv.hbm = s.kv.hbm := by
  unfold State.evictEntry
  dsimp only
  repeat' (first | simp | split)

@[simp] theorem State.evictTree_hbm (s : State) (is : List Nat) : (State.evictTree s is).kv.hbm = s.kv.hbm := by
  simp [State.evictTree]

theorem State.releaseOne_hbm {s s' : State} (h : s.releaseOne = some s') : s'.kv.hbm = s.kv.hbm := by
  unfold State.releaseOne at h
  split at h
  · cases h; simp
  · rw [Option.map_eq_some_iff] at h
    obtain ⟨i, -, rfl⟩ := h
    simp

@[simp] theorem State.makeRoom_hbm (fuel want : Nat) (s : State) : (State.makeRoom fuel want s).kv.hbm = s.kv.hbm := by
  induction fuel generalizing s with
  | zero => rfl
  | succ fuel ih =>
    unfold State.makeRoom
    split
    · rfl
    · split
      · next s' q => rw [ih, State.releaseOne_hbm q]
      · rfl

@[simp] theorem State.stampAnnex_hbm (s : State) (f : Nat) : (State.stampAnnex s f).kv.hbm = s.kv.hbm := by
  unfold State.stampAnnex
  rfl

theorem State.takeFrames_hbmWf (s : State) (ds : List Frame) (h : s.HbmOk) : (s.takeFrames ds).2.HbmOk := by
  unfold State.takeFrames State.HbmOk
  simpa using memWf_zeroFrames _ h

@[simp] theorem State.mapPage_hbm (s : State) (e key f : Nat) : (State.mapPage s e key f).kv.hbm = s.kv.hbm := by
  unfold State.mapPage
  rfl

@[simp] theorem State.dropRefs_hbm (s : State) (e : Nat) : (State.dropRefs s e).kv.hbm = s.kv.hbm := by
  unfold State.dropRefs
  repeat' split
  all_goals (first | with_reducible rfl | simp)

@[simp] theorem State.freeSeqFrames_hbm (s : State) (e : Nat) : (State.freeSeqFrames s e).kv.hbm = s.kv.hbm := by
  simp [State.freeSeqFrames]

@[simp] theorem State.releaseSeq_hbm (s : State) (e : Nat) : (State.releaseSeq s e).kv.hbm = s.kv.hbm := by
  simp [State.releaseSeq]

@[simp] theorem State.seqRecord_hbm (s : State) (e kind : Nat) (st : Status) (count : Nat) (final : Bool) (reason firstPos : Nat) (rest : List Byte) : (State.seqRecord s e kind st count final reason firstPos rest).kv.hbm = s.kv.hbm := by
  unfold State.seqRecord
  repeat' split
  all_goals (first | with_reducible rfl | simp)

@[simp] theorem State.failSeq_hbm (s : State) (e : Nat) (st : Status) : (State.failSeq s e st).kv.hbm = s.kv.hbm := by
  simp [State.failSeq]

@[simp] theorem State.cancelSeq_hbm (s : State) (e : Nat) : (State.cancelSeq s e).kv.hbm = s.kv.hbm := by
  simp [State.cancelSeq]

@[simp] theorem State.failScenes_hbm (s : State) (p : Nat → Bool) (source : Nat) : (State.failScenes s p source).kv.hbm = s.kv.hbm := by
  unfold State.failScenes
  rfl

@[simp] theorem State.elapse_hbm (s : State) (us : Nat) : (State.elapse s us).kv.hbm = s.kv.hbm := by
  unfold State.elapse
  rfl

@[simp] theorem State.ledgerWrite_hbm (s : State) (kind sensor reading : Nat) (rest : List Byte) : (State.ledgerWrite s kind sensor reading rest).kv.hbm = s.kv.hbm := by
  simp [State.ledgerWrite]

@[simp] theorem State.ledgerEvent_hbm (s : State) (kind : Nat) (rest : List Byte) : (State.ledgerEvent s kind rest).kv.hbm = s.kv.hbm := by
  simp [State.ledgerEvent]

@[simp] theorem State.tuneRecord_hbm (s : State) (isStep auto : Bool) (row old new : Nat) : (State.tuneRecord s isStep auto row old new).kv.hbm = s.kv.hbm := by
  simp [State.tuneRecord]

@[simp] theorem State.writeTuning_hbm (s : State) (step : Nat) : (State.writeTuning s step).kv.hbm = s.kv.hbm := by
  simp [State.writeTuning]

@[simp] theorem State.setTrim_hbm (s : State) (row v : Nat) : (State.setTrim s row v).kv.hbm = s.kv.hbm := by
  simp [State.setTrim]

@[simp] theorem State.beginStep_hbm (s : State) (target : Nat) (job : Option Nat) : (State.beginStep s target job).kv.hbm = s.kv.hbm := by
  unfold State.beginStep
  rfl

@[simp] theorem State.compensatePass_hbm (s : State) (half : Nat) : (State.compensatePass s half).kv.hbm = s.kv.hbm := by
  unfold State.compensatePass
  rfl

@[simp] theorem State.markStall_hbm (s : State) : (State.markStall s).kv.hbm = s.kv.hbm := by
  unfold State.markStall
  rfl

@[simp] theorem State.takePhase_hbm (s : State) (tag : Nat) : (State.takePhase s tag).kv.hbm = s.kv.hbm := by
  simp [State.takePhase]

@[simp] theorem State.syncMgmt_hbm (s : State) (ts : List Nat) : (State.syncMgmt s ts).kv.hbm = s.kv.hbm := by
  unfold State.syncMgmt
  rfl

@[simp] theorem State.fatalStop_hbm (s : State) (src kind idx : Nat) : (State.fatalStop s src kind idx).kv.hbm = s.kv.hbm := by
  simp [State.fatalStop]

@[simp] theorem State.raiseBase_hbm (s : State) (src kind idx : Nat) (scenes : List Nat) : (State.raiseBase s src kind idx scenes).kv.hbm = s.kv.hbm := by
  simp [State.raiseBase]

@[simp] theorem State.autoSubstitute_hbm (s : State) (home src : Nat) : (State.autoSubstitute s home src).kv.hbm = s.kv.hbm := by
  unfold State.autoSubstitute
  dsimp only
  repeat' (first | (simp; done) | split)

@[simp] theorem State.moveToBypass_hbm (s : State) (x : Subst) (src : Nat) : (State.moveToBypass s x src).kv.hbm = s.kv.hbm := by
  unfold State.moveToBypass
  rfl

@[simp] theorem State.fenceTile_hbm (s : State) (t : Nat) (on : Bool) : (State.fenceTile s t on).kv.hbm = s.kv.hbm := by
  unfold State.fenceTile
  rfl

@[simp] theorem State.degradeAt_hbm (s : State) (src t : Nat) : (State.degradeAt s src t).kv.hbm = s.kv.hbm := by
  unfold State.degradeAt
  dsimp only
  repeat' (first | (simp; done) | split)

@[simp] theorem State.suspect_hbm (s : State) (row : Nat) : (State.suspect s row).kv.hbm = s.kv.hbm := by
  simp [State.suspect]

@[simp] theorem State.ledgerSettle_hbm (s : State) : (State.ledgerSettle s).kv.hbm = s.kv.hbm := by
  simp [State.ledgerSettle]

@[simp] theorem State.raise_hbm (s : State) (src kind idx : Nat) (scenes : List Nat) : (State.raise s src kind idx scenes).kv.hbm = s.kv.hbm := by
  simp [State.raise]

@[simp] theorem State.refreshCopy_hbm (s : State) : (State.refreshCopy s).kv.hbm = s.kv.hbm := by
  unfold State.refreshCopy
  rfl

@[simp] theorem State.checkFail_hbm (s : State) (place idx : Nat) (scenes : List Nat) : (State.checkFail s place idx scenes).kv.hbm = s.kv.hbm := by
  simp [State.checkFail]

@[simp] theorem State.snoop_hbm (s : State) (e : Nat) (kinds : List (Nat × Option Nat)) (bs : List Byte) : (State.snoop s e kinds bs).kv.hbm = s.kv.hbm := by
  simp [State.snoop]

@[simp] theorem State.dmaRead_hbm (s : State) (tag : Nat) (bs : List Byte) : (State.dmaRead s tag bs).kv.hbm = s.kv.hbm := by
  simp [State.dmaRead]

@[simp] theorem State.dmaWrite_hbm (s : State) (tag a : Nat) (bs : List Byte) : (State.dmaWrite s tag a bs).kv.hbm = s.kv.hbm := by
  simp [State.dmaWrite]

@[simp] theorem State.ethIn_hbm (s : State) (port : Nat) (kind : Nat × Option Nat) (bs : List Byte) : (State.ethIn s port kind bs).kv.hbm = s.kv.hbm := by
  simp [State.ethIn]

@[simp] theorem State.ethOut_hbm (s : State) (port : Nat) (kind : Nat × Option Nat) (bs : List Byte) : (State.ethOut s port kind bs).kv.hbm = s.kv.hbm := by
  simp [State.ethOut]

@[simp] theorem State.chkService_hbm (s : State) : (State.chkService s).kv.hbm = s.kv.hbm := by
  simp [State.chkService]

@[simp] theorem State.popEntry_hbm (s : State) (r : Nat) : (State.popEntry s r).kv.hbm = s.kv.hbm := by
  unfold State.popEntry
  rfl

@[simp] theorem State.nextAlive_hbm (s : State) (r : Nat) : (State.nextAlive s r).kv.hbm = s.kv.hbm := by
  unfold State.nextAlive
  rfl

@[simp] theorem State.mbxEvent_hbm (s : State) (r bit : Nat) : (State.mbxEvent s r bit).kv.hbm = s.kv.hbm := by
  unfold State.mbxEvent
  rfl

@[simp] theorem State.complete_hbm (s : State) (e : Entry) (st : Status) (result : List Byte) : (State.complete s e st result).kv.hbm = s.kv.hbm := by
  simp [State.complete]

theorem runBody_hbmWf (e : Entry) (body : Body) (s : State) (h : (body s).1.HbmOk) : (runBody e body s).HbmOk := by
  unfold runBody State.HbmOk
  split
  · next q => rw [q] at h; simpa using h
  · next q => rw [q] at h; simpa using h

theorem runBody_hbm (e : Entry) (body : Body) (s : State) : (runBody e body s).kv.hbm = (body s).1.kv.hbm := by
  unfold runBody
  split
  · next q => rw [q]; simp
  · next q => rw [q]

@[simp] theorem State.disableRing_hbm (s : State) (r : Nat) : (State.disableRing s r).kv.hbm = s.kv.hbm := by
  unfold State.disableRing
  rfl

@[simp] theorem State.writeShadow_hbm (s : State) (r : Nat) : (State.writeShadow s r).kv.hbm = s.kv.hbm := by
  unfold State.writeShadow
  rfl

@[simp] theorem State.fetchEntries_hbm (s : State) (r : Nat) : (State.fetchEntries s r).kv.hbm = s.kv.hbm := by
  simp [State.fetchEntries]

@[simp] theorem State.signal_hbm (s : State) (r : Nat) : (State.signal s r).kv.hbm = s.kv.hbm := by
  simp [State.signal]

@[simp] theorem State.raiseCause_hbm (s : State) (bit : Nat) : (State.raiseCause s bit).kv.hbm = s.kv.hbm := by
  unfold State.raiseCause
  rfl

@[simp] theorem State.dropCause_hbm (s : State) (bit : Nat) : (State.dropCause s bit).kv.hbm = s.kv.hbm := by
  unfold State.dropCause
  rfl

@[simp] theorem State.tileCycles_hbm (s : State) (at_ n : Nat) : (State.tileCycles s at_ n).kv.hbm = s.kv.hbm := by
  unfold State.tileCycles
  rfl

@[simp] theorem State.handoverCycle_hbm (s : State) : (State.handoverCycle s).kv.hbm = s.kv.hbm := by
  simp [State.handoverCycle]

@[simp] theorem State.noteSat_hbm (s : State) (t scene : Nat) : (State.noteSat s t scene).kv.hbm = s.kv.hbm := by
  simp [State.noteSat]

@[simp] theorem State.noteNan_hbm (s : State) (t scene : Nat) : (State.noteNan s t scene).kv.hbm = s.kv.hbm := by
  simp [State.noteNan]

@[simp] theorem State.take_hbm (s : State) (t : Nat) (a : Arrival) : (State.take s t a).kv.hbm = s.kv.hbm := by
  simp [State.take]

@[simp] theorem State.arrive_hbm (s : State) (t : Nat) (a : Arrival) : (State.arrive s t a).kv.hbm = s.kv.hbm := by
  unfold State.arrive
  rfl

@[simp] theorem State.takeArrivals_hbm (s : State) (t : Nat) : (State.takeArrivals s t).kv.hbm = s.kv.hbm := by
  simp [State.takeArrivals]

@[simp] theorem State.sramWrite_hbm (s : State) (t a : Nat) (bs : List Byte) : (State.sramWrite s t a bs).kv.hbm = s.kv.hbm := by
  unfold State.sramWrite
  rfl

@[simp] theorem State.sramPut_hbm (s : State) (t a n : Nat) (ws : List Nat) : (State.sramPut s t a n ws).kv.hbm = s.kv.hbm := by
  unfold State.sramPut
  rfl

@[simp] theorem State.sramCe_hbm (s : State) (t word : Nat) : (State.sramCe s t word).kv.hbm = s.kv.hbm := by
  simp [State.sramCe]

@[simp] theorem State.sramUe_hbm (s : State) (t word : Nat) (scenes : List Nat) : (State.sramUe s t word scenes).kv.hbm = s.kv.hbm := by
  simp [State.sramUe]

@[simp] theorem State.enableFl_hbm (s : State) (t : Nat) : (State.enableFl s t).kv.hbm = s.kv.hbm := by
  unfold State.enableFl
  rfl

@[simp] theorem State.holdUntilCall_hbm (s : State) (t : Nat) : (State.holdUntilCall s t).kv.hbm = s.kv.hbm := by
  unfold State.holdUntilCall
  rfl

@[simp] theorem State.directLights_hbm (s : State) (t : Nat) (direct : Bool) : (State.directLights s t direct).kv.hbm = s.kv.hbm := by
  simp [State.directLights]

@[simp] theorem State.startRun_hbm (s : State) (t : Nat) (arrays : List Nat) (direct : Bool) : (State.startRun s t arrays direct).kv.hbm = s.kv.hbm := by
  simp [State.startRun]

@[simp] theorem State.continueRun_hbm (s : State) (t : Nat) (r : CalRunState) (direct : Bool) (more : List Nat) : (State.continueRun s t r direct more).kv.hbm = s.kv.hbm := by
  simp [State.continueRun]

@[simp] theorem State.directRun_hbm (s : State) (t : Nat) (arrays : List Nat) : (State.directRun s t arrays).kv.hbm = s.kv.hbm := by
  unfold State.directRun
  dsimp only
  repeat' (first | simp | split)

@[simp] theorem State.leaveSlots_hbm (s : State) (t : Nat) : (State.leaveSlots s t).kv.hbm = s.kv.hbm := by
  unfold State.leaveSlots
  repeat' split
  all_goals (first | with_reducible rfl | simp)

@[simp] theorem State.placeRun_hbm (s : State) (t : Nat) : (State.placeRun s t).kv.hbm = s.kv.hbm := by
  unfold State.placeRun
  repeat' split
  all_goals (first | with_reducible rfl | simp)

@[simp] theorem State.queueRun_hbm (s : State) (t : Nat) : (State.queueRun s t).kv.hbm = s.kv.hbm := by
  simp [State.queueRun]

@[simp] theorem State.startPending_hbm (s : State) (t : Nat) : (State.startPending s t).kv.hbm = s.kv.hbm := by
  simp [State.startPending]

@[simp] theorem State.endRehearsal_hbm (s : State) : (State.endRehearsal s).kv.hbm = s.kv.hbm := by
  unfold State.endRehearsal
  dsimp only
  repeat' (first | simp | split)

@[simp] theorem State.queueHalf_hbm (s : State) (h : Nat) : (s.queueHalf h).kv.hbm = s.kv.hbm := by
  unfold State.queueHalf
  exact foldl_hbm _ (fun _ _ => State.queueRun_hbm ..) _ _

@[simp] theorem State.writeRowSums_hbm (s : State) (t a : Nat) : (State.writeRowSums s t a).kv.hbm = s.kv.hbm := by
  unfold State.writeRowSums
  rfl

@[simp] theorem State.record_hbm (s : State) (code digest : Nat) : (State.record s code digest).kv.hbm = s.kv.hbm := by
  unfold State.record
  rfl

@[simp] theorem State.latchPlaybill_hbm (s : State) : (State.latchPlaybill s).kv.hbm = s.kv.hbm := by
  unfold State.latchPlaybill
  rfl

@[simp] theorem State.monitor_hbm (s : State) (t a : Nat) (d : Int) : (State.monitor s t a d).kv.hbm = s.kv.hbm := by
  simp [State.monitor]

@[simp] theorem State.settleCauses_hbm (s : State) : (State.settleCauses s).kv.hbm = s.kv.hbm := by
  simp [State.settleCauses]

@[simp] theorem State.spoilMvm_hbm (s : State) (t : Nat) (m : Mvm) : (State.spoilMvm s t m).kv.hbm = s.kv.hbm := by
  simp [State.spoilMvm]

@[simp] theorem State.exhaust_hbm (s : State) (t : Nat) (m : Mvm) (cause group plane quarter : Nat) : (State.exhaust s t m cause group plane quarter).kv.hbm = s.kv.hbm := by
  simp [State.exhaust]

@[simp] theorem State.leaveLife_hbm (s : State) (t a : Nat) : (State.leaveLife s t a).kv.hbm = s.kv.hbm := by
  simp [State.leaveLife]

@[simp] theorem State.trendAdd_hbm (s : State) (t a conversions encores : Nat) : (State.trendAdd s t a conversions encores).kv.hbm = s.kv.hbm := by
  simp [State.trendAdd]

@[simp] theorem State.finishMvm_hbm (s : State) (t : Nat) (m : Mvm) : (State.finishMvm s t m).kv.hbm = s.kv.hbm := by
  simp [State.finishMvm]

@[simp] theorem State.noteFlagged_hbm (s : State) (t : Nat) (m : Mvm) (rows plane group : Nat) (vs : List Int) : (State.noteFlagged s t m rows plane group vs).kv.hbm = s.kv.hbm := by
  unfold State.noteFlagged
  dsimp only
  repeat' (first | (simp; done) | split)

@[simp] theorem State.resolve_hbm (s : State) (t : Nat) (m : Mvm) (lo rows plane group window : Nat) (base : Bool)
    (input : PhaseIn) : (s.resolve t m lo rows plane group window base input).1.kv.hbm = s.kv.hbm := by
  unfold State.resolve
  dsimp only
  split
  · split <;> simp
  · simp
  · split
    · simp
    · split <;> simp

@[simp] theorem State.keepMvm_hbm (s : State) (t : Nat) (m : Mvm) : (State.keepMvm s t m).kv.hbm = s.kv.hbm := by
  simp [State.keepMvm]

@[simp] theorem State.taint_hbm (s : State) (t : Nat) (m : Mvm) : (State.taint s t m).kv.hbm = s.kv.hbm := by
  simp [State.taint]

@[simp] theorem State.untaint_hbm (s : State) (m : Mvm) : (State.untaint s m).kv.hbm = s.kv.hbm := by
  simp [State.untaint]

@[simp] theorem State.runPhase_hbm (s : State) (t : Nat) (m m' : Mvm) (lo rows plane group : Nat) (base : Bool)
    (input : PhaseIn) : (s.runPhase t m m' lo rows plane group base input).kv.hbm = s.kv.hbm := by
  unfold State.runPhase
  dsimp only
  split
  · simp
  · split
    · simp
    · split
      all_goals
        next q =>
          have r := congrArg (fun a => a.1.kv.hbm) q
          simp only [State.resolve_hbm] at r
          simp at r
          simp [← r]

@[simp] theorem State.pieceWindow_hbm (s : State) (t : Nat) (m : Mvm) (input : PhaseIn) : (State.pieceWindow s t m input).kv.hbm = s.kv.hbm := by
  unfold State.pieceWindow
  dsimp only
  repeat' (first | (simp; done) | split)

@[simp] theorem State.footlightEarly_hbm (s : State) (t : Nat) (m : Mvm) : (State.footlightEarly s t m).kv.hbm = s.kv.hbm := by
  simp [State.footlightEarly]

@[simp] theorem State.mvmWindow_hbm (s : State) (t : Nat) (m : Mvm) (input : PhaseIn) : (State.mvmWindow s t m input).kv.hbm = s.kv.hbm := by
  simp [State.mvmWindow]

@[simp] theorem State.installRecord_hbm (s : State) (t : Nat) (r : List Byte) : (State.installRecord s t r).kv.hbm = s.kv.hbm := by
  simp [State.installRecord]

@[simp] theorem State.calNext_hbm (s : State) (t : Nat) : (State.calNext s t).kv.hbm = s.kv.hbm := by
  unfold State.calNext
  rfl

@[simp] theorem State.calExact_hbm (s : State) (t a : Nat) (r : CalRunState) (w : CalWindow) : (State.calExact s t a r w).kv.hbm = s.kv.hbm := by
  unfold State.calExact
  rfl

@[simp] theorem State.calPerformance_hbm (s : State) (t a : Nat) (r : CalRunState) (w : CalWindow) : (State.calPerformance s t a r w).kv.hbm = s.kv.hbm := by
  unfold State.calPerformance
  rfl

@[simp] theorem State.calWindow_hbm (s : State) (t : Nat) (w : CalWindow) : (State.calWindow s t w).kv.hbm = s.kv.hbm := by
  unfold State.calWindow
  repeat' split
  all_goals (first | with_reducible rfl | simp)

@[simp] theorem State.applyFit_hbm (s : State) (t a : Nat) (r : CalRunState) : (s.applyFit t a r).kv.hbm = s.kv.hbm := by
  unfold State.applyFit
  dsimp only
  split
  · exact State.modTile_hbm ..
  · simp only [State.raise_hbm, State.count_hbm, State.modTile_hbm]

@[simp] theorem State.endRun_hbm (s : State) (t : Nat) : (State.endRun s t).kv.hbm = s.kv.hbm := by
  simp [State.endRun]

@[simp] theorem State.egress_hbm (s : State) (port cls : Nat) (x : Sent) : (State.egress s port cls x).kv.hbm = s.kv.hbm := by
  simp [State.egress]

@[simp] theorem State.releasePort_hbm (port fuel : Nat) (s : State) : (State.releasePort port fuel s).kv.hbm = s.kv.hbm := by
  induction fuel generalizing s with
  | zero => rfl
  | succ fuel ih =>
    unfold State.releasePort
    dsimp only
    split
    · split <;> simp
    · rw [ih, State.send_hbm, State.modPort_hbm]

@[simp] theorem State.resumePort_hbm (s : State) (port classes : Nat) : (State.resumePort s port classes).kv.hbm = s.kv.hbm := by
  simp [State.resumePort]

@[simp] theorem State.sendRoce_hbm (s : State) (qp : Nat) (x : Sent) : (State.sendRoce s qp x).kv.hbm = s.kv.hbm := by
  simp [State.sendRoce]

@[simp] theorem State.sendFrame_hbm (s : State) (g : ChorusGroup) (udp : Nat) (k : Kept) (body : List Byte) : (State.sendFrame s g udp k body).kv.hbm = s.kv.hbm := by
  simp [State.sendFrame]

@[simp] theorem State.chorusSend_hbm (s : State) (i step : Nat) (k : Kept) (length format extend : Nat) :
    (s.chorusSend i step k length format extend).1.kv.hbm = s.kv.hbm := by
  unfold State.chorusSend
  split <;> simp

@[simp] theorem State.modStep_hbm (s : State) (n : Nat) (f : Step → Step) : (State.modStep s n f).kv.hbm = s.kv.hbm := by
  unfold State.modStep
  rfl

@[simp] theorem State.sendStep_hbm (s : State) (i : Nat) (x : Step) (ks : List Kept) :
    (s.sendStep i x ks).kv.hbm = s.kv.hbm := by
  unfold State.sendStep
  simp only [State.modStep_hbm]
  exact foldlPair_hbm _ (fun _ _ => by simp) _ _

@[simp] theorem State.gather_hbm (s : State) (i : Nat) (g : ChorusGroup) (x : Step) : (State.gather s i g x).kv.hbm = s.kv.hbm := by
  simp [State.gather]

@[simp] theorem State.stepProgress_hbm (s : State) (n : Nat) : (State.stepProgress s n).kv.hbm = s.kv.hbm := by
  unfold State.stepProgress
  dsimp only
  repeat' (first | (simp; done) | split)

@[simp] theorem State.chorusOwn_hbm (s : State) (n : Nat) (own : List Byte) : (State.chorusOwn s n own).kv.hbm = s.kv.hbm := by
  simp [State.chorusOwn]

@[simp] theorem State.failStep_hbm (s : State) (x : Step) (src cause member : Nat) : (State.failStep s x src cause member).kv.hbm = s.kv.hbm := by
  unfold State.failStep
  dsimp only
  repeat' (first | (simp; done) | split)

@[simp] theorem State.sendScene_hbm (s : State) (x : SceneDesc) : (s.sendScene x).kv.hbm = s.kv.hbm := by
  unfold State.sendScene
  split
  · rfl
  · refine foldlPair_hbm _ (fun _ _ => ?_) _ _
    exact State.chorusSend_hbm ..

@[simp] theorem State.openGroup_hbm (s : State) (t scene : Nat) (g : GroupSlot) (key : List Byte) : (State.openGroup s t scene g key).kv.hbm = s.kv.hbm := by
  unfold State.openGroup
  rfl

@[simp] theorem State.macIssue_hbm (s : State) (t sec scene lane : Nat) (m : MacMode) (a b : Nat) : (State.macIssue s t sec scene lane m a b).kv.hbm = s.kv.hbm := by
  unfold State.macIssue
  rfl

@[simp] theorem State.outlierAdd_hbm (s : State) (t sec scene lane col count xs slots : Nat) (int2 : Bool) (weight : Nat → Nat → Int) : (State.outlierAdd s t sec scene lane col count xs slots int2 weight).kv.hbm = s.kv.hbm := by
  unfold State.outlierAdd
  rfl

@[simp] theorem State.buildTable_hbm (s : State) (t scene table i : Nat) (v : VecRef) : (State.buildTable s t scene table i v).kv.hbm = s.kv.hbm := by
  unfold State.buildTable
  rfl

@[simp] theorem State.lookupAdd_hbm (s : State) (t sec scene table lane : Nat) (v : VecRef) (int2 : Bool) (ws : Nat → List Int) : (State.lookupAdd s t sec scene table lane v int2 ws).kv.hbm = s.kv.hbm := by
  unfold State.lookupAdd
  rfl

@[simp] theorem State.quantise_hbm (s : State) (t scene src n : Nat) (v : VecRef) (scale : Nat) (slotRows : List Nat) (k : Nat) : (State.quantise s t scene src n v scale slotRows k).kv.hbm = s.kv.hbm := by
  simp [State.quantise]

@[simp] theorem State.setTri_hbm (s : State) (t scene addr : Nat) (v : Tri) : (State.setTri s t scene addr v).kv.hbm = s.kv.hbm := by
  simp [State.setTri]

@[simp] theorem State.closeInto_hbm (s : State) (t scene addr : Nat) (target : CloseTarget) (fp : Bool) (key : List Byte) (element : Nat) (ws : List Nat) : (State.closeInto s t scene addr target fp key element ws).kv.hbm = s.kv.hbm := by
  simp [State.closeInto]

@[simp] theorem State.outputTri_hbm (s : State) (t scene tri dim addr : Nat) (target : CloseTarget) (key : List Byte) (element : Nat) : (State.outputTri s t scene tri dim addr target key element).kv.hbm = s.kv.hbm := by
  simp [State.outputTri]

@[simp] theorem State.beginClose_hbm (s : State) (t slot : Nat) : (State.beginClose s t slot).kv.hbm = s.kv.hbm := by
  unfold State.beginClose
  rfl

@[simp] theorem State.drainGroup_hbm (s : State) (t slot : Nat) (g : AccGroup) (n : Nat) : (State.drainGroup s t slot g n).kv.hbm = s.kv.hbm := by
  simp [State.drainGroup]

@[simp] theorem State.drainGroups_hbm (s : State) (t : Nat) : (State.drainGroups s t).kv.hbm = s.kv.hbm := by
  unfold State.drainGroups
  repeat' (first | with_reducible rfl | simp | (refine (foldl_hbm _ (fun _ _ => ?_) _ _).trans ?_) | split)

@[simp] theorem State.scrubWord_hbm (s : State) (tile ecc : Nat) : (State.scrubWord s tile ecc).kv.hbm = s.kv.hbm := by
  simp [State.scrubWord]

@[simp] theorem State.writeLogits_hbm (s : State) (q : Seq) (d : Delivered) : (State.writeLogits s q d).kv.hbm = s.kv.hbm := by
  simp [State.writeLogits]

theorem State.hbmWrite_hbmWf (s : State) (f a : Nat) (bs : List Byte) (h : s.HbmOk) : (s.hbmWrite f a bs).HbmOk := by
  unfold State.hbmWrite State.HbmOk
  simpa using memWf_memWriteList _ _ h

@[simp] theorem State.hbmRead_hbm (s : State) (f a n : Nat) : (s.hbmRead f a n).1.kv.hbm = s.kv.hbm := by
  unfold State.hbmRead
  simp

theorem State.sealChunk_hbmWf (s : State) (m : Model) (f head pos : Nat) (major : Bool) (h : s.HbmOk) :
    (s.sealChunk m f head pos major).HbmOk := memWf_memWriteList _ _ h

theorem State.advanceRing_hbmWf (s : State) (m : Model) (f layer pos : Nat) (h : s.HbmOk) :
    (s.advanceRing m f layer pos).HbmOk := by
  unfold State.advanceRing
  dsimp only
  split
  · exact h
  · exact memWf_filter _ h

@[simp] theorem State.writePlane_hbmWf (s : State) (entry layer plane head pos : Nat) (slices : List Byte) (scale : Option Nat) (h : s.HbmOk) : (State.writePlane s entry layer plane head pos slices scale).HbmOk := by
  unfold State.writePlane
  repeat' (first
    | assumption
    | with_reducible refine hbmOk_of_eq (State.setFrame_hbm ..) ?_
    | with_reducible apply State.hbmWrite_hbmWf
    | with_reducible apply State.sealChunk_hbmWf
    | with_reducible apply State.advanceRing_hbmWf
    | with_reducible apply memWf_memWriteList
    | with_reducible apply memWf_memWrite
    | with_reducible apply memWf_filter
    | with_reducible apply memWf_copyFrame
    | with_reducible apply memWf_zeroFrames
    | with_reducible refine foldl_keeps State.HbmOk _ (fun _ _ _ => ?_) _ _ ?_
    | split
    | dsimp only
    | (simp [*]; done)
    )

theorem State.candWrite_hbmWf (s : State) (frames : List Nat) (off : Nat) (bs : List Byte) (h : s.HbmOk) :
    (s.candWrite frames off bs).HbmOk :=
  foldl_keeps (fun m => memWf m = true) _ (fun _ _ q => memWf_memWrite _ _ q) _ _ h

@[simp] theorem State.writePuts_hbmWf (s : State) (puts : List KvPut) (h : s.HbmOk) : (State.writePuts s puts).HbmOk := by
  unfold State.writePuts
  repeat' (first
    | assumption
    | with_reducible apply State.writePlane_hbmWf
    | with_reducible apply memWf_memWriteList
    | with_reducible apply memWf_memWrite
    | with_reducible apply memWf_filter
    | with_reducible apply memWf_copyFrame
    | with_reducible apply memWf_zeroFrames
    | with_reducible refine foldl_keeps State.HbmOk _ (fun _ _ _ => ?_) _ _ ?_)

@[simp] theorem State.settleWrites_hbmWf (s : State) (scene layer : Nat) (h : s.HbmOk) : (State.settleWrites s scene layer).HbmOk := by
  unfold State.settleWrites
  repeat' (first
    | assumption
    | with_reducible apply State.writePuts_hbmWf
    | with_reducible apply memWf_memWriteList
    | with_reducible apply memWf_memWrite
    | with_reducible apply memWf_filter
    | with_reducible apply memWf_copyFrame
    | with_reducible apply memWf_zeroFrames
    | with_reducible refine foldl_keeps State.HbmOk _ (fun _ _ _ => ?_) _ _ ?_
    | split
    | dsimp only)

@[simp] theorem State.kvQuantise_hbmWf (s : State) (t scene row : Nat) (ar : AttRecord) (head : Nat) (value : Bool) (src : Nat) (o : OwnArea) (h : s.HbmOk) : (State.kvQuantise s t scene row ar head value src o).HbmOk := by
  unfold State.kvQuantise
  repeat' (first
    | assumption
    | with_reducible refine hbmOk_of_eq (State.orReg_hbm ..) ?_
    | with_reducible refine hbmOk_of_eq (State.noteNan_hbm ..) ?_
    | with_reducible refine hbmOk_of_eq (State.sramWrite_hbm ..) ?_
    | with_reducible refine hbmOk_of_eq (State.sramPut_hbm ..) ?_
    | with_reducible apply State.settleWrites_hbmWf
    | with_reducible apply memWf_memWriteList
    | with_reducible apply memWf_memWrite
    | with_reducible apply memWf_filter
    | with_reducible apply memWf_copyFrame
    | with_reducible apply memWf_zeroFrames
    | with_reducible refine foldl_keeps State.HbmOk _ (fun _ _ _ => ?_) _ _ ?_
    | split
    | dsimp only
    | (simp [*]; done)
    )

@[simp] theorem State.candPut_hbmWf (s : State) (entry layer head node : Nat) (anchor : Bool) (k v : List Int) (sk sv : Nat) (h : s.HbmOk) : (State.candPut s entry layer head node anchor k v sk sv).HbmOk := by
  unfold State.candPut
  repeat' (first
    | assumption
    | with_reducible apply State.candWrite_hbmWf
    | with_reducible apply memWf_memWriteList
    | with_reducible apply memWf_memWrite
    | with_reducible apply memWf_filter
    | with_reducible apply memWf_copyFrame
    | with_reducible apply memWf_zeroFrames
    | with_reducible refine foldl_keeps State.HbmOk _ (fun _ _ _ => ?_) _ _ ?_)

@[simp] theorem State.kvWrite_hbmWf (s : State) (t scene row : Nat) (ar : AttRecord) (head : Nat) (o : OwnArea) (h : s.HbmOk) :
    (s.kvWrite t scene row ar head o).HbmOk := by
  unfold State.kvWrite
  dsimp only
  split
  · exact h
  · split
    · exact h
    · split
      · exact State.candPut_hbmWf _ _ _ _ _ _ _ _ _ _ h
      · exact hbmOk_of_eq (State.modScene_hbm ..) h

theorem State.commitNode_hbmWf (s : State) (entry node pos : Nat) (h : s.HbmOk) : (s.commitNode entry node pos).HbmOk := by
  unfold State.commitNode
  exact foldl_keeps State.HbmOk _ (fun _ _ q => foldl_keeps State.HbmOk _ (fun _ _ q => foldl_keeps State.HbmOk _
    (fun _ _ q => State.writePlane_hbmWf _ _ _ _ _ _ _ _ q) _ _ q) _ _ q) _ _ h

@[simp] theorem State.kvCheckFail_hbm (s : State) (index kind : Nat) (scenes : List Nat) : (State.kvCheckFail s index kind scenes).kv.hbm = s.kv.hbm := by
  simp [State.kvCheckFail]

@[simp] theorem State.checkEntries_hbm (s : State) (is : List Nat) : (State.checkEntries s is).kv.hbm = s.kv.hbm := by
  simp [State.checkEntries]

@[simp] theorem State.roomFor_hbm (s : State) : (State.roomFor s).kv.hbm = s.kv.hbm := by
  simp [State.roomFor]

theorem State.checkPages_hbm (s : State) (fs : List Nat) : (s.checkPages fs).2.kv.hbm = s.kv.hbm := by
  unfold State.checkPages
  split
  · exact State.kvCheckFail_hbm ..
  · rfl

@[simp] theorem State.fetchBlocks_hbm (s : State) (scene : Nat) (c : RowCtx) (significant : List Nat) : (State.fetchBlocks s scene c significant).kv.hbm = s.kv.hbm := by
  simp [State.fetchBlocks]

@[simp] theorem State.attend_hbmWf (s : State) (t scene tri row : Nat) (ar : AttRecord) (head q : Nat) (o : OwnArea) (h : s.HbmOk) : (State.attend s t scene tri row ar head q o).HbmOk := by
  unfold State.attend
  repeat' (first
    | assumption
    | with_reducible refine hbmOk_of_eq (State.setTri_hbm ..) ?_
    | with_reducible apply State.settleWrites_hbmWf
    | with_reducible refine hbmOk_of_eq (State.kvCheckFail_hbm ..) ?_
    | with_reducible refine hbmOk_of_eq (State.fetchBlocks_hbm ..) ?_
    | with_reducible apply memWf_memWriteList
    | with_reducible apply memWf_memWrite
    | with_reducible apply memWf_filter
    | with_reducible apply memWf_copyFrame
    | with_reducible apply memWf_zeroFrames
    | with_reducible refine foldl_keeps State.HbmOk _ (fun _ _ _ => ?_) _ _ ?_
    | split
    | dsimp only)

@[simp] theorem State.mergeAt_hbm (s : State) (t scene : Nat) (ar : AttRecord) (level dst src : Nat) : (State.mergeAt s t scene ar level dst src).kv.hbm = s.kv.hbm := by
  simp [State.mergeAt]

theorem State.lookupEntry_hbm (s : State) (h : Nat × Nat) : (s.lookupEntry h).2.kv.hbm = s.kv.hbm := by
  unfold State.lookupEntry
  cases s.findEntry h with
  | none => rfl
  | some i =>
    dsimp only
    split
    · rfl
    · exact State.kvCheckFail_hbm ..

@[simp] theorem State.journalWrite_hbm (s : State) (t a : Nat) (f : JournalSlot → JournalSlot) : (State.journalWrite s t a f).kv.hbm = s.kv.hbm := by
  simp [State.journalWrite]

@[simp] theorem State.restream_hbm (s : State) (t : Nat) : (State.restream s t).kv.hbm = s.kv.hbm := by
  unfold State.restream
  dsimp only
  repeat' (first | (simp; done) | split)

@[simp] theorem State.setValid_hbm (s : State) (t a : Nat) (on : Bool) : (State.setValid s t a on).kv.hbm = s.kv.hbm := by
  simp [State.setValid]

@[simp] theorem State.leaveLeft_hbm (s : State) (t a : Nat) : (State.leaveLeft s t a).kv.hbm = s.kv.hbm := by
  unfold State.leaveLeft
  rfl

@[simp] theorem State.tally_hbm (s : State) (changed : Bool) : (State.tally s changed).kv.hbm = s.kv.hbm := by
  unfold State.tally
  rfl

@[simp] theorem State.noteShape_hbm (s : State) (t a shape : Nat) : (State.noteShape s t a shape).kv.hbm = s.kv.hbm := by
  unfold State.noteShape
  rfl

@[simp] theorem State.writeArrInfo_hbm (s : State) (t : Nat) (x : Tensor) (p : Placement) : (State.writeArrInfo s t x p).kv.hbm = s.kv.hbm := by
  unfold State.writeArrInfo
  rfl

@[simp] theorem State.fillArea_hbm (s : State) (t : Nat) (c : Copy) (x : Tensor) (p : Placement) : (State.fillArea s t c x p).kv.hbm = s.kv.hbm := by
  simp [State.fillArea]

@[simp] theorem State.fillArray_hbm (s : State) (t : Nat) (c : Copy) (x : Tensor) (p : Placement) : (State.fillArray s t c x p).kv.hbm = s.kv.hbm := by
  simp [State.fillArray]

@[simp] theorem State.beginArray_hbm (s : State) (t : Nat) (p : Placement) (c : Copy) (d format : Nat) : (State.beginArray s t p c d format).kv.hbm = s.kv.hbm := by
  unfold State.beginArray
  dsimp only
  repeat' (first | (simp; done) | split)

@[simp] theorem State.adopt_hbm (s : State) (t : Nat) (p : Placement) (c : Copy) (x : Tensor) (d : Nat) :
    (s.adopt t p c x d).kv.hbm = s.kv.hbm := by
  unfold State.adopt
  rw [State.writeRowSums_hbm, State.writeArrInfo_hbm, State.journalWrite_hbm]

@[simp] theorem State.failArray_hbm (s : State) (t a : Nat) (f : JournalSlot → JournalSlot) : (State.failArray s t a f).kv.hbm = s.kv.hbm := by
  simp [State.failArray]

@[simp] theorem State.startArray_hbm (s : State) (t : Nat) (p : Placement) (c : Copy) : (State.startArray s t p c).kv.hbm = s.kv.hbm := by
  unfold State.startArray
  dsimp only
  repeat' (first | (simp; done) | split)

@[simp] theorem State.pumpArrays_hbm (fuel : Nat) (s : State) : (State.pumpArrays fuel s).kv.hbm = s.kv.hbm := by
  induction fuel generalizing s with
  | zero => rfl
  | succ fuel ih =>
    unfold State.pumpArrays
    dsimp only
    split
    · rfl
    · split
      · rw [ih, State.startArray_hbm]
      · rfl

@[simp] theorem State.pump_hbm (s : State) : s.pump.kv.hbm = s.kv.hbm := by
  unfold State.pump
  rw [ite_hbm, State.pumpArrays_hbm, ite_self]

@[simp] theorem State.modRouter_hbm (s : State) (t : Nat) (f : Router → Router) : (State.modRouter s t f).kv.hbm = s.kv.hbm := by
  unfold State.modRouter
  rfl

@[simp] theorem State.toInput_hbm (s : State) (t code at_ : Nat) (f : Flit) : (State.toInput s t code at_ f).kv.hbm = s.kv.hbm := by
  simp [State.toInput]

@[simp] theorem State.modWing_hbm (s : State) (r : Nat) (f : Wing → Wing) : (State.modWing s r f).kv.hbm = s.kv.hbm := by
  unfold State.modWing
  rfl

@[simp] theorem State.outHop_hbm (s : State) (t out at_ : Nat) (f : Flit) : (State.outHop s t out at_ f).kv.hbm = s.kv.hbm := by
  unfold State.outHop
  repeat' split
  all_goals (first | with_reducible rfl | simp)

@[simp] theorem State.wingTake_hbm (s : State) (rowEnd now : Nat) (f : Flit) : (State.wingTake s rowEnd now f).kv.hbm = s.kv.hbm := by
  unfold State.wingTake
  dsimp only
  repeat' (first | (simp; done) | split)

@[simp] theorem State.deliver_hbm (s : State) (home : Nat) (slot : LocalSlot) (f : Flit) : (State.deliver s home slot f).kv.hbm = s.kv.hbm := by
  unfold State.deliver
  dsimp only
  repeat' (first | simp | split)

@[simp] theorem State.modSubLanes_hbm (s : State) (under : Nat) (f : List LaneFlit → List LaneFlit) : (State.modSubLanes s under f).kv.hbm = s.kv.hbm := by
  unfold State.modSubLanes
  rfl

@[simp] theorem State.toLane_hbm (s : State) (home : Nat) (way : LaneWay) (sub due : Nat) (f : Flit) : (State.toLane s home way sub due f).kv.hbm = s.kv.hbm := by
  simp [State.toLane]

@[simp] theorem State.passLane_hbm (s : State) (home now : Nat) (input : Bool) : (State.passLane s home now input).kv.hbm = s.kv.hbm := by
  unfold State.passLane
  rfl

@[simp] theorem State.drainDelay_hbm (s : State) (home now : Nat) (slot : LocalSlot) : (State.drainDelay s home now slot).kv.hbm = s.kv.hbm := by
  simp [State.drainDelay]

@[simp] theorem State.selectOutput_hbm (s : State) (home now out nibble : Nat) (source : Nat → Option Flit) : (State.selectOutput s home now out nibble source).kv.hbm = s.kv.hbm := by
  unfold State.selectOutput
  repeat' split
  all_goals (first | with_reducible rfl | simp)

@[simp] theorem State.forwardStraight_hbm (s : State) (home now : Nat) (here : List (Nat × Nat × Flit)) : (State.forwardStraight s home now here).kv.hbm = s.kv.hbm := by
  unfold State.forwardStraight
  rfl

@[simp] theorem State.copyInputs_hbm (s : State) (home now : Nat) (here : List (Nat × Nat × Flit)) : (State.copyInputs s home now here).kv.hbm = s.kv.hbm := by
  simp [State.copyInputs]

@[simp] theorem State.setSequencer_hbm (s : State) (home : Nat) (q : Sequencer) : (State.setSequencer s home q).kv.hbm = s.kv.hbm := by
  unfold State.setSequencer
  repeat' split
  all_goals (first | with_reducible rfl | simp)

@[simp] theorem State.aluWord_hbm (s : State) (home : Nat) (q : Sequencer) (w : Nat) (source : Nat → Option Flit) (scenes : List Nat) : (State.aluWord s home q w source scenes).kv.hbm = s.kv.hbm := by
  unfold State.aluWord
  dsimp only
  repeat' (first | (simp; done) | split)

@[simp] theorem State.routerCycle_hbm (s : State) (home : Nat) (slot : LocalSlot) (scenes : List Nat) :
    (s.routerCycle home slot scenes).kv.hbm = s.kv.hbm := by
  unfold State.routerCycle
  have sel : ∀ (xs : List (Nat × Nat)) (now : Nat) (w : Nat) (src : Nat → Option Flit) (t : State),
      (xs.foldl (fun s o => s.selectOutput home now o.1 (bitsOf w o.2 4) src) t).kv.hbm = t.kv.hbm :=
    fun xs now w src t => foldl_hbm _ (fun _ _ => State.selectOutput_hbm ..) xs t
  have wing : ∀ (xs : List (Nat × Nat × Flit)) (r now : Nat) (t : State),
      (xs.foldl (fun s i => s.wingTake r now i.2.2) t).kv.hbm = t.kv.hbm :=
    fun xs r now t => foldl_hbm _ (fun _ _ => State.wingTake_hbm ..) xs t
  simp only [ite_hbm, State.setSequencer_hbm, State.aluWord_hbm, sel, State.forwardStraight_hbm, wing, State.copyInputs_hbm,
    State.passLane_hbm, State.modRouter_hbm, State.drainDelay_hbm, ite_self]

@[simp] theorem State.injectFlit_hbm (s : State) (home : Nat) (f : Flit) : (State.injectFlit s home f).kv.hbm = s.kv.hbm := by
  simp [State.injectFlit]

@[simp] theorem State.wingDrive_hbm (s : State) (l : WingLine) : (State.wingDrive s l).kv.hbm = s.kv.hbm := by
  simp [State.wingDrive]

@[simp] theorem State.slotError_hbm (s : State) (t addr : Nat) (ue : Bool) : (State.slotError s t addr ue).kv.hbm = s.kv.hbm := by
  simp [State.slotError]

@[simp] theorem State.streamFail_hbm (s : State) (t scene : Nat) (held : Bool) : (State.streamFail s t scene held).kv.hbm = s.kv.hbm := by
  simp [State.streamFail]

@[simp] theorem State.busy_hbm (s : State) (t bit : Nat) : (State.busy s t bit).kv.hbm = s.kv.hbm := by
  unfold State.busy
  rfl

@[simp] theorem State.lookupWork_hbm (s : State) (t sec scene table lane tensor rowBlock colBlock group col : Nat) (v : VecRef) : (State.lookupWork s t sec scene table lane tensor rowBlock colBlock group col v).kv.hbm = s.kv.hbm := by
  unfold State.lookupWork
  dsimp only
  repeat' (first | (simp; done) | split)

@[simp] theorem State.putFp_hbm (s : State) (t scene addr : Nat) (xs : List Nat) : (State.putFp s t scene addr xs).kv.hbm = s.kv.hbm := by
  unfold State.putFp
  dsimp only
  split <;> simp

@[simp] theorem State.embedWork_hbm (s : State) (t scene row tensor n dst : Nat) : (State.embedWork s t scene row tensor n dst).kv.hbm = s.kv.hbm := by
  unfold State.embedWork
  repeat' split
  all_goals (first | with_reducible rfl | simp)

@[simp] theorem State.lmHeadWork_hbm (s : State) (t scene row head tensor src n : Nat) : (State.lmHeadWork s t scene row head tensor src n).kv.hbm = s.kv.hbm := by
  unfold State.lmHeadWork
  dsimp only
  repeat' (first | simp | split)

@[simp] theorem State.selectExperts_hbm (s : State) (scene layer row : Nat) (chosen : List Nat) : (State.selectExperts s scene layer row chosen).kv.hbm = s.kv.hbm := by
  unfold State.selectExperts
  dsimp only
  repeat' (first | (simp; done) | split)

@[simp] theorem State.expertWork_hbm (s : State) (t sec scene row lane count k dst : Nat) : (State.expertWork s t sec scene row lane count k dst).kv.hbm = s.kv.hbm := by
  unfold State.expertWork
  dsimp only
  repeat' (first | simp | split)

@[simp] theorem State.outlierWork_hbm (s : State) (t home sec scene row lane array col count xs : Nat) : (State.outlierWork s t home sec scene row lane array col count xs).kv.hbm = s.kv.hbm := by
  unfold State.outlierWork
  dsimp only
  repeat' (first | (simp; done) | split)

@[simp] theorem State.scaleWork_hbm (s : State) (t home sec scene row lane array col n fa : Nat) : (State.scaleWork s t home sec scene row lane array col n fa).kv.hbm = s.kv.hbm := by
  unfold State.scaleWork
  dsimp only
  repeat' (first | (simp; done) | split)

@[simp] theorem State.sealWork_hbm (s : State) (t addr lines buffer index : Nat) : (State.sealWork s t addr lines buffer index).kv.hbm = s.kv.hbm := by
  unfold State.sealWork
  rfl

@[simp] theorem State.doWork_hbmWf (s : State) (t home sec scene : Nat) (w : Work) (h : s.HbmOk) : (State.doWork s t home sec scene w).HbmOk := by
  unfold State.doWork
  repeat' (first
    | assumption
    | with_reducible refine hbmOk_of_eq (State.checkFail_hbm ..) ?_
    | with_reducible refine hbmOk_of_eq (State.arrive_hbm ..) ?_
    | with_reducible refine hbmOk_of_eq (State.macIssue_hbm ..) ?_
    | with_reducible refine hbmOk_of_eq (State.buildTable_hbm ..) ?_
    | with_reducible refine hbmOk_of_eq (State.quantise_hbm ..) ?_
    | with_reducible refine hbmOk_of_eq (State.setTri_hbm ..) ?_
    | with_reducible refine hbmOk_of_eq (State.outputTri_hbm ..) ?_
    | with_reducible apply State.kvQuantise_hbmWf
    | with_reducible apply State.kvWrite_hbmWf
    | with_reducible apply State.attend_hbmWf
    | with_reducible refine hbmOk_of_eq (State.mergeAt_hbm ..) ?_
    | with_reducible refine hbmOk_of_eq (State.injectFlit_hbm ..) ?_
    | with_reducible refine hbmOk_of_eq (State.busy_hbm ..) ?_
    | with_reducible refine hbmOk_of_eq (State.lookupWork_hbm ..) ?_
    | with_reducible refine hbmOk_of_eq (State.putFp_hbm ..) ?_
    | with_reducible refine hbmOk_of_eq (State.embedWork_hbm ..) ?_
    | with_reducible refine hbmOk_of_eq (State.lmHeadWork_hbm ..) ?_
    | with_reducible refine hbmOk_of_eq (State.expertWork_hbm ..) ?_
    | with_reducible refine hbmOk_of_eq (State.outlierWork_hbm ..) ?_
    | with_reducible refine hbmOk_of_eq (State.scaleWork_hbm ..) ?_
    | with_reducible refine hbmOk_of_eq (State.sealWork_hbm ..) ?_
    | with_reducible apply memWf_memWriteList
    | with_reducible apply memWf_memWrite
    | with_reducible apply memWf_filter
    | with_reducible apply memWf_copyFrame
    | with_reducible apply memWf_zeroFrames
    | with_reducible refine foldl_keeps State.HbmOk _ (fun _ _ _ => ?_) _ _ ?_
    | split
    | dsimp only)

@[simp] theorem State.lineReady_hbm (s : State) (rowEnd line : Nat) : (State.lineReady s rowEnd line).kv.hbm = s.kv.hbm := by
  simp [State.lineReady]

@[simp] theorem State.fillLine_hbm (s : State) (rowEnd line : Nat) (data : List Byte) : (State.fillLine s rowEnd line data).kv.hbm = s.kv.hbm := by
  unfold State.fillLine
  rfl

@[simp] theorem State.releaseZero_hbm (s : State) (rowEnd : Nat) (lines : List Nat) : (State.releaseZero s rowEnd lines).kv.hbm = s.kv.hbm := by
  simp [State.releaseZero]

@[simp] theorem State.abandonStep_hbm (s : State) (x : Step) (src cause member : Nat) : (State.abandonStep s x src cause member).kv.hbm = s.kv.hbm := by
  simp [State.abandonStep]

@[simp] theorem State.stepFrame_hbm (s : State) (f : ChorusFrame) : (State.stepFrame s f).kv.hbm = s.kv.hbm := by
  unfold State.stepFrame
  dsimp only
  repeat' (first | (simp; done) | split)

@[simp] theorem State.openStep_hbm (s : State) (index scene : Nat) : (State.openStep s index scene).kv.hbm = s.kv.hbm := by
  unfold State.openStep
  dsimp only
  repeat' (first | (simp; done) | split)

@[simp] theorem State.chorusPut_hbm (s : State) (scene index offset : Nat) (data : List Byte) : (State.chorusPut s scene index offset data).kv.hbm = s.kv.hbm := by
  unfold State.chorusPut
  dsimp only
  repeat' (first | (simp; done) | split)

@[simp] theorem State.startStreams_hbm (s : State) (c : CueSheet) (now : Nat) : (State.startStreams s c now).kv.hbm = s.kv.hbm := by
  unfold State.startStreams
  repeat' (first | with_reducible rfl | (simp; done) | (refine (foldl_hbm _ (fun _ _ => ?_) _ _).trans ?_) | split)

@[simp] theorem State.streamHold_hbm (s : State) : (State.streamHold s).kv.hbm = s.kv.hbm := by
  simp [State.streamHold]

@[simp] theorem State.streamDone_hbm (s : State) : (State.streamDone s).kv.hbm = s.kv.hbm := by
  simp [State.streamDone]

@[simp] theorem State.endStream_hbm (s : State) (t : Nat) (r : StreamRun) : (State.endStream s t r).kv.hbm = s.kv.hbm := by
  unfold State.endStream
  dsimp only
  repeat' (first | simp | split)

@[simp] theorem State.streamCycle_hbm (s : State) : (State.streamCycle s).kv.hbm = s.kv.hbm := by
  unfold State.streamCycle
  repeat' (first | with_reducible rfl | simp | (refine (foldl_hbm _ (fun _ _ => ?_) _ _).trans ?_) | split)

@[simp] theorem State.wingTest_hbm (s : State) (rowEnd at_ : Nat) : (State.wingTest s rowEnd at_).kv.hbm = s.kv.hbm := by
  simp [State.wingTest]

@[simp] theorem State.wingCycle_hbm (s : State) (c : CueSheet) (now : Nat) : (State.wingCycle s c now).kv.hbm = s.kv.hbm := by
  simp [State.wingCycle]

@[simp] theorem State.footlightCall_hbm (s : State) (k : FlCall) : (State.footlightCall s k).kv.hbm = s.kv.hbm := by
  unfold State.footlightCall
  rfl

@[simp] theorem State.groupCycle_hbm (s : State) (c : CueSheet) (now : Nat) (closing : Bool) : (State.groupCycle s c now closing).kv.hbm = s.kv.hbm := by
  simp [State.groupCycle]

@[simp] theorem State.runAct_hbmWf (s : State) (a : Act × Nat) (h : s.HbmOk) : (State.runAct s a).HbmOk := by
  unfold State.runAct
  repeat' (first
    | assumption
    | with_reducible refine hbmOk_of_eq (State.sramUe_hbm ..) ?_
    | with_reducible apply State.doWork_hbmWf
    | with_reducible apply memWf_memWriteList
    | with_reducible apply memWf_memWrite
    | with_reducible apply memWf_filter
    | with_reducible apply memWf_copyFrame
    | with_reducible apply memWf_zeroFrames
    | with_reducible refine foldl_keeps State.HbmOk _ (fun _ _ _ => ?_) _ _ ?_
    | split
    | dsimp only
    | (simp [*]; done)
    )

@[simp] theorem State.dropExcess_hbm (s : State) (e : Excess) : (State.dropExcess s e).kv.hbm = s.kv.hbm := by
  unfold State.dropExcess
  rfl

@[simp] theorem State.takeExcess_hbm (s : State) (c : CueSheet) : (State.takeExcess s c).kv.hbm = s.kv.hbm := by
  unfold State.takeExcess
  repeat' (first | with_reducible rfl | (simp; done) | (refine (foldl_hbm _ (fun _ _ => ?_) _ _).trans ?_) | split)

@[simp] theorem State.settleExcess_hbm (s : State) : (State.settleExcess s).kv.hbm = s.kv.hbm := by
  simp [State.settleExcess]

@[simp] theorem State.deliverOut_hbm (s : State) (t : Nat) (o : OutReg) : (State.deliverOut s t o).kv.hbm = s.kv.hbm := by
  simp [State.deliverOut]

@[simp] theorem State.deliverDue_hbm (s : State) (t : Nat) : (State.deliverDue s t).kv.hbm = s.kv.hbm := by
  unfold State.deliverDue
  repeat' split
  all_goals (first | with_reducible rfl | simp)

@[simp] theorem State.barrierCycle_hbm (s : State) : (State.barrierCycle s).kv.hbm = s.kv.hbm := by
  unfold State.barrierCycle
  repeat' (first | with_reducible rfl | (simp; done) | (refine (foldl_hbm _ (fun _ _ => ?_) _ _).trans ?_) | split)

@[simp] theorem State.scheduledCycle_hbmWf (s : State) (c : CueSheet) (h : s.HbmOk) : (s.scheduledCycle c).HbmOk := by
  unfold State.scheduledCycle State.HbmOk
  simp only [State.groupCycle_hbm, State.barrierCycle_hbm, foldl_hbm, State.routerCycle_hbm, State.wingCycle_hbm,
    State.takeExcess_hbm, State.streamHold_hbm, State.startStreams_hbm, State.footlightCall_hbm, State.deliverDue_hbm,
    implies_true]
  refine foldl_keeps State.HbmOk _ (fun s a q => State.runAct_hbmWf s a q) _ _ ?_
  unfold State.HbmOk
  simp only [foldl_hbm, State.openStep_hbm, State.groupCycle_hbm, implies_true]
  exact h

@[simp] theorem State.engineCycle_hbm (s : State) : (State.engineCycle s).kv.hbm = s.kv.hbm := by
  simp [State.engineCycle]

@[simp] theorem State.formatCycle_hbm (s : State) : (State.formatCycle s).kv.hbm = s.kv.hbm := by
  simp [State.formatCycle]

@[simp] theorem State.stageCycle_hbmWf (s : State) (h : s.HbmOk) : s.stageCycle.HbmOk := by
  have before : ∀ t : State, t.HbmOk → ∀ f, (((List.range 10).foldl
      (fun s h => if Nat.testBit t.fabric.history2 h then s.count (3 + h) 1 else s)
      ((t.count 0 1).count (if t.fabric.history2 = 0 then 1 else 2) 1)).mapTiles f).HbmOk := fun t q f => by
    unfold State.HbmOk
    simp only [State.mapTiles_hbm, foldl_hbm, ite_hbm, State.count_hbm, ite_self, implies_true]
    exact q
  unfold State.stageCycle
  split
  · exact h
  · dsimp only
    have q := before s h (fun _ x => { x with active := 0 })
    generalize State.mapTiles _ _ = u at q ⊢
    unfold State.HbmOk
    simp only [State.handoverCycle_hbm, ite_hbm, State.markStall_hbm, State.formatCycle_hbm, State.engineCycle_hbm, ite_self]
    cases u.fabric.active with
    | none => exact q
    | some c =>
      dsimp only
      split
      · rw [State.tileCycles_hbm]
        exact State.scheduledCycle_hbmWf u c q
      · exact q

@[simp] theorem State.passQuiet_hbm (s : State) (n : Nat) : (State.passQuiet s n).kv.hbm = s.kv.hbm := by
  unfold State.passQuiet
  rfl

theorem State.runTo_hbmWf (c : CueSheet) (at_ fuel : Nat) (s : State) (h : s.HbmOk) : (State.runTo c at_ fuel s).HbmOk := by
  induction fuel generalizing s with
  | zero => exact h
  | succ fuel ih =>
    unfold State.runTo
    dsimp only
    split
    · split
      · refine ih _ ?_
        unfold State.HbmOk
        rw [State.passQuiet_hbm]
        exact h
      · exact ih _ (State.stageCycle_hbmWf _ h)
    · exact h

@[simp] theorem State.advanceTo_hbmWf (s : State) (at_ : Nat) (h : s.HbmOk) : (s.advanceTo at_).HbmOk := by
  unfold State.advanceTo
  cases s.fabric.active with
  | none => exact h
  | some c => exact State.runTo_hbmWf _ _ _ _ h

@[simp] theorem State.runCycles_hbmWf (s : State) (n : Nat) (h : s.HbmOk) : (s.runCycles n).HbmOk := by
  unfold State.runCycles
  exact foldl_keeps State.HbmOk _ (fun _ _ q => State.stageCycle_hbmWf _ q) _ _ h

@[simp] theorem State.pwrEvent_hbm (s : State) (bit : Nat) : (State.pwrEvent s bit).kv.hbm = s.kv.hbm := by
  unfold State.pwrEvent
  rfl

@[simp] theorem State.measure_hbm (s : State) (power : Nat) : (State.measure s power).kv.hbm = s.kv.hbm := by
  unfold State.measure
  rfl

@[simp] theorem State.capUnmet_hbm (s : State) (power : Nat) : (State.capUnmet s power).kv.hbm = s.kv.hbm := by
  simp [State.capUnmet]

@[simp] theorem State.bubble_hbm (s : State) : (State.bubble s).kv.hbm = s.kv.hbm := by
  unfold State.bubble
  rfl

@[simp] theorem State.endStep_hbm (s : State) (st : Status) : (State.endStep s st).kv.hbm = s.kv.hbm := by
  unfold State.endStep
  dsimp only
  repeat' (first | simp | split)

@[simp] theorem State.raiseSwitch_hbm (s : State) (target : Nat) (job : Option Nat) : (State.raiseSwitch s target job).kv.hbm = s.kv.hbm := by
  unfold State.raiseSwitch
  rfl

@[simp] theorem State.runSwitch_hbmWf (s : State) (h : s.HbmOk) : s.runSwitch.HbmOk := by
  unfold State.runSwitch
  refine foldl_keeps State.HbmOk _ (fun t _ q => ?_) _ _ h
  split
  · exact State.stageCycle_hbmWf _ q
  · exact q

@[simp] theorem State.trigger_hbm (s : State) (half bit : Nat) : (State.trigger s half bit).kv.hbm = s.kv.hbm := by
  simp [State.trigger]

@[simp] theorem State.convert_hbm (s : State) (half input code : Nat) : (State.convert s half input code).kv.hbm = s.kv.hbm := by
  simp [State.convert]

@[simp] theorem State.enterThrottle_hbm (s : State) : (State.enterThrottle s).kv.hbm = s.kv.hbm := by
  simp [State.enterThrottle]

@[simp] theorem State.enterWarning_hbm (s : State) : (State.enterWarning s).kv.hbm = s.kv.hbm := by
  simp [State.enterWarning]

@[simp] theorem State.evalZone_hbm (s : State) (die : Bool) (reading : Int) : (s.evalZone die reading).kv.hbm = s.kv.hbm := by
  unfold State.evalZone
  dsimp only
  split <;> split <;> simp

@[simp] theorem State.tripThermal_hbm (s : State) : (State.tripThermal s).kv.hbm = s.kv.hbm := by
  unfold State.tripThermal
  rfl

@[simp] theorem State.shutdown_hbm (s : State) (die : Bool) (sensor : Nat) (reading : Int) : (State.shutdown s die sensor reading).kv.hbm = s.kv.hbm := by
  simp [State.shutdown]

@[simp] theorem State.watchShutdown_hbm (s : State) (die : Bool) (readings : List (Nat × Int)) : (State.watchShutdown s die readings).kv.hbm = s.kv.hbm := by
  simp [State.watchShutdown]

@[simp] theorem State.regularResults_hbm (s : State) (half : Nat) (codes : List Nat) : (State.regularResults s half codes).kv.hbm = s.kv.hbm := by
  simp [State.regularResults]

@[simp] theorem State.fwsFail_hbm (s : State) (code : Nat) : (State.fwsFail s code).kv.hbm = s.kv.hbm := by
  unfold State.fwsFail
  rfl

@[simp] theorem State.rejectImage_hbm (s : State) (code : Nat) : (State.rejectImage s code).kv.hbm = s.kv.hbm := by
  unfold State.rejectImage
  rfl

@[simp] theorem State.applyTuning_hbm (s : State) : (State.applyTuning s).kv.hbm = s.kv.hbm := by
  unfold State.applyTuning
  rfl

@[simp] theorem State.startFirmware_hbm (s : State) (bs : List Byte) : (State.startFirmware s bs).kv.hbm = s.kv.hbm := by
  simp [State.startFirmware]

@[simp] theorem State.hbmEcc_hbm (s : State) (stack : Nat) (ue : Bool) (scenes : List Nat) : (State.hbmEcc s stack ue scenes).kv.hbm = s.kv.hbm := by
  simp [State.hbmEcc]

@[simp] theorem State.rowLinkFault_hbm (s : State) (row : Nat) (scenes : List Nat) : (State.rowLinkFault s row scenes).kv.hbm = s.kv.hbm := by
  simp [State.rowLinkFault]

@[simp] theorem State.uncheck_hbm (s : State) (a : Nat) : (State.uncheck s a).kv.hbm = s.kv.hbm := by
  unfold State.uncheck
  split <;> rfl

@[simp] theorem State.flipHbm_hbmWf (s : State) (a : Nat) (h : s.HbmOk) : (State.flipHbm s a).HbmOk := by
  unfold State.flipHbm
  repeat' (first
    | assumption
    | with_reducible refine hbmOk_of_eq (State.uncheck_hbm ..) ?_
    | with_reducible apply memWf_memWriteList
    | with_reducible apply memWf_memWrite)

@[simp] theorem State.sectionError_hbmWf (scene : Nat) (s : State) (e : SecError) (h : s.HbmOk) : (State.sectionError scene s e).HbmOk := by
  unfold State.sectionError
  repeat' (first
    | assumption
    | with_reducible refine hbmOk_of_eq (State.sramWrite_hbm ..) ?_
    | with_reducible refine hbmOk_of_eq (State.sramCe_hbm ..) ?_
    | with_reducible refine hbmOk_of_eq (State.sramUe_hbm ..) ?_
    | with_reducible refine hbmOk_of_eq (State.slotError_hbm ..) ?_
    | with_reducible refine hbmOk_of_eq (State.hbmEcc_hbm ..) ?_
    | with_reducible refine hbmOk_of_eq (State.rowLinkFault_hbm ..) ?_
    | with_reducible apply State.flipHbm_hbmWf
    | with_reducible apply memWf_memWriteList
    | with_reducible apply memWf_memWrite
    | with_reducible apply memWf_filter
    | with_reducible apply memWf_copyFrame
    | with_reducible apply memWf_zeroFrames
    | with_reducible refine foldl_keeps State.HbmOk _ (fun _ _ _ => ?_) _ _ ?_
    | split)

@[simp] theorem State.beginSection_hbm (s : State) (index scene start tag : Nat) : (State.beginSection s index scene start tag).kv.hbm = s.kv.hbm := by
  simp [State.beginSection]

@[simp] theorem State.lineArrives_hbm (s : State) (c : CueSheet) (rowEnd line : Nat) (data : List Byte) : (State.lineArrives s c rowEnd line data).kv.hbm = s.kv.hbm := by
  unfold State.lineArrives
  dsimp only
  repeat' (first | (simp; done) | split)

@[simp] theorem State.requestRange_hbm (s : State) (i step op src offset length : Nat) :
    (s.requestRange i step op src offset length).kv.hbm = s.kv.hbm := by
  unfold State.requestRange
  dsimp only
  split
  · rfl
  · simp

@[simp] theorem State.resend_hbm (s : State) (g : ChorusGroup) (f : ChorusFrame) : (State.resend s g f).kv.hbm = s.kv.hbm := by
  simp [State.resend]

@[simp] theorem State.routeStep_hbm (s : State) (f : ChorusFrame) : (State.routeStep s f).kv.hbm = s.kv.hbm := by
  simp [State.routeStep]

@[simp] theorem State.acceptFrame_hbm (s : State) (i : Nat) (g : ChorusGroup) (f : ChorusFrame) : (State.acceptFrame s i g f).kv.hbm = s.kv.hbm := by
  unfold State.acceptFrame
  dsimp only
  repeat' (first | (simp; done) | split)

@[simp] theorem State.countCe_hbm (s : State) (ce : Bool) : (State.countCe s ce).kv.hbm = s.kv.hbm := by
  simp [State.countCe]

@[simp] theorem State.groupFrame_hbm (s : State) (i : Nat) (g : ChorusGroup) (f : ChorusFrame) : (State.groupFrame s i g f).kv.hbm = s.kv.hbm := by
  simp [State.groupFrame]

@[simp] theorem State.tellAll_hbm (s : State) (i : Nat) (g : ChorusGroup) (step op extend : Nat) :
    (s.tellAll i g step op extend).kv.hbm = s.kv.hbm :=
  foldl_hbm _ (fun _ _ => State.chorusSend_hbm ..) _ _

@[simp] theorem State.latchWindow_hbm (s : State) (window off bytes : Nat) : (State.latchWindow s window off bytes).kv.hbm = s.kv.hbm := by
  simp [State.latchWindow]

@[simp] theorem State.modQp_hbm (s : State) (n : Nat) (f : QueuePair → QueuePair) : (State.modQp s n f).kv.hbm = s.kv.hbm := by
  unfold State.modQp
  dsimp only
  repeat' (first | simp | split)

@[simp] theorem State.qpFails_hbm (s : State) (n : Nat) : (State.qpFails s n).kv.hbm = s.kv.hbm := by
  simp [State.qpFails]

@[simp] theorem State.goBack_hbm (s : State) (n psn : Nat) (rnr : Bool) : (State.goBack s n psn rnr).kv.hbm = s.kv.hbm := by
  unfold State.goBack
  dsimp only
  repeat' (first | (simp; done) | split)

@[simp] theorem State.acknowledge_hbm (s : State) (n psn : Nat) : (State.acknowledge s n psn).kv.hbm = s.kv.hbm := by
  simp [State.acknowledge]

@[simp] theorem State.request_hbm (s : State) (n psn : Nat) (x : Sent) : (State.request s n psn x).kv.hbm = s.kv.hbm := by
  simp [State.request]

@[simp] theorem State.readRemote_hbm (n addr rkey : Nat) (answered : Bool) (fuel len : Nat) (s : State) :
    (State.readRemote n addr rkey answered fuel len s).kv.hbm = s.kv.hbm := by
  induction fuel generalizing addr len s with
  | zero => rfl
  | succ fuel ih =>
    unfold State.readRemote
    split
    · rfl
    · split
      · rfl
      · dsimp only
        split
        · next k =>
          subst k
          rw [ih, State.acknowledge_hbm, State.request_hbm, State.modQp_hbm]
        · rw [foldl_hbm _ (fun _ _ => State.goBack_hbm ..), State.request_hbm, State.modQp_hbm]

@[simp] theorem State.remoteRead_hbm (s : State) (n addr rkey len : Nat) (answered : Bool) : (State.remoteRead s n addr rkey len answered).kv.hbm = s.kv.hbm := by
  simp [State.remoteRead]

@[simp] theorem State.remoteWrite_hbm (s : State) (n addr rkey : Nat) (data : List Byte) : (State.remoteWrite s n addr rkey data).kv.hbm = s.kv.hbm := by
  unfold State.remoteWrite
  dsimp only
  repeat' (first | (simp; done) | split)

@[simp] theorem State.fillAreas_hbm (s : State) (sheet : CueSheet) (home t : Nat) : (State.fillAreas s sheet home t).kv.hbm = s.kv.hbm := by
  unfold State.fillAreas
  repeat' (first | with_reducible rfl | (simp; done) | (refine (foldl_hbm _ (fun _ _ => ?_) _ _).trans ?_) | split | simp)

@[simp] theorem State.fillSums_hbm (s : State) (sheet : CueSheet) (home t : Nat) : (State.fillSums s sheet home t).kv.hbm = s.kv.hbm := by
  unfold State.fillSums
  repeat' (first | with_reducible rfl | (simp; done) | (refine (foldl_hbm _ (fun _ _ => ?_) _ _).trans ?_) | split | simp)

@[simp] theorem State.servingSums_hbm (s : State) (home t : Nat) : (State.servingSums s home t).kv.hbm = s.kv.hbm := by
  unfold State.servingSums
  repeat' split
  all_goals (first | with_reducible rfl | (simp; done) | rfl)

@[simp] theorem State.loadImage_hbm (s : State) (sheet : CueSheet) (home t : Nat) : (State.loadImage s sheet home t).kv.hbm = s.kv.hbm := by
  simp [State.loadImage]

@[simp] theorem State.activationRun_hbm (s : State) (c : CueSheet) (t : Nat) : (State.activationRun s c t).kv.hbm = s.kv.hbm := by
  simp [State.activationRun]

@[simp] theorem State.markStreamed_hbm (s : State) : (State.markStreamed s).kv.hbm = s.kv.hbm := by
  unfold State.markStreamed
  dsimp only
  repeat' (first | (simp; done) | split)

@[simp] theorem State.endActivation_hbm (s : State) : (State.endActivation s).kv.hbm = s.kv.hbm := by
  simp [State.endActivation]

@[simp] theorem State.activate_hbm (s : State) (c : CueSheet) : (State.activate s c).kv.hbm = s.kv.hbm := by
  simp [State.activate]

@[simp] theorem State.deactivate_hbm (s : State) : (State.deactivate s).kv.hbm = s.kv.hbm := by
  simp [State.deactivate]

@[simp] theorem State.setCheck_hbm (s : State) (code tile : Nat) : (State.setCheck s code tile).kv.hbm = s.kv.hbm := by
  unfold State.setCheck
  rfl

@[simp] theorem State.storeSheet_hbm (s : State) (c : CueSheet) : (State.storeSheet s c).kv.hbm = s.kv.hbm := by
  simp [State.storeSheet]

@[simp] theorem State.noteForm_hbm (s : State) (c : CueSheet) : (State.noteForm s c).kv.hbm = s.kv.hbm := by
  simp [State.noteForm]

@[simp] theorem State.stopServing_hbm (s : State) (t : Nat) : (State.stopServing s t).kv.hbm = s.kv.hbm := by
  unfold State.stopServing
  dsimp only
  repeat' (first | (simp; done) | split)

@[simp] theorem State.copyTile_hbm (s : State) (a b : Nat) : (State.copyTile s a b).kv.hbm = s.kv.hbm := by
  unfold State.copyTile
  rfl

@[simp] theorem State.handOver_hbm (s : State) (copy : Bool) (home a b : Nat) : (State.handOver s copy home a b).kv.hbm = s.kv.hbm := by
  unfold State.handOver
  dsimp only
  repeat' (first | (simp; done) | split)

@[simp] theorem State.moveLane_hbm (s : State) (home a u : Nat) : (State.moveLane s home a u).kv.hbm = s.kv.hbm := by
  simp [State.moveLane]

@[simp] theorem State.emptyLane_hbm (s : State) (home u : Nat) : (State.emptyLane s home u).kv.hbm = s.kv.hbm := by
  unfold State.emptyLane
  rfl

@[simp] theorem State.passProgram_hbm (s : State) (c : Cutover) (a u : Nat) : (State.passProgram s c a u).kv.hbm = s.kv.hbm := by
  unfold State.passProgram
  rfl

@[simp] theorem State.moveToUnderstudy_hbm (s : State) (c : Cutover) (u : Nat) : (State.moveToUnderstudy s c u).kv.hbm = s.kv.hbm := by
  unfold State.moveToUnderstudy
  dsimp only
  repeat' (first | (simp; done) | split)

@[simp] theorem State.moveHome_hbm (s : State) (c : Cutover) : (s.moveHome c).kv.hbm = s.kv.hbm := by
  unfold State.moveHome
  dsimp only
  simp

@[simp] theorem State.rehearsalCut_hbm (s : State) (c : Cutover) : (State.rehearsalCut s c).kv.hbm = s.kv.hbm := by
  simp [State.rehearsalCut]

@[simp] theorem State.cutOver_hbm (s : State) (c : Cutover) (u : Nat) : (State.cutOver s c u).kv.hbm = s.kv.hbm := by
  simp [State.cutOver]

@[simp] theorem State.takeCutover_hbm (s : State) (c : Cutover) : (State.takeCutover s c).kv.hbm = s.kv.hbm := by
  unfold State.takeCutover
  dsimp only
  repeat' (first | (simp; done) | split)

@[simp] theorem State.cutovers_hbm (s : State) : (State.cutovers s).kv.hbm = s.kv.hbm := by
  simp [State.cutovers]

@[simp] theorem State.noteRollCall_hbm (s : State) (t : Nat) : (State.noteRollCall s t).kv.hbm = s.kv.hbm := by
  unfold State.noteRollCall
  rfl

@[simp] theorem State.rollCall_hbm (s : State) : (State.rollCall s).kv.hbm = s.kv.hbm := by
  unfold State.rollCall
  dsimp only
  repeat' (first | (simp; done) | split)

@[simp] theorem State.setFail_hbm (s : State) (code index : Nat) : (State.setFail s code index).kv.hbm = s.kv.hbm := by
  unfold State.setFail
  rfl

theorem State.takeCopyFrames_hbmWf {s s' : State} {n : Nat} {fs : List Nat} (q : s.takeCopyFrames n = some (fs, s'))
    (h : s.HbmOk) : s'.HbmOk := by
  unfold State.takeCopyFrames at q
  dsimp only at q
  split at q
  · cases q
    unfold State.HbmOk
    simpa using memWf_zeroFrames _ h
  · cases q

@[simp] theorem State.freeCopy_hbm (s : State) (c : Copy) : (State.freeCopy s c).kv.hbm = s.kv.hbm := by
  unfold State.freeCopy
  rfl

@[simp] theorem State.runProgrammed_hbm (s : State) (t : Nat) : (State.runProgrammed s t).kv.hbm = s.kv.hbm := by
  unfold State.runProgrammed
  repeat' split
  all_goals (first | with_reducible rfl | simp)

@[simp] theorem State.settleRuns_hbm (s : State) : (State.settleRuns s).kv.hbm = s.kv.hbm := by
  simp [State.settleRuns]

@[simp] theorem State.sealServes_hbm (s : State) (r : SealRun) : (State.sealServes s r).kv.hbm = s.kv.hbm := by
  unfold State.sealServes
  dsimp only
  repeat' (first | (simp; done) | split)

@[simp] theorem State.endSeal_hbm (s : State) : (State.endSeal s).kv.hbm = s.kv.hbm := by
  unfold State.endSeal
  dsimp only
  repeat' (first | (simp; done) | split)

@[simp] theorem State.proceed_hbm (s : State) : (State.proceed s).kv.hbm = s.kv.hbm := by
  simp [State.proceed]

theorem State.storeSegment_hbmWf (s : State) (c : Copy) (seg : Nat) (groups : List (List Byte)) (h : s.HbmOk) :
    (s.storeSegment c seg groups).HbmOk :=
  foldl_keeps State.HbmOk _ (fun _ _ q => State.hbmWrite_hbmWf _ _ _ _ q) _ _ h

@[simp] theorem State.zeroSegment_hbmWf (s : State) (c : Copy) (seg : Nat) (h : s.HbmOk) : (State.zeroSegment s c seg).HbmOk := by
  unfold State.zeroSegment
  repeat' (first
    | assumption
    | with_reducible apply memWf_memWriteList
    | with_reducible apply memWf_memWrite
    | with_reducible apply memWf_filter
    | with_reducible apply memWf_copyFrame
    | with_reducible apply memWf_zeroFrames
    | with_reducible refine foldl_keeps State.HbmOk _ (fun _ _ _ => ?_) _ _ ?_
    | split
    | dsimp only
    | (simp [*]; done)
    )

@[simp] theorem State.segmentFails_hbmWf (s : State) (c : Copy) (seg : Nat) (a : Arrived) (h : s.HbmOk) : (State.segmentFails s c seg a).HbmOk := by
  unfold State.segmentFails
  repeat' (first
    | assumption
    | with_reducible refine hbmOk_of_eq (State.orReg_hbm ..) ?_
    | with_reducible refine hbmOk_of_eq (State.setFail_hbm ..) ?_
    | with_reducible apply State.zeroSegment_hbmWf
    | with_reducible apply memWf_memWriteList
    | with_reducible apply memWf_memWrite
    | with_reducible apply memWf_filter
    | with_reducible apply memWf_copyFrame
    | with_reducible apply memWf_zeroFrames
    | with_reducible refine foldl_keeps State.HbmOk _ (fun _ _ _ => ?_) _ _ ?_
    | split
    | dsimp only
    | (simp [*]; done)
    )

theorem FetchRun.take_hbmWf (r : FetchRun) (x : SegArrival) (h : r.state.HbmOk) : (r.take x).state.HbmOk := by
  unfold FetchRun.take
  split
  · exact h
  · dsimp only
    split
    · exact h
    · split
      · exact State.storeSegment_hbmWf _ _ _ _ (by simpa [State.HbmOk] using h)
      · exact State.segmentFails_hbmWf _ _ _ _ (by simpa [State.HbmOk] using h)

@[simp] theorem State.copyComplete_hbm (s : State) : (State.copyComplete s).kv.hbm = s.kv.hbm := by
  unfold State.copyComplete
  dsimp only
  repeat' (first | simp | split)

@[simp] theorem State.firstRunDone_hbm (s : State) (t : Nat) : (State.firstRunDone s t).kv.hbm = s.kv.hbm := by
  simp [State.firstRunDone]

@[simp] theorem State.runDone_hbm (s : State) (t : Nat) : (State.runDone s t).kv.hbm = s.kv.hbm := by
  simp [State.runDone]

@[simp] theorem State.endCalArray_hbm (s : State) (t : Nat) : (State.endCalArray s t).kv.hbm = s.kv.hbm := by
  unfold State.endCalArray
  dsimp only
  repeat' (first | (simp; done) | split)

@[simp] theorem State.clearUnused_hbm (s : State) (sheet : CueSheet) : (State.clearUnused s sheet).kv.hbm = s.kv.hbm := by
  unfold State.clearUnused
  repeat' (first | with_reducible rfl | (simp; done) | (refine (foldl_hbm _ (fun _ _ => ?_) _ _).trans ?_) | split | simp)

@[simp] theorem State.startProgramming_hbm (s : State) : (State.startProgramming s).kv.hbm = s.kv.hbm := by
  unfold State.startProgramming
  dsimp only
  repeat' (first | simp | split)

@[simp] theorem State.acceptRolling_hbm (s : State) (c : Copy) (budget : Nat) (r : Recast) (old : Option Copy) : (State.acceptRolling s c budget r old).kv.hbm = s.kv.hbm := by
  unfold State.acceptRolling
  rfl

@[simp] theorem State.refillSums_hbm (s : State) (sheet : CueSheet) : (State.refillSums s sheet).kv.hbm = s.kv.hbm := by
  simp [State.refillSums]

@[simp] theorem State.switchEpoch_hbm (s : State) (r : Recast) : (State.switchEpoch s r).kv.hbm = s.kv.hbm := by
  unfold State.switchEpoch
  dsimp only
  repeat' (first | (simp; done) | split)

@[simp] theorem State.layerNew_hbm (s : State) (r : Recast) (layer : Nat) : (State.layerNew s r layer).kv.hbm = s.kv.hbm := by
  unfold State.layerNew
  repeat' (first | with_reducible rfl | (simp; done) | (refine (foldl_hbm _ (fun _ _ => ?_) _ _).trans ?_) | split | simp)

@[simp] theorem State.nextLayer_hbm (s : State) (r : Recast) : (State.nextLayer s r).kv.hbm = s.kv.hbm := by
  unfold State.nextLayer
  dsimp only
  repeat' (first | simp | split)

@[simp] theorem State.pointerSwitch_hbm (s : State) : (State.pointerSwitch s).kv.hbm = s.kv.hbm := by
  unfold State.pointerSwitch
  dsimp only
  repeat' (first | (simp; done) | split)

@[simp] theorem State.releaseOld_hbm (s : State) : (State.releaseOld s).kv.hbm = s.kv.hbm := by
  unfold State.releaseOld
  dsimp only
  repeat' (first | (simp; done) | split)

@[simp] theorem State.wearTouch_hbm (s : State) (t a : Nat) : (State.wearTouch s t a).kv.hbm = s.kv.hbm := by
  unfold State.wearTouch
  rfl

@[simp] theorem State.verifyArray_hbm (s : State) (t a : Nat) (reads : List Nat) : (State.verifyArray s t a reads).kv.hbm = s.kv.hbm := by
  unfold State.verifyArray
  dsimp only
  repeat' (first | (simp; done) | split)

@[simp] theorem chained_hbm (fs : List Nat) (s : State) : (chained fs s).kv.hbm = s.kv.hbm := by
  simp [chained]

@[simp] theorem State.mapSlots_hbm (s : State) (e : Nat) (xs : List (Nat × Nat × Nat)) (fs : List Nat) : (State.mapSlots s e xs fs).kv.hbm = s.kv.hbm := by
  simp [State.mapSlots]

theorem State.takeMap_hbmWf (s : State) (e : Nat) (h : s.HbmOk) : (s.takeMap e).HbmOk := by
  unfold State.takeMap
  cases s.seq? e with
  | none => exact h
  | some q =>
    dsimp only
    have k : s.roomFor.HbmOk := hbmOk_of_eq (State.roomFor_hbm s) h
    split
    · exact h
    · split
      · unfold State.HbmOk
        rw [State.modSeq_hbm, chained_hbm]
        exact State.takeFrames_hbmWf _ _ k
      · exact k

theorem State.reserveSlots_hbmWf (s : State) (e : Nat) (slots : List (Nat × Nat × Nat)) (draws : Bool) (h : s.HbmOk) :
    (s.reserveSlots e slots draws).2.HbmOk := by
  unfold State.reserveSlots
  have q : s.roomFor.HbmOk := hbmOk_of_eq (State.roomFor_hbm s) h
  dsimp only
  generalize (if draws = true then 0 else (s.lacking e slots).1 + (s.lacking e slots).2.1 + (s.lacking e slots).2.2.length) = plain
  split
  · exact h
  · split
    · unfold State.HbmOk
      rw [State.modSeq_hbm, chained_hbm, chained_hbm, State.mapSlots_hbm]
      exact State.takeFrames_hbmWf _ _ q
    · exact q

theorem State.reserve_hbmWf (s : State) (e pos n : Nat) (h : s.HbmOk) : (s.reserve e pos n).2.HbmOk :=
  State.reserveSlots_hbmWf s e _ false h

theorem State.matched_hbm (s : State) (hashes : List (Nat × Nat)) : (s.matched hashes).2.kv.hbm = s.kv.hbm := by
  unfold State.matched
  refine List.foldlRecOn (motive := fun (a : List (Nat × Nat) × Bool × State) => a.2.2.kv.hbm = s.kv.hbm) _ _ rfl ?_
  intro a ha x _
  split
  · exact ha
  · have r := State.lookupEntry_hbm a.2.2 (hashes.getD x (0, 0))
    split
    · next q => rw [q] at r; exact r.trans ha
    · next q => rw [q] at r; exact r.trans ha

theorem State.copyWindow_hbmWf (s : State) (e n : Nat) (frames : List Nat) (h : s.HbmOk) :
    (s.copyWindow e n frames).HbmOk := by
  unfold State.copyWindow
  refine foldl_keeps State.HbmOk _ (fun s x q => ?_) _ _ h
  dsimp only
  split
  · exact q
  · exact memWf_copyFrame _ _ q

theorem State.reserveRings_hbmWf (s : State) (e : Nat) (h : s.HbmOk) : (s.reserveRings e).2.HbmOk := by
  unfold State.reserveRings
  dsimp only
  split
  · unfold State.HbmOk
    rw [State.mapSlots_hbm]
    exact State.takeFrames_hbmWf _ _ (by simpa [State.HbmOk] using h)
  · simpa [State.HbmOk] using h

theorem State.takeHit_hbmWf (s : State) (e n : Nat) (hits : List (Nat × Nat)) (h : s.HbmOk) :
    (s.takeHit e n hits).HbmOk := by
  unfold State.takeHit State.HbmOk
  simp only [State.count_hbm, State.modSeq_hbm]
  exact State.copyWindow_hbmWf _ _ _ _ (by simpa [State.HbmOk] using h)

theorem State.lookup_hbmWf (s : State) (e blocks : Nat) (h : s.HbmOk) : (s.lookup e blocks).HbmOk := by
  unfold State.lookup
  cases s.seq? e with
  | none => exact h
  | some q =>
    have m : ∀ xs, (s.matched xs).2.HbmOk := fun xs => by
      unfold State.HbmOk
      rw [State.matched_hbm]
      exact h
    dsimp only
    split
    · exact h
    · split
      · exact m _
      · split
        · exact State.takeHit_hbmWf _ _ _ _ (m _)
        · have r : ∀ i j f g xs, ((((s.matched xs).2.modDir i f).reserveRings e).2.modDir j g).HbmOk := fun i j f g xs =>
            State.modDir_ok _ _ _ (State.reserveRings_hbmWf _ _ (State.modDir_ok _ _ _ (m xs)))
          split
          · exact State.takeHit_hbmWf _ _ _ _ (r _ _ _ _ _)
          · unfold State.HbmOk
            rw [State.checkPages_hbm]
            exact r _ _ _ _ _

theorem State.windowSet_hbmWf (s : State) (e n index epoch : Nat) (h : s.HbmOk) :
    (s.windowSet e n index epoch).2.HbmOk := by
  unfold State.windowSet
  have c : ∀ fs : List Nat, (s.checkPages fs).2.HbmOk := fun fs => by
    unfold State.HbmOk
    rw [State.checkPages_hbm]
    exact h
  have q : ∀ fs : List Nat, (s.checkPages fs).2.roomFor.HbmOk := fun fs => hbmOk_of_eq (State.roomFor_hbm _) (c fs)
  dsimp only
  split
  · exact c _
  · split
    · unfold State.HbmOk
      rw [chained_hbm]
      refine foldl_keeps State.HbmOk _ (fun s x r => ?_) _ _ (State.takeFrames_hbmWf _ _ (q _))
      split
      · unfold State.HbmOk
        rw [State.setFrame_hbm]
        exact memWf_copyFrame _ _ r
      · exact r
    · exact q _

theorem State.registerBlock_hbmWf (s : State) (e n : Nat) (hashes : List (Nat × Nat)) (h : s.HbmOk) :
    (s.registerBlock e n hashes).HbmOk := by
  have pick : ∀ (c : Bool) (k : Nat × Nat) (u : State), (if c then (none, u) else u.lookupEntry k).2.kv.hbm = u.kv.hbm := by
    intro c k u
    split
    · rfl
    · exact State.lookupEntry_hbm ..
  unfold State.registerBlock
  dsimp only
  split
  · exact h
  · have r1 := pick (decide (n < s.model.blocksPerPage)) (hashes.getD (n - s.model.blocksPerPage) (0, 0)) s
    simp only [decide_eq_true_eq] at r1
    generalize (if n < s.model.blocksPerPage then (none, s) else
      s.lookupEntry (hashes.getD (n - s.model.blocksPerPage) (0, 0))) = first at r1 ⊢
    obtain ⟨par, u⟩ := first
    have r2 := State.lookupEntry_hbm u (hashes.getD n (0, 0))
    dsimp only at r1 ⊢
    generalize u.lookupEntry (hashes.getD n (0, 0)) = second at r2 ⊢
    obtain ⟨own, v⟩ := second
    dsimp only at r2 ⊢
    have hv : v.HbmOk := by
      unfold State.HbmOk
      rw [r2, r1]
      exact h
    split
    · exact hv
    · split
      · unfold State.HbmOk
        rw [State.raise_hbm, State.orReg_hbm]
        exact hv
      · next i _ =>
        have q : ∀ (fs : List Nat) (g : State → Nat → State) (x c : Nat), (∀ t y, (g t y).kv.hbm = t.kv.hbm) →
            ((chained fs (fs.foldl g v)).windowSet e n x c).2.HbmOk := fun fs g x c hg => by
          refine State.windowSet_hbmWf _ _ _ _ _ ?_
          unfold State.HbmOk
          rw [chained_hbm, foldl_hbm _ hg]
          exact hv
        unfold State.HbmOk
        rw [State.count_hbm, State.modSeq_hbm]
        cases par with
        | some p =>
          dsimp only
          rw [State.modDir_hbm, State.putDir_hbm]
          exact q _ _ _ _ fun t y => State.setFrame_hbm ..
        | none =>
          dsimp only
          rw [State.putDir_hbm]
          exact q _ _ _ _ fun t y => State.setFrame_hbm ..

theorem State.registerSeq_hbmWf (s : State) (e before after : Nat) (h : s.HbmOk) :
    (s.registerSeq e before after).HbmOk := by
  unfold State.registerSeq
  split
  · exact h
  · dsimp only
    split
    · exact h
    · exact foldl_keeps State.HbmOk _ (fun _ _ q => State.registerBlock_hbmWf _ _ _ _ q) _ _ h

theorem State.resumeFrames_hbmWf (s : State) (e : Nat) (h : s.HbmOk) : (s.resumeFrames e).2.HbmOk := by
  unfold State.resumeFrames
  cases s.seq? e with
  | none => exact h
  | some q =>
    have l : ((s.setSeq e { q with hitDepth := 0, starved := false }).lookup e q.hitDepth).HbmOk := by
      refine State.lookup_hbmWf _ _ _ ?_
      unfold State.HbmOk
      rw [State.setSeq_hbm]
      exact h
    dsimp only
    have r := State.reserveSlots_hbmWf _ e (q.fetched.map (fun p => p.1)) true l
    split
    · next k =>
      rw [k] at r
      unfold State.HbmOk
      dsimp only
      rw [foldl_hbm _ (fun _ _ => State.setFrame_hbm ..)]
      exact r
    · unfold State.HbmOk
      dsimp only
      rw [State.orReg_hbm, State.setSeq_hbm]
      exact h

@[simp] theorem State.serveWaiting_hbmWf (s : State) (h : s.HbmOk) : s.serveWaiting.HbmOk := by
  unfold State.serveWaiting
  refine List.foldlRecOn (motive := fun (a : Bool × State) => a.2.HbmOk) _ _ h ?_
  intro a q x _
  split
  · exact q
  · split
    · next w _ =>
      have r := State.reserve_hbmWf a.2 x.2.1 w.1 w.2 q
      split
      · next k =>
        rw [k] at r
        unfold State.HbmOk
        rw [State.modSeq_hbm]
        exact r
      · next k =>
        rw [k] at r
        exact r
    · exact State.resumeFrames_hbmWf _ _ q

@[simp] theorem State.startScene_hbm (s : State) (v : Nat × Variant) (start : Nat) (ms : List Member) (positions : Nat) : (State.startScene s v start ms positions).kv.hbm = s.kv.hbm := by
  simp [State.startScene]

@[simp] theorem State.failMember_hbm (source : Nat) (s : State) (m : Member) : (State.failMember source s m).kv.hbm = s.kv.hbm := by
  unfold State.failMember
  repeat' split
  all_goals (first | with_reducible rfl | simp)

@[simp] theorem State.settleLost_hbm (s : State) : (State.settleLost s).kv.hbm = s.kv.hbm := by
  simp [State.settleLost]

@[simp] theorem State.freeLost_hbm (s : State) : (State.freeLost s).kv.hbm = s.kv.hbm := by
  unfold State.freeLost
  rfl

@[simp] theorem State.stepFailure_hbm (s : State) (c : Option Scene) : (State.stepFailure s c).kv.hbm = s.kv.hbm := by
  unfold State.stepFailure
  dsimp only
  repeat' (first | (simp; done) | split)

@[simp] theorem State.stepCancel_hbm (s : State) : (State.stepCancel s).kv.hbm = s.kv.hbm := by
  unfold State.stepCancel
  rfl

@[simp] theorem State.stepAppend_hbm (s : State) : (State.stepAppend s).kv.hbm = s.kv.hbm := by
  unfold State.stepAppend
  rfl

@[simp] theorem State.deliverTokens_hbm (s : State) (e : Nat) (q : Seq) (ds : List Delivered) (reason : Nat) (heads : List (List Nat)) : (State.deliverTokens s e q ds reason heads).kv.hbm = s.kv.hbm := by
  simp [State.deliverTokens]

@[simp] theorem State.commitChunk_hbm (s : State) (c : Scene) (base e : Nat) (q : Seq) (first stop : Nat) : (State.commitChunk s c base e q first stop).kv.hbm = s.kv.hbm := by
  simp [State.commitChunk]

@[simp] theorem State.commitPath_hbmWf (s : State) (c : Scene) (base e : Nat) (q : Seq) (kept : List Nat) (h : s.HbmOk) : (State.commitPath s c base e q kept).HbmOk := by
  unfold State.commitPath
  repeat' (first
    | assumption
    | with_reducible refine hbmOk_of_eq (State.count_hbm ..) ?_
    | with_reducible apply State.commitNode_hbmWf
    | with_reducible refine hbmOk_of_eq (State.deliverTokens_hbm ..) ?_
    | with_reducible apply memWf_memWriteList
    | with_reducible apply memWf_memWrite
    | with_reducible apply memWf_filter
    | with_reducible apply memWf_copyFrame
    | with_reducible apply memWf_zeroFrames
    | with_reducible refine foldl_keeps State.HbmOk _ (fun _ _ _ => ?_) _ _ ?_)

@[simp] theorem State.commitMember_hbmWf (s : State) (c : Scene) (base : Nat) (m : Member) (h : s.HbmOk) : (State.commitMember s c base m).HbmOk := by
  unfold State.commitMember
  repeat' (first
    | assumption
    | with_reducible refine hbmOk_of_eq (State.commitChunk_hbm ..) ?_
    | with_reducible apply State.commitPath_hbmWf
    | with_reducible apply memWf_memWriteList
    | with_reducible apply memWf_memWrite
    | with_reducible apply memWf_filter
    | with_reducible apply memWf_copyFrame
    | with_reducible apply memWf_zeroFrames
    | with_reducible refine foldl_keeps State.HbmOk _ (fun _ _ _ => ?_) _ _ ?_
    | split)

@[simp] theorem State.checkAccepted_hbm (s : State) (c : Scene) : (State.checkAccepted s c).kv.hbm = s.kv.hbm := by
  unfold State.checkAccepted
  repeat' (first | with_reducible rfl | (simp; done) | (refine (foldl_hbm _ (fun _ _ => ?_) _ _).trans ?_) | split | simp)

@[simp] theorem State.stepCommit_hbmWf (s : State) (c : Scene) (h : s.HbmOk) : (s.stepCommit c).HbmOk := by
  unfold State.stepCommit
  dsimp only
  refine foldl_keeps State.HbmOk _ (fun _ _ q => State.registerSeq_hbmWf _ _ _ _ q) _ _ ?_
  exact foldl_keeps State.HbmOk _ (fun _ _ q => State.commitMember_hbmWf _ _ _ _ q) _ _ (State.writePuts_hbmWf _ _ h)

@[simp] theorem State.releaseFinished_hbm (s : State) (e : Nat) : (State.releaseFinished s e).kv.hbm = s.kv.hbm := by
  unfold State.releaseFinished
  repeat' split
  all_goals (first | with_reducible rfl | simp)

@[simp] theorem State.beginPause_hbm (s : State) (e : Nat) : (State.beginPause s e).kv.hbm = s.kv.hbm := by
  unfold State.beginPause
  dsimp only
  repeat' (first | (simp; done) | split)

@[simp] theorem State.stepSnapshot_hbm (s : State) (count : Nat) : (State.stepSnapshot s count).kv.hbm = s.kv.hbm := by
  simp [State.stepSnapshot]

@[simp] theorem State.stepCount_hbm (s : State) (ms : List Member) : (State.stepCount s ms).kv.hbm = s.kv.hbm := by
  unfold State.stepCount
  repeat' (first | with_reducible rfl | (simp; done) | (refine (foldl_hbm _ (fun _ _ => ?_) _ _).trans ?_) | split)

theorem State.unlessStopped_hbm (s : State) (f : State → State) (h : (f s).kv.hbm = s.kv.hbm) :
    (s.unlessStopped f).kv.hbm = s.kv.hbm := by
  unfold State.unlessStopped
  split
  · rfl
  · exact h

@[simp] theorem State.changeSteps_hbmWf (s : State) (c : Option Scene) (h : s.HbmOk) : (s.changeSteps c).HbmOk := by
  have go : ∀ (t : State) (f : State → State), t.HbmOk → (∀ u, u.HbmOk → (f u).HbmOk) → (t.unlessStopped f).HbmOk :=
    fun t f q k => by
      unfold State.unlessStopped
      split
      · exact q
      · exact k t q
  have eq : ∀ (f : State → State), (∀ u, (f u).kv.hbm = u.kv.hbm) → ∀ u, u.HbmOk → (f u).HbmOk := fun f k u q => by
    unfold State.HbmOk
    rw [k u]
    exact q
  unfold State.changeSteps
  have first : (((s.stepFailure c).stepCancel).stepAppend).HbmOk := by
    unfold State.HbmOk
    rw [State.stepAppend_hbm, State.stepCancel_hbm, State.stepFailure_hbm]
    exact h
  repeat' refine go _ _ ?_ ?_
  · cases c.filter (fun x => x.failed.isNone) with
    | none => exact first
    | some x => exact State.stepCommit_hbmWf _ _ first
  · exact eq _ fun u => by simp only [State.freeLost_hbm, foldl_hbm, State.releaseFinished_hbm, implies_true]
  · exact eq _ fun u => by simp only [foldl_hbm, State.beginPause_hbm, implies_true]
  · exact eq _ fun u => State.cutovers_hbm u
  · exact eq _ fun u => State.rollCall_hbm u
  · exact eq _ fun u => by rw [State.releaseOld_hbm, State.pointerSwitch_hbm]
  · exact eq _ fun u => State.stepSnapshot_hbm ..
  · exact eq _ fun u => State.stepCount_hbm ..

@[simp] theorem State.afterChange_hbm (s : State) : (State.afterChange s).kv.hbm = s.kv.hbm := by
  unfold State.afterChange
  repeat' split
  all_goals (first | with_reducible rfl | simp)

@[simp] theorem State.leaveFabric_hbm (s : State) (scene : Nat) : (State.leaveFabric s scene).kv.hbm = s.kv.hbm := by
  simp [State.leaveFabric]

@[simp] theorem State.endScene_hbmWf (s : State) (c : Scene) (h : s.HbmOk) : (s.endScene c).HbmOk := by
  unfold State.endScene
  have q : (s.checkAccepted c).HbmOk := by
    unfold State.HbmOk
    rw [State.checkAccepted_hbm]
    exact h
  dsimp only
  split
  · unfold State.HbmOk
    rw [State.afterChange_hbm]
    refine State.changeSteps_hbmWf _ _ ?_
    unfold State.HbmOk
    rw [State.leaveFabric_hbm]
    exact q
  · exact q

@[simp] theorem State.portDown_hbm (s : State) (p : Nat) : (State.portDown s p).kv.hbm = s.kv.hbm := by
  simp [State.portDown]

@[simp] theorem State.restartLanes_hbm (s : State) (b : Nat) (train : TrainState) : (State.restartLanes s b train).kv.hbm = s.kv.hbm := by
  unfold State.restartLanes
  rfl

@[simp] theorem State.setMode_hbm (s : State) (b mode : Nat) (an : Bool) : (State.setMode s b mode an).kv.hbm = s.kv.hbm := by
  simp [State.setMode]

@[simp] theorem State.laneDown_hbm (s : State) (lane : Nat) : (State.laneDown s lane).kv.hbm = s.kv.hbm := by
  unfold State.laneDown
  repeat' split
  all_goals (first | with_reducible rfl | simp)

@[simp] theorem State.returnData_hbm (s : State) (v : Nat) : (State.returnData s v).kv.hbm = s.kv.hbm := by
  unfold State.returnData
  rfl

@[simp] theorem State.countPattern_hbm (s : State) (o : Nat) : (State.countPattern s o).kv.hbm = s.kv.hbm := by
  simp [State.countPattern]

@[simp] theorem State.deliverPending_hbm (s : State) : s.deliverPending.kv.hbm = s.kv.hbm := by
  unfold State.deliverPending
  refine foldl_hbm _ (fun _ _ => ?_) _ _
  dsimp only
  split
  · simp only [State.setReg_hbm]
  · rfl

@[simp] theorem State.windowWrite_hbm (s : State) (o v : Nat) : (State.windowWrite s o v).kv.hbm = s.kv.hbm := by
  simp [State.windowWrite]

@[simp] theorem State.writeWord_hbm (s : State) (offset v : Nat) : (State.writeWord s offset v).kv.hbm = s.kv.hbm := by
  simp [State.writeWord]

@[simp] theorem State.hbmPut_hbmWf (s : State) (a : Nat) (b : Byte) (h : s.HbmOk) : (State.hbmPut s a b).HbmOk := by
  unfold State.hbmPut
  repeat' (first
    | assumption
    | with_reducible refine hbmOk_of_eq (State.uncheck_hbm ..) ?_
    | with_reducible apply memWf_memWriteList
    | with_reducible apply memWf_memWrite
    | with_reducible apply memWf_filter
    | with_reducible apply memWf_copyFrame
    | with_reducible apply memWf_zeroFrames
    | with_reducible refine foldl_keeps State.HbmOk _ (fun _ _ _ => ?_) _ _ ?_
    | split)

@[simp] theorem State.bar2Put_hbmWf (s : State) (a : Nat) (b : Byte) (h : s.HbmOk) : (State.bar2Put s a b).HbmOk := by
  unfold State.bar2Put
  repeat' (first
    | assumption
    | with_reducible refine hbmOk_of_eq (State.snoop_hbm ..) ?_
    | with_reducible apply State.hbmPut_hbmWf
    | with_reducible apply memWf_memWriteList
    | with_reducible apply memWf_memWrite
    | with_reducible apply memWf_filter
    | with_reducible apply memWf_copyFrame
    | with_reducible apply memWf_zeroFrames
    | with_reducible refine foldl_keeps State.HbmOk _ (fun _ _ _ => ?_) _ _ ?_
    | split)

theorem State.bar2Write_hbmWf (s : State) (a : Nat) (bs : List Byte) (h : s.HbmOk) : (s.bar2Write a bs).HbmOk := by
  induction bs generalizing s a with
  | nil => exact h
  | cons b bs ih => exact ih _ _ (State.bar2Put_hbmWf _ _ _ h)

@[simp] theorem State.bar2Read_hbm (s : State) (a n : Nat) : (s.bar2Read a n).1.kv.hbm = s.kv.hbm := by
  induction n generalizing s a with
  | zero => rfl
  | succ n ih =>
    unfold State.bar2Read
    dsimp only
    rw [ih]
    split <;> simp

@[simp] theorem State.modHostRing_hbm (s : State) (rx : Bool) (f : HostRing → HostRing) : (State.modHostRing s rx f).kv.hbm = s.kv.hbm := by
  simp [State.modHostRing]

@[simp] theorem State.readDescriptors_hbm (s : State) (rx : Bool) : (State.readDescriptors s rx).kv.hbm = s.kv.hbm := by
  simp [State.readDescriptors]

@[simp] theorem State.handTail_hbm (s : State) (rx : Bool) (value : Nat) (descriptors : List (List Byte)) : (State.handTail s rx value descriptors).kv.hbm = s.kv.hbm := by
  simp [State.handTail]

@[simp] theorem State.giveBack_hbm (s : State) (rx : Bool) (bs : List Byte) : (State.giveBack s rx bs).kv.hbm = s.kv.hbm := by
  simp [State.giveBack]

@[simp] theorem State.returnBad_hbm (rx : Bool) (ds : List (List Byte)) (s : State) :
    (State.returnBad rx ds s).kv.hbm = s.kv.hbm := by
  induction ds generalizing s with
  | nil => rfl
  | cons d ds ih =>
    unfold State.returnBad
    split
    · rfl
    · rw [ih]; simp

@[simp] theorem State.dropHostFrame_hbm (s : State) : (State.dropHostFrame s).kv.hbm = s.kv.hbm := by
  unfold State.dropHostFrame
  rfl

@[simp] theorem State.storeHostFrame_hbm (s : State) (port timestamp : Nat) (frame : List Byte) : (State.storeHostFrame s port timestamp frame).kv.hbm = s.kv.hbm := by
  unfold State.storeHostFrame
  dsimp only
  repeat' (first | (simp; done) | split)

@[simp] theorem State.hostFrameIn_hbm (s : State) (port : Nat) (frame : List Byte) : (State.hostFrameIn s port frame).kv.hbm = s.kv.hbm := by
  simp [State.hostFrameIn]

@[simp] theorem State.resumeHostFrames_hbm (s : State) : (State.resumeHostFrames s).kv.hbm = s.kv.hbm := by
  simp [State.resumeHostFrames]

@[simp] theorem State.resumeRequests_hbm (s : State) : s.resumeRequests.kv.hbm = s.kv.hbm := by
  unfold State.resumeRequests
  dsimp only
  rw [State.deliverPending_hbm, State.resumeHostFrames_hbm, foldl_hbm _ (fun _ _ => State.fetchEntries_hbm ..)]

@[simp] theorem State.rehearsalFence_hbm (s : State) (t : Nat) (job : Option Nat) : (State.rehearsalFence s t job).kv.hbm = s.kv.hbm := by
  unfold State.rehearsalFence
  dsimp only
  repeat' (first | (simp; done) | split)

@[simp] theorem State.startRehearsal_hbm (s : State) (t : Nat) (job : Option Nat) : (State.startRehearsal s t job).kv.hbm = s.kv.hbm := by
  simp [State.startRehearsal]

@[simp] theorem State.rehearsalPass_hbm (s : State) (r : Rehearsal) : (State.rehearsalPass s r).kv.hbm = s.kv.hbm := by
  simp [State.rehearsalPass]

@[simp] theorem State.rehearsalFail_hbm (s : State) (r : Rehearsal) (result first set : Nat) : (State.rehearsalFail s r result first set).kv.hbm = s.kv.hbm := by
  simp [State.rehearsalFail]

@[simp] theorem State.mctpControl_hbm (s : State) (code : Nat) (data : List Byte) : (State.mctpControl s code data).kv.hbm = s.kv.hbm := by
  simp [State.mctpControl]

@[simp] theorem State.enterSeq_hbmWf (s : State) (i tag : Nat) (b : List Byte) (tokens : List Nat) (h : s.HbmOk) :
    (s.enterSeq i tag b tokens).HbmOk := by
  unfold State.enterSeq State.HbmOk
  dsimp only
  rw [State.count_hbm]
  refine State.lookup_hbmWf _ _ _ (State.takeMap_hbmWf _ _ ?_)
  unfold State.HbmOk
  rw [State.setSeq_hbm]
  exact h

@[simp] theorem State.beginResume_hbmWf (s : State) (e : Nat) (q : Seq) (im : Image) (h : s.HbmOk) :
    (s.beginResume e q im).HbmOk := by
  unfold State.beginResume
  dsimp only
  split
  · unfold State.HbmOk
    rw [State.orReg_hbm, State.modSeq_hbm, State.setSeq_hbm]
    exact h
  · refine State.resumeFrames_hbmWf _ _ ?_
    unfold State.HbmOk
    rw [State.setSeq_hbm]
    exact h

@[simp] theorem State.resumeSeq_hbmWf (s : State) (i : Nat) (ring : Option Nat) (im : Image) (h : s.HbmOk) :
    (s.resumeSeq i ring im).HbmOk := by
  unfold State.resumeSeq
  split
  · exact State.beginResume_hbmWf _ _ _ _ h
  · exact State.beginResume_hbmWf _ _ _ _ h
  · exact h

@[simp] theorem State.vacate_hbm (s : State) (i : Nat) : (State.vacate s i).kv.hbm = s.kv.hbm := by
  simp [State.vacate]

@[simp] theorem State.carryOut_hbmWf (s : State) (r : Relay) (h : s.HbmOk) : (s.carryOut r).HbmOk := by
  have v : ∀ i, (s.vacate i).HbmOk := fun i => hbmOk_of_eq (State.vacate_hbm s i) h
  cases r with
  | enter i tag b tokens => exact State.enterSeq_hbmWf _ _ _ _ _ (v i)
  | append i a => exact hbmOk_of_eq (State.modSeq_hbm ..) h
  | cancel i => exact hbmOk_of_eq (State.modSeq_hbm ..) h
  | pause i dest key => exact hbmOk_of_eq (State.modSeq_hbm ..) h
  | resume i ring im =>
    refine State.resumeSeq_hbmWf _ _ _ _ ?_
    split
    · exact v i
    · exact h
  | evict i => exact v i

@[simp] theorem State.accept_hbmWf (s : State) (r : Relay) (h : s.HbmOk) : (s.accept r).HbmOk := by
  unfold State.accept
  dsimp only
  split <;> exact State.carryOut_hbmWf _ _ h

@[simp] theorem State.placeRecord_hbmWf (s : State) (e : Nat) (p : (Nat × Nat × Nat) × List Byte) (h : s.HbmOk) : (State.placeRecord s e p).HbmOk := by
  unfold State.placeRecord
  repeat' (first
    | assumption
    | with_reducible refine hbmOk_of_eq (State.setFrame_hbm ..) ?_
    | with_reducible apply memWf_memWriteList
    | with_reducible apply memWf_memWrite
    | with_reducible apply memWf_filter
    | with_reducible apply memWf_copyFrame
    | with_reducible apply memWf_zeroFrames
    | with_reducible refine foldl_keeps State.HbmOk _ (fun _ _ _ => ?_) _ _ ?_
    | split)

@[simp] theorem State.landPage_hbm (s : State) (e : Nat) (x : Nat × Nat × Nat) : (State.landPage s e x).kv.hbm = s.kv.hbm := by
  unfold State.landPage
  dsimp only
  repeat' (first | simp | split)

@[simp] theorem State.startSent_hbmWf (s : State) (c : CueSheet) (h : s.HbmOk) : (s.startSent c).HbmOk := by
  unfold State.startSent
  split
  · exact h
  · next d rest _ =>
    have q : ((Config.readDescriptor d.2).relays.foldl State.carryOut { s with net := { s.net with sceneQueue := rest } }).HbmOk :=
      foldl_keeps State.HbmOk _ (fun _ _ q => State.carryOut_hbmWf _ _ q) _ _ h
    dsimp only
    split
    · exact q
    · unfold State.HbmOk
      rw [State.startScene_hbm]
      refine State.advanceTo_hbmWf _ _ ?_
      exact foldl_keeps State.HbmOk _ (fun _ _ q => State.reserve_hbmWf _ _ _ _ q) _ _ q

@[simp] theorem State.holdFlash_hbm (s : State) (boot : List Byte) : (State.holdFlash s boot).kv.hbm = s.kv.hbm := by
  unfold State.holdFlash
  rfl

@[simp] theorem State.rom_hbm (s : State) (selfTestOk identityOk : Bool) (boot : List Byte) : (State.rom s selfTestOk identityOk boot).kv.hbm = s.kv.hbm := by
  simp [State.rom]

theorem State.full_hbmWf (s : State) (chip : Bool) : (s.full chip).HbmOk := rfl

@[simp] theorem State.functionReset_hbm (s : State) : (State.functionReset s).kv.hbm = s.kv.hbm := by
  unfold State.functionReset
  rfl

@[simp] theorem State.chipReset_hbmWf (s : State) (selfTestOk identityOk : Bool) (boot : List Byte) (h : s.HbmOk) : (State.chipReset s selfTestOk identityOk boot).HbmOk := by
  unfold State.chipReset
  repeat' (first
    | assumption
    | with_reducible refine hbmOk_of_eq (State.rom_hbm ..) ?_
    | with_reducible apply State.full_hbmWf
    | with_reducible apply memWf_memWriteList
    | with_reducible apply memWf_memWrite
    | with_reducible apply memWf_filter
    | with_reducible apply memWf_copyFrame
    | with_reducible apply memWf_zeroFrames
    | with_reducible refine foldl_keeps State.HbmOk _ (fun _ _ _ => ?_) _ _ ?_
    | split
    | dsimp only
    | (simp [*]; done)
    )

@[simp] theorem State.resetTile_hbm (s : State) (kind t : Nat) : (State.resetTile s kind t).kv.hbm = s.kv.hbm := by
  unfold State.resetTile
  dsimp only
  repeat' (first | (simp; done) | split)

@[simp] theorem State.resetPortDie_hbm (s : State) (d : Nat) : (s.resetPortDie d).kv.hbm = s.kv.hbm := by
  unfold State.resetPortDie
  have ports : ∀ t : State, ((List.range 8).foldl (fun s p => s.portDown (8 * d + p)) t).kv.hbm = t.kv.hbm :=
    fun t => foldl_hbm _ (fun s p => State.portDown_hbm s (8 * d + p)) _ t
  simp only [State.clearRegs_hbm, ports]

@[simp] theorem State.loseCopies_hbm (s : State) : (State.loseCopies s).kv.hbm = s.kv.hbm := by
  unfold State.loseCopies
  dsimp only
  repeat' (first | simp | split)

theorem State.resetStack_hbmWf (s : State) (k : Nat) (h : s.HbmOk) : (s.resetStack k).HbmOk := by
  unfold State.resetStack State.HbmOk
  dsimp only
  split
  all_goals simpa using memWf_filter _ h

@[simp] theorem State.blockReset_hbmWf (s : State) (kind index : Nat) (h : s.HbmOk) : (s.blockReset kind index).HbmOk := by
  unfold State.blockReset
  dsimp only
  have k : (if s.interrupts kind (resetTiles kind index) = true then s.failScenes (fun _ => true) 512 else s).HbmOk := by
    split
    · exact hbmOk_of_eq (State.failScenes_hbm ..) h
    · exact h
  generalize (if s.interrupts kind (resetTiles kind index) = true then s.failScenes (fun _ => true) 512 else s) = u at k ⊢
  split
  · exact hbmOk_of_eq (State.resetPortDie_hbm ..) k
  · exact State.resetStack_hbmWf _ _ k
  · have r : ∀ m, ((resetTiles kind index).foldl (fun s t => s.resetTile m t) u).HbmOk := fun m =>
      hbmOk_of_eq (foldl_hbm _ (fun _ _ => State.resetTile_hbm ..) _ _) k
    split
    · refine hbmOk_of_eq (State.syncMgmt_hbm ..) ?_
      exact hbmOk_of_eq (foldl_hbm _ (fun _ _ => State.modTile_hbm ..) _ _) (r _)
    · exact r _

@[simp] theorem State.restoreArrInfo_hbm (s : State) (t a : Nat) : (State.restoreArrInfo s t a).kv.hbm = s.kv.hbm := by
  unfold State.restoreArrInfo
  dsimp only
  repeat' (first | (simp; done) | split)

@[simp] theorem State.saveTrims_hbm (s : State) (t : Nat) : (State.saveTrims s t).kv.hbm = s.kv.hbm := by
  unfold State.saveTrims
  rfl

@[simp] theorem State.endTileReset_hbm (s : State) (t : Nat) (digests : Map (List Nat)) : (State.endTileReset s t digests).kv.hbm = s.kv.hbm := by
  unfold State.endTileReset
  repeat' (first | with_reducible rfl | (simp; done) | (refine (foldl_hbm _ (fun _ _ => ?_) _ _).trans ?_) | split | simp)

@[simp] theorem State.stagingWrite_hbmWf (s : State) (a : Nat) (bs : List Byte) (h : s.HbmOk) : (State.stagingWrite s a bs).HbmOk := by
  unfold State.stagingWrite
  repeat' (first
    | assumption
    | with_reducible apply State.hbmWrite_hbmWf
    | with_reducible apply memWf_memWriteList
    | with_reducible apply memWf_memWrite
    | with_reducible apply memWf_filter
    | with_reducible apply memWf_copyFrame
    | with_reducible apply memWf_zeroFrames
    | with_reducible refine foldl_keeps State.HbmOk _ (fun _ _ _ => ?_) _ _ ?_)

@[simp] theorem State.stagingRead_hbm (s : State) (a n : Nat) : (State.stagingRead s a n).kv.hbm = s.kv.hbm := by
  simp [State.stagingRead]

@[simp] theorem State.markCnp_hbm (s : State) (n : Nat) (q : QueuePair) : (State.markCnp s n q).kv.hbm = s.kv.hbm := by
  simp [State.markCnp]

@[simp] theorem State.takeRequest_hbm (s : State) (n packets : Nat) : (State.takeRequest s n packets).kv.hbm = s.kv.hbm := by
  simp [State.takeRequest]

@[simp] theorem State.readPacket_hbm (n : Nat) (q : QueuePair) (psn addr : Nat) (s : State) (p : Nat × PacketPart × List Byte) :
    (State.readPacket n q psn addr s p).kv.hbm = s.kv.hbm := by
  unfold State.readPacket
  split <;> simp

@[simp] theorem State.answerRead_hbm (s : State) (n : Nat) (q : QueuePair) (psn addr len : Nat) : (State.answerRead s n q psn addr len).kv.hbm = s.kv.hbm := by
  unfold State.answerRead
  exact (foldl_hbm _ (fun _ _ => State.readPacket_hbm ..) _ _).trans (State.stagingRead_hbm ..)

@[simp] theorem State.landRecord_hbmWf (s : State) (offset f : Nat) (h : s.HbmOk) : (s.landRecord offset f).HbmOk := by
  unfold State.landRecord State.HbmOk
  dsimp only
  rw [State.setFrame_hbm, State.stagingRead_hbm]
  with_reducible apply memWf_memWriteList
  with_reducible apply memWf_memWriteList
  exact h

@[simp] theorem State.takePages_hbmWf (s : State) (qp layout offset : Nat) (pages : List (Nat × Nat × Nat)) (h : s.HbmOk) :
    (s.takePages qp layout offset pages).HbmOk := by
  unfold State.takePages
  cases s.fabric.active with
  | none =>
    unfold State.HbmOk
    dsimp only
    rw [State.sendRoce_hbm]
    exact h
  | some c =>
    dsimp only
    have k : (if c.kvLayout = layout then s.roomFor else s).HbmOk := by
      split
      · exact hbmOk_of_eq (State.roomFor_hbm s) h
      · exact h
    generalize (if c.kvLayout = layout then s.roomFor else s) = u at k ⊢
    have land : ∀ (xs : List (Nat × Nat)) (ds : List Frame), (xs.foldl (fun s p => s.landRecord (offset + 2109440 * p.1) p.2)
        (u.takeFrames ds).2).HbmOk := fun xs ds =>
      foldl_keeps State.HbmOk _ (fun _ _ q => State.landRecord_hbmWf _ _ _ q) _ _ (State.takeFrames_hbmWf _ _ k)
    unfold State.HbmOk
    split
    · rw [State.sendRoce_hbm]
      exact k
    · split
      · rw [State.sendRoce_hbm]
        exact k
      · split
        · rw [State.sendRoce_hbm, State.freeFrames_hbm]
          exact land _ _
        · rw [State.sendRoce_hbm, foldl_hbm _ (fun _ _ => State.setFrame_hbm ..)]
          exact land _ _

@[simp] theorem State.refuse_hbm (s : State) (n code : Nat) : (State.refuse s n code).kv.hbm = s.kv.hbm := by
  simp [State.refuse]

@[simp] theorem State.takeWrite_hbmWf (s : State) (n : Nat) (q : QueuePair) (psn : Nat) (part : PacketPart) (addr len rkey : Nat) (data : List Byte) (h : s.HbmOk) : (State.takeWrite s n q psn part addr len rkey data).HbmOk := by
  unfold State.takeWrite
  repeat' (first
    | assumption
    | with_reducible refine hbmOk_of_eq (State.count_hbm ..) ?_
    | with_reducible refine hbmOk_of_eq (State.sendRoce_hbm ..) ?_
    | with_reducible refine hbmOk_of_eq (State.modQp_hbm ..) ?_
    | with_reducible apply State.stagingWrite_hbmWf
    | with_reducible refine hbmOk_of_eq (State.takeRequest_hbm ..) ?_
    | with_reducible refine hbmOk_of_eq (State.refuse_hbm ..) ?_
    | with_reducible apply memWf_memWriteList
    | with_reducible apply memWf_memWrite
    | with_reducible apply memWf_filter
    | with_reducible apply memWf_copyFrame
    | with_reducible apply memWf_zeroFrames
    | with_reducible refine foldl_keeps State.HbmOk _ (fun _ _ _ => ?_) _ _ ?_
    | split
    | dsimp only
    | (simp [*]; done)
    )

@[simp] theorem State.takeSend_hbmWf (s : State) (n : Nat) (q : QueuePair) (psn : Nat) (part : PacketPart) (data : List Byte)
    (pageSet : Option (Nat × Nat × List (Nat × Nat × Nat))) (h : s.HbmOk) : (s.takeSend n q psn part data pageSet).HbmOk := by
  unfold State.takeSend
  dsimp only
  have k : ((s.takeRequest n 1).sendRoce n (.roceAck n psn)).HbmOk := by
    unfold State.HbmOk
    rw [State.sendRoce_hbm, State.takeRequest_hbm]
    exact h
  split
  · exact hbmOk_of_eq (State.refuse_hbm ..) h
  · split
    · split
      · exact State.takePages_hbmWf _ _ _ _ _ k
      · exact k
    · exact k

@[simp] theorem State.takeRead_hbm (s : State) (n : Nat) (q : QueuePair) (psn addr len rkey : Nat) : (State.takeRead s n q psn addr len rkey).kv.hbm = s.kv.hbm := by
  simp [State.takeRead]

theorem State.onRequest_hbmWf (s : State) (n : Nat) (q : QueuePair) (psn : Nat) (take repeat_ : State → State) (h : s.HbmOk)
    (ht : ∀ u, u.HbmOk → (take u).HbmOk) (hr : ∀ u, u.HbmOk → (repeat_ u).HbmOk) : (s.onRequest n q psn take repeat_).HbmOk := by
  unfold State.onRequest
  split
  · exact ht s h
  · split
    · exact hbmOk_of_eq (State.sendRoce_hbm ..) h
    · exact hr s h

@[simp] theorem State.onPacket_hbmWf (s : State) (n : Nat) (q : QueuePair) (ce : Bool) (packet : RocePacket) (h : s.HbmOk) :
    (s.onPacket n q ce packet).HbmOk := by
  unfold State.onPacket
  dsimp only
  have k : (if ce then s.markCnp n q else s).HbmOk := by
    split
    · exact hbmOk_of_eq (State.markCnp_hbm ..) h
    · exact h
  generalize (if ce then s.markCnp n q else s) = u at k ⊢
  have last : ∀ v : State, v.HbmOk → (v.sendRoce n (.roceAck n (psnAdd q.recvPsn 16777215))).HbmOk := fun v hv =>
    hbmOk_of_eq (State.sendRoce_hbm ..) hv
  cases packet with
  | badIcrc => exact hbmOk_of_eq (State.modQp_hbm ..) h
  | read psn addr len rkey =>
    refine State.onRequest_hbmWf _ _ _ _ _ _ k (fun v hv => hbmOk_of_eq (State.takeRead_hbm ..) hv) fun v hv => ?_
    split
    · exact hbmOk_of_eq (State.answerRead_hbm ..) hv
    · exact hbmOk_of_eq (State.refuse_hbm ..) hv
  | write psn part addr len rkey data =>
    exact State.onRequest_hbmWf _ _ _ _ _ _ (hbmOk_of_eq (State.ethIn_hbm ..) k)
      (fun v hv => State.takeWrite_hbmWf _ _ _ _ _ _ _ _ _ hv) last
  | send psn part data pageSet =>
    exact State.onRequest_hbmWf _ _ _ _ _ _ k (fun v hv => State.takeSend_hbmWf _ _ _ _ _ _ _ hv) last
  | ack psn => exact hbmOk_of_eq (State.acknowledge_hbm ..) h
  | nak psn => exact hbmOk_of_eq (State.goBack_hbm ..) h
  | rnrNak psn => exact hbmOk_of_eq (State.goBack_hbm ..) h
  | cnp =>
    refine hbmOk_of_eq (State.count_hbm ..) (hbmOk_of_eq (State.modQp_hbm ..) h)
  | unsupported =>
    refine hbmOk_of_eq (State.modQp_hbm ..) (hbmOk_of_eq (State.refuse_hbm ..) k)

@[simp] theorem State.formatHold_hbm (s : State) (m : Mvm) : (State.formatHold s m).kv.hbm = s.kv.hbm := by
  simp [State.formatHold]

@[simp] theorem State.beginMvm_hbm (s : State) (t : Nat) (m : Mvm) (input : PhaseIn) : (State.beginMvm s t m input).kv.hbm = s.kv.hbm := by
  simp [State.beginMvm]

@[simp] theorem State.startSlot_hbmWf (s : State) (c : CueSheet) (t index scene : Nat) (input : PhaseIn) (h : s.HbmOk) : (State.startSlot s c t index scene input).HbmOk := by
  unfold State.startSlot
  repeat' (first
    | assumption
    | with_reducible refine hbmOk_of_eq (State.sramUe_hbm ..) ?_
    | with_reducible apply State.advanceTo_hbmWf
    | with_reducible refine hbmOk_of_eq (State.beginMvm_hbm ..) ?_
    | with_reducible apply memWf_memWriteList
    | with_reducible apply memWf_memWrite
    | with_reducible apply memWf_filter
    | with_reducible apply memWf_copyFrame
    | with_reducible apply memWf_zeroFrames
    | with_reducible refine foldl_keeps State.HbmOk _ (fun _ _ _ => ?_) _ _ ?_
    | split
    | dsimp only
    | (simp [*]; done)
    )

@[simp] theorem State.startExcess_hbm (s : State) (c : CueSheet) (t : Nat) (input : PhaseIn) : (State.startExcess s c t input).kv.hbm = s.kv.hbm := by
  unfold State.startExcess
  dsimp only
  repeat' (first | (simp; done) | split)

@[simp] theorem State.nextWindow_hbmWf (s : State) (t : Nat) (m : Mvm) (input : PhaseIn) (h : s.HbmOk) : (State.nextWindow s t m input).HbmOk := by
  unfold State.nextWindow
  repeat' (first
    | assumption
    | with_reducible refine hbmOk_of_eq (State.complete_hbm ..) ?_
    | with_reducible refine hbmOk_of_eq (State.mvmWindow_hbm ..) ?_
    | with_reducible refine hbmOk_of_eq (State.settleExcess_hbm ..) ?_
    | with_reducible apply State.advanceTo_hbmWf
    | with_reducible apply memWf_memWriteList
    | with_reducible apply memWf_memWrite
    | with_reducible apply memWf_filter
    | with_reducible apply memWf_copyFrame
    | with_reducible apply memWf_zeroFrames
    | with_reducible refine foldl_keeps State.HbmOk _ (fun _ _ _ => ?_) _ _ ?_
    | split
    | dsimp only
    | (simp [*]; done)
    )

@[simp] theorem State.powerDownFl_hbm (s : State) (t : Nat) : (State.powerDownFl s t).kv.hbm = s.kv.hbm := by
  unfold State.powerDownFl
  dsimp only
  repeat' (first | simp | split)

@[simp] theorem State.endStatWindow_hbm (s : State) (t : Nat) (w : Int × Nat × Nat) : (State.endStatWindow s t w).kv.hbm = s.kv.hbm := by
  simp [State.endStatWindow]

@[simp] theorem State.runSlot_hbm (s : State) (t at_ : Nat) (windows : List CalWindow) : (State.runSlot s t at_ windows).kv.hbm = s.kv.hbm := by
  unfold State.runSlot
  dsimp only
  repeat' (first | (simp; done) | split)

end Sys2Proof.Machine
end

