-- ==== Sys2Proof/Safety.lean ====
section
/-!
DEFINITION. What counts as a safe run: every step answers a next state, and the byte memories keep their canonical form.
-/
namespace Sys2Proof

/-- Every command that waits is one that the environment can send. -/
def queueWf (s : Machine.State) : Bool := s.pending.all Instr.wellFormed

/-- The byte memories of the block are canonical: host memory, HBM, the flash, the staging window and
every tile's SRAM. -/
def Machine.State.memoriesWf (s : Machine.State) : Bool :=
  Machine.memWf s.outside.hostMem && Machine.memWf s.kv.hbm && Machine.memWf s.boot.flash && Machine.memWf s.boot.window &&
    s.tiles.all (fun e => Machine.memWf e.2.sram)

/-- The state in which the command of an entry begins: the entry has left the staging area of its ring and the expected
alive counter has advanced (R390). -/
def Machine.State.begun (s : Machine.State) (e : Entry) : Machine.State := (s.popEntry e.ring).nextAlive e.ring

/-- Firmware begins the entry `e` with the command of opcode `op` (R387, R390, R393, R394, R484): it is the next entry of an
enabled ring pair with a free completion slot, every check of R390 passes, and nothing makes it wait. `pcie` says whether
the command needs a PCIe transfer (R380). -/
structure Machine.Begins (e : Entry) (op : Nat) (pcie : Bool) (s : Machine.State) : Prop where
  wf : entryWf e = true
  opcode : e.opcode = op
  requests : pcie = true → s.mayRequest = true
  enabled : (s.ring e.ring).enabled = true
  first : (s.ring e.ring).staged.head? = some e
  slot : s.slotFree e.ring = true
  runs : s.firmwareRuns = true
  crc : e.crcOk = true
  alive : e.alive = (s.ring e.ring).expected
  fence : e.flags % 2 = 1 → s.jobsOf e.ring = []
  limit : s.mbx.jobs.length < 256
  zeros : e.zerosOk = true
  stop : s.integ.fatalStop = true → op ∈ Machine.stopOpcodes

/-- A run of `k` steps that stops nowhere. -/
def runsOn : Nat → Machine.State → Prop
  | 0, _ => True
  | k + 1, s => ∃ s', Machine.step s = .next s' ∧ runsOn k s'

end Sys2Proof
end

