-- ==== Sys2Proof/Laws/Mailbox.lean ====
section
/-!
SUPPORT. What a mailbox command can do (R390, R393): where its entry begins, its own rules run; where a check fails, the
completion of that check is queued; else nothing changes.
-/
namespace Sys2Proof.Machine

/-- Where an entry begins, its checks pass and its command runs. -/
theorem mbxBegin_runs {e : Entry} {op : Nat} {pcie : Bool} {s : State} (h : Begins e op pcie s)
    (listed : has opcodeTable op = true) : mbxBegin e s = .runs (s.begun e) := by
  have hs : (s.integ.fatalStop && !has stopOpcodes op) = false := by
    cases hf : s.integ.fatalStop with
    | false => rfl
    | true =>
      have := h.stop hf
      simp only [has, Bool.true_and, Bool.not_eq_false', List.any_eq_true, beq_iff_eq]
      exact ⟨op, this, rfl⟩
  have hw : ((decide (e.flags % 2 = 1) && !(s.jobsOf e.ring).isEmpty) || decide (256 ≤ s.mbx.jobs.length)) = false := by
    have l := h.limit
    by_cases hf : e.flags % 2 = 1
    · simp [hf, h.fence hf, l]
    · simp [hf, l]
  have hn : ((s.popEntry e.ring).nextAlive e.ring).integ.fatalStop = s.integ.fatalStop := rfl
  unfold mbxBegin
  simp only [h.enabled, h.first, h.slot, h.runs, h.crc, h.alive, hw, h.opcode, listed, h.zeros, hn, hs]
  simp [State.begun]

/-- A command whose entry begins runs its own rules. -/
theorem runCmd_begins {e : Entry} {op : Nat} {pcie : Bool} {s : State} (body : Body) (h : Begins e op pcie s)
    (listed : has opcodeTable op = true) : runCmd e op pcie body s = .next (runBody e body (s.begun e)) := by
  have hp : (pcie && !s.mayRequest) = false := by
    cases hq : pcie with
    | false => rfl
    | true => simp [h.requests hq]
  unfold runCmd
  rw [mbxBegin_runs h listed]
  simp [h.wf, h.opcode, hp]

/-- A command that completes at once queues its status and result. -/
theorem runBody_done {e : Entry} {body : Body} {s t : State} {st : Status} {res : List Byte}
    (h : body s = done t st res) : runBody e body s = t.complete e st res := by
  unfold runBody
  rw [h]
  rfl

/-- A command that stays in progress queues no completion yet. -/
theorem runBody_later {e : Entry} {body : Body} {s t : State} (h : body s = later t) : runBody e body s = t := by
  unfold runBody
  rw [h]
  rfl

/-- Every mailbox command leaves the state, queues a failing check's completion, or runs its own rules. -/
theorem runCmd_cases {e : Entry} {op : Nat} {pcie : Bool} {body : Body} {s t : State}
    (h : runCmd e op pcie body s = .next t) :
    t = s ∨ mbxBegin e s = .rejected t ∨ ∃ u, mbxBegin e s = .runs u ∧ t = runBody e body u := by
  unfold runCmd at h
  split at h
  · cases h
  · split at h
    · cases h; exact .inl rfl
    · split at h
      · cases h; exact .inl rfl
      · next r => cases h; exact .inr (.inl r)
      · next u r => cases h; exact .inr (.inr ⟨u, r, rfl⟩)

end Sys2Proof.Machine
end

