-- ==== Sys2Proof/Laws/State.lean ====
section
/-!
SUPPORT. What each shared operation leaves alone: one lemma for each field of the state that an operation does not write,
so that no proof unfolds a record update.
-/
namespace Sys2Proof.Machine

/-- A fold whose every step leaves a field alone leaves it alone. -/
theorem foldl_field {α β : Type} (p : State → β) (f : State → α → State) (h : ∀ s x, p (f s x) = p s) (xs : List α) (s : State) :
    p (xs.foldl f s) = p s :=
  List.foldlRecOn xs f (motive := fun t => p t = p s) rfl fun t ht x _ => (h t x).trans ht

@[simp] theorem ite_pending {c : Prop} [Decidable c] (a b : State) : (if c then a else b).pending = if c then a.pending else b.pending := by
  split <;> rfl
@[simp] theorem foldl_pending {α : Type} (f : State → α → State) (h : ∀ s x, (f s x).pending = s.pending) (xs : List α) (s : State) :
    (xs.foldl f s).pending = s.pending := foldl_field (fun s => s.pending) f h xs s
@[simp] theorem ite_regs {c : Prop} [Decidable c] (a b : State) : (if c then a else b).regs = if c then a.regs else b.regs := by
  split <;> rfl
@[simp] theorem foldl_regs {α : Type} (f : State → α → State) (h : ∀ s x, (f s x).regs = s.regs) (xs : List α) (s : State) :
    (xs.foldl f s).regs = s.regs := foldl_field (fun s => s.regs) f h xs s
@[simp] theorem ite_shadows {c : Prop} [Decidable c] (a b : State) : (if c then a else b).shadows = if c then a.shadows else b.shadows := by
  split <;> rfl
@[simp] theorem foldl_shadows {α : Type} (f : State → α → State) (h : ∀ s x, (f s x).shadows = s.shadows) (xs : List α) (s : State) :
    (xs.foldl f s).shadows = s.shadows := foldl_field (fun s => s.shadows) f h xs s
@[simp] theorem ite_tiles {c : Prop} [Decidable c] (a b : State) : (if c then a else b).tiles = if c then a.tiles else b.tiles := by
  split <;> rfl
@[simp] theorem foldl_tiles {α : Type} (f : State → α → State) (h : ∀ s x, (f s x).tiles = s.tiles) (xs : List α) (s : State) :
    (xs.foldl f s).tiles = s.tiles := foldl_field (fun s => s.tiles) f h xs s
@[simp] theorem ite_fabric {c : Prop} [Decidable c] (a b : State) : (if c then a else b).fabric = if c then a.fabric else b.fabric := by
  split <;> rfl
@[simp] theorem foldl_fabric {α : Type} (f : State → α → State) (h : ∀ s x, (f s x).fabric = s.fabric) (xs : List α) (s : State) :
    (xs.foldl f s).fabric = s.fabric := foldl_field (fun s => s.fabric) f h xs s
@[simp] theorem ite_kv {c : Prop} [Decidable c] (a b : State) : (if c then a else b).kv = if c then a.kv else b.kv := by
  split <;> rfl
@[simp] theorem foldl_kv {α : Type} (f : State → α → State) (h : ∀ s x, (f s x).kv = s.kv) (xs : List α) (s : State) :
    (xs.foldl f s).kv = s.kv := foldl_field (fun s => s.kv) f h xs s
@[simp] theorem ite_prm {c : Prop} [Decidable c] (a b : State) : (if c then a else b).prm = if c then a.prm else b.prm := by
  split <;> rfl
@[simp] theorem foldl_prm {α : Type} (f : State → α → State) (h : ∀ s x, (f s x).prm = s.prm) (xs : List α) (s : State) :
    (xs.foldl f s).prm = s.prm := foldl_field (fun s => s.prm) f h xs s
@[simp] theorem ite_ldr {c : Prop} [Decidable c] (a b : State) : (if c then a else b).ldr = if c then a.ldr else b.ldr := by
  split <;> rfl
@[simp] theorem foldl_ldr {α : Type} (f : State → α → State) (h : ∀ s x, (f s x).ldr = s.ldr) (xs : List α) (s : State) :
    (xs.foldl f s).ldr = s.ldr := foldl_field (fun s => s.ldr) f h xs s
@[simp] theorem ite_mbx {c : Prop} [Decidable c] (a b : State) : (if c then a else b).mbx = if c then a.mbx else b.mbx := by
  split <;> rfl
@[simp] theorem foldl_mbx {α : Type} (f : State → α → State) (h : ∀ s x, (f s x).mbx = s.mbx) (xs : List α) (s : State) :
    (xs.foldl f s).mbx = s.mbx := foldl_field (fun s => s.mbx) f h xs s
@[simp] theorem ite_pcie {c : Prop} [Decidable c] (a b : State) : (if c then a else b).pcie = if c then a.pcie else b.pcie := by
  split <;> rfl
@[simp] theorem foldl_pcie {α : Type} (f : State → α → State) (h : ∀ s x, (f s x).pcie = s.pcie) (xs : List α) (s : State) :
    (xs.foldl f s).pcie = s.pcie := foldl_field (fun s => s.pcie) f h xs s
@[simp] theorem ite_net {c : Prop} [Decidable c] (a b : State) : (if c then a else b).net = if c then a.net else b.net := by
  split <;> rfl
@[simp] theorem foldl_net {α : Type} (f : State → α → State) (h : ∀ s x, (f s x).net = s.net) (xs : List α) (s : State) :
    (xs.foldl f s).net = s.net := foldl_field (fun s => s.net) f h xs s
@[simp] theorem ite_boot {c : Prop} [Decidable c] (a b : State) : (if c then a else b).boot = if c then a.boot else b.boot := by
  split <;> rfl
@[simp] theorem foldl_boot {α : Type} (f : State → α → State) (h : ∀ s x, (f s x).boot = s.boot) (xs : List α) (s : State) :
    (xs.foldl f s).boot = s.boot := foldl_field (fun s => s.boot) f h xs s
@[simp] theorem ite_pwr {c : Prop} [Decidable c] (a b : State) : (if c then a else b).pwr = if c then a.pwr else b.pwr := by
  split <;> rfl
@[simp] theorem foldl_pwr {α : Type} (f : State → α → State) (h : ∀ s x, (f s x).pwr = s.pwr) (xs : List α) (s : State) :
    (xs.foldl f s).pwr = s.pwr := foldl_field (fun s => s.pwr) f h xs s
@[simp] theorem ite_hkm {c : Prop} [Decidable c] (a b : State) : (if c then a else b).hkm = if c then a.hkm else b.hkm := by
  split <;> rfl
@[simp] theorem foldl_hkm {α : Type} (f : State → α → State) (h : ∀ s x, (f s x).hkm = s.hkm) (xs : List α) (s : State) :
    (xs.foldl f s).hkm = s.hkm := foldl_field (fun s => s.hkm) f h xs s
@[simp] theorem ite_integ {c : Prop} [Decidable c] (a b : State) : (if c then a else b).integ = if c then a.integ else b.integ := by
  split <;> rfl
@[simp] theorem foldl_integ {α : Type} (f : State → α → State) (h : ∀ s x, (f s x).integ = s.integ) (xs : List α) (s : State) :
    (xs.foldl f s).integ = s.integ := foldl_field (fun s => s.integ) f h xs s
@[simp] theorem ite_ledger {c : Prop} [Decidable c] (a b : State) : (if c then a else b).ledger = if c then a.ledger else b.ledger := by
  split <;> rfl
@[simp] theorem foldl_ledger {α : Type} (f : State → α → State) (h : ∀ s x, (f s x).ledger = s.ledger) (xs : List α) (s : State) :
    (xs.foldl f s).ledger = s.ledger := foldl_field (fun s => s.ledger) f h xs s
@[simp] theorem ite_cnt {c : Prop} [Decidable c] (a b : State) : (if c then a else b).cnt = if c then a.cnt else b.cnt := by
  split <;> rfl
@[simp] theorem foldl_cnt {α : Type} (f : State → α → State) (h : ∀ s x, (f s x).cnt = s.cnt) (xs : List α) (s : State) :
    (xs.foldl f s).cnt = s.cnt := foldl_field (fun s => s.cnt) f h xs s
@[simp] theorem ite_outside {c : Prop} [Decidable c] (a b : State) : (if c then a else b).outside = if c then a.outside else b.outside := by
  split <;> rfl
@[simp] theorem foldl_outside {α : Type} (f : State → α → State) (h : ∀ s x, (f s x).outside = s.outside) (xs : List α) (s : State) :
    (xs.foldl f s).outside = s.outside := foldl_field (fun s => s.outside) f h xs s
@[simp] theorem ite_calStart {c : Prop} [Decidable c] (a b : State) : (if c then a else b).calStart = if c then a.calStart else b.calStart := by
  split <;> rfl
@[simp] theorem foldl_calStart {α : Type} (f : State → α → State) (h : ∀ s x, (f s x).calStart = s.calStart) (xs : List α) (s : State) :
    (xs.foldl f s).calStart = s.calStart := foldl_field (fun s => s.calStart) f h xs s
@[simp] theorem ite_calReference {c : Prop} [Decidable c] (a b : State) : (if c then a else b).calReference = if c then a.calReference else b.calReference := by
  split <;> rfl
@[simp] theorem foldl_calReference {α : Type} (f : State → α → State) (h : ∀ s x, (f s x).calReference = s.calReference) (xs : List α) (s : State) :
    (xs.foldl f s).calReference = s.calReference := foldl_field (fun s => s.calReference) f h xs s
@[simp] theorem State.setTile_pending (s : State) (t : Nat) (x : Tile) : (s.setTile t x).pending = s.pending := by 
  unfold State.setTile
  rfl
@[simp] theorem State.setTile_regs (s : State) (t : Nat) (x : Tile) : (s.setTile t x).regs = s.regs := by 
  unfold State.setTile
  rfl
@[simp] theorem State.setTile_shadows (s : State) (t : Nat) (x : Tile) : (s.setTile t x).shadows = s.shadows := by 
  unfold State.setTile
  rfl
@[simp] theorem State.setTile_fabric (s : State) (t : Nat) (x : Tile) : (s.setTile t x).fabric = s.fabric := by 
  unfold State.setTile
  rfl
@[simp] theorem State.setTile_kv (s : State) (t : Nat) (x : Tile) : (s.setTile t x).kv = s.kv := by 
  unfold State.setTile
  rfl
@[simp] theorem State.setTile_prm (s : State) (t : Nat) (x : Tile) : (s.setTile t x).prm = s.prm := by 
  unfold State.setTile
  rfl
@[simp] theorem State.setTile_ldr (s : State) (t : Nat) (x : Tile) : (s.setTile t x).ldr = s.ldr := by 
  unfold State.setTile
  rfl
@[simp] theorem State.setTile_mbx (s : State) (t : Nat) (x : Tile) : (s.setTile t x).mbx = s.mbx := by 
  unfold State.setTile
  rfl
@[simp] theorem State.setTile_pcie (s : State) (t : Nat) (x : Tile) : (s.setTile t x).pcie = s.pcie := by 
  unfold State.setTile
  rfl
@[simp] theorem State.setTile_net (s : State) (t : Nat) (x : Tile) : (s.setTile t x).net = s.net := by 
  unfold State.setTile
  rfl
@[simp] theorem State.setTile_boot (s : State) (t : Nat) (x : Tile) : (s.setTile t x).boot = s.boot := by 
  unfold State.setTile
  rfl
@[simp] theorem State.setTile_pwr (s : State) (t : Nat) (x : Tile) : (s.setTile t x).pwr = s.pwr := by 
  unfold State.setTile
  rfl
@[simp] theorem State.setTile_hkm (s : State) (t : Nat) (x : Tile) : (s.setTile t x).hkm = s.hkm := by 
  unfold State.setTile
  rfl
@[simp] theorem State.setTile_integ (s : State) (t : Nat) (x : Tile) : (s.setTile t x).integ = s.integ := by 
  unfold State.setTile
  rfl
@[simp] theorem State.setTile_ledger (s : State) (t : Nat) (x : Tile) : (s.setTile t x).ledger = s.ledger := by 
  unfold State.setTile
  rfl
@[simp] theorem State.setTile_cnt (s : State) (t : Nat) (x : Tile) : (s.setTile t x).cnt = s.cnt := by 
  unfold State.setTile
  rfl
@[simp] theorem State.setTile_outside (s : State) (t : Nat) (x : Tile) : (s.setTile t x).outside = s.outside := by 
  unfold State.setTile
  rfl
@[simp] theorem State.setTile_calStart (s : State) (t : Nat) (x : Tile) : (s.setTile t x).calStart = s.calStart := by 
  unfold State.setTile
  rfl
@[simp] theorem State.setTile_calReference (s : State) (t : Nat) (x : Tile) : (s.setTile t x).calReference = s.calReference := by 
  unfold State.setTile
  rfl
@[simp] theorem State.modTile_pending (s : State) (t : Nat) (f : Tile → Tile) : (s.modTile t f).pending = s.pending := by 
  unfold State.modTile
  rfl
@[simp] theorem State.modTile_regs (s : State) (t : Nat) (f : Tile → Tile) : (s.modTile t f).regs = s.regs := by 
  unfold State.modTile
  rfl
@[simp] theorem State.modTile_shadows (s : State) (t : Nat) (f : Tile → Tile) : (s.modTile t f).shadows = s.shadows := by 
  unfold State.modTile
  rfl
@[simp] theorem State.modTile_fabric (s : State) (t : Nat) (f : Tile → Tile) : (s.modTile t f).fabric = s.fabric := by 
  unfold State.modTile
  rfl
@[simp] theorem State.modTile_kv (s : State) (t : Nat) (f : Tile → Tile) : (s.modTile t f).kv = s.kv := by 
  unfold State.modTile
  rfl
@[simp] theorem State.modTile_prm (s : State) (t : Nat) (f : Tile → Tile) : (s.modTile t f).prm = s.prm := by 
  unfold State.modTile
  rfl
@[simp] theorem State.modTile_ldr (s : State) (t : Nat) (f : Tile → Tile) : (s.modTile t f).ldr = s.ldr := by 
  unfold State.modTile
  rfl
@[simp] theorem State.modTile_mbx (s : State) (t : Nat) (f : Tile → Tile) : (s.modTile t f).mbx = s.mbx := by 
  unfold State.modTile
  rfl
@[simp] theorem State.modTile_pcie (s : State) (t : Nat) (f : Tile → Tile) : (s.modTile t f).pcie = s.pcie := by 
  unfold State.modTile
  rfl
@[simp] theorem State.modTile_net (s : State) (t : Nat) (f : Tile → Tile) : (s.modTile t f).net = s.net := by 
  unfold State.modTile
  rfl
@[simp] theorem State.modTile_boot (s : State) (t : Nat) (f : Tile → Tile) : (s.modTile t f).boot = s.boot := by 
  unfold State.modTile
  rfl
@[simp] theorem State.modTile_pwr (s : State) (t : Nat) (f : Tile → Tile) : (s.modTile t f).pwr = s.pwr := by 
  unfold State.modTile
  rfl
@[simp] theorem State.modTile_hkm (s : State) (t : Nat) (f : Tile → Tile) : (s.modTile t f).hkm = s.hkm := by 
  unfold State.modTile
  rfl
@[simp] theorem State.modTile_integ (s : State) (t : Nat) (f : Tile → Tile) : (s.modTile t f).integ = s.integ := by 
  unfold State.modTile
  rfl
@[simp] theorem State.modTile_ledger (s : State) (t : Nat) (f : Tile → Tile) : (s.modTile t f).ledger = s.ledger := by 
  unfold State.modTile
  rfl
@[simp] theorem State.modTile_cnt (s : State) (t : Nat) (f : Tile → Tile) : (s.modTile t f).cnt = s.cnt := by 
  unfold State.modTile
  rfl
@[simp] theorem State.modTile_outside (s : State) (t : Nat) (f : Tile → Tile) : (s.modTile t f).outside = s.outside := by 
  unfold State.modTile
  rfl
@[simp] theorem State.modTile_calStart (s : State) (t : Nat) (f : Tile → Tile) : (s.modTile t f).calStart = s.calStart := by 
  unfold State.modTile
  rfl
@[simp] theorem State.modTile_calReference (s : State) (t : Nat) (f : Tile → Tile) : (s.modTile t f).calReference = s.calReference := by 
  unfold State.modTile
  rfl
@[simp] theorem State.mapTiles_pending (s : State) (f : Nat → Tile → Tile) : (s.mapTiles f).pending = s.pending := by 
  unfold State.mapTiles
  rfl
@[simp] theorem State.mapTiles_regs (s : State) (f : Nat → Tile → Tile) : (s.mapTiles f).regs = s.regs := by 
  unfold State.mapTiles
  rfl
@[simp] theorem State.mapTiles_shadows (s : State) (f : Nat → Tile → Tile) : (s.mapTiles f).shadows = s.shadows := by 
  unfold State.mapTiles
  rfl
@[simp] theorem State.mapTiles_fabric (s : State) (f : Nat → Tile → Tile) : (s.mapTiles f).fabric = s.fabric := by 
  unfold State.mapTiles
  rfl
@[simp] theorem State.mapTiles_kv (s : State) (f : Nat → Tile → Tile) : (s.mapTiles f).kv = s.kv := by 
  unfold State.mapTiles
  rfl
@[simp] theorem State.mapTiles_prm (s : State) (f : Nat → Tile → Tile) : (s.mapTiles f).prm = s.prm := by 
  unfold State.mapTiles
  rfl
@[simp] theorem State.mapTiles_ldr (s : State) (f : Nat → Tile → Tile) : (s.mapTiles f).ldr = s.ldr := by 
  unfold State.mapTiles
  rfl
@[simp] theorem State.mapTiles_mbx (s : State) (f : Nat → Tile → Tile) : (s.mapTiles f).mbx = s.mbx := by 
  unfold State.mapTiles
  rfl
@[simp] theorem State.mapTiles_pcie (s : State) (f : Nat → Tile → Tile) : (s.mapTiles f).pcie = s.pcie := by 
  unfold State.mapTiles
  rfl
@[simp] theorem State.mapTiles_net (s : State) (f : Nat → Tile → Tile) : (s.mapTiles f).net = s.net := by 
  unfold State.mapTiles
  rfl
@[simp] theorem State.mapTiles_boot (s : State) (f : Nat → Tile → Tile) : (s.mapTiles f).boot = s.boot := by 
  unfold State.mapTiles
  rfl
@[simp] theorem State.mapTiles_pwr (s : State) (f : Nat → Tile → Tile) : (s.mapTiles f).pwr = s.pwr := by 
  unfold State.mapTiles
  rfl
@[simp] theorem State.mapTiles_hkm (s : State) (f : Nat → Tile → Tile) : (s.mapTiles f).hkm = s.hkm := by 
  unfold State.mapTiles
  rfl
@[simp] theorem State.mapTiles_integ (s : State) (f : Nat → Tile → Tile) : (s.mapTiles f).integ = s.integ := by 
  unfold State.mapTiles
  rfl
@[simp] theorem State.mapTiles_ledger (s : State) (f : Nat → Tile → Tile) : (s.mapTiles f).ledger = s.ledger := by 
  unfold State.mapTiles
  rfl
@[simp] theorem State.mapTiles_cnt (s : State) (f : Nat → Tile → Tile) : (s.mapTiles f).cnt = s.cnt := by 
  unfold State.mapTiles
  rfl
@[simp] theorem State.mapTiles_outside (s : State) (f : Nat → Tile → Tile) : (s.mapTiles f).outside = s.outside := by 
  unfold State.mapTiles
  rfl
@[simp] theorem State.mapTiles_calStart (s : State) (f : Nat → Tile → Tile) : (s.mapTiles f).calStart = s.calStart := by 
  unfold State.mapTiles
  rfl
@[simp] theorem State.mapTiles_calReference (s : State) (f : Nat → Tile → Tile) : (s.mapTiles f).calReference = s.calReference := by 
  unfold State.mapTiles
  rfl
@[simp] theorem State.modRing_pending (s : State) (r : Nat) (f : Ring → Ring) : (s.modRing r f).pending = s.pending := by 
  unfold State.modRing
  rfl
@[simp] theorem State.modRing_regs (s : State) (r : Nat) (f : Ring → Ring) : (s.modRing r f).regs = s.regs := by 
  unfold State.modRing
  rfl
@[simp] theorem State.modRing_shadows (s : State) (r : Nat) (f : Ring → Ring) : (s.modRing r f).shadows = s.shadows := by 
  unfold State.modRing
  rfl
@[simp] theorem State.modRing_tiles (s : State) (r : Nat) (f : Ring → Ring) : (s.modRing r f).tiles = s.tiles := by 
  unfold State.modRing
  rfl
@[simp] theorem State.modRing_fabric (s : State) (r : Nat) (f : Ring → Ring) : (s.modRing r f).fabric = s.fabric := by 
  unfold State.modRing
  rfl
@[simp] theorem State.modRing_kv (s : State) (r : Nat) (f : Ring → Ring) : (s.modRing r f).kv = s.kv := by 
  unfold State.modRing
  rfl
@[simp] theorem State.modRing_prm (s : State) (r : Nat) (f : Ring → Ring) : (s.modRing r f).prm = s.prm := by 
  unfold State.modRing
  rfl
@[simp] theorem State.modRing_ldr (s : State) (r : Nat) (f : Ring → Ring) : (s.modRing r f).ldr = s.ldr := by 
  unfold State.modRing
  rfl
@[simp] theorem State.modRing_pcie (s : State) (r : Nat) (f : Ring → Ring) : (s.modRing r f).pcie = s.pcie := by 
  unfold State.modRing
  rfl
@[simp] theorem State.modRing_net (s : State) (r : Nat) (f : Ring → Ring) : (s.modRing r f).net = s.net := by 
  unfold State.modRing
  rfl
@[simp] theorem State.modRing_boot (s : State) (r : Nat) (f : Ring → Ring) : (s.modRing r f).boot = s.boot := by 
  unfold State.modRing
  rfl
@[simp] theorem State.modRing_pwr (s : State) (r : Nat) (f : Ring → Ring) : (s.modRing r f).pwr = s.pwr := by 
  unfold State.modRing
  rfl
@[simp] theorem State.modRing_hkm (s : State) (r : Nat) (f : Ring → Ring) : (s.modRing r f).hkm = s.hkm := by 
  unfold State.modRing
  rfl
@[simp] theorem State.modRing_integ (s : State) (r : Nat) (f : Ring → Ring) : (s.modRing r f).integ = s.integ := by 
  unfold State.modRing
  rfl
@[simp] theorem State.modRing_ledger (s : State) (r : Nat) (f : Ring → Ring) : (s.modRing r f).ledger = s.ledger := by 
  unfold State.modRing
  rfl
@[simp] theorem State.modRing_cnt (s : State) (r : Nat) (f : Ring → Ring) : (s.modRing r f).cnt = s.cnt := by 
  unfold State.modRing
  rfl
@[simp] theorem State.modRing_outside (s : State) (r : Nat) (f : Ring → Ring) : (s.modRing r f).outside = s.outside := by 
  unfold State.modRing
  rfl
@[simp] theorem State.modRing_calStart (s : State) (r : Nat) (f : Ring → Ring) : (s.modRing r f).calStart = s.calStart := by 
  unfold State.modRing
  rfl
@[simp] theorem State.modRing_calReference (s : State) (r : Nat) (f : Ring → Ring) : (s.modRing r f).calReference = s.calReference := by 
  unfold State.modRing
  rfl
@[simp] theorem State.modPort_pending (s : State) (p : Nat) (f : Port → Port) : (s.modPort p f).pending = s.pending := by 
  unfold State.modPort
  rfl
@[simp] theorem State.modPort_regs (s : State) (p : Nat) (f : Port → Port) : (s.modPort p f).regs = s.regs := by 
  unfold State.modPort
  rfl
@[simp] theorem State.modPort_shadows (s : State) (p : Nat) (f : Port → Port) : (s.modPort p f).shadows = s.shadows := by 
  unfold State.modPort
  rfl
@[simp] theorem State.modPort_tiles (s : State) (p : Nat) (f : Port → Port) : (s.modPort p f).tiles = s.tiles := by 
  unfold State.modPort
  rfl
@[simp] theorem State.modPort_fabric (s : State) (p : Nat) (f : Port → Port) : (s.modPort p f).fabric = s.fabric := by 
  unfold State.modPort
  rfl
@[simp] theorem State.modPort_kv (s : State) (p : Nat) (f : Port → Port) : (s.modPort p f).kv = s.kv := by 
  unfold State.modPort
  rfl
@[simp] theorem State.modPort_prm (s : State) (p : Nat) (f : Port → Port) : (s.modPort p f).prm = s.prm := by 
  unfold State.modPort
  rfl
@[simp] theorem State.modPort_ldr (s : State) (p : Nat) (f : Port → Port) : (s.modPort p f).ldr = s.ldr := by 
  unfold State.modPort
  rfl
@[simp] theorem State.modPort_mbx (s : State) (p : Nat) (f : Port → Port) : (s.modPort p f).mbx = s.mbx := by 
  unfold State.modPort
  rfl
@[simp] theorem State.modPort_pcie (s : State) (p : Nat) (f : Port → Port) : (s.modPort p f).pcie = s.pcie := by 
  unfold State.modPort
  rfl
@[simp] theorem State.modPort_boot (s : State) (p : Nat) (f : Port → Port) : (s.modPort p f).boot = s.boot := by 
  unfold State.modPort
  rfl
@[simp] theorem State.modPort_pwr (s : State) (p : Nat) (f : Port → Port) : (s.modPort p f).pwr = s.pwr := by 
  unfold State.modPort
  rfl
@[simp] theorem State.modPort_hkm (s : State) (p : Nat) (f : Port → Port) : (s.modPort p f).hkm = s.hkm := by 
  unfold State.modPort
  rfl
@[simp] theorem State.modPort_integ (s : State) (p : Nat) (f : Port → Port) : (s.modPort p f).integ = s.integ := by 
  unfold State.modPort
  rfl
@[simp] theorem State.modPort_ledger (s : State) (p : Nat) (f : Port → Port) : (s.modPort p f).ledger = s.ledger := by 
  unfold State.modPort
  rfl
@[simp] theorem State.modPort_cnt (s : State) (p : Nat) (f : Port → Port) : (s.modPort p f).cnt = s.cnt := by 
  unfold State.modPort
  rfl
@[simp] theorem State.modPort_outside (s : State) (p : Nat) (f : Port → Port) : (s.modPort p f).outside = s.outside := by 
  unfold State.modPort
  rfl
@[simp] theorem State.modPort_calStart (s : State) (p : Nat) (f : Port → Port) : (s.modPort p f).calStart = s.calStart := by 
  unfold State.modPort
  rfl
@[simp] theorem State.modPort_calReference (s : State) (p : Nat) (f : Port → Port) : (s.modPort p f).calReference = s.calReference := by 
  unfold State.modPort
  rfl
@[simp] theorem State.modLane_pending (s : State) (n : Nat) (f : EthLane → EthLane) : (s.modLane n f).pending = s.pending := by 
  unfold State.modLane
  rfl
@[simp] theorem State.modLane_regs (s : State) (n : Nat) (f : EthLane → EthLane) : (s.modLane n f).regs = s.regs := by 
  unfold State.modLane
  rfl
@[simp] theorem State.modLane_shadows (s : State) (n : Nat) (f : EthLane → EthLane) : (s.modLane n f).shadows = s.shadows := by 
  unfold State.modLane
  rfl
@[simp] theorem State.modLane_tiles (s : State) (n : Nat) (f : EthLane → EthLane) : (s.modLane n f).tiles = s.tiles := by 
  unfold State.modLane
  rfl
@[simp] theorem State.modLane_fabric (s : State) (n : Nat) (f : EthLane → EthLane) : (s.modLane n f).fabric = s.fabric := by 
  unfold State.modLane
  rfl
@[simp] theorem State.modLane_kv (s : State) (n : Nat) (f : EthLane → EthLane) : (s.modLane n f).kv = s.kv := by 
  unfold State.modLane
  rfl
@[simp] theorem State.modLane_prm (s : State) (n : Nat) (f : EthLane → EthLane) : (s.modLane n f).prm = s.prm := by 
  unfold State.modLane
  rfl
@[simp] theorem State.modLane_ldr (s : State) (n : Nat) (f : EthLane → EthLane) : (s.modLane n f).ldr = s.ldr := by 
  unfold State.modLane
  rfl
@[simp] theorem State.modLane_mbx (s : State) (n : Nat) (f : EthLane → EthLane) : (s.modLane n f).mbx = s.mbx := by 
  unfold State.modLane
  rfl
@[simp] theorem State.modLane_pcie (s : State) (n : Nat) (f : EthLane → EthLane) : (s.modLane n f).pcie = s.pcie := by 
  unfold State.modLane
  rfl
@[simp] theorem State.modLane_boot (s : State) (n : Nat) (f : EthLane → EthLane) : (s.modLane n f).boot = s.boot := by 
  unfold State.modLane
  rfl
@[simp] theorem State.modLane_pwr (s : State) (n : Nat) (f : EthLane → EthLane) : (s.modLane n f).pwr = s.pwr := by 
  unfold State.modLane
  rfl
@[simp] theorem State.modLane_hkm (s : State) (n : Nat) (f : EthLane → EthLane) : (s.modLane n f).hkm = s.hkm := by 
  unfold State.modLane
  rfl
@[simp] theorem State.modLane_integ (s : State) (n : Nat) (f : EthLane → EthLane) : (s.modLane n f).integ = s.integ := by 
  unfold State.modLane
  rfl
@[simp] theorem State.modLane_ledger (s : State) (n : Nat) (f : EthLane → EthLane) : (s.modLane n f).ledger = s.ledger := by 
  unfold State.modLane
  rfl
@[simp] theorem State.modLane_cnt (s : State) (n : Nat) (f : EthLane → EthLane) : (s.modLane n f).cnt = s.cnt := by 
  unfold State.modLane
  rfl
@[simp] theorem State.modLane_outside (s : State) (n : Nat) (f : EthLane → EthLane) : (s.modLane n f).outside = s.outside := by 
  unfold State.modLane
  rfl
@[simp] theorem State.modLane_calStart (s : State) (n : Nat) (f : EthLane → EthLane) : (s.modLane n f).calStart = s.calStart := by 
  unfold State.modLane
  rfl
@[simp] theorem State.modLane_calReference (s : State) (n : Nat) (f : EthLane → EthLane) : (s.modLane n f).calReference = s.calReference := by 
  unfold State.modLane
  rfl
@[simp] theorem State.setFrame_pending (s : State) (f : Nat) (x : Frame) : (s.setFrame f x).pending = s.pending := by 
  unfold State.setFrame
  rfl
@[simp] theorem State.setFrame_regs (s : State) (f : Nat) (x : Frame) : (s.setFrame f x).regs = s.regs := by 
  unfold State.setFrame
  rfl
@[simp] theorem State.setFrame_shadows (s : State) (f : Nat) (x : Frame) : (s.setFrame f x).shadows = s.shadows := by 
  unfold State.setFrame
  rfl
@[simp] theorem State.setFrame_tiles (s : State) (f : Nat) (x : Frame) : (s.setFrame f x).tiles = s.tiles := by 
  unfold State.setFrame
  rfl
@[simp] theorem State.setFrame_fabric (s : State) (f : Nat) (x : Frame) : (s.setFrame f x).fabric = s.fabric := by 
  unfold State.setFrame
  rfl
@[simp] theorem State.setFrame_prm (s : State) (f : Nat) (x : Frame) : (s.setFrame f x).prm = s.prm := by 
  unfold State.setFrame
  rfl
@[simp] theorem State.setFrame_ldr (s : State) (f : Nat) (x : Frame) : (s.setFrame f x).ldr = s.ldr := by 
  unfold State.setFrame
  rfl
@[simp] theorem State.setFrame_mbx (s : State) (f : Nat) (x : Frame) : (s.setFrame f x).mbx = s.mbx := by 
  unfold State.setFrame
  rfl
@[simp] theorem State.setFrame_pcie (s : State) (f : Nat) (x : Frame) : (s.setFrame f x).pcie = s.pcie := by 
  unfold State.setFrame
  rfl
@[simp] theorem State.setFrame_net (s : State) (f : Nat) (x : Frame) : (s.setFrame f x).net = s.net := by 
  unfold State.setFrame
  rfl
@[simp] theorem State.setFrame_boot (s : State) (f : Nat) (x : Frame) : (s.setFrame f x).boot = s.boot := by 
  unfold State.setFrame
  rfl
@[simp] theorem State.setFrame_pwr (s : State) (f : Nat) (x : Frame) : (s.setFrame f x).pwr = s.pwr := by 
  unfold State.setFrame
  rfl
@[simp] theorem State.setFrame_hkm (s : State) (f : Nat) (x : Frame) : (s.setFrame f x).hkm = s.hkm := by 
  unfold State.setFrame
  rfl
@[simp] theorem State.setFrame_integ (s : State) (f : Nat) (x : Frame) : (s.setFrame f x).integ = s.integ := by 
  unfold State.setFrame
  rfl
@[simp] theorem State.setFrame_ledger (s : State) (f : Nat) (x : Frame) : (s.setFrame f x).ledger = s.ledger := by 
  unfold State.setFrame
  rfl
@[simp] theorem State.setFrame_cnt (s : State) (f : Nat) (x : Frame) : (s.setFrame f x).cnt = s.cnt := by 
  unfold State.setFrame
  rfl
@[simp] theorem State.setFrame_outside (s : State) (f : Nat) (x : Frame) : (s.setFrame f x).outside = s.outside := by 
  unfold State.setFrame
  rfl
@[simp] theorem State.setFrame_calStart (s : State) (f : Nat) (x : Frame) : (s.setFrame f x).calStart = s.calStart := by 
  unfold State.setFrame
  rfl
@[simp] theorem State.setFrame_calReference (s : State) (f : Nat) (x : Frame) : (s.setFrame f x).calReference = s.calReference := by 
  unfold State.setFrame
  rfl
@[simp] theorem State.setSeq_pending (s : State) (e : Nat) (q : Seq) : (s.setSeq e q).pending = s.pending := by 
  unfold State.setSeq
  rfl
@[simp] theorem State.setSeq_regs (s : State) (e : Nat) (q : Seq) : (s.setSeq e q).regs = s.regs := by 
  unfold State.setSeq
  rfl
@[simp] theorem State.setSeq_shadows (s : State) (e : Nat) (q : Seq) : (s.setSeq e q).shadows = s.shadows := by 
  unfold State.setSeq
  rfl
@[simp] theorem State.setSeq_tiles (s : State) (e : Nat) (q : Seq) : (s.setSeq e q).tiles = s.tiles := by 
  unfold State.setSeq
  rfl
@[simp] theorem State.setSeq_fabric (s : State) (e : Nat) (q : Seq) : (s.setSeq e q).fabric = s.fabric := by 
  unfold State.setSeq
  rfl
@[simp] theorem State.setSeq_kv (s : State) (e : Nat) (q : Seq) : (s.setSeq e q).kv = s.kv := by 
  unfold State.setSeq
  rfl
@[simp] theorem State.setSeq_ldr (s : State) (e : Nat) (q : Seq) : (s.setSeq e q).ldr = s.ldr := by 
  unfold State.setSeq
  rfl
@[simp] theorem State.setSeq_mbx (s : State) (e : Nat) (q : Seq) : (s.setSeq e q).mbx = s.mbx := by 
  unfold State.setSeq
  rfl
@[simp] theorem State.setSeq_pcie (s : State) (e : Nat) (q : Seq) : (s.setSeq e q).pcie = s.pcie := by 
  unfold State.setSeq
  rfl
@[simp] theorem State.setSeq_net (s : State) (e : Nat) (q : Seq) : (s.setSeq e q).net = s.net := by 
  unfold State.setSeq
  rfl
@[simp] theorem State.setSeq_boot (s : State) (e : Nat) (q : Seq) : (s.setSeq e q).boot = s.boot := by 
  unfold State.setSeq
  rfl
@[simp] theorem State.setSeq_pwr (s : State) (e : Nat) (q : Seq) : (s.setSeq e q).pwr = s.pwr := by 
  unfold State.setSeq
  rfl
@[simp] theorem State.setSeq_hkm (s : State) (e : Nat) (q : Seq) : (s.setSeq e q).hkm = s.hkm := by 
  unfold State.setSeq
  rfl
@[simp] theorem State.setSeq_integ (s : State) (e : Nat) (q : Seq) : (s.setSeq e q).integ = s.integ := by 
  unfold State.setSeq
  rfl
@[simp] theorem State.setSeq_ledger (s : State) (e : Nat) (q : Seq) : (s.setSeq e q).ledger = s.ledger := by 
  unfold State.setSeq
  rfl
@[simp] theorem State.setSeq_cnt (s : State) (e : Nat) (q : Seq) : (s.setSeq e q).cnt = s.cnt := by 
  unfold State.setSeq
  rfl
@[simp] theorem State.setSeq_outside (s : State) (e : Nat) (q : Seq) : (s.setSeq e q).outside = s.outside := by 
  unfold State.setSeq
  rfl
@[simp] theorem State.setSeq_calStart (s : State) (e : Nat) (q : Seq) : (s.setSeq e q).calStart = s.calStart := by 
  unfold State.setSeq
  rfl
@[simp] theorem State.setSeq_calReference (s : State) (e : Nat) (q : Seq) : (s.setSeq e q).calReference = s.calReference := by 
  unfold State.setSeq
  rfl
@[simp] theorem State.modSeq_pending (s : State) (e : Nat) (f : Seq → Seq) : (s.modSeq e f).pending = s.pending := by 
  unfold State.modSeq
  split <;> simp
@[simp] theorem State.modSeq_regs (s : State) (e : Nat) (f : Seq → Seq) : (s.modSeq e f).regs = s.regs := by 
  unfold State.modSeq
  split <;> simp
@[simp] theorem State.modSeq_shadows (s : State) (e : Nat) (f : Seq → Seq) : (s.modSeq e f).shadows = s.shadows := by 
  unfold State.modSeq
  split <;> simp
@[simp] theorem State.modSeq_tiles (s : State) (e : Nat) (f : Seq → Seq) : (s.modSeq e f).tiles = s.tiles := by 
  unfold State.modSeq
  split <;> simp
@[simp] theorem State.modSeq_fabric (s : State) (e : Nat) (f : Seq → Seq) : (s.modSeq e f).fabric = s.fabric := by 
  unfold State.modSeq
  split <;> simp
@[simp] theorem State.modSeq_kv (s : State) (e : Nat) (f : Seq → Seq) : (s.modSeq e f).kv = s.kv := by 
  unfold State.modSeq
  split <;> simp
@[simp] theorem State.modSeq_ldr (s : State) (e : Nat) (f : Seq → Seq) : (s.modSeq e f).ldr = s.ldr := by 
  unfold State.modSeq
  split <;> simp
@[simp] theorem State.modSeq_mbx (s : State) (e : Nat) (f : Seq → Seq) : (s.modSeq e f).mbx = s.mbx := by 
  unfold State.modSeq
  split <;> simp
@[simp] theorem State.modSeq_pcie (s : State) (e : Nat) (f : Seq → Seq) : (s.modSeq e f).pcie = s.pcie := by 
  unfold State.modSeq
  split <;> simp
@[simp] theorem State.modSeq_net (s : State) (e : Nat) (f : Seq → Seq) : (s.modSeq e f).net = s.net := by 
  unfold State.modSeq
  split <;> simp
@[simp] theorem State.modSeq_boot (s : State) (e : Nat) (f : Seq → Seq) : (s.modSeq e f).boot = s.boot := by 
  unfold State.modSeq
  split <;> simp
@[simp] theorem State.modSeq_pwr (s : State) (e : Nat) (f : Seq → Seq) : (s.modSeq e f).pwr = s.pwr := by 
  unfold State.modSeq
  split <;> simp
@[simp] theorem State.modSeq_hkm (s : State) (e : Nat) (f : Seq → Seq) : (s.modSeq e f).hkm = s.hkm := by 
  unfold State.modSeq
  split <;> simp
@[simp] theorem State.modSeq_integ (s : State) (e : Nat) (f : Seq → Seq) : (s.modSeq e f).integ = s.integ := by 
  unfold State.modSeq
  split <;> simp
@[simp] theorem State.modSeq_ledger (s : State) (e : Nat) (f : Seq → Seq) : (s.modSeq e f).ledger = s.ledger := by 
  unfold State.modSeq
  split <;> simp
@[simp] theorem State.modSeq_cnt (s : State) (e : Nat) (f : Seq → Seq) : (s.modSeq e f).cnt = s.cnt := by 
  unfold State.modSeq
  split <;> simp
@[simp] theorem State.modSeq_outside (s : State) (e : Nat) (f : Seq → Seq) : (s.modSeq e f).outside = s.outside := by 
  unfold State.modSeq
  split <;> simp
@[simp] theorem State.modSeq_calStart (s : State) (e : Nat) (f : Seq → Seq) : (s.modSeq e f).calStart = s.calStart := by 
  unfold State.modSeq
  split <;> simp
@[simp] theorem State.modSeq_calReference (s : State) (e : Nat) (f : Seq → Seq) : (s.modSeq e f).calReference = s.calReference := by 
  unfold State.modSeq
  split <;> simp
@[simp] theorem State.send_pending (s : State) (x : Sent) : (s.send x).pending = s.pending := by 
  unfold State.send
  rfl
@[simp] theorem State.send_regs (s : State) (x : Sent) : (s.send x).regs = s.regs := by 
  unfold State.send
  rfl
@[simp] theorem State.send_shadows (s : State) (x : Sent) : (s.send x).shadows = s.shadows := by 
  unfold State.send
  rfl
@[simp] theorem State.send_tiles (s : State) (x : Sent) : (s.send x).tiles = s.tiles := by 
  unfold State.send
  rfl
@[simp] theorem State.send_fabric (s : State) (x : Sent) : (s.send x).fabric = s.fabric := by 
  unfold State.send
  rfl
@[simp] theorem State.send_kv (s : State) (x : Sent) : (s.send x).kv = s.kv := by 
  unfold State.send
  rfl
@[simp] theorem State.send_prm (s : State) (x : Sent) : (s.send x).prm = s.prm := by 
  unfold State.send
  rfl
@[simp] theorem State.send_ldr (s : State) (x : Sent) : (s.send x).ldr = s.ldr := by 
  unfold State.send
  rfl
@[simp] theorem State.send_mbx (s : State) (x : Sent) : (s.send x).mbx = s.mbx := by 
  unfold State.send
  rfl
@[simp] theorem State.send_pcie (s : State) (x : Sent) : (s.send x).pcie = s.pcie := by 
  unfold State.send
  rfl
@[simp] theorem State.send_net (s : State) (x : Sent) : (s.send x).net = s.net := by 
  unfold State.send
  rfl
@[simp] theorem State.send_boot (s : State) (x : Sent) : (s.send x).boot = s.boot := by 
  unfold State.send
  rfl
@[simp] theorem State.send_pwr (s : State) (x : Sent) : (s.send x).pwr = s.pwr := by 
  unfold State.send
  rfl
@[simp] theorem State.send_hkm (s : State) (x : Sent) : (s.send x).hkm = s.hkm := by 
  unfold State.send
  rfl
@[simp] theorem State.send_integ (s : State) (x : Sent) : (s.send x).integ = s.integ := by 
  unfold State.send
  rfl
@[simp] theorem State.send_ledger (s : State) (x : Sent) : (s.send x).ledger = s.ledger := by 
  unfold State.send
  rfl
@[simp] theorem State.send_cnt (s : State) (x : Sent) : (s.send x).cnt = s.cnt := by 
  unfold State.send
  rfl
@[simp] theorem State.send_calStart (s : State) (x : Sent) : (s.send x).calStart = s.calStart := by 
  unfold State.send
  rfl
@[simp] theorem State.send_calReference (s : State) (x : Sent) : (s.send x).calReference = s.calReference := by 
  unfold State.send
  rfl
@[simp] theorem State.hostWrite_pending (s : State) (a : Nat) (bs : List Byte) : (s.hostWrite a bs).pending = s.pending := by 
  unfold State.hostWrite
  rfl
@[simp] theorem State.hostWrite_regs (s : State) (a : Nat) (bs : List Byte) : (s.hostWrite a bs).regs = s.regs := by 
  unfold State.hostWrite
  rfl
@[simp] theorem State.hostWrite_shadows (s : State) (a : Nat) (bs : List Byte) : (s.hostWrite a bs).shadows = s.shadows := by 
  unfold State.hostWrite
  rfl
@[simp] theorem State.hostWrite_tiles (s : State) (a : Nat) (bs : List Byte) : (s.hostWrite a bs).tiles = s.tiles := by 
  unfold State.hostWrite
  rfl
@[simp] theorem State.hostWrite_fabric (s : State) (a : Nat) (bs : List Byte) : (s.hostWrite a bs).fabric = s.fabric := by 
  unfold State.hostWrite
  rfl
@[simp] theorem State.hostWrite_kv (s : State) (a : Nat) (bs : List Byte) : (s.hostWrite a bs).kv = s.kv := by 
  unfold State.hostWrite
  rfl
@[simp] theorem State.hostWrite_prm (s : State) (a : Nat) (bs : List Byte) : (s.hostWrite a bs).prm = s.prm := by 
  unfold State.hostWrite
  rfl
@[simp] theorem State.hostWrite_ldr (s : State) (a : Nat) (bs : List Byte) : (s.hostWrite a bs).ldr = s.ldr := by 
  unfold State.hostWrite
  rfl
@[simp] theorem State.hostWrite_mbx (s : State) (a : Nat) (bs : List Byte) : (s.hostWrite a bs).mbx = s.mbx := by 
  unfold State.hostWrite
  rfl
@[simp] theorem State.hostWrite_pcie (s : State) (a : Nat) (bs : List Byte) : (s.hostWrite a bs).pcie = s.pcie := by 
  unfold State.hostWrite
  rfl
@[simp] theorem State.hostWrite_net (s : State) (a : Nat) (bs : List Byte) : (s.hostWrite a bs).net = s.net := by 
  unfold State.hostWrite
  rfl
@[simp] theorem State.hostWrite_boot (s : State) (a : Nat) (bs : List Byte) : (s.hostWrite a bs).boot = s.boot := by 
  unfold State.hostWrite
  rfl
@[simp] theorem State.hostWrite_pwr (s : State) (a : Nat) (bs : List Byte) : (s.hostWrite a bs).pwr = s.pwr := by 
  unfold State.hostWrite
  rfl
@[simp] theorem State.hostWrite_hkm (s : State) (a : Nat) (bs : List Byte) : (s.hostWrite a bs).hkm = s.hkm := by 
  unfold State.hostWrite
  rfl
@[simp] theorem State.hostWrite_integ (s : State) (a : Nat) (bs : List Byte) : (s.hostWrite a bs).integ = s.integ := by 
  unfold State.hostWrite
  rfl
@[simp] theorem State.hostWrite_ledger (s : State) (a : Nat) (bs : List Byte) : (s.hostWrite a bs).ledger = s.ledger := by 
  unfold State.hostWrite
  rfl
@[simp] theorem State.hostWrite_cnt (s : State) (a : Nat) (bs : List Byte) : (s.hostWrite a bs).cnt = s.cnt := by 
  unfold State.hostWrite
  rfl
@[simp] theorem State.hostWrite_calStart (s : State) (a : Nat) (bs : List Byte) : (s.hostWrite a bs).calStart = s.calStart := by 
  unfold State.hostWrite
  rfl
@[simp] theorem State.hostWrite_calReference (s : State) (a : Nat) (bs : List Byte) : (s.hostWrite a bs).calReference = s.calReference := by 
  unfold State.hostWrite
  rfl
@[simp] theorem State.setReg_pending (s : State) (o v : Nat) : (s.setReg o v).pending = s.pending := by 
  unfold State.setReg
  rfl
@[simp] theorem State.setReg_shadows (s : State) (o v : Nat) : (s.setReg o v).shadows = s.shadows := by 
  unfold State.setReg
  rfl
@[simp] theorem State.setReg_tiles (s : State) (o v : Nat) : (s.setReg o v).tiles = s.tiles := by 
  unfold State.setReg
  rfl
@[simp] theorem State.setReg_fabric (s : State) (o v : Nat) : (s.setReg o v).fabric = s.fabric := by 
  unfold State.setReg
  rfl
@[simp] theorem State.setReg_kv (s : State) (o v : Nat) : (s.setReg o v).kv = s.kv := by 
  unfold State.setReg
  rfl
@[simp] theorem State.setReg_prm (s : State) (o v : Nat) : (s.setReg o v).prm = s.prm := by 
  unfold State.setReg
  rfl
@[simp] theorem State.setReg_ldr (s : State) (o v : Nat) : (s.setReg o v).ldr = s.ldr := by 
  unfold State.setReg
  rfl
@[simp] theorem State.setReg_mbx (s : State) (o v : Nat) : (s.setReg o v).mbx = s.mbx := by 
  unfold State.setReg
  rfl
@[simp] theorem State.setReg_pcie (s : State) (o v : Nat) : (s.setReg o v).pcie = s.pcie := by 
  unfold State.setReg
  rfl
@[simp] theorem State.setReg_net (s : State) (o v : Nat) : (s.setReg o v).net = s.net := by 
  unfold State.setReg
  rfl
@[simp] theorem State.setReg_boot (s : State) (o v : Nat) : (s.setReg o v).boot = s.boot := by 
  unfold State.setReg
  rfl
@[simp] theorem State.setReg_pwr (s : State) (o v : Nat) : (s.setReg o v).pwr = s.pwr := by 
  unfold State.setReg
  rfl
@[simp] theorem State.setReg_hkm (s : State) (o v : Nat) : (s.setReg o v).hkm = s.hkm := by 
  unfold State.setReg
  rfl
@[simp] theorem State.setReg_integ (s : State) (o v : Nat) : (s.setReg o v).integ = s.integ := by 
  unfold State.setReg
  rfl
@[simp] theorem State.setReg_ledger (s : State) (o v : Nat) : (s.setReg o v).ledger = s.ledger := by 
  unfold State.setReg
  rfl
@[simp] theorem State.setReg_cnt (s : State) (o v : Nat) : (s.setReg o v).cnt = s.cnt := by 
  unfold State.setReg
  rfl
@[simp] theorem State.setReg_outside (s : State) (o v : Nat) : (s.setReg o v).outside = s.outside := by 
  unfold State.setReg
  rfl
@[simp] theorem State.setReg_calStart (s : State) (o v : Nat) : (s.setReg o v).calStart = s.calStart := by 
  unfold State.setReg
  rfl
@[simp] theorem State.setReg_calReference (s : State) (o v : Nat) : (s.setReg o v).calReference = s.calReference := by 
  unfold State.setReg
  rfl
@[simp] theorem State.orReg_pending (s : State) (o mask : Nat) : (s.orReg o mask).pending = s.pending := by 
  unfold State.orReg
  rfl
@[simp] theorem State.orReg_shadows (s : State) (o mask : Nat) : (s.orReg o mask).shadows = s.shadows := by 
  unfold State.orReg
  rfl
@[simp] theorem State.orReg_tiles (s : State) (o mask : Nat) : (s.orReg o mask).tiles = s.tiles := by 
  unfold State.orReg
  rfl
@[simp] theorem State.orReg_fabric (s : State) (o mask : Nat) : (s.orReg o mask).fabric = s.fabric := by 
  unfold State.orReg
  rfl
@[simp] theorem State.orReg_kv (s : State) (o mask : Nat) : (s.orReg o mask).kv = s.kv := by 
  unfold State.orReg
  rfl
@[simp] theorem State.orReg_prm (s : State) (o mask : Nat) : (s.orReg o mask).prm = s.prm := by 
  unfold State.orReg
  rfl
@[simp] theorem State.orReg_ldr (s : State) (o mask : Nat) : (s.orReg o mask).ldr = s.ldr := by 
  unfold State.orReg
  rfl
@[simp] theorem State.orReg_mbx (s : State) (o mask : Nat) : (s.orReg o mask).mbx = s.mbx := by 
  unfold State.orReg
  rfl
@[simp] theorem State.orReg_pcie (s : State) (o mask : Nat) : (s.orReg o mask).pcie = s.pcie := by 
  unfold State.orReg
  rfl
@[simp] theorem State.orReg_net (s : State) (o mask : Nat) : (s.orReg o mask).net = s.net := by 
  unfold State.orReg
  rfl
@[simp] theorem State.orReg_boot (s : State) (o mask : Nat) : (s.orReg o mask).boot = s.boot := by 
  unfold State.orReg
  rfl
@[simp] theorem State.orReg_pwr (s : State) (o mask : Nat) : (s.orReg o mask).pwr = s.pwr := by 
  unfold State.orReg
  rfl
@[simp] theorem State.orReg_hkm (s : State) (o mask : Nat) : (s.orReg o mask).hkm = s.hkm := by 
  unfold State.orReg
  rfl
@[simp] theorem State.orReg_integ (s : State) (o mask : Nat) : (s.orReg o mask).integ = s.integ := by 
  unfold State.orReg
  rfl
@[simp] theorem State.orReg_ledger (s : State) (o mask : Nat) : (s.orReg o mask).ledger = s.ledger := by 
  unfold State.orReg
  rfl
@[simp] theorem State.orReg_cnt (s : State) (o mask : Nat) : (s.orReg o mask).cnt = s.cnt := by 
  unfold State.orReg
  rfl
@[simp] theorem State.orReg_outside (s : State) (o mask : Nat) : (s.orReg o mask).outside = s.outside := by 
  unfold State.orReg
  rfl
@[simp] theorem State.orReg_calStart (s : State) (o mask : Nat) : (s.orReg o mask).calStart = s.calStart := by 
  unfold State.orReg
  rfl
@[simp] theorem State.orReg_calReference (s : State) (o mask : Nat) : (s.orReg o mask).calReference = s.calReference := by 
  unfold State.orReg
  rfl
@[simp] theorem State.setField_pending (s : State) (o lo len v : Nat) : (s.setField o lo len v).pending = s.pending := by 
  unfold State.setField
  rfl
@[simp] theorem State.setField_shadows (s : State) (o lo len v : Nat) : (s.setField o lo len v).shadows = s.shadows := by 
  unfold State.setField
  rfl
@[simp] theorem State.setField_tiles (s : State) (o lo len v : Nat) : (s.setField o lo len v).tiles = s.tiles := by 
  unfold State.setField
  rfl
@[simp] theorem State.setField_fabric (s : State) (o lo len v : Nat) : (s.setField o lo len v).fabric = s.fabric := by 
  unfold State.setField
  rfl
@[simp] theorem State.setField_kv (s : State) (o lo len v : Nat) : (s.setField o lo len v).kv = s.kv := by 
  unfold State.setField
  rfl
@[simp] theorem State.setField_prm (s : State) (o lo len v : Nat) : (s.setField o lo len v).prm = s.prm := by 
  unfold State.setField
  rfl
@[simp] theorem State.setField_ldr (s : State) (o lo len v : Nat) : (s.setField o lo len v).ldr = s.ldr := by 
  unfold State.setField
  rfl
@[simp] theorem State.setField_mbx (s : State) (o lo len v : Nat) : (s.setField o lo len v).mbx = s.mbx := by 
  unfold State.setField
  rfl
@[simp] theorem State.setField_pcie (s : State) (o lo len v : Nat) : (s.setField o lo len v).pcie = s.pcie := by 
  unfold State.setField
  rfl
@[simp] theorem State.setField_net (s : State) (o lo len v : Nat) : (s.setField o lo len v).net = s.net := by 
  unfold State.setField
  rfl
@[simp] theorem State.setField_boot (s : State) (o lo len v : Nat) : (s.setField o lo len v).boot = s.boot := by 
  unfold State.setField
  rfl
@[simp] theorem State.setField_pwr (s : State) (o lo len v : Nat) : (s.setField o lo len v).pwr = s.pwr := by 
  unfold State.setField
  rfl
@[simp] theorem State.setField_hkm (s : State) (o lo len v : Nat) : (s.setField o lo len v).hkm = s.hkm := by 
  unfold State.setField
  rfl
@[simp] theorem State.setField_integ (s : State) (o lo len v : Nat) : (s.setField o lo len v).integ = s.integ := by 
  unfold State.setField
  rfl
@[simp] theorem State.setField_ledger (s : State) (o lo len v : Nat) : (s.setField o lo len v).ledger = s.ledger := by 
  unfold State.setField
  rfl
@[simp] theorem State.setField_cnt (s : State) (o lo len v : Nat) : (s.setField o lo len v).cnt = s.cnt := by 
  unfold State.setField
  rfl
@[simp] theorem State.setField_outside (s : State) (o lo len v : Nat) : (s.setField o lo len v).outside = s.outside := by 
  unfold State.setField
  rfl
@[simp] theorem State.setField_calStart (s : State) (o lo len v : Nat) : (s.setField o lo len v).calStart = s.calStart := by 
  unfold State.setField
  rfl
@[simp] theorem State.setField_calReference (s : State) (o lo len v : Nat) : (s.setField o lo len v).calReference = s.calReference := by 
  unfold State.setField
  rfl
@[simp] theorem State.count_pending (s : State) (i n : Nat) : (s.count i n).pending = s.pending := by 
  unfold State.count
  rfl
@[simp] theorem State.count_regs (s : State) (i n : Nat) : (s.count i n).regs = s.regs := by 
  unfold State.count
  rfl
@[simp] theorem State.count_shadows (s : State) (i n : Nat) : (s.count i n).shadows = s.shadows := by 
  unfold State.count
  rfl
@[simp] theorem State.count_tiles (s : State) (i n : Nat) : (s.count i n).tiles = s.tiles := by 
  unfold State.count
  rfl
@[simp] theorem State.count_fabric (s : State) (i n : Nat) : (s.count i n).fabric = s.fabric := by 
  unfold State.count
  rfl
@[simp] theorem State.count_kv (s : State) (i n : Nat) : (s.count i n).kv = s.kv := by 
  unfold State.count
  rfl
@[simp] theorem State.count_prm (s : State) (i n : Nat) : (s.count i n).prm = s.prm := by 
  unfold State.count
  rfl
@[simp] theorem State.count_ldr (s : State) (i n : Nat) : (s.count i n).ldr = s.ldr := by 
  unfold State.count
  rfl
@[simp] theorem State.count_mbx (s : State) (i n : Nat) : (s.count i n).mbx = s.mbx := by 
  unfold State.count
  rfl
@[simp] theorem State.count_pcie (s : State) (i n : Nat) : (s.count i n).pcie = s.pcie := by 
  unfold State.count
  rfl
@[simp] theorem State.count_net (s : State) (i n : Nat) : (s.count i n).net = s.net := by 
  unfold State.count
  rfl
@[simp] theorem State.count_boot (s : State) (i n : Nat) : (s.count i n).boot = s.boot := by 
  unfold State.count
  rfl
@[simp] theorem State.count_pwr (s : State) (i n : Nat) : (s.count i n).pwr = s.pwr := by 
  unfold State.count
  rfl
@[simp] theorem State.count_hkm (s : State) (i n : Nat) : (s.count i n).hkm = s.hkm := by 
  unfold State.count
  rfl
@[simp] theorem State.count_integ (s : State) (i n : Nat) : (s.count i n).integ = s.integ := by 
  unfold State.count
  rfl
@[simp] theorem State.count_ledger (s : State) (i n : Nat) : (s.count i n).ledger = s.ledger := by 
  unfold State.count
  rfl
@[simp] theorem State.count_outside (s : State) (i n : Nat) : (s.count i n).outside = s.outside := by 
  unfold State.count
  rfl
@[simp] theorem State.count_calStart (s : State) (i n : Nat) : (s.count i n).calStart = s.calStart := by 
  unfold State.count
  rfl
@[simp] theorem State.count_calReference (s : State) (i n : Nat) : (s.count i n).calReference = s.calReference := by 
  unfold State.count
  rfl
@[simp] theorem State.setPair_pending (s : State) (o v : Nat) : (s.setPair o v).pending = s.pending := by 
  unfold State.setPair
  rfl
@[simp] theorem State.setPair_shadows (s : State) (o v : Nat) : (s.setPair o v).shadows = s.shadows := by 
  unfold State.setPair
  rfl
@[simp] theorem State.setPair_tiles (s : State) (o v : Nat) : (s.setPair o v).tiles = s.tiles := by 
  unfold State.setPair
  rfl
@[simp] theorem State.setPair_fabric (s : State) (o v : Nat) : (s.setPair o v).fabric = s.fabric := by 
  unfold State.setPair
  rfl
@[simp] theorem State.setPair_kv (s : State) (o v : Nat) : (s.setPair o v).kv = s.kv := by 
  unfold State.setPair
  rfl
@[simp] theorem State.setPair_prm (s : State) (o v : Nat) : (s.setPair o v).prm = s.prm := by 
  unfold State.setPair
  rfl
@[simp] theorem State.setPair_ldr (s : State) (o v : Nat) : (s.setPair o v).ldr = s.ldr := by 
  unfold State.setPair
  rfl
@[simp] theorem State.setPair_mbx (s : State) (o v : Nat) : (s.setPair o v).mbx = s.mbx := by 
  unfold State.setPair
  rfl
@[simp] theorem State.setPair_pcie (s : State) (o v : Nat) : (s.setPair o v).pcie = s.pcie := by 
  unfold State.setPair
  rfl
@[simp] theorem State.setPair_net (s : State) (o v : Nat) : (s.setPair o v).net = s.net := by 
  unfold State.setPair
  rfl
@[simp] theorem State.setPair_boot (s : State) (o v : Nat) : (s.setPair o v).boot = s.boot := by 
  unfold State.setPair
  rfl
@[simp] theorem State.setPair_pwr (s : State) (o v : Nat) : (s.setPair o v).pwr = s.pwr := by 
  unfold State.setPair
  rfl
@[simp] theorem State.setPair_hkm (s : State) (o v : Nat) : (s.setPair o v).hkm = s.hkm := by 
  unfold State.setPair
  rfl
@[simp] theorem State.setPair_integ (s : State) (o v : Nat) : (s.setPair o v).integ = s.integ := by 
  unfold State.setPair
  rfl
@[simp] theorem State.setPair_ledger (s : State) (o v : Nat) : (s.setPair o v).ledger = s.ledger := by 
  unfold State.setPair
  rfl
@[simp] theorem State.setPair_cnt (s : State) (o v : Nat) : (s.setPair o v).cnt = s.cnt := by 
  unfold State.setPair
  rfl
@[simp] theorem State.setPair_outside (s : State) (o v : Nat) : (s.setPair o v).outside = s.outside := by 
  unfold State.setPair
  rfl
@[simp] theorem State.setPair_calStart (s : State) (o v : Nat) : (s.setPair o v).calStart = s.calStart := by 
  unfold State.setPair
  rfl
@[simp] theorem State.setPair_calReference (s : State) (o v : Nat) : (s.setPair o v).calReference = s.calReference := by 
  unfold State.setPair
  rfl
@[simp] theorem State.raiseVector_pending (s : State) (v : Nat) : (s.raiseVector v).pending = s.pending := by 
  simp [State.raiseVector]
@[simp] theorem State.raiseVector_shadows (s : State) (v : Nat) : (s.raiseVector v).shadows = s.shadows := by 
  simp [State.raiseVector]
@[simp] theorem State.raiseVector_tiles (s : State) (v : Nat) : (s.raiseVector v).tiles = s.tiles := by 
  simp [State.raiseVector]
@[simp] theorem State.raiseVector_fabric (s : State) (v : Nat) : (s.raiseVector v).fabric = s.fabric := by 
  simp [State.raiseVector]
@[simp] theorem State.raiseVector_kv (s : State) (v : Nat) : (s.raiseVector v).kv = s.kv := by 
  simp [State.raiseVector]
@[simp] theorem State.raiseVector_prm (s : State) (v : Nat) : (s.raiseVector v).prm = s.prm := by 
  simp [State.raiseVector]
@[simp] theorem State.raiseVector_ldr (s : State) (v : Nat) : (s.raiseVector v).ldr = s.ldr := by 
  simp [State.raiseVector]
@[simp] theorem State.raiseVector_mbx (s : State) (v : Nat) : (s.raiseVector v).mbx = s.mbx := by 
  simp [State.raiseVector]
@[simp] theorem State.raiseVector_pcie (s : State) (v : Nat) : (s.raiseVector v).pcie = s.pcie := by 
  simp [State.raiseVector]
@[simp] theorem State.raiseVector_net (s : State) (v : Nat) : (s.raiseVector v).net = s.net := by 
  simp [State.raiseVector]
@[simp] theorem State.raiseVector_boot (s : State) (v : Nat) : (s.raiseVector v).boot = s.boot := by 
  simp [State.raiseVector]
@[simp] theorem State.raiseVector_pwr (s : State) (v : Nat) : (s.raiseVector v).pwr = s.pwr := by 
  simp [State.raiseVector]
@[simp] theorem State.raiseVector_hkm (s : State) (v : Nat) : (s.raiseVector v).hkm = s.hkm := by 
  simp [State.raiseVector]
@[simp] theorem State.raiseVector_integ (s : State) (v : Nat) : (s.raiseVector v).integ = s.integ := by 
  simp [State.raiseVector]
@[simp] theorem State.raiseVector_ledger (s : State) (v : Nat) : (s.raiseVector v).ledger = s.ledger := by 
  simp [State.raiseVector]
@[simp] theorem State.raiseVector_cnt (s : State) (v : Nat) : (s.raiseVector v).cnt = s.cnt := by 
  simp [State.raiseVector]
@[simp] theorem State.raiseVector_calStart (s : State) (v : Nat) : (s.raiseVector v).calStart = s.calStart := by 
  simp [State.raiseVector]
@[simp] theorem State.raiseVector_calReference (s : State) (v : Nat) : (s.raiseVector v).calReference = s.calReference := by 
  simp [State.raiseVector]
@[simp] theorem State.completeTo_pending (s : State) (ring gen tag : Nat) (st : Status) (result : List Byte) (admits : Bool := false) : (s.completeTo ring gen tag st result admits).pending = s.pending := by 
  simp [State.completeTo]
@[simp] theorem State.completeTo_regs (s : State) (ring gen tag : Nat) (st : Status) (result : List Byte) (admits : Bool := false) : (s.completeTo ring gen tag st result admits).regs = s.regs := by 
  simp [State.completeTo]
@[simp] theorem State.completeTo_shadows (s : State) (ring gen tag : Nat) (st : Status) (result : List Byte) (admits : Bool := false) : (s.completeTo ring gen tag st result admits).shadows = s.shadows := by 
  simp [State.completeTo]
@[simp] theorem State.completeTo_tiles (s : State) (ring gen tag : Nat) (st : Status) (result : List Byte) (admits : Bool := false) : (s.completeTo ring gen tag st result admits).tiles = s.tiles := by 
  simp [State.completeTo]
@[simp] theorem State.completeTo_fabric (s : State) (ring gen tag : Nat) (st : Status) (result : List Byte) (admits : Bool := false) : (s.completeTo ring gen tag st result admits).fabric = s.fabric := by 
  simp [State.completeTo]
@[simp] theorem State.completeTo_kv (s : State) (ring gen tag : Nat) (st : Status) (result : List Byte) (admits : Bool := false) : (s.completeTo ring gen tag st result admits).kv = s.kv := by 
  simp [State.completeTo]
@[simp] theorem State.completeTo_prm (s : State) (ring gen tag : Nat) (st : Status) (result : List Byte) (admits : Bool := false) : (s.completeTo ring gen tag st result admits).prm = s.prm := by 
  simp [State.completeTo]
@[simp] theorem State.completeTo_ldr (s : State) (ring gen tag : Nat) (st : Status) (result : List Byte) (admits : Bool := false) : (s.completeTo ring gen tag st result admits).ldr = s.ldr := by 
  simp [State.completeTo]
@[simp] theorem State.completeTo_pcie (s : State) (ring gen tag : Nat) (st : Status) (result : List Byte) (admits : Bool := false) : (s.completeTo ring gen tag st result admits).pcie = s.pcie := by 
  simp [State.completeTo]
@[simp] theorem State.completeTo_net (s : State) (ring gen tag : Nat) (st : Status) (result : List Byte) (admits : Bool := false) : (s.completeTo ring gen tag st result admits).net = s.net := by 
  simp [State.completeTo]
@[simp] theorem State.completeTo_boot (s : State) (ring gen tag : Nat) (st : Status) (result : List Byte) (admits : Bool := false) : (s.completeTo ring gen tag st result admits).boot = s.boot := by 
  simp [State.completeTo]
@[simp] theorem State.completeTo_pwr (s : State) (ring gen tag : Nat) (st : Status) (result : List Byte) (admits : Bool := false) : (s.completeTo ring gen tag st result admits).pwr = s.pwr := by 
  simp [State.completeTo]
@[simp] theorem State.completeTo_hkm (s : State) (ring gen tag : Nat) (st : Status) (result : List Byte) (admits : Bool := false) : (s.completeTo ring gen tag st result admits).hkm = s.hkm := by 
  simp [State.completeTo]
@[simp] theorem State.completeTo_integ (s : State) (ring gen tag : Nat) (st : Status) (result : List Byte) (admits : Bool := false) : (s.completeTo ring gen tag st result admits).integ = s.integ := by 
  simp [State.completeTo]
@[simp] theorem State.completeTo_ledger (s : State) (ring gen tag : Nat) (st : Status) (result : List Byte) (admits : Bool := false) : (s.completeTo ring gen tag st result admits).ledger = s.ledger := by 
  simp [State.completeTo]
@[simp] theorem State.completeTo_cnt (s : State) (ring gen tag : Nat) (st : Status) (result : List Byte) (admits : Bool := false) : (s.completeTo ring gen tag st result admits).cnt = s.cnt := by 
  simp [State.completeTo]
@[simp] theorem State.completeTo_outside (s : State) (ring gen tag : Nat) (st : Status) (result : List Byte) (admits : Bool := false) : (s.completeTo ring gen tag st result admits).outside = s.outside := by 
  simp [State.completeTo]
@[simp] theorem State.completeTo_calStart (s : State) (ring gen tag : Nat) (st : Status) (result : List Byte) (admits : Bool := false) : (s.completeTo ring gen tag st result admits).calStart = s.calStart := by 
  simp [State.completeTo]
@[simp] theorem State.completeTo_calReference (s : State) (ring gen tag : Nat) (st : Status) (result : List Byte) (admits : Bool := false) : (s.completeTo ring gen tag st result admits).calReference = s.calReference := by 
  simp [State.completeTo]
@[simp] theorem State.postRecord_pending (s : State) (ring tag : Nat) (st : Status) (result : List Byte) : (s.postRecord ring tag st result).pending = s.pending := by 
  simp [State.postRecord]
@[simp] theorem State.postRecord_shadows (s : State) (ring tag : Nat) (st : Status) (result : List Byte) : (s.postRecord ring tag st result).shadows = s.shadows := by 
  simp [State.postRecord]
@[simp] theorem State.postRecord_tiles (s : State) (ring tag : Nat) (st : Status) (result : List Byte) : (s.postRecord ring tag st result).tiles = s.tiles := by 
  simp [State.postRecord]
@[simp] theorem State.postRecord_fabric (s : State) (ring tag : Nat) (st : Status) (result : List Byte) : (s.postRecord ring tag st result).fabric = s.fabric := by 
  simp [State.postRecord]
@[simp] theorem State.postRecord_kv (s : State) (ring tag : Nat) (st : Status) (result : List Byte) : (s.postRecord ring tag st result).kv = s.kv := by 
  simp [State.postRecord]
@[simp] theorem State.postRecord_prm (s : State) (ring tag : Nat) (st : Status) (result : List Byte) : (s.postRecord ring tag st result).prm = s.prm := by 
  simp [State.postRecord]
@[simp] theorem State.postRecord_ldr (s : State) (ring tag : Nat) (st : Status) (result : List Byte) : (s.postRecord ring tag st result).ldr = s.ldr := by 
  simp [State.postRecord]
@[simp] theorem State.postRecord_pcie (s : State) (ring tag : Nat) (st : Status) (result : List Byte) : (s.postRecord ring tag st result).pcie = s.pcie := by 
  simp [State.postRecord]
@[simp] theorem State.postRecord_net (s : State) (ring tag : Nat) (st : Status) (result : List Byte) : (s.postRecord ring tag st result).net = s.net := by 
  simp [State.postRecord]
@[simp] theorem State.postRecord_boot (s : State) (ring tag : Nat) (st : Status) (result : List Byte) : (s.postRecord ring tag st result).boot = s.boot := by 
  simp [State.postRecord]
@[simp] theorem State.postRecord_pwr (s : State) (ring tag : Nat) (st : Status) (result : List Byte) : (s.postRecord ring tag st result).pwr = s.pwr := by 
  simp [State.postRecord]
@[simp] theorem State.postRecord_hkm (s : State) (ring tag : Nat) (st : Status) (result : List Byte) : (s.postRecord ring tag st result).hkm = s.hkm := by 
  simp [State.postRecord]
@[simp] theorem State.postRecord_integ (s : State) (ring tag : Nat) (st : Status) (result : List Byte) : (s.postRecord ring tag st result).integ = s.integ := by 
  simp [State.postRecord]
@[simp] theorem State.postRecord_ledger (s : State) (ring tag : Nat) (st : Status) (result : List Byte) : (s.postRecord ring tag st result).ledger = s.ledger := by 
  simp [State.postRecord]
@[simp] theorem State.postRecord_outside (s : State) (ring tag : Nat) (st : Status) (result : List Byte) : (s.postRecord ring tag st result).outside = s.outside := by 
  simp [State.postRecord]
@[simp] theorem State.postRecord_calStart (s : State) (ring tag : Nat) (st : Status) (result : List Byte) : (s.postRecord ring tag st result).calStart = s.calStart := by 
  simp [State.postRecord]
@[simp] theorem State.postRecord_calReference (s : State) (ring tag : Nat) (st : Status) (result : List Byte) : (s.postRecord ring tag st result).calReference = s.calReference := by 
  simp [State.postRecord]
@[simp] theorem State.addJob_pending (s : State) (ring tag : Nat) (k : JobKind) : (s.addJob ring tag k).pending = s.pending := by 
  unfold State.addJob
  rfl
@[simp] theorem State.addJob_regs (s : State) (ring tag : Nat) (k : JobKind) : (s.addJob ring tag k).regs = s.regs := by 
  unfold State.addJob
  rfl
@[simp] theorem State.addJob_shadows (s : State) (ring tag : Nat) (k : JobKind) : (s.addJob ring tag k).shadows = s.shadows := by 
  unfold State.addJob
  rfl
@[simp] theorem State.addJob_tiles (s : State) (ring tag : Nat) (k : JobKind) : (s.addJob ring tag k).tiles = s.tiles := by 
  unfold State.addJob
  rfl
@[simp] theorem State.addJob_fabric (s : State) (ring tag : Nat) (k : JobKind) : (s.addJob ring tag k).fabric = s.fabric := by 
  unfold State.addJob
  rfl
@[simp] theorem State.addJob_kv (s : State) (ring tag : Nat) (k : JobKind) : (s.addJob ring tag k).kv = s.kv := by 
  unfold State.addJob
  rfl
@[simp] theorem State.addJob_prm (s : State) (ring tag : Nat) (k : JobKind) : (s.addJob ring tag k).prm = s.prm := by 
  unfold State.addJob
  rfl
@[simp] theorem State.addJob_ldr (s : State) (ring tag : Nat) (k : JobKind) : (s.addJob ring tag k).ldr = s.ldr := by 
  unfold State.addJob
  rfl
@[simp] theorem State.addJob_pcie (s : State) (ring tag : Nat) (k : JobKind) : (s.addJob ring tag k).pcie = s.pcie := by 
  unfold State.addJob
  rfl
@[simp] theorem State.addJob_net (s : State) (ring tag : Nat) (k : JobKind) : (s.addJob ring tag k).net = s.net := by 
  unfold State.addJob
  rfl
@[simp] theorem State.addJob_boot (s : State) (ring tag : Nat) (k : JobKind) : (s.addJob ring tag k).boot = s.boot := by 
  unfold State.addJob
  rfl
@[simp] theorem State.addJob_pwr (s : State) (ring tag : Nat) (k : JobKind) : (s.addJob ring tag k).pwr = s.pwr := by 
  unfold State.addJob
  rfl
@[simp] theorem State.addJob_hkm (s : State) (ring tag : Nat) (k : JobKind) : (s.addJob ring tag k).hkm = s.hkm := by 
  unfold State.addJob
  rfl
@[simp] theorem State.addJob_integ (s : State) (ring tag : Nat) (k : JobKind) : (s.addJob ring tag k).integ = s.integ := by 
  unfold State.addJob
  rfl
@[simp] theorem State.addJob_ledger (s : State) (ring tag : Nat) (k : JobKind) : (s.addJob ring tag k).ledger = s.ledger := by 
  unfold State.addJob
  rfl
@[simp] theorem State.addJob_cnt (s : State) (ring tag : Nat) (k : JobKind) : (s.addJob ring tag k).cnt = s.cnt := by 
  unfold State.addJob
  rfl
@[simp] theorem State.addJob_outside (s : State) (ring tag : Nat) (k : JobKind) : (s.addJob ring tag k).outside = s.outside := by 
  unfold State.addJob
  rfl
@[simp] theorem State.addJob_calStart (s : State) (ring tag : Nat) (k : JobKind) : (s.addJob ring tag k).calStart = s.calStart := by 
  unfold State.addJob
  rfl
@[simp] theorem State.addJob_calReference (s : State) (ring tag : Nat) (k : JobKind) : (s.addJob ring tag k).calReference = s.calReference := by 
  unfold State.addJob
  rfl
@[simp] theorem State.finishJobs_pending (s : State) (f : Job → Option (Status × List Byte)) : (s.finishJobs f).pending = s.pending := by 
  unfold State.finishJobs
  refine foldl_field _ _ (fun _ _ => ?_) _ _
  dsimp only
  split <;> simp
@[simp] theorem State.finishJobs_regs (s : State) (f : Job → Option (Status × List Byte)) : (s.finishJobs f).regs = s.regs := by 
  unfold State.finishJobs
  refine foldl_field _ _ (fun _ _ => ?_) _ _
  dsimp only
  split <;> simp
@[simp] theorem State.finishJobs_shadows (s : State) (f : Job → Option (Status × List Byte)) : (s.finishJobs f).shadows = s.shadows := by 
  unfold State.finishJobs
  refine foldl_field _ _ (fun _ _ => ?_) _ _
  dsimp only
  split <;> simp
@[simp] theorem State.finishJobs_tiles (s : State) (f : Job → Option (Status × List Byte)) : (s.finishJobs f).tiles = s.tiles := by 
  unfold State.finishJobs
  refine foldl_field _ _ (fun _ _ => ?_) _ _
  dsimp only
  split <;> simp
@[simp] theorem State.finishJobs_fabric (s : State) (f : Job → Option (Status × List Byte)) : (s.finishJobs f).fabric = s.fabric := by 
  unfold State.finishJobs
  refine foldl_field _ _ (fun _ _ => ?_) _ _
  dsimp only
  split <;> simp
@[simp] theorem State.finishJobs_kv (s : State) (f : Job → Option (Status × List Byte)) : (s.finishJobs f).kv = s.kv := by 
  unfold State.finishJobs
  refine foldl_field _ _ (fun _ _ => ?_) _ _
  dsimp only
  split <;> simp
@[simp] theorem State.finishJobs_prm (s : State) (f : Job → Option (Status × List Byte)) : (s.finishJobs f).prm = s.prm := by 
  unfold State.finishJobs
  refine foldl_field _ _ (fun _ _ => ?_) _ _
  dsimp only
  split <;> simp
@[simp] theorem State.finishJobs_ldr (s : State) (f : Job → Option (Status × List Byte)) : (s.finishJobs f).ldr = s.ldr := by 
  unfold State.finishJobs
  refine foldl_field _ _ (fun _ _ => ?_) _ _
  dsimp only
  split <;> simp
@[simp] theorem State.finishJobs_pcie (s : State) (f : Job → Option (Status × List Byte)) : (s.finishJobs f).pcie = s.pcie := by 
  unfold State.finishJobs
  refine foldl_field _ _ (fun _ _ => ?_) _ _
  dsimp only
  split <;> simp
@[simp] theorem State.finishJobs_net (s : State) (f : Job → Option (Status × List Byte)) : (s.finishJobs f).net = s.net := by 
  unfold State.finishJobs
  refine foldl_field _ _ (fun _ _ => ?_) _ _
  dsimp only
  split <;> simp
@[simp] theorem State.finishJobs_boot (s : State) (f : Job → Option (Status × List Byte)) : (s.finishJobs f).boot = s.boot := by 
  unfold State.finishJobs
  refine foldl_field _ _ (fun _ _ => ?_) _ _
  dsimp only
  split <;> simp
@[simp] theorem State.finishJobs_pwr (s : State) (f : Job → Option (Status × List Byte)) : (s.finishJobs f).pwr = s.pwr := by 
  unfold State.finishJobs
  refine foldl_field _ _ (fun _ _ => ?_) _ _
  dsimp only
  split <;> simp
@[simp] theorem State.finishJobs_hkm (s : State) (f : Job → Option (Status × List Byte)) : (s.finishJobs f).hkm = s.hkm := by 
  unfold State.finishJobs
  refine foldl_field _ _ (fun _ _ => ?_) _ _
  dsimp only
  split <;> simp
@[simp] theorem State.finishJobs_integ (s : State) (f : Job → Option (Status × List Byte)) : (s.finishJobs f).integ = s.integ := by 
  unfold State.finishJobs
  refine foldl_field _ _ (fun _ _ => ?_) _ _
  dsimp only
  split <;> simp
@[simp] theorem State.finishJobs_ledger (s : State) (f : Job → Option (Status × List Byte)) : (s.finishJobs f).ledger = s.ledger := by 
  unfold State.finishJobs
  refine foldl_field _ _ (fun _ _ => ?_) _ _
  dsimp only
  split <;> simp
@[simp] theorem State.finishJobs_cnt (s : State) (f : Job → Option (Status × List Byte)) : (s.finishJobs f).cnt = s.cnt := by 
  unfold State.finishJobs
  refine foldl_field _ _ (fun _ _ => ?_) _ _
  dsimp only
  split <;> simp
@[simp] theorem State.finishJobs_outside (s : State) (f : Job → Option (Status × List Byte)) : (s.finishJobs f).outside = s.outside := by 
  unfold State.finishJobs
  refine foldl_field _ _ (fun _ _ => ?_) _ _
  dsimp only
  split <;> simp
@[simp] theorem State.finishJobs_calStart (s : State) (f : Job → Option (Status × List Byte)) : (s.finishJobs f).calStart = s.calStart := by 
  unfold State.finishJobs
  refine foldl_field _ _ (fun _ _ => ?_) _ _
  dsimp only
  split <;> simp
@[simp] theorem State.finishJobs_calReference (s : State) (f : Job → Option (Status × List Byte)) : (s.finishJobs f).calReference = s.calReference := by 
  unfold State.finishJobs
  refine foldl_field _ _ (fun _ _ => ?_) _ _
  dsimp only
  split <;> simp
@[simp] theorem State.freeFrames_pending (s : State) (fs : List Nat) : (s.freeFrames fs).pending = s.pending := by 
  unfold State.freeFrames
  rfl
@[simp] theorem State.freeFrames_regs (s : State) (fs : List Nat) : (s.freeFrames fs).regs = s.regs := by 
  unfold State.freeFrames
  rfl
@[simp] theorem State.freeFrames_shadows (s : State) (fs : List Nat) : (s.freeFrames fs).shadows = s.shadows := by 
  unfold State.freeFrames
  rfl
@[simp] theorem State.freeFrames_tiles (s : State) (fs : List Nat) : (s.freeFrames fs).tiles = s.tiles := by 
  unfold State.freeFrames
  rfl
@[simp] theorem State.freeFrames_fabric (s : State) (fs : List Nat) : (s.freeFrames fs).fabric = s.fabric := by 
  unfold State.freeFrames
  rfl
@[simp] theorem State.freeFrames_prm (s : State) (fs : List Nat) : (s.freeFrames fs).prm = s.prm := by 
  unfold State.freeFrames
  rfl
@[simp] theorem State.freeFrames_ldr (s : State) (fs : List Nat) : (s.freeFrames fs).ldr = s.ldr := by 
  unfold State.freeFrames
  rfl
@[simp] theorem State.freeFrames_mbx (s : State) (fs : List Nat) : (s.freeFrames fs).mbx = s.mbx := by 
  unfold State.freeFrames
  rfl
@[simp] theorem State.freeFrames_pcie (s : State) (fs : List Nat) : (s.freeFrames fs).pcie = s.pcie := by 
  unfold State.freeFrames
  rfl
@[simp] theorem State.freeFrames_net (s : State) (fs : List Nat) : (s.freeFrames fs).net = s.net := by 
  unfold State.freeFrames
  rfl
@[simp] theorem State.freeFrames_boot (s : State) (fs : List Nat) : (s.freeFrames fs).boot = s.boot := by 
  unfold State.freeFrames
  rfl
@[simp] theorem State.freeFrames_pwr (s : State) (fs : List Nat) : (s.freeFrames fs).pwr = s.pwr := by 
  unfold State.freeFrames
  rfl
@[simp] theorem State.freeFrames_hkm (s : State) (fs : List Nat) : (s.freeFrames fs).hkm = s.hkm := by 
  unfold State.freeFrames
  rfl
@[simp] theorem State.freeFrames_integ (s : State) (fs : List Nat) : (s.freeFrames fs).integ = s.integ := by 
  unfold State.freeFrames
  rfl
@[simp] theorem State.freeFrames_ledger (s : State) (fs : List Nat) : (s.freeFrames fs).ledger = s.ledger := by 
  unfold State.freeFrames
  rfl
@[simp] theorem State.freeFrames_outside (s : State) (fs : List Nat) : (s.freeFrames fs).outside = s.outside := by 
  unfold State.freeFrames
  rfl
@[simp] theorem State.freeFrames_calStart (s : State) (fs : List Nat) : (s.freeFrames fs).calStart = s.calStart := by 
  unfold State.freeFrames
  rfl
@[simp] theorem State.freeFrames_calReference (s : State) (fs : List Nat) : (s.freeFrames fs).calReference = s.calReference := by 
  unfold State.freeFrames
  rfl
@[simp] theorem State.putDir_pending (s : State) (i : Nat) (d : DirEntry) : (s.putDir i d).pending = s.pending := by 
  unfold State.putDir
  rfl
@[simp] theorem State.putDir_regs (s : State) (i : Nat) (d : DirEntry) : (s.putDir i d).regs = s.regs := by 
  unfold State.putDir
  rfl
@[simp] theorem State.putDir_shadows (s : State) (i : Nat) (d : DirEntry) : (s.putDir i d).shadows = s.shadows := by 
  unfold State.putDir
  rfl
@[simp] theorem State.putDir_tiles (s : State) (i : Nat) (d : DirEntry) : (s.putDir i d).tiles = s.tiles := by 
  unfold State.putDir
  rfl
@[simp] theorem State.putDir_fabric (s : State) (i : Nat) (d : DirEntry) : (s.putDir i d).fabric = s.fabric := by 
  unfold State.putDir
  rfl
@[simp] theorem State.putDir_prm (s : State) (i : Nat) (d : DirEntry) : (s.putDir i d).prm = s.prm := by 
  unfold State.putDir
  rfl
@[simp] theorem State.putDir_ldr (s : State) (i : Nat) (d : DirEntry) : (s.putDir i d).ldr = s.ldr := by 
  unfold State.putDir
  rfl
@[simp] theorem State.putDir_mbx (s : State) (i : Nat) (d : DirEntry) : (s.putDir i d).mbx = s.mbx := by 
  unfold State.putDir
  rfl
@[simp] theorem State.putDir_pcie (s : State) (i : Nat) (d : DirEntry) : (s.putDir i d).pcie = s.pcie := by 
  unfold State.putDir
  rfl
@[simp] theorem State.putDir_net (s : State) (i : Nat) (d : DirEntry) : (s.putDir i d).net = s.net := by 
  unfold State.putDir
  rfl
@[simp] theorem State.putDir_boot (s : State) (i : Nat) (d : DirEntry) : (s.putDir i d).boot = s.boot := by 
  unfold State.putDir
  rfl
@[simp] theorem State.putDir_pwr (s : State) (i : Nat) (d : DirEntry) : (s.putDir i d).pwr = s.pwr := by 
  unfold State.putDir
  rfl
@[simp] theorem State.putDir_hkm (s : State) (i : Nat) (d : DirEntry) : (s.putDir i d).hkm = s.hkm := by 
  unfold State.putDir
  rfl
@[simp] theorem State.putDir_integ (s : State) (i : Nat) (d : DirEntry) : (s.putDir i d).integ = s.integ := by 
  unfold State.putDir
  rfl
@[simp] theorem State.putDir_ledger (s : State) (i : Nat) (d : DirEntry) : (s.putDir i d).ledger = s.ledger := by 
  unfold State.putDir
  rfl
@[simp] theorem State.putDir_cnt (s : State) (i : Nat) (d : DirEntry) : (s.putDir i d).cnt = s.cnt := by 
  unfold State.putDir
  rfl
@[simp] theorem State.putDir_outside (s : State) (i : Nat) (d : DirEntry) : (s.putDir i d).outside = s.outside := by 
  unfold State.putDir
  rfl
@[simp] theorem State.putDir_calStart (s : State) (i : Nat) (d : DirEntry) : (s.putDir i d).calStart = s.calStart := by 
  unfold State.putDir
  rfl
@[simp] theorem State.putDir_calReference (s : State) (i : Nat) (d : DirEntry) : (s.putDir i d).calReference = s.calReference := by 
  unfold State.putDir
  rfl
@[simp] theorem State.modDir_pending (s : State) (i : Nat) (f : DirEntry → DirEntry) : (s.modDir i f).pending = s.pending := by 
  unfold State.modDir
  split <;> simp
@[simp] theorem State.modDir_regs (s : State) (i : Nat) (f : DirEntry → DirEntry) : (s.modDir i f).regs = s.regs := by 
  unfold State.modDir
  split <;> simp
@[simp] theorem State.modDir_shadows (s : State) (i : Nat) (f : DirEntry → DirEntry) : (s.modDir i f).shadows = s.shadows := by 
  unfold State.modDir
  split <;> simp
@[simp] theorem State.modDir_tiles (s : State) (i : Nat) (f : DirEntry → DirEntry) : (s.modDir i f).tiles = s.tiles := by 
  unfold State.modDir
  split <;> simp
@[simp] theorem State.modDir_fabric (s : State) (i : Nat) (f : DirEntry → DirEntry) : (s.modDir i f).fabric = s.fabric := by 
  unfold State.modDir
  split <;> simp
@[simp] theorem State.modDir_prm (s : State) (i : Nat) (f : DirEntry → DirEntry) : (s.modDir i f).prm = s.prm := by 
  unfold State.modDir
  split <;> simp
@[simp] theorem State.modDir_ldr (s : State) (i : Nat) (f : DirEntry → DirEntry) : (s.modDir i f).ldr = s.ldr := by 
  unfold State.modDir
  split <;> simp
@[simp] theorem State.modDir_mbx (s : State) (i : Nat) (f : DirEntry → DirEntry) : (s.modDir i f).mbx = s.mbx := by 
  unfold State.modDir
  split <;> simp
@[simp] theorem State.modDir_pcie (s : State) (i : Nat) (f : DirEntry → DirEntry) : (s.modDir i f).pcie = s.pcie := by 
  unfold State.modDir
  split <;> simp
@[simp] theorem State.modDir_net (s : State) (i : Nat) (f : DirEntry → DirEntry) : (s.modDir i f).net = s.net := by 
  unfold State.modDir
  split <;> simp
@[simp] theorem State.modDir_boot (s : State) (i : Nat) (f : DirEntry → DirEntry) : (s.modDir i f).boot = s.boot := by 
  unfold State.modDir
  split <;> simp
@[simp] theorem State.modDir_pwr (s : State) (i : Nat) (f : DirEntry → DirEntry) : (s.modDir i f).pwr = s.pwr := by 
  unfold State.modDir
  split <;> simp
@[simp] theorem State.modDir_hkm (s : State) (i : Nat) (f : DirEntry → DirEntry) : (s.modDir i f).hkm = s.hkm := by 
  unfold State.modDir
  split <;> simp
@[simp] theorem State.modDir_integ (s : State) (i : Nat) (f : DirEntry → DirEntry) : (s.modDir i f).integ = s.integ := by 
  unfold State.modDir
  split <;> simp
@[simp] theorem State.modDir_ledger (s : State) (i : Nat) (f : DirEntry → DirEntry) : (s.modDir i f).ledger = s.ledger := by 
  unfold State.modDir
  split <;> simp
@[simp] theorem State.modDir_cnt (s : State) (i : Nat) (f : DirEntry → DirEntry) : (s.modDir i f).cnt = s.cnt := by 
  unfold State.modDir
  split <;> simp
@[simp] theorem State.modDir_outside (s : State) (i : Nat) (f : DirEntry → DirEntry) : (s.modDir i f).outside = s.outside := by 
  unfold State.modDir
  split <;> simp
@[simp] theorem State.modDir_calStart (s : State) (i : Nat) (f : DirEntry → DirEntry) : (s.modDir i f).calStart = s.calStart := by 
  unfold State.modDir
  split <;> simp
@[simp] theorem State.modDir_calReference (s : State) (i : Nat) (f : DirEntry → DirEntry) : (s.modDir i f).calReference = s.calReference := by 
  unfold State.modDir
  split <;> simp
@[simp] theorem State.stampAnnex_pending (s : State) (f : Nat) : (s.stampAnnex f).pending = s.pending := by 
  unfold State.stampAnnex
  rfl
@[simp] theorem State.stampAnnex_regs (s : State) (f : Nat) : (s.stampAnnex f).regs = s.regs := by 
  unfold State.stampAnnex
  rfl
@[simp] theorem State.stampAnnex_shadows (s : State) (f : Nat) : (s.stampAnnex f).shadows = s.shadows := by 
  unfold State.stampAnnex
  rfl
@[simp] theorem State.stampAnnex_tiles (s : State) (f : Nat) : (s.stampAnnex f).tiles = s.tiles := by 
  unfold State.stampAnnex
  rfl
@[simp] theorem State.stampAnnex_fabric (s : State) (f : Nat) : (s.stampAnnex f).fabric = s.fabric := by 
  unfold State.stampAnnex
  rfl
@[simp] theorem State.stampAnnex_prm (s : State) (f : Nat) : (s.stampAnnex f).prm = s.prm := by 
  unfold State.stampAnnex
  rfl
@[simp] theorem State.stampAnnex_ldr (s : State) (f : Nat) : (s.stampAnnex f).ldr = s.ldr := by 
  unfold State.stampAnnex
  rfl
@[simp] theorem State.stampAnnex_mbx (s : State) (f : Nat) : (s.stampAnnex f).mbx = s.mbx := by 
  unfold State.stampAnnex
  rfl
@[simp] theorem State.stampAnnex_pcie (s : State) (f : Nat) : (s.stampAnnex f).pcie = s.pcie := by 
  unfold State.stampAnnex
  rfl
@[simp] theorem State.stampAnnex_net (s : State) (f : Nat) : (s.stampAnnex f).net = s.net := by 
  unfold State.stampAnnex
  rfl
@[simp] theorem State.stampAnnex_boot (s : State) (f : Nat) : (s.stampAnnex f).boot = s.boot := by 
  unfold State.stampAnnex
  rfl
@[simp] theorem State.stampAnnex_pwr (s : State) (f : Nat) : (s.stampAnnex f).pwr = s.pwr := by 
  unfold State.stampAnnex
  rfl
@[simp] theorem State.stampAnnex_hkm (s : State) (f : Nat) : (s.stampAnnex f).hkm = s.hkm := by 
  unfold State.stampAnnex
  rfl
@[simp] theorem State.stampAnnex_integ (s : State) (f : Nat) : (s.stampAnnex f).integ = s.integ := by 
  unfold State.stampAnnex
  rfl
@[simp] theorem State.stampAnnex_ledger (s : State) (f : Nat) : (s.stampAnnex f).ledger = s.ledger := by 
  unfold State.stampAnnex
  rfl
@[simp] theorem State.stampAnnex_cnt (s : State) (f : Nat) : (s.stampAnnex f).cnt = s.cnt := by 
  unfold State.stampAnnex
  rfl
@[simp] theorem State.stampAnnex_outside (s : State) (f : Nat) : (s.stampAnnex f).outside = s.outside := by 
  unfold State.stampAnnex
  rfl
@[simp] theorem State.stampAnnex_calStart (s : State) (f : Nat) : (s.stampAnnex f).calStart = s.calStart := by 
  unfold State.stampAnnex
  rfl
@[simp] theorem State.stampAnnex_calReference (s : State) (f : Nat) : (s.stampAnnex f).calReference = s.calReference := by 
  unfold State.stampAnnex
  rfl
@[simp] theorem State.mapPage_pending (s : State) (e key f : Nat) : (s.mapPage e key f).pending = s.pending := by 
  unfold State.mapPage
  rfl
@[simp] theorem State.mapPage_regs (s : State) (e key f : Nat) : (s.mapPage e key f).regs = s.regs := by 
  unfold State.mapPage
  rfl
@[simp] theorem State.mapPage_shadows (s : State) (e key f : Nat) : (s.mapPage e key f).shadows = s.shadows := by 
  unfold State.mapPage
  rfl
@[simp] theorem State.mapPage_tiles (s : State) (e key f : Nat) : (s.mapPage e key f).tiles = s.tiles := by 
  unfold State.mapPage
  rfl
@[simp] theorem State.mapPage_fabric (s : State) (e key f : Nat) : (s.mapPage e key f).fabric = s.fabric := by 
  unfold State.mapPage
  rfl
@[simp] theorem State.mapPage_prm (s : State) (e key f : Nat) : (s.mapPage e key f).prm = s.prm := by 
  unfold State.mapPage
  rfl
@[simp] theorem State.mapPage_ldr (s : State) (e key f : Nat) : (s.mapPage e key f).ldr = s.ldr := by 
  unfold State.mapPage
  rfl
@[simp] theorem State.mapPage_mbx (s : State) (e key f : Nat) : (s.mapPage e key f).mbx = s.mbx := by 
  unfold State.mapPage
  rfl
@[simp] theorem State.mapPage_pcie (s : State) (e key f : Nat) : (s.mapPage e key f).pcie = s.pcie := by 
  unfold State.mapPage
  rfl
@[simp] theorem State.mapPage_net (s : State) (e key f : Nat) : (s.mapPage e key f).net = s.net := by 
  unfold State.mapPage
  rfl
@[simp] theorem State.mapPage_boot (s : State) (e key f : Nat) : (s.mapPage e key f).boot = s.boot := by 
  unfold State.mapPage
  rfl
@[simp] theorem State.mapPage_pwr (s : State) (e key f : Nat) : (s.mapPage e key f).pwr = s.pwr := by 
  unfold State.mapPage
  rfl
@[simp] theorem State.mapPage_hkm (s : State) (e key f : Nat) : (s.mapPage e key f).hkm = s.hkm := by 
  unfold State.mapPage
  rfl
@[simp] theorem State.mapPage_integ (s : State) (e key f : Nat) : (s.mapPage e key f).integ = s.integ := by 
  unfold State.mapPage
  rfl
@[simp] theorem State.mapPage_ledger (s : State) (e key f : Nat) : (s.mapPage e key f).ledger = s.ledger := by 
  unfold State.mapPage
  rfl
@[simp] theorem State.mapPage_cnt (s : State) (e key f : Nat) : (s.mapPage e key f).cnt = s.cnt := by 
  unfold State.mapPage
  rfl
@[simp] theorem State.mapPage_outside (s : State) (e key f : Nat) : (s.mapPage e key f).outside = s.outside := by 
  unfold State.mapPage
  rfl
@[simp] theorem State.mapPage_calStart (s : State) (e key f : Nat) : (s.mapPage e key f).calStart = s.calStart := by 
  unfold State.mapPage
  rfl
@[simp] theorem State.mapPage_calReference (s : State) (e key f : Nat) : (s.mapPage e key f).calReference = s.calReference := by 
  unfold State.mapPage
  rfl
@[simp] theorem State.dropRefs_pending (s : State) (e : Nat) : (s.dropRefs e).pending = s.pending := by 
  unfold State.dropRefs
  split <;> simp
@[simp] theorem State.dropRefs_regs (s : State) (e : Nat) : (s.dropRefs e).regs = s.regs := by 
  unfold State.dropRefs
  split <;> simp
@[simp] theorem State.dropRefs_shadows (s : State) (e : Nat) : (s.dropRefs e).shadows = s.shadows := by 
  unfold State.dropRefs
  split <;> simp
@[simp] theorem State.dropRefs_tiles (s : State) (e : Nat) : (s.dropRefs e).tiles = s.tiles := by 
  unfold State.dropRefs
  split <;> simp
@[simp] theorem State.dropRefs_fabric (s : State) (e : Nat) : (s.dropRefs e).fabric = s.fabric := by 
  unfold State.dropRefs
  split <;> simp
@[simp] theorem State.dropRefs_ldr (s : State) (e : Nat) : (s.dropRefs e).ldr = s.ldr := by 
  unfold State.dropRefs
  split <;> simp
@[simp] theorem State.dropRefs_mbx (s : State) (e : Nat) : (s.dropRefs e).mbx = s.mbx := by 
  unfold State.dropRefs
  split <;> simp
@[simp] theorem State.dropRefs_pcie (s : State) (e : Nat) : (s.dropRefs e).pcie = s.pcie := by 
  unfold State.dropRefs
  split <;> simp
@[simp] theorem State.dropRefs_net (s : State) (e : Nat) : (s.dropRefs e).net = s.net := by 
  unfold State.dropRefs
  split <;> simp
@[simp] theorem State.dropRefs_boot (s : State) (e : Nat) : (s.dropRefs e).boot = s.boot := by 
  unfold State.dropRefs
  split <;> simp
@[simp] theorem State.dropRefs_pwr (s : State) (e : Nat) : (s.dropRefs e).pwr = s.pwr := by 
  unfold State.dropRefs
  split <;> simp
@[simp] theorem State.dropRefs_hkm (s : State) (e : Nat) : (s.dropRefs e).hkm = s.hkm := by 
  unfold State.dropRefs
  split <;> simp
@[simp] theorem State.dropRefs_integ (s : State) (e : Nat) : (s.dropRefs e).integ = s.integ := by 
  unfold State.dropRefs
  split <;> simp
@[simp] theorem State.dropRefs_ledger (s : State) (e : Nat) : (s.dropRefs e).ledger = s.ledger := by 
  unfold State.dropRefs
  split <;> simp
@[simp] theorem State.dropRefs_cnt (s : State) (e : Nat) : (s.dropRefs e).cnt = s.cnt := by 
  unfold State.dropRefs
  split <;> simp
@[simp] theorem State.dropRefs_outside (s : State) (e : Nat) : (s.dropRefs e).outside = s.outside := by 
  unfold State.dropRefs
  split <;> simp
@[simp] theorem State.dropRefs_calStart (s : State) (e : Nat) : (s.dropRefs e).calStart = s.calStart := by 
  unfold State.dropRefs
  split <;> simp
@[simp] theorem State.dropRefs_calReference (s : State) (e : Nat) : (s.dropRefs e).calReference = s.calReference := by 
  unfold State.dropRefs
  split <;> simp
@[simp] theorem State.freeSeqFrames_pending (s : State) (e : Nat) : (s.freeSeqFrames e).pending = s.pending := by 
  simp [State.freeSeqFrames]
@[simp] theorem State.freeSeqFrames_regs (s : State) (e : Nat) : (s.freeSeqFrames e).regs = s.regs := by 
  simp [State.freeSeqFrames]
@[simp] theorem State.freeSeqFrames_shadows (s : State) (e : Nat) : (s.freeSeqFrames e).shadows = s.shadows := by 
  simp [State.freeSeqFrames]
@[simp] theorem State.freeSeqFrames_tiles (s : State) (e : Nat) : (s.freeSeqFrames e).tiles = s.tiles := by 
  simp [State.freeSeqFrames]
@[simp] theorem State.freeSeqFrames_fabric (s : State) (e : Nat) : (s.freeSeqFrames e).fabric = s.fabric := by 
  simp [State.freeSeqFrames]
@[simp] theorem State.freeSeqFrames_ldr (s : State) (e : Nat) : (s.freeSeqFrames e).ldr = s.ldr := by 
  simp [State.freeSeqFrames]
@[simp] theorem State.freeSeqFrames_mbx (s : State) (e : Nat) : (s.freeSeqFrames e).mbx = s.mbx := by 
  simp [State.freeSeqFrames]
@[simp] theorem State.freeSeqFrames_pcie (s : State) (e : Nat) : (s.freeSeqFrames e).pcie = s.pcie := by 
  simp [State.freeSeqFrames]
@[simp] theorem State.freeSeqFrames_net (s : State) (e : Nat) : (s.freeSeqFrames e).net = s.net := by 
  simp [State.freeSeqFrames]
@[simp] theorem State.freeSeqFrames_boot (s : State) (e : Nat) : (s.freeSeqFrames e).boot = s.boot := by 
  simp [State.freeSeqFrames]
@[simp] theorem State.freeSeqFrames_pwr (s : State) (e : Nat) : (s.freeSeqFrames e).pwr = s.pwr := by 
  simp [State.freeSeqFrames]
@[simp] theorem State.freeSeqFrames_hkm (s : State) (e : Nat) : (s.freeSeqFrames e).hkm = s.hkm := by 
  simp [State.freeSeqFrames]
@[simp] theorem State.freeSeqFrames_integ (s : State) (e : Nat) : (s.freeSeqFrames e).integ = s.integ := by 
  simp [State.freeSeqFrames]
@[simp] theorem State.freeSeqFrames_ledger (s : State) (e : Nat) : (s.freeSeqFrames e).ledger = s.ledger := by 
  simp [State.freeSeqFrames]
@[simp] theorem State.freeSeqFrames_outside (s : State) (e : Nat) : (s.freeSeqFrames e).outside = s.outside := by 
  simp [State.freeSeqFrames]
@[simp] theorem State.freeSeqFrames_calStart (s : State) (e : Nat) : (s.freeSeqFrames e).calStart = s.calStart := by 
  simp [State.freeSeqFrames]
@[simp] theorem State.freeSeqFrames_calReference (s : State) (e : Nat) : (s.freeSeqFrames e).calReference = s.calReference := by 
  simp [State.freeSeqFrames]
@[simp] theorem State.releaseSeq_pending (s : State) (e : Nat) : (s.releaseSeq e).pending = s.pending := by 
  simp [State.releaseSeq]
@[simp] theorem State.releaseSeq_regs (s : State) (e : Nat) : (s.releaseSeq e).regs = s.regs := by 
  simp [State.releaseSeq]
@[simp] theorem State.releaseSeq_shadows (s : State) (e : Nat) : (s.releaseSeq e).shadows = s.shadows := by 
  simp [State.releaseSeq]
@[simp] theorem State.releaseSeq_tiles (s : State) (e : Nat) : (s.releaseSeq e).tiles = s.tiles := by 
  simp [State.releaseSeq]
@[simp] theorem State.releaseSeq_fabric (s : State) (e : Nat) : (s.releaseSeq e).fabric = s.fabric := by 
  simp [State.releaseSeq]
@[simp] theorem State.releaseSeq_ldr (s : State) (e : Nat) : (s.releaseSeq e).ldr = s.ldr := by 
  simp [State.releaseSeq]
@[simp] theorem State.releaseSeq_mbx (s : State) (e : Nat) : (s.releaseSeq e).mbx = s.mbx := by 
  simp [State.releaseSeq]
@[simp] theorem State.releaseSeq_pcie (s : State) (e : Nat) : (s.releaseSeq e).pcie = s.pcie := by 
  simp [State.releaseSeq]
@[simp] theorem State.releaseSeq_net (s : State) (e : Nat) : (s.releaseSeq e).net = s.net := by 
  simp [State.releaseSeq]
@[simp] theorem State.releaseSeq_boot (s : State) (e : Nat) : (s.releaseSeq e).boot = s.boot := by 
  simp [State.releaseSeq]
@[simp] theorem State.releaseSeq_pwr (s : State) (e : Nat) : (s.releaseSeq e).pwr = s.pwr := by 
  simp [State.releaseSeq]
@[simp] theorem State.releaseSeq_hkm (s : State) (e : Nat) : (s.releaseSeq e).hkm = s.hkm := by 
  simp [State.releaseSeq]
@[simp] theorem State.releaseSeq_integ (s : State) (e : Nat) : (s.releaseSeq e).integ = s.integ := by 
  simp [State.releaseSeq]
@[simp] theorem State.releaseSeq_ledger (s : State) (e : Nat) : (s.releaseSeq e).ledger = s.ledger := by 
  simp [State.releaseSeq]
@[simp] theorem State.releaseSeq_outside (s : State) (e : Nat) : (s.releaseSeq e).outside = s.outside := by 
  simp [State.releaseSeq]
@[simp] theorem State.releaseSeq_calStart (s : State) (e : Nat) : (s.releaseSeq e).calStart = s.calStart := by 
  simp [State.releaseSeq]
@[simp] theorem State.releaseSeq_calReference (s : State) (e : Nat) : (s.releaseSeq e).calReference = s.calReference := by 
  simp [State.releaseSeq]
@[simp] theorem State.seqRecord_pending (s : State) (e kind : Nat) (st : Status) (count : Nat) (final : Bool) (reason firstPos : Nat) (rest : List Byte) : (s.seqRecord e kind st count final reason firstPos rest).pending = s.pending := by 
  unfold State.seqRecord
  split <;> simp
@[simp] theorem State.seqRecord_shadows (s : State) (e kind : Nat) (st : Status) (count : Nat) (final : Bool) (reason firstPos : Nat) (rest : List Byte) : (s.seqRecord e kind st count final reason firstPos rest).shadows = s.shadows := by 
  unfold State.seqRecord
  split <;> simp
@[simp] theorem State.seqRecord_tiles (s : State) (e kind : Nat) (st : Status) (count : Nat) (final : Bool) (reason firstPos : Nat) (rest : List Byte) : (s.seqRecord e kind st count final reason firstPos rest).tiles = s.tiles := by 
  unfold State.seqRecord
  split <;> simp
@[simp] theorem State.seqRecord_fabric (s : State) (e kind : Nat) (st : Status) (count : Nat) (final : Bool) (reason firstPos : Nat) (rest : List Byte) : (s.seqRecord e kind st count final reason firstPos rest).fabric = s.fabric := by 
  unfold State.seqRecord
  split <;> simp
@[simp] theorem State.seqRecord_kv (s : State) (e kind : Nat) (st : Status) (count : Nat) (final : Bool) (reason firstPos : Nat) (rest : List Byte) : (s.seqRecord e kind st count final reason firstPos rest).kv = s.kv := by 
  unfold State.seqRecord
  split <;> simp
@[simp] theorem State.seqRecord_prm (s : State) (e kind : Nat) (st : Status) (count : Nat) (final : Bool) (reason firstPos : Nat) (rest : List Byte) : (s.seqRecord e kind st count final reason firstPos rest).prm = s.prm := by 
  unfold State.seqRecord
  split <;> simp
@[simp] theorem State.seqRecord_ldr (s : State) (e kind : Nat) (st : Status) (count : Nat) (final : Bool) (reason firstPos : Nat) (rest : List Byte) : (s.seqRecord e kind st count final reason firstPos rest).ldr = s.ldr := by 
  unfold State.seqRecord
  split <;> simp
@[simp] theorem State.seqRecord_pcie (s : State) (e kind : Nat) (st : Status) (count : Nat) (final : Bool) (reason firstPos : Nat) (rest : List Byte) : (s.seqRecord e kind st count final reason firstPos rest).pcie = s.pcie := by 
  unfold State.seqRecord
  split <;> simp
@[simp] theorem State.seqRecord_net (s : State) (e kind : Nat) (st : Status) (count : Nat) (final : Bool) (reason firstPos : Nat) (rest : List Byte) : (s.seqRecord e kind st count final reason firstPos rest).net = s.net := by 
  unfold State.seqRecord
  split <;> simp
@[simp] theorem State.seqRecord_boot (s : State) (e kind : Nat) (st : Status) (count : Nat) (final : Bool) (reason firstPos : Nat) (rest : List Byte) : (s.seqRecord e kind st count final reason firstPos rest).boot = s.boot := by 
  unfold State.seqRecord
  split <;> simp
@[simp] theorem State.seqRecord_pwr (s : State) (e kind : Nat) (st : Status) (count : Nat) (final : Bool) (reason firstPos : Nat) (rest : List Byte) : (s.seqRecord e kind st count final reason firstPos rest).pwr = s.pwr := by 
  unfold State.seqRecord
  split <;> simp
@[simp] theorem State.seqRecord_hkm (s : State) (e kind : Nat) (st : Status) (count : Nat) (final : Bool) (reason firstPos : Nat) (rest : List Byte) : (s.seqRecord e kind st count final reason firstPos rest).hkm = s.hkm := by 
  unfold State.seqRecord
  split <;> simp
@[simp] theorem State.seqRecord_integ (s : State) (e kind : Nat) (st : Status) (count : Nat) (final : Bool) (reason firstPos : Nat) (rest : List Byte) : (s.seqRecord e kind st count final reason firstPos rest).integ = s.integ := by 
  unfold State.seqRecord
  split <;> simp
@[simp] theorem State.seqRecord_ledger (s : State) (e kind : Nat) (st : Status) (count : Nat) (final : Bool) (reason firstPos : Nat) (rest : List Byte) : (s.seqRecord e kind st count final reason firstPos rest).ledger = s.ledger := by 
  unfold State.seqRecord
  split <;> simp
@[simp] theorem State.seqRecord_outside (s : State) (e kind : Nat) (st : Status) (count : Nat) (final : Bool) (reason firstPos : Nat) (rest : List Byte) : (s.seqRecord e kind st count final reason firstPos rest).outside = s.outside := by 
  unfold State.seqRecord
  split <;> simp
@[simp] theorem State.seqRecord_calStart (s : State) (e kind : Nat) (st : Status) (count : Nat) (final : Bool) (reason firstPos : Nat) (rest : List Byte) : (s.seqRecord e kind st count final reason firstPos rest).calStart = s.calStart := by 
  unfold State.seqRecord
  split <;> simp
@[simp] theorem State.seqRecord_calReference (s : State) (e kind : Nat) (st : Status) (count : Nat) (final : Bool) (reason firstPos : Nat) (rest : List Byte) : (s.seqRecord e kind st count final reason firstPos rest).calReference = s.calReference := by 
  unfold State.seqRecord
  split <;> simp
@[simp] theorem State.failSeq_pending (s : State) (e : Nat) (st : Status) : (s.failSeq e st).pending = s.pending := by 
  simp [State.failSeq]
@[simp] theorem State.failSeq_shadows (s : State) (e : Nat) (st : Status) : (s.failSeq e st).shadows = s.shadows := by 
  simp [State.failSeq]
@[simp] theorem State.failSeq_tiles (s : State) (e : Nat) (st : Status) : (s.failSeq e st).tiles = s.tiles := by 
  simp [State.failSeq]
@[simp] theorem State.failSeq_fabric (s : State) (e : Nat) (st : Status) : (s.failSeq e st).fabric = s.fabric := by 
  simp [State.failSeq]
@[simp] theorem State.failSeq_ldr (s : State) (e : Nat) (st : Status) : (s.failSeq e st).ldr = s.ldr := by 
  simp [State.failSeq]
@[simp] theorem State.failSeq_pcie (s : State) (e : Nat) (st : Status) : (s.failSeq e st).pcie = s.pcie := by 
  simp [State.failSeq]
@[simp] theorem State.failSeq_net (s : State) (e : Nat) (st : Status) : (s.failSeq e st).net = s.net := by 
  simp [State.failSeq]
@[simp] theorem State.failSeq_boot (s : State) (e : Nat) (st : Status) : (s.failSeq e st).boot = s.boot := by 
  simp [State.failSeq]
@[simp] theorem State.failSeq_pwr (s : State) (e : Nat) (st : Status) : (s.failSeq e st).pwr = s.pwr := by 
  simp [State.failSeq]
@[simp] theorem State.failSeq_hkm (s : State) (e : Nat) (st : Status) : (s.failSeq e st).hkm = s.hkm := by 
  simp [State.failSeq]
@[simp] theorem State.failSeq_integ (s : State) (e : Nat) (st : Status) : (s.failSeq e st).integ = s.integ := by 
  simp [State.failSeq]
@[simp] theorem State.failSeq_ledger (s : State) (e : Nat) (st : Status) : (s.failSeq e st).ledger = s.ledger := by 
  simp [State.failSeq]
@[simp] theorem State.failSeq_outside (s : State) (e : Nat) (st : Status) : (s.failSeq e st).outside = s.outside := by 
  simp [State.failSeq]
@[simp] theorem State.failSeq_calStart (s : State) (e : Nat) (st : Status) : (s.failSeq e st).calStart = s.calStart := by 
  simp [State.failSeq]
@[simp] theorem State.failSeq_calReference (s : State) (e : Nat) (st : Status) : (s.failSeq e st).calReference = s.calReference := by 
  simp [State.failSeq]
@[simp] theorem State.failScenes_pending (s : State) (p : Nat → Bool) (source : Nat) : (s.failScenes p source).pending = s.pending := by 
  unfold State.failScenes
  rfl
@[simp] theorem State.failScenes_regs (s : State) (p : Nat → Bool) (source : Nat) : (s.failScenes p source).regs = s.regs := by 
  unfold State.failScenes
  rfl
@[simp] theorem State.failScenes_shadows (s : State) (p : Nat → Bool) (source : Nat) : (s.failScenes p source).shadows = s.shadows := by 
  unfold State.failScenes
  rfl
@[simp] theorem State.failScenes_tiles (s : State) (p : Nat → Bool) (source : Nat) : (s.failScenes p source).tiles = s.tiles := by 
  unfold State.failScenes
  rfl
@[simp] theorem State.failScenes_fabric (s : State) (p : Nat → Bool) (source : Nat) : (s.failScenes p source).fabric = s.fabric := by 
  unfold State.failScenes
  rfl
@[simp] theorem State.failScenes_kv (s : State) (p : Nat → Bool) (source : Nat) : (s.failScenes p source).kv = s.kv := by 
  unfold State.failScenes
  rfl
@[simp] theorem State.failScenes_ldr (s : State) (p : Nat → Bool) (source : Nat) : (s.failScenes p source).ldr = s.ldr := by 
  unfold State.failScenes
  rfl
@[simp] theorem State.failScenes_mbx (s : State) (p : Nat → Bool) (source : Nat) : (s.failScenes p source).mbx = s.mbx := by 
  unfold State.failScenes
  rfl
@[simp] theorem State.failScenes_pcie (s : State) (p : Nat → Bool) (source : Nat) : (s.failScenes p source).pcie = s.pcie := by 
  unfold State.failScenes
  rfl
@[simp] theorem State.failScenes_net (s : State) (p : Nat → Bool) (source : Nat) : (s.failScenes p source).net = s.net := by 
  unfold State.failScenes
  rfl
@[simp] theorem State.failScenes_boot (s : State) (p : Nat → Bool) (source : Nat) : (s.failScenes p source).boot = s.boot := by 
  unfold State.failScenes
  rfl
@[simp] theorem State.failScenes_pwr (s : State) (p : Nat → Bool) (source : Nat) : (s.failScenes p source).pwr = s.pwr := by 
  unfold State.failScenes
  rfl
@[simp] theorem State.failScenes_hkm (s : State) (p : Nat → Bool) (source : Nat) : (s.failScenes p source).hkm = s.hkm := by 
  unfold State.failScenes
  rfl
@[simp] theorem State.failScenes_integ (s : State) (p : Nat → Bool) (source : Nat) : (s.failScenes p source).integ = s.integ := by 
  unfold State.failScenes
  rfl
@[simp] theorem State.failScenes_ledger (s : State) (p : Nat → Bool) (source : Nat) : (s.failScenes p source).ledger = s.ledger := by 
  unfold State.failScenes
  rfl
@[simp] theorem State.failScenes_outside (s : State) (p : Nat → Bool) (source : Nat) : (s.failScenes p source).outside = s.outside := by 
  unfold State.failScenes
  rfl
@[simp] theorem State.failScenes_calStart (s : State) (p : Nat → Bool) (source : Nat) : (s.failScenes p source).calStart = s.calStart := by 
  unfold State.failScenes
  rfl
@[simp] theorem State.failScenes_calReference (s : State) (p : Nat → Bool) (source : Nat) : (s.failScenes p source).calReference = s.calReference := by 
  unfold State.failScenes
  rfl
@[simp] theorem State.elapse_pending (s : State) (us : Nat) : (s.elapse us).pending = s.pending := by 
  unfold State.elapse
  rfl
@[simp] theorem State.elapse_regs (s : State) (us : Nat) : (s.elapse us).regs = s.regs := by 
  unfold State.elapse
  rfl
@[simp] theorem State.elapse_shadows (s : State) (us : Nat) : (s.elapse us).shadows = s.shadows := by 
  unfold State.elapse
  rfl
@[simp] theorem State.elapse_fabric (s : State) (us : Nat) : (s.elapse us).fabric = s.fabric := by 
  unfold State.elapse
  rfl
@[simp] theorem State.elapse_kv (s : State) (us : Nat) : (s.elapse us).kv = s.kv := by 
  unfold State.elapse
  rfl
@[simp] theorem State.elapse_prm (s : State) (us : Nat) : (s.elapse us).prm = s.prm := by 
  unfold State.elapse
  rfl
@[simp] theorem State.elapse_ldr (s : State) (us : Nat) : (s.elapse us).ldr = s.ldr := by 
  unfold State.elapse
  rfl
@[simp] theorem State.elapse_mbx (s : State) (us : Nat) : (s.elapse us).mbx = s.mbx := by 
  unfold State.elapse
  rfl
@[simp] theorem State.elapse_pcie (s : State) (us : Nat) : (s.elapse us).pcie = s.pcie := by 
  unfold State.elapse
  rfl
@[simp] theorem State.elapse_boot (s : State) (us : Nat) : (s.elapse us).boot = s.boot := by 
  unfold State.elapse
  rfl
@[simp] theorem State.elapse_pwr (s : State) (us : Nat) : (s.elapse us).pwr = s.pwr := by 
  unfold State.elapse
  rfl
@[simp] theorem State.elapse_hkm (s : State) (us : Nat) : (s.elapse us).hkm = s.hkm := by 
  unfold State.elapse
  rfl
@[simp] theorem State.elapse_ledger (s : State) (us : Nat) : (s.elapse us).ledger = s.ledger := by 
  unfold State.elapse
  rfl
@[simp] theorem State.elapse_cnt (s : State) (us : Nat) : (s.elapse us).cnt = s.cnt := by 
  unfold State.elapse
  rfl
@[simp] theorem State.elapse_outside (s : State) (us : Nat) : (s.elapse us).outside = s.outside := by 
  unfold State.elapse
  rfl
@[simp] theorem State.elapse_calStart (s : State) (us : Nat) : (s.elapse us).calStart = s.calStart := by 
  unfold State.elapse
  rfl
@[simp] theorem State.elapse_calReference (s : State) (us : Nat) : (s.elapse us).calReference = s.calReference := by 
  unfold State.elapse
  rfl
@[simp] theorem State.ledgerWrite_pending (s : State) (kind sensor reading : Nat) (rest : List Byte) : (s.ledgerWrite kind sensor reading rest).pending = s.pending := by 
  simp [State.ledgerWrite]
@[simp] theorem State.ledgerWrite_regs (s : State) (kind sensor reading : Nat) (rest : List Byte) : (s.ledgerWrite kind sensor reading rest).regs = s.regs := by 
  simp [State.ledgerWrite]
@[simp] theorem State.ledgerWrite_shadows (s : State) (kind sensor reading : Nat) (rest : List Byte) : (s.ledgerWrite kind sensor reading rest).shadows = s.shadows := by 
  simp [State.ledgerWrite]
@[simp] theorem State.ledgerWrite_tiles (s : State) (kind sensor reading : Nat) (rest : List Byte) : (s.ledgerWrite kind sensor reading rest).tiles = s.tiles := by 
  simp [State.ledgerWrite]
@[simp] theorem State.ledgerWrite_fabric (s : State) (kind sensor reading : Nat) (rest : List Byte) : (s.ledgerWrite kind sensor reading rest).fabric = s.fabric := by 
  simp [State.ledgerWrite]
@[simp] theorem State.ledgerWrite_kv (s : State) (kind sensor reading : Nat) (rest : List Byte) : (s.ledgerWrite kind sensor reading rest).kv = s.kv := by 
  simp [State.ledgerWrite]
@[simp] theorem State.ledgerWrite_prm (s : State) (kind sensor reading : Nat) (rest : List Byte) : (s.ledgerWrite kind sensor reading rest).prm = s.prm := by 
  simp [State.ledgerWrite]
@[simp] theorem State.ledgerWrite_ldr (s : State) (kind sensor reading : Nat) (rest : List Byte) : (s.ledgerWrite kind sensor reading rest).ldr = s.ldr := by 
  simp [State.ledgerWrite]
@[simp] theorem State.ledgerWrite_mbx (s : State) (kind sensor reading : Nat) (rest : List Byte) : (s.ledgerWrite kind sensor reading rest).mbx = s.mbx := by 
  simp [State.ledgerWrite]
@[simp] theorem State.ledgerWrite_pcie (s : State) (kind sensor reading : Nat) (rest : List Byte) : (s.ledgerWrite kind sensor reading rest).pcie = s.pcie := by 
  simp [State.ledgerWrite]
@[simp] theorem State.ledgerWrite_net (s : State) (kind sensor reading : Nat) (rest : List Byte) : (s.ledgerWrite kind sensor reading rest).net = s.net := by 
  simp [State.ledgerWrite]
@[simp] theorem State.ledgerWrite_boot (s : State) (kind sensor reading : Nat) (rest : List Byte) : (s.ledgerWrite kind sensor reading rest).boot = s.boot := by 
  simp [State.ledgerWrite]
@[simp] theorem State.ledgerWrite_pwr (s : State) (kind sensor reading : Nat) (rest : List Byte) : (s.ledgerWrite kind sensor reading rest).pwr = s.pwr := by 
  simp [State.ledgerWrite]
@[simp] theorem State.ledgerWrite_hkm (s : State) (kind sensor reading : Nat) (rest : List Byte) : (s.ledgerWrite kind sensor reading rest).hkm = s.hkm := by 
  simp [State.ledgerWrite]
@[simp] theorem State.ledgerWrite_integ (s : State) (kind sensor reading : Nat) (rest : List Byte) : (s.ledgerWrite kind sensor reading rest).integ = s.integ := by 
  simp [State.ledgerWrite]
@[simp] theorem State.ledgerWrite_cnt (s : State) (kind sensor reading : Nat) (rest : List Byte) : (s.ledgerWrite kind sensor reading rest).cnt = s.cnt := by 
  simp [State.ledgerWrite]
@[simp] theorem State.ledgerWrite_outside (s : State) (kind sensor reading : Nat) (rest : List Byte) : (s.ledgerWrite kind sensor reading rest).outside = s.outside := by 
  simp [State.ledgerWrite]
@[simp] theorem State.ledgerWrite_calStart (s : State) (kind sensor reading : Nat) (rest : List Byte) : (s.ledgerWrite kind sensor reading rest).calStart = s.calStart := by 
  simp [State.ledgerWrite]
@[simp] theorem State.ledgerWrite_calReference (s : State) (kind sensor reading : Nat) (rest : List Byte) : (s.ledgerWrite kind sensor reading rest).calReference = s.calReference := by 
  simp [State.ledgerWrite]
@[simp] theorem State.ledgerEvent_pending (s : State) (kind : Nat) (rest : List Byte) : (s.ledgerEvent kind rest).pending = s.pending := by 
  simp [State.ledgerEvent]
@[simp] theorem State.ledgerEvent_regs (s : State) (kind : Nat) (rest : List Byte) : (s.ledgerEvent kind rest).regs = s.regs := by 
  simp [State.ledgerEvent]
@[simp] theorem State.ledgerEvent_shadows (s : State) (kind : Nat) (rest : List Byte) : (s.ledgerEvent kind rest).shadows = s.shadows := by 
  simp [State.ledgerEvent]
@[simp] theorem State.ledgerEvent_tiles (s : State) (kind : Nat) (rest : List Byte) : (s.ledgerEvent kind rest).tiles = s.tiles := by 
  simp [State.ledgerEvent]
@[simp] theorem State.ledgerEvent_fabric (s : State) (kind : Nat) (rest : List Byte) : (s.ledgerEvent kind rest).fabric = s.fabric := by 
  simp [State.ledgerEvent]
@[simp] theorem State.ledgerEvent_kv (s : State) (kind : Nat) (rest : List Byte) : (s.ledgerEvent kind rest).kv = s.kv := by 
  simp [State.ledgerEvent]
@[simp] theorem State.ledgerEvent_prm (s : State) (kind : Nat) (rest : List Byte) : (s.ledgerEvent kind rest).prm = s.prm := by 
  simp [State.ledgerEvent]
@[simp] theorem State.ledgerEvent_ldr (s : State) (kind : Nat) (rest : List Byte) : (s.ledgerEvent kind rest).ldr = s.ldr := by 
  simp [State.ledgerEvent]
@[simp] theorem State.ledgerEvent_mbx (s : State) (kind : Nat) (rest : List Byte) : (s.ledgerEvent kind rest).mbx = s.mbx := by 
  simp [State.ledgerEvent]
@[simp] theorem State.ledgerEvent_pcie (s : State) (kind : Nat) (rest : List Byte) : (s.ledgerEvent kind rest).pcie = s.pcie := by 
  simp [State.ledgerEvent]
@[simp] theorem State.ledgerEvent_net (s : State) (kind : Nat) (rest : List Byte) : (s.ledgerEvent kind rest).net = s.net := by 
  simp [State.ledgerEvent]
@[simp] theorem State.ledgerEvent_boot (s : State) (kind : Nat) (rest : List Byte) : (s.ledgerEvent kind rest).boot = s.boot := by 
  simp [State.ledgerEvent]
@[simp] theorem State.ledgerEvent_pwr (s : State) (kind : Nat) (rest : List Byte) : (s.ledgerEvent kind rest).pwr = s.pwr := by 
  simp [State.ledgerEvent]
@[simp] theorem State.ledgerEvent_hkm (s : State) (kind : Nat) (rest : List Byte) : (s.ledgerEvent kind rest).hkm = s.hkm := by 
  simp [State.ledgerEvent]
@[simp] theorem State.ledgerEvent_integ (s : State) (kind : Nat) (rest : List Byte) : (s.ledgerEvent kind rest).integ = s.integ := by 
  simp [State.ledgerEvent]
@[simp] theorem State.ledgerEvent_cnt (s : State) (kind : Nat) (rest : List Byte) : (s.ledgerEvent kind rest).cnt = s.cnt := by 
  simp [State.ledgerEvent]
@[simp] theorem State.ledgerEvent_outside (s : State) (kind : Nat) (rest : List Byte) : (s.ledgerEvent kind rest).outside = s.outside := by 
  simp [State.ledgerEvent]
@[simp] theorem State.ledgerEvent_calStart (s : State) (kind : Nat) (rest : List Byte) : (s.ledgerEvent kind rest).calStart = s.calStart := by 
  simp [State.ledgerEvent]
@[simp] theorem State.ledgerEvent_calReference (s : State) (kind : Nat) (rest : List Byte) : (s.ledgerEvent kind rest).calReference = s.calReference := by 
  simp [State.ledgerEvent]
@[simp] theorem State.tuneRecord_pending (s : State) (isStep auto : Bool) (row old new : Nat) : (s.tuneRecord isStep auto row old new).pending = s.pending := by 
  simp [State.tuneRecord]
@[simp] theorem State.tuneRecord_regs (s : State) (isStep auto : Bool) (row old new : Nat) : (s.tuneRecord isStep auto row old new).regs = s.regs := by 
  simp [State.tuneRecord]
@[simp] theorem State.tuneRecord_shadows (s : State) (isStep auto : Bool) (row old new : Nat) : (s.tuneRecord isStep auto row old new).shadows = s.shadows := by 
  simp [State.tuneRecord]
@[simp] theorem State.tuneRecord_tiles (s : State) (isStep auto : Bool) (row old new : Nat) : (s.tuneRecord isStep auto row old new).tiles = s.tiles := by 
  simp [State.tuneRecord]
@[simp] theorem State.tuneRecord_fabric (s : State) (isStep auto : Bool) (row old new : Nat) : (s.tuneRecord isStep auto row old new).fabric = s.fabric := by 
  simp [State.tuneRecord]
@[simp] theorem State.tuneRecord_kv (s : State) (isStep auto : Bool) (row old new : Nat) : (s.tuneRecord isStep auto row old new).kv = s.kv := by 
  simp [State.tuneRecord]
@[simp] theorem State.tuneRecord_prm (s : State) (isStep auto : Bool) (row old new : Nat) : (s.tuneRecord isStep auto row old new).prm = s.prm := by 
  simp [State.tuneRecord]
@[simp] theorem State.tuneRecord_ldr (s : State) (isStep auto : Bool) (row old new : Nat) : (s.tuneRecord isStep auto row old new).ldr = s.ldr := by 
  simp [State.tuneRecord]
@[simp] theorem State.tuneRecord_mbx (s : State) (isStep auto : Bool) (row old new : Nat) : (s.tuneRecord isStep auto row old new).mbx = s.mbx := by 
  simp [State.tuneRecord]
@[simp] theorem State.tuneRecord_pcie (s : State) (isStep auto : Bool) (row old new : Nat) : (s.tuneRecord isStep auto row old new).pcie = s.pcie := by 
  simp [State.tuneRecord]
@[simp] theorem State.tuneRecord_net (s : State) (isStep auto : Bool) (row old new : Nat) : (s.tuneRecord isStep auto row old new).net = s.net := by 
  simp [State.tuneRecord]
@[simp] theorem State.tuneRecord_boot (s : State) (isStep auto : Bool) (row old new : Nat) : (s.tuneRecord isStep auto row old new).boot = s.boot := by 
  simp [State.tuneRecord]
@[simp] theorem State.tuneRecord_pwr (s : State) (isStep auto : Bool) (row old new : Nat) : (s.tuneRecord isStep auto row old new).pwr = s.pwr := by 
  simp [State.tuneRecord]
@[simp] theorem State.tuneRecord_hkm (s : State) (isStep auto : Bool) (row old new : Nat) : (s.tuneRecord isStep auto row old new).hkm = s.hkm := by 
  simp [State.tuneRecord]
@[simp] theorem State.tuneRecord_integ (s : State) (isStep auto : Bool) (row old new : Nat) : (s.tuneRecord isStep auto row old new).integ = s.integ := by 
  simp [State.tuneRecord]
@[simp] theorem State.tuneRecord_cnt (s : State) (isStep auto : Bool) (row old new : Nat) : (s.tuneRecord isStep auto row old new).cnt = s.cnt := by 
  simp [State.tuneRecord]
@[simp] theorem State.tuneRecord_outside (s : State) (isStep auto : Bool) (row old new : Nat) : (s.tuneRecord isStep auto row old new).outside = s.outside := by 
  simp [State.tuneRecord]
@[simp] theorem State.tuneRecord_calStart (s : State) (isStep auto : Bool) (row old new : Nat) : (s.tuneRecord isStep auto row old new).calStart = s.calStart := by 
  simp [State.tuneRecord]
@[simp] theorem State.tuneRecord_calReference (s : State) (isStep auto : Bool) (row old new : Nat) : (s.tuneRecord isStep auto row old new).calReference = s.calReference := by 
  simp [State.tuneRecord]
@[simp] theorem State.beginStep_pending (s : State) (target : Nat) (job : Option Nat) : (s.beginStep target job).pending = s.pending := by 
  unfold State.beginStep
  rfl
@[simp] theorem State.beginStep_regs (s : State) (target : Nat) (job : Option Nat) : (s.beginStep target job).regs = s.regs := by 
  unfold State.beginStep
  rfl
@[simp] theorem State.beginStep_shadows (s : State) (target : Nat) (job : Option Nat) : (s.beginStep target job).shadows = s.shadows := by 
  unfold State.beginStep
  rfl
@[simp] theorem State.beginStep_tiles (s : State) (target : Nat) (job : Option Nat) : (s.beginStep target job).tiles = s.tiles := by 
  unfold State.beginStep
  rfl
@[simp] theorem State.beginStep_fabric (s : State) (target : Nat) (job : Option Nat) : (s.beginStep target job).fabric = s.fabric := by 
  unfold State.beginStep
  rfl
@[simp] theorem State.beginStep_kv (s : State) (target : Nat) (job : Option Nat) : (s.beginStep target job).kv = s.kv := by 
  unfold State.beginStep
  rfl
@[simp] theorem State.beginStep_prm (s : State) (target : Nat) (job : Option Nat) : (s.beginStep target job).prm = s.prm := by 
  unfold State.beginStep
  rfl
@[simp] theorem State.beginStep_ldr (s : State) (target : Nat) (job : Option Nat) : (s.beginStep target job).ldr = s.ldr := by 
  unfold State.beginStep
  rfl
@[simp] theorem State.beginStep_mbx (s : State) (target : Nat) (job : Option Nat) : (s.beginStep target job).mbx = s.mbx := by 
  unfold State.beginStep
  rfl
@[simp] theorem State.beginStep_pcie (s : State) (target : Nat) (job : Option Nat) : (s.beginStep target job).pcie = s.pcie := by 
  unfold State.beginStep
  rfl
@[simp] theorem State.beginStep_net (s : State) (target : Nat) (job : Option Nat) : (s.beginStep target job).net = s.net := by 
  unfold State.beginStep
  rfl
@[simp] theorem State.beginStep_boot (s : State) (target : Nat) (job : Option Nat) : (s.beginStep target job).boot = s.boot := by 
  unfold State.beginStep
  rfl
@[simp] theorem State.beginStep_hkm (s : State) (target : Nat) (job : Option Nat) : (s.beginStep target job).hkm = s.hkm := by 
  unfold State.beginStep
  rfl
@[simp] theorem State.beginStep_integ (s : State) (target : Nat) (job : Option Nat) : (s.beginStep target job).integ = s.integ := by 
  unfold State.beginStep
  rfl
@[simp] theorem State.beginStep_ledger (s : State) (target : Nat) (job : Option Nat) : (s.beginStep target job).ledger = s.ledger := by 
  unfold State.beginStep
  rfl
@[simp] theorem State.beginStep_cnt (s : State) (target : Nat) (job : Option Nat) : (s.beginStep target job).cnt = s.cnt := by 
  unfold State.beginStep
  rfl
@[simp] theorem State.beginStep_outside (s : State) (target : Nat) (job : Option Nat) : (s.beginStep target job).outside = s.outside := by 
  unfold State.beginStep
  rfl
@[simp] theorem State.beginStep_calStart (s : State) (target : Nat) (job : Option Nat) : (s.beginStep target job).calStart = s.calStart := by 
  unfold State.beginStep
  rfl
@[simp] theorem State.beginStep_calReference (s : State) (target : Nat) (job : Option Nat) : (s.beginStep target job).calReference = s.calReference := by 
  unfold State.beginStep
  rfl
@[simp] theorem State.compensatePass_pending (s : State) (half : Nat) : (s.compensatePass half).pending = s.pending := by 
  unfold State.compensatePass
  rfl
@[simp] theorem State.compensatePass_regs (s : State) (half : Nat) : (s.compensatePass half).regs = s.regs := by 
  unfold State.compensatePass
  rfl
@[simp] theorem State.compensatePass_shadows (s : State) (half : Nat) : (s.compensatePass half).shadows = s.shadows := by 
  unfold State.compensatePass
  rfl
@[simp] theorem State.compensatePass_tiles (s : State) (half : Nat) : (s.compensatePass half).tiles = s.tiles := by 
  unfold State.compensatePass
  rfl
@[simp] theorem State.compensatePass_fabric (s : State) (half : Nat) : (s.compensatePass half).fabric = s.fabric := by 
  unfold State.compensatePass
  rfl
@[simp] theorem State.compensatePass_kv (s : State) (half : Nat) : (s.compensatePass half).kv = s.kv := by 
  unfold State.compensatePass
  rfl
@[simp] theorem State.compensatePass_prm (s : State) (half : Nat) : (s.compensatePass half).prm = s.prm := by 
  unfold State.compensatePass
  rfl
@[simp] theorem State.compensatePass_ldr (s : State) (half : Nat) : (s.compensatePass half).ldr = s.ldr := by 
  unfold State.compensatePass
  rfl
@[simp] theorem State.compensatePass_mbx (s : State) (half : Nat) : (s.compensatePass half).mbx = s.mbx := by 
  unfold State.compensatePass
  rfl
@[simp] theorem State.compensatePass_pcie (s : State) (half : Nat) : (s.compensatePass half).pcie = s.pcie := by 
  unfold State.compensatePass
  rfl
@[simp] theorem State.compensatePass_net (s : State) (half : Nat) : (s.compensatePass half).net = s.net := by 
  unfold State.compensatePass
  rfl
@[simp] theorem State.compensatePass_boot (s : State) (half : Nat) : (s.compensatePass half).boot = s.boot := by 
  unfold State.compensatePass
  rfl
@[simp] theorem State.compensatePass_hkm (s : State) (half : Nat) : (s.compensatePass half).hkm = s.hkm := by 
  unfold State.compensatePass
  rfl
@[simp] theorem State.compensatePass_integ (s : State) (half : Nat) : (s.compensatePass half).integ = s.integ := by 
  unfold State.compensatePass
  rfl
@[simp] theorem State.compensatePass_ledger (s : State) (half : Nat) : (s.compensatePass half).ledger = s.ledger := by 
  unfold State.compensatePass
  rfl
@[simp] theorem State.compensatePass_cnt (s : State) (half : Nat) : (s.compensatePass half).cnt = s.cnt := by 
  unfold State.compensatePass
  rfl
@[simp] theorem State.compensatePass_outside (s : State) (half : Nat) : (s.compensatePass half).outside = s.outside := by 
  unfold State.compensatePass
  rfl
@[simp] theorem State.compensatePass_calStart (s : State) (half : Nat) : (s.compensatePass half).calStart = s.calStart := by 
  unfold State.compensatePass
  rfl
@[simp] theorem State.compensatePass_calReference (s : State) (half : Nat) : (s.compensatePass half).calReference = s.calReference := by 
  unfold State.compensatePass
  rfl
@[simp] theorem State.takePhase_pending (s : State) (tag : Nat) : (s.takePhase tag).pending = s.pending := by 
  simp [State.takePhase]
@[simp] theorem State.takePhase_regs (s : State) (tag : Nat) : (s.takePhase tag).regs = s.regs := by 
  simp [State.takePhase]
@[simp] theorem State.takePhase_shadows (s : State) (tag : Nat) : (s.takePhase tag).shadows = s.shadows := by 
  simp [State.takePhase]
@[simp] theorem State.takePhase_tiles (s : State) (tag : Nat) : (s.takePhase tag).tiles = s.tiles := by 
  simp [State.takePhase]
@[simp] theorem State.takePhase_kv (s : State) (tag : Nat) : (s.takePhase tag).kv = s.kv := by 
  simp [State.takePhase]
@[simp] theorem State.takePhase_prm (s : State) (tag : Nat) : (s.takePhase tag).prm = s.prm := by 
  simp [State.takePhase]
@[simp] theorem State.takePhase_ldr (s : State) (tag : Nat) : (s.takePhase tag).ldr = s.ldr := by 
  simp [State.takePhase]
@[simp] theorem State.takePhase_mbx (s : State) (tag : Nat) : (s.takePhase tag).mbx = s.mbx := by 
  simp [State.takePhase]
@[simp] theorem State.takePhase_pcie (s : State) (tag : Nat) : (s.takePhase tag).pcie = s.pcie := by 
  simp [State.takePhase]
@[simp] theorem State.takePhase_net (s : State) (tag : Nat) : (s.takePhase tag).net = s.net := by 
  simp [State.takePhase]
@[simp] theorem State.takePhase_boot (s : State) (tag : Nat) : (s.takePhase tag).boot = s.boot := by 
  simp [State.takePhase]
@[simp] theorem State.takePhase_hkm (s : State) (tag : Nat) : (s.takePhase tag).hkm = s.hkm := by 
  simp [State.takePhase]
@[simp] theorem State.takePhase_integ (s : State) (tag : Nat) : (s.takePhase tag).integ = s.integ := by 
  simp [State.takePhase]
@[simp] theorem State.takePhase_ledger (s : State) (tag : Nat) : (s.takePhase tag).ledger = s.ledger := by 
  simp [State.takePhase]
@[simp] theorem State.takePhase_cnt (s : State) (tag : Nat) : (s.takePhase tag).cnt = s.cnt := by 
  simp [State.takePhase]
@[simp] theorem State.takePhase_outside (s : State) (tag : Nat) : (s.takePhase tag).outside = s.outside := by 
  simp [State.takePhase]
@[simp] theorem State.takePhase_calStart (s : State) (tag : Nat) : (s.takePhase tag).calStart = s.calStart := by 
  simp [State.takePhase]
@[simp] theorem State.takePhase_calReference (s : State) (tag : Nat) : (s.takePhase tag).calReference = s.calReference := by 
  simp [State.takePhase]
@[simp] theorem State.snoop_pending (s : State) (e : Nat) (kinds : List (Nat × Option Nat)) (bs : List Byte) : (s.snoop e kinds bs).pending = s.pending := by 
  simp [State.snoop]
@[simp] theorem State.snoop_shadows (s : State) (e : Nat) (kinds : List (Nat × Option Nat)) (bs : List Byte) : (s.snoop e kinds bs).shadows = s.shadows := by 
  simp [State.snoop]
@[simp] theorem State.snoop_tiles (s : State) (e : Nat) (kinds : List (Nat × Option Nat)) (bs : List Byte) : (s.snoop e kinds bs).tiles = s.tiles := by 
  simp [State.snoop]
@[simp] theorem State.snoop_fabric (s : State) (e : Nat) (kinds : List (Nat × Option Nat)) (bs : List Byte) : (s.snoop e kinds bs).fabric = s.fabric := by 
  simp [State.snoop]
@[simp] theorem State.snoop_kv (s : State) (e : Nat) (kinds : List (Nat × Option Nat)) (bs : List Byte) : (s.snoop e kinds bs).kv = s.kv := by 
  simp [State.snoop]
@[simp] theorem State.snoop_prm (s : State) (e : Nat) (kinds : List (Nat × Option Nat)) (bs : List Byte) : (s.snoop e kinds bs).prm = s.prm := by 
  simp [State.snoop]
@[simp] theorem State.snoop_ldr (s : State) (e : Nat) (kinds : List (Nat × Option Nat)) (bs : List Byte) : (s.snoop e kinds bs).ldr = s.ldr := by 
  simp [State.snoop]
@[simp] theorem State.snoop_mbx (s : State) (e : Nat) (kinds : List (Nat × Option Nat)) (bs : List Byte) : (s.snoop e kinds bs).mbx = s.mbx := by 
  simp [State.snoop]
@[simp] theorem State.snoop_pcie (s : State) (e : Nat) (kinds : List (Nat × Option Nat)) (bs : List Byte) : (s.snoop e kinds bs).pcie = s.pcie := by 
  simp [State.snoop]
@[simp] theorem State.snoop_net (s : State) (e : Nat) (kinds : List (Nat × Option Nat)) (bs : List Byte) : (s.snoop e kinds bs).net = s.net := by 
  simp [State.snoop]
@[simp] theorem State.snoop_boot (s : State) (e : Nat) (kinds : List (Nat × Option Nat)) (bs : List Byte) : (s.snoop e kinds bs).boot = s.boot := by 
  simp [State.snoop]
@[simp] theorem State.snoop_pwr (s : State) (e : Nat) (kinds : List (Nat × Option Nat)) (bs : List Byte) : (s.snoop e kinds bs).pwr = s.pwr := by 
  simp [State.snoop]
@[simp] theorem State.snoop_hkm (s : State) (e : Nat) (kinds : List (Nat × Option Nat)) (bs : List Byte) : (s.snoop e kinds bs).hkm = s.hkm := by 
  simp [State.snoop]
@[simp] theorem State.snoop_integ (s : State) (e : Nat) (kinds : List (Nat × Option Nat)) (bs : List Byte) : (s.snoop e kinds bs).integ = s.integ := by 
  simp [State.snoop]
@[simp] theorem State.snoop_ledger (s : State) (e : Nat) (kinds : List (Nat × Option Nat)) (bs : List Byte) : (s.snoop e kinds bs).ledger = s.ledger := by 
  simp [State.snoop]
@[simp] theorem State.snoop_cnt (s : State) (e : Nat) (kinds : List (Nat × Option Nat)) (bs : List Byte) : (s.snoop e kinds bs).cnt = s.cnt := by 
  simp [State.snoop]
@[simp] theorem State.snoop_outside (s : State) (e : Nat) (kinds : List (Nat × Option Nat)) (bs : List Byte) : (s.snoop e kinds bs).outside = s.outside := by 
  simp [State.snoop]
@[simp] theorem State.snoop_calStart (s : State) (e : Nat) (kinds : List (Nat × Option Nat)) (bs : List Byte) : (s.snoop e kinds bs).calStart = s.calStart := by 
  simp [State.snoop]
@[simp] theorem State.snoop_calReference (s : State) (e : Nat) (kinds : List (Nat × Option Nat)) (bs : List Byte) : (s.snoop e kinds bs).calReference = s.calReference := by 
  simp [State.snoop]
@[simp] theorem State.dmaRead_pending (s : State) (tag : Nat) (bs : List Byte) : (s.dmaRead tag bs).pending = s.pending := by 
  simp [State.dmaRead]
@[simp] theorem State.dmaRead_shadows (s : State) (tag : Nat) (bs : List Byte) : (s.dmaRead tag bs).shadows = s.shadows := by 
  simp [State.dmaRead]
@[simp] theorem State.dmaRead_tiles (s : State) (tag : Nat) (bs : List Byte) : (s.dmaRead tag bs).tiles = s.tiles := by 
  simp [State.dmaRead]
@[simp] theorem State.dmaRead_fabric (s : State) (tag : Nat) (bs : List Byte) : (s.dmaRead tag bs).fabric = s.fabric := by 
  simp [State.dmaRead]
@[simp] theorem State.dmaRead_kv (s : State) (tag : Nat) (bs : List Byte) : (s.dmaRead tag bs).kv = s.kv := by 
  simp [State.dmaRead]
@[simp] theorem State.dmaRead_prm (s : State) (tag : Nat) (bs : List Byte) : (s.dmaRead tag bs).prm = s.prm := by 
  simp [State.dmaRead]
@[simp] theorem State.dmaRead_ldr (s : State) (tag : Nat) (bs : List Byte) : (s.dmaRead tag bs).ldr = s.ldr := by 
  simp [State.dmaRead]
@[simp] theorem State.dmaRead_mbx (s : State) (tag : Nat) (bs : List Byte) : (s.dmaRead tag bs).mbx = s.mbx := by 
  simp [State.dmaRead]
@[simp] theorem State.dmaRead_pcie (s : State) (tag : Nat) (bs : List Byte) : (s.dmaRead tag bs).pcie = s.pcie := by 
  simp [State.dmaRead]
@[simp] theorem State.dmaRead_net (s : State) (tag : Nat) (bs : List Byte) : (s.dmaRead tag bs).net = s.net := by 
  simp [State.dmaRead]
@[simp] theorem State.dmaRead_boot (s : State) (tag : Nat) (bs : List Byte) : (s.dmaRead tag bs).boot = s.boot := by 
  simp [State.dmaRead]
@[simp] theorem State.dmaRead_pwr (s : State) (tag : Nat) (bs : List Byte) : (s.dmaRead tag bs).pwr = s.pwr := by 
  simp [State.dmaRead]
@[simp] theorem State.dmaRead_hkm (s : State) (tag : Nat) (bs : List Byte) : (s.dmaRead tag bs).hkm = s.hkm := by 
  simp [State.dmaRead]
@[simp] theorem State.dmaRead_integ (s : State) (tag : Nat) (bs : List Byte) : (s.dmaRead tag bs).integ = s.integ := by 
  simp [State.dmaRead]
@[simp] theorem State.dmaRead_ledger (s : State) (tag : Nat) (bs : List Byte) : (s.dmaRead tag bs).ledger = s.ledger := by 
  simp [State.dmaRead]
@[simp] theorem State.dmaRead_cnt (s : State) (tag : Nat) (bs : List Byte) : (s.dmaRead tag bs).cnt = s.cnt := by 
  simp [State.dmaRead]
@[simp] theorem State.dmaRead_outside (s : State) (tag : Nat) (bs : List Byte) : (s.dmaRead tag bs).outside = s.outside := by 
  simp [State.dmaRead]
@[simp] theorem State.dmaRead_calStart (s : State) (tag : Nat) (bs : List Byte) : (s.dmaRead tag bs).calStart = s.calStart := by 
  simp [State.dmaRead]
@[simp] theorem State.dmaRead_calReference (s : State) (tag : Nat) (bs : List Byte) : (s.dmaRead tag bs).calReference = s.calReference := by 
  simp [State.dmaRead]
@[simp] theorem State.dmaWrite_pending (s : State) (tag a : Nat) (bs : List Byte) : (s.dmaWrite tag a bs).pending = s.pending := by 
  simp [State.dmaWrite]
@[simp] theorem State.dmaWrite_shadows (s : State) (tag a : Nat) (bs : List Byte) : (s.dmaWrite tag a bs).shadows = s.shadows := by 
  simp [State.dmaWrite]
@[simp] theorem State.dmaWrite_tiles (s : State) (tag a : Nat) (bs : List Byte) : (s.dmaWrite tag a bs).tiles = s.tiles := by 
  simp [State.dmaWrite]
@[simp] theorem State.dmaWrite_fabric (s : State) (tag a : Nat) (bs : List Byte) : (s.dmaWrite tag a bs).fabric = s.fabric := by 
  simp [State.dmaWrite]
@[simp] theorem State.dmaWrite_kv (s : State) (tag a : Nat) (bs : List Byte) : (s.dmaWrite tag a bs).kv = s.kv := by 
  simp [State.dmaWrite]
@[simp] theorem State.dmaWrite_prm (s : State) (tag a : Nat) (bs : List Byte) : (s.dmaWrite tag a bs).prm = s.prm := by 
  simp [State.dmaWrite]
@[simp] theorem State.dmaWrite_ldr (s : State) (tag a : Nat) (bs : List Byte) : (s.dmaWrite tag a bs).ldr = s.ldr := by 
  simp [State.dmaWrite]
@[simp] theorem State.dmaWrite_mbx (s : State) (tag a : Nat) (bs : List Byte) : (s.dmaWrite tag a bs).mbx = s.mbx := by 
  simp [State.dmaWrite]
@[simp] theorem State.dmaWrite_pcie (s : State) (tag a : Nat) (bs : List Byte) : (s.dmaWrite tag a bs).pcie = s.pcie := by 
  simp [State.dmaWrite]
@[simp] theorem State.dmaWrite_net (s : State) (tag a : Nat) (bs : List Byte) : (s.dmaWrite tag a bs).net = s.net := by 
  simp [State.dmaWrite]
@[simp] theorem State.dmaWrite_boot (s : State) (tag a : Nat) (bs : List Byte) : (s.dmaWrite tag a bs).boot = s.boot := by 
  simp [State.dmaWrite]
@[simp] theorem State.dmaWrite_pwr (s : State) (tag a : Nat) (bs : List Byte) : (s.dmaWrite tag a bs).pwr = s.pwr := by 
  simp [State.dmaWrite]
@[simp] theorem State.dmaWrite_hkm (s : State) (tag a : Nat) (bs : List Byte) : (s.dmaWrite tag a bs).hkm = s.hkm := by 
  simp [State.dmaWrite]
@[simp] theorem State.dmaWrite_integ (s : State) (tag a : Nat) (bs : List Byte) : (s.dmaWrite tag a bs).integ = s.integ := by 
  simp [State.dmaWrite]
@[simp] theorem State.dmaWrite_ledger (s : State) (tag a : Nat) (bs : List Byte) : (s.dmaWrite tag a bs).ledger = s.ledger := by 
  simp [State.dmaWrite]
@[simp] theorem State.dmaWrite_cnt (s : State) (tag a : Nat) (bs : List Byte) : (s.dmaWrite tag a bs).cnt = s.cnt := by 
  simp [State.dmaWrite]
@[simp] theorem State.dmaWrite_calStart (s : State) (tag a : Nat) (bs : List Byte) : (s.dmaWrite tag a bs).calStart = s.calStart := by 
  simp [State.dmaWrite]
@[simp] theorem State.dmaWrite_calReference (s : State) (tag a : Nat) (bs : List Byte) : (s.dmaWrite tag a bs).calReference = s.calReference := by 
  simp [State.dmaWrite]
@[simp] theorem State.ethIn_pending (s : State) (port : Nat) (kind : Nat × Option Nat) (bs : List Byte) : (s.ethIn port kind bs).pending = s.pending := by 
  simp [State.ethIn]
@[simp] theorem State.ethIn_shadows (s : State) (port : Nat) (kind : Nat × Option Nat) (bs : List Byte) : (s.ethIn port kind bs).shadows = s.shadows := by 
  simp [State.ethIn]
@[simp] theorem State.ethIn_tiles (s : State) (port : Nat) (kind : Nat × Option Nat) (bs : List Byte) : (s.ethIn port kind bs).tiles = s.tiles := by 
  simp [State.ethIn]
@[simp] theorem State.ethIn_fabric (s : State) (port : Nat) (kind : Nat × Option Nat) (bs : List Byte) : (s.ethIn port kind bs).fabric = s.fabric := by 
  simp [State.ethIn]
@[simp] theorem State.ethIn_kv (s : State) (port : Nat) (kind : Nat × Option Nat) (bs : List Byte) : (s.ethIn port kind bs).kv = s.kv := by 
  simp [State.ethIn]
@[simp] theorem State.ethIn_prm (s : State) (port : Nat) (kind : Nat × Option Nat) (bs : List Byte) : (s.ethIn port kind bs).prm = s.prm := by 
  simp [State.ethIn]
@[simp] theorem State.ethIn_ldr (s : State) (port : Nat) (kind : Nat × Option Nat) (bs : List Byte) : (s.ethIn port kind bs).ldr = s.ldr := by 
  simp [State.ethIn]
@[simp] theorem State.ethIn_mbx (s : State) (port : Nat) (kind : Nat × Option Nat) (bs : List Byte) : (s.ethIn port kind bs).mbx = s.mbx := by 
  simp [State.ethIn]
@[simp] theorem State.ethIn_pcie (s : State) (port : Nat) (kind : Nat × Option Nat) (bs : List Byte) : (s.ethIn port kind bs).pcie = s.pcie := by 
  simp [State.ethIn]
@[simp] theorem State.ethIn_net (s : State) (port : Nat) (kind : Nat × Option Nat) (bs : List Byte) : (s.ethIn port kind bs).net = s.net := by 
  simp [State.ethIn]
@[simp] theorem State.ethIn_boot (s : State) (port : Nat) (kind : Nat × Option Nat) (bs : List Byte) : (s.ethIn port kind bs).boot = s.boot := by 
  simp [State.ethIn]
@[simp] theorem State.ethIn_pwr (s : State) (port : Nat) (kind : Nat × Option Nat) (bs : List Byte) : (s.ethIn port kind bs).pwr = s.pwr := by 
  simp [State.ethIn]
@[simp] theorem State.ethIn_hkm (s : State) (port : Nat) (kind : Nat × Option Nat) (bs : List Byte) : (s.ethIn port kind bs).hkm = s.hkm := by 
  simp [State.ethIn]
@[simp] theorem State.ethIn_integ (s : State) (port : Nat) (kind : Nat × Option Nat) (bs : List Byte) : (s.ethIn port kind bs).integ = s.integ := by 
  simp [State.ethIn]
@[simp] theorem State.ethIn_ledger (s : State) (port : Nat) (kind : Nat × Option Nat) (bs : List Byte) : (s.ethIn port kind bs).ledger = s.ledger := by 
  simp [State.ethIn]
@[simp] theorem State.ethIn_cnt (s : State) (port : Nat) (kind : Nat × Option Nat) (bs : List Byte) : (s.ethIn port kind bs).cnt = s.cnt := by 
  simp [State.ethIn]
@[simp] theorem State.ethIn_outside (s : State) (port : Nat) (kind : Nat × Option Nat) (bs : List Byte) : (s.ethIn port kind bs).outside = s.outside := by 
  simp [State.ethIn]
@[simp] theorem State.ethIn_calStart (s : State) (port : Nat) (kind : Nat × Option Nat) (bs : List Byte) : (s.ethIn port kind bs).calStart = s.calStart := by 
  simp [State.ethIn]
@[simp] theorem State.ethIn_calReference (s : State) (port : Nat) (kind : Nat × Option Nat) (bs : List Byte) : (s.ethIn port kind bs).calReference = s.calReference := by 
  simp [State.ethIn]
@[simp] theorem State.ethOut_pending (s : State) (port : Nat) (kind : Nat × Option Nat) (bs : List Byte) : (s.ethOut port kind bs).pending = s.pending := by 
  simp [State.ethOut]
@[simp] theorem State.ethOut_shadows (s : State) (port : Nat) (kind : Nat × Option Nat) (bs : List Byte) : (s.ethOut port kind bs).shadows = s.shadows := by 
  simp [State.ethOut]
@[simp] theorem State.ethOut_tiles (s : State) (port : Nat) (kind : Nat × Option Nat) (bs : List Byte) : (s.ethOut port kind bs).tiles = s.tiles := by 
  simp [State.ethOut]
@[simp] theorem State.ethOut_fabric (s : State) (port : Nat) (kind : Nat × Option Nat) (bs : List Byte) : (s.ethOut port kind bs).fabric = s.fabric := by 
  simp [State.ethOut]
@[simp] theorem State.ethOut_kv (s : State) (port : Nat) (kind : Nat × Option Nat) (bs : List Byte) : (s.ethOut port kind bs).kv = s.kv := by 
  simp [State.ethOut]
@[simp] theorem State.ethOut_prm (s : State) (port : Nat) (kind : Nat × Option Nat) (bs : List Byte) : (s.ethOut port kind bs).prm = s.prm := by 
  simp [State.ethOut]
@[simp] theorem State.ethOut_ldr (s : State) (port : Nat) (kind : Nat × Option Nat) (bs : List Byte) : (s.ethOut port kind bs).ldr = s.ldr := by 
  simp [State.ethOut]
@[simp] theorem State.ethOut_mbx (s : State) (port : Nat) (kind : Nat × Option Nat) (bs : List Byte) : (s.ethOut port kind bs).mbx = s.mbx := by 
  simp [State.ethOut]
@[simp] theorem State.ethOut_pcie (s : State) (port : Nat) (kind : Nat × Option Nat) (bs : List Byte) : (s.ethOut port kind bs).pcie = s.pcie := by 
  simp [State.ethOut]
@[simp] theorem State.ethOut_net (s : State) (port : Nat) (kind : Nat × Option Nat) (bs : List Byte) : (s.ethOut port kind bs).net = s.net := by 
  simp [State.ethOut]
@[simp] theorem State.ethOut_boot (s : State) (port : Nat) (kind : Nat × Option Nat) (bs : List Byte) : (s.ethOut port kind bs).boot = s.boot := by 
  simp [State.ethOut]
@[simp] theorem State.ethOut_pwr (s : State) (port : Nat) (kind : Nat × Option Nat) (bs : List Byte) : (s.ethOut port kind bs).pwr = s.pwr := by 
  simp [State.ethOut]
@[simp] theorem State.ethOut_hkm (s : State) (port : Nat) (kind : Nat × Option Nat) (bs : List Byte) : (s.ethOut port kind bs).hkm = s.hkm := by 
  simp [State.ethOut]
@[simp] theorem State.ethOut_integ (s : State) (port : Nat) (kind : Nat × Option Nat) (bs : List Byte) : (s.ethOut port kind bs).integ = s.integ := by 
  simp [State.ethOut]
@[simp] theorem State.ethOut_ledger (s : State) (port : Nat) (kind : Nat × Option Nat) (bs : List Byte) : (s.ethOut port kind bs).ledger = s.ledger := by 
  simp [State.ethOut]
@[simp] theorem State.ethOut_cnt (s : State) (port : Nat) (kind : Nat × Option Nat) (bs : List Byte) : (s.ethOut port kind bs).cnt = s.cnt := by 
  simp [State.ethOut]
@[simp] theorem State.ethOut_outside (s : State) (port : Nat) (kind : Nat × Option Nat) (bs : List Byte) : (s.ethOut port kind bs).outside = s.outside := by 
  simp [State.ethOut]
@[simp] theorem State.ethOut_calStart (s : State) (port : Nat) (kind : Nat × Option Nat) (bs : List Byte) : (s.ethOut port kind bs).calStart = s.calStart := by 
  simp [State.ethOut]
@[simp] theorem State.ethOut_calReference (s : State) (port : Nat) (kind : Nat × Option Nat) (bs : List Byte) : (s.ethOut port kind bs).calReference = s.calReference := by 
  simp [State.ethOut]
@[simp] theorem State.egress_pending (s : State) (port cls : Nat) (x : Sent) : (s.egress port cls x).pending = s.pending := by
  unfold State.egress; split <;> simp
@[simp] theorem State.egress_regs (s : State) (port cls : Nat) (x : Sent) : (s.egress port cls x).regs = s.regs := by
  unfold State.egress; split <;> simp
@[simp] theorem State.egress_shadows (s : State) (port cls : Nat) (x : Sent) : (s.egress port cls x).shadows = s.shadows := by
  unfold State.egress; split <;> simp
@[simp] theorem State.egress_tiles (s : State) (port cls : Nat) (x : Sent) : (s.egress port cls x).tiles = s.tiles := by
  unfold State.egress; split <;> simp
@[simp] theorem State.egress_fabric (s : State) (port cls : Nat) (x : Sent) : (s.egress port cls x).fabric = s.fabric := by
  unfold State.egress; split <;> simp
@[simp] theorem State.egress_kv (s : State) (port cls : Nat) (x : Sent) : (s.egress port cls x).kv = s.kv := by
  unfold State.egress; split <;> simp
@[simp] theorem State.egress_prm (s : State) (port cls : Nat) (x : Sent) : (s.egress port cls x).prm = s.prm := by
  unfold State.egress; split <;> simp
@[simp] theorem State.egress_ldr (s : State) (port cls : Nat) (x : Sent) : (s.egress port cls x).ldr = s.ldr := by
  unfold State.egress; split <;> simp
@[simp] theorem State.egress_mbx (s : State) (port cls : Nat) (x : Sent) : (s.egress port cls x).mbx = s.mbx := by
  unfold State.egress; split <;> simp
@[simp] theorem State.egress_pcie (s : State) (port cls : Nat) (x : Sent) : (s.egress port cls x).pcie = s.pcie := by
  unfold State.egress; split <;> simp
@[simp] theorem State.egress_boot (s : State) (port cls : Nat) (x : Sent) : (s.egress port cls x).boot = s.boot := by
  unfold State.egress; split <;> simp
@[simp] theorem State.egress_pwr (s : State) (port cls : Nat) (x : Sent) : (s.egress port cls x).pwr = s.pwr := by
  unfold State.egress; split <;> simp
@[simp] theorem State.egress_hkm (s : State) (port cls : Nat) (x : Sent) : (s.egress port cls x).hkm = s.hkm := by
  unfold State.egress; split <;> simp
@[simp] theorem State.egress_integ (s : State) (port cls : Nat) (x : Sent) : (s.egress port cls x).integ = s.integ := by
  unfold State.egress; split <;> simp
@[simp] theorem State.egress_ledger (s : State) (port cls : Nat) (x : Sent) : (s.egress port cls x).ledger = s.ledger := by
  unfold State.egress; split <;> simp
@[simp] theorem State.egress_cnt (s : State) (port cls : Nat) (x : Sent) : (s.egress port cls x).cnt = s.cnt := by
  unfold State.egress; split <;> simp
@[simp] theorem State.egress_calStart (s : State) (port cls : Nat) (x : Sent) : (s.egress port cls x).calStart = s.calStart := by
  unfold State.egress; split <;> simp
@[simp] theorem State.egress_calReference (s : State) (port cls : Nat) (x : Sent) : (s.egress port cls x).calReference = s.calReference := by
  unfold State.egress; split <;> simp
@[simp] theorem State.sendRoce_pending (s : State) (qp : Nat) (x : Sent) : (s.sendRoce qp x).pending = s.pending := by
  simp [State.sendRoce]
@[simp] theorem State.sendRoce_regs (s : State) (qp : Nat) (x : Sent) : (s.sendRoce qp x).regs = s.regs := by
  simp [State.sendRoce]
@[simp] theorem State.sendRoce_shadows (s : State) (qp : Nat) (x : Sent) : (s.sendRoce qp x).shadows = s.shadows := by
  simp [State.sendRoce]
@[simp] theorem State.sendRoce_tiles (s : State) (qp : Nat) (x : Sent) : (s.sendRoce qp x).tiles = s.tiles := by
  simp [State.sendRoce]
@[simp] theorem State.sendRoce_fabric (s : State) (qp : Nat) (x : Sent) : (s.sendRoce qp x).fabric = s.fabric := by
  simp [State.sendRoce]
@[simp] theorem State.sendRoce_kv (s : State) (qp : Nat) (x : Sent) : (s.sendRoce qp x).kv = s.kv := by
  simp [State.sendRoce]
@[simp] theorem State.sendRoce_prm (s : State) (qp : Nat) (x : Sent) : (s.sendRoce qp x).prm = s.prm := by
  simp [State.sendRoce]
@[simp] theorem State.sendRoce_ldr (s : State) (qp : Nat) (x : Sent) : (s.sendRoce qp x).ldr = s.ldr := by
  simp [State.sendRoce]
@[simp] theorem State.sendRoce_mbx (s : State) (qp : Nat) (x : Sent) : (s.sendRoce qp x).mbx = s.mbx := by
  simp [State.sendRoce]
@[simp] theorem State.sendRoce_pcie (s : State) (qp : Nat) (x : Sent) : (s.sendRoce qp x).pcie = s.pcie := by
  simp [State.sendRoce]
@[simp] theorem State.sendRoce_boot (s : State) (qp : Nat) (x : Sent) : (s.sendRoce qp x).boot = s.boot := by
  simp [State.sendRoce]
@[simp] theorem State.sendRoce_pwr (s : State) (qp : Nat) (x : Sent) : (s.sendRoce qp x).pwr = s.pwr := by
  simp [State.sendRoce]
@[simp] theorem State.sendRoce_hkm (s : State) (qp : Nat) (x : Sent) : (s.sendRoce qp x).hkm = s.hkm := by
  simp [State.sendRoce]
@[simp] theorem State.sendRoce_integ (s : State) (qp : Nat) (x : Sent) : (s.sendRoce qp x).integ = s.integ := by
  simp [State.sendRoce]
@[simp] theorem State.sendRoce_ledger (s : State) (qp : Nat) (x : Sent) : (s.sendRoce qp x).ledger = s.ledger := by
  simp [State.sendRoce]
@[simp] theorem State.sendRoce_cnt (s : State) (qp : Nat) (x : Sent) : (s.sendRoce qp x).cnt = s.cnt := by
  simp [State.sendRoce]
@[simp] theorem State.sendRoce_calStart (s : State) (qp : Nat) (x : Sent) : (s.sendRoce qp x).calStart = s.calStart := by
  simp [State.sendRoce]
@[simp] theorem State.sendRoce_calReference (s : State) (qp : Nat) (x : Sent) : (s.sendRoce qp x).calReference = s.calReference := by
  simp [State.sendRoce]
@[simp] theorem State.syncMgmt_pending (s : State) (ts : List Nat) : (s.syncMgmt ts).pending = s.pending := by 
  unfold State.syncMgmt
  rfl
@[simp] theorem State.syncMgmt_regs (s : State) (ts : List Nat) : (s.syncMgmt ts).regs = s.regs := by 
  unfold State.syncMgmt
  rfl
@[simp] theorem State.syncMgmt_shadows (s : State) (ts : List Nat) : (s.syncMgmt ts).shadows = s.shadows := by 
  unfold State.syncMgmt
  rfl
@[simp] theorem State.syncMgmt_tiles (s : State) (ts : List Nat) : (s.syncMgmt ts).tiles = s.tiles := by 
  unfold State.syncMgmt
  rfl
@[simp] theorem State.syncMgmt_kv (s : State) (ts : List Nat) : (s.syncMgmt ts).kv = s.kv := by 
  unfold State.syncMgmt
  rfl
@[simp] theorem State.syncMgmt_prm (s : State) (ts : List Nat) : (s.syncMgmt ts).prm = s.prm := by 
  unfold State.syncMgmt
  rfl
@[simp] theorem State.syncMgmt_ldr (s : State) (ts : List Nat) : (s.syncMgmt ts).ldr = s.ldr := by 
  unfold State.syncMgmt
  rfl
@[simp] theorem State.syncMgmt_mbx (s : State) (ts : List Nat) : (s.syncMgmt ts).mbx = s.mbx := by 
  unfold State.syncMgmt
  rfl
@[simp] theorem State.syncMgmt_pcie (s : State) (ts : List Nat) : (s.syncMgmt ts).pcie = s.pcie := by 
  unfold State.syncMgmt
  rfl
@[simp] theorem State.syncMgmt_net (s : State) (ts : List Nat) : (s.syncMgmt ts).net = s.net := by 
  unfold State.syncMgmt
  rfl
@[simp] theorem State.syncMgmt_boot (s : State) (ts : List Nat) : (s.syncMgmt ts).boot = s.boot := by 
  unfold State.syncMgmt
  rfl
@[simp] theorem State.syncMgmt_pwr (s : State) (ts : List Nat) : (s.syncMgmt ts).pwr = s.pwr := by 
  unfold State.syncMgmt
  rfl
@[simp] theorem State.syncMgmt_hkm (s : State) (ts : List Nat) : (s.syncMgmt ts).hkm = s.hkm := by 
  unfold State.syncMgmt
  rfl
@[simp] theorem State.syncMgmt_integ (s : State) (ts : List Nat) : (s.syncMgmt ts).integ = s.integ := by 
  unfold State.syncMgmt
  rfl
@[simp] theorem State.syncMgmt_ledger (s : State) (ts : List Nat) : (s.syncMgmt ts).ledger = s.ledger := by 
  unfold State.syncMgmt
  rfl
@[simp] theorem State.syncMgmt_cnt (s : State) (ts : List Nat) : (s.syncMgmt ts).cnt = s.cnt := by 
  unfold State.syncMgmt
  rfl
@[simp] theorem State.syncMgmt_outside (s : State) (ts : List Nat) : (s.syncMgmt ts).outside = s.outside := by 
  unfold State.syncMgmt
  rfl
@[simp] theorem State.syncMgmt_calStart (s : State) (ts : List Nat) : (s.syncMgmt ts).calStart = s.calStart := by 
  unfold State.syncMgmt
  rfl
@[simp] theorem State.syncMgmt_calReference (s : State) (ts : List Nat) : (s.syncMgmt ts).calReference = s.calReference := by 
  unfold State.syncMgmt
  rfl
@[simp] theorem State.fatalStop_pending (s : State) (src kind idx : Nat) : (s.fatalStop src kind idx).pending = s.pending := by 
  simp [State.fatalStop]
@[simp] theorem State.fatalStop_shadows (s : State) (src kind idx : Nat) : (s.fatalStop src kind idx).shadows = s.shadows := by 
  simp [State.fatalStop]
@[simp] theorem State.fatalStop_tiles (s : State) (src kind idx : Nat) : (s.fatalStop src kind idx).tiles = s.tiles := by 
  simp [State.fatalStop]
@[simp] theorem State.fatalStop_ldr (s : State) (src kind idx : Nat) : (s.fatalStop src kind idx).ldr = s.ldr := by 
  simp [State.fatalStop]
@[simp] theorem State.fatalStop_pcie (s : State) (src kind idx : Nat) : (s.fatalStop src kind idx).pcie = s.pcie := by 
  simp [State.fatalStop]
@[simp] theorem State.fatalStop_net (s : State) (src kind idx : Nat) : (s.fatalStop src kind idx).net = s.net := by 
  simp [State.fatalStop]
@[simp] theorem State.fatalStop_boot (s : State) (src kind idx : Nat) : (s.fatalStop src kind idx).boot = s.boot := by 
  simp [State.fatalStop]
@[simp] theorem State.fatalStop_pwr (s : State) (src kind idx : Nat) : (s.fatalStop src kind idx).pwr = s.pwr := by 
  simp [State.fatalStop]
@[simp] theorem State.fatalStop_hkm (s : State) (src kind idx : Nat) : (s.fatalStop src kind idx).hkm = s.hkm := by 
  simp [State.fatalStop]
@[simp] theorem State.fatalStop_outside (s : State) (src kind idx : Nat) : (s.fatalStop src kind idx).outside = s.outside := by 
  simp [State.fatalStop]
@[simp] theorem State.fatalStop_calStart (s : State) (src kind idx : Nat) : (s.fatalStop src kind idx).calStart = s.calStart := by 
  simp [State.fatalStop]
@[simp] theorem State.fatalStop_calReference (s : State) (src kind idx : Nat) : (s.fatalStop src kind idx).calReference = s.calReference := by 
  simp [State.fatalStop]
@[simp] theorem State.raiseBase_pending (s : State) (src kind idx : Nat) (scenes : List Nat) : (s.raiseBase src kind idx scenes).pending = s.pending := by 
  simp [State.raiseBase]
@[simp] theorem State.raiseBase_shadows (s : State) (src kind idx : Nat) (scenes : List Nat) : (s.raiseBase src kind idx scenes).shadows = s.shadows := by 
  simp [State.raiseBase]
@[simp] theorem State.raiseBase_tiles (s : State) (src kind idx : Nat) (scenes : List Nat) : (s.raiseBase src kind idx scenes).tiles = s.tiles := by 
  simp [State.raiseBase]
@[simp] theorem State.raiseBase_ldr (s : State) (src kind idx : Nat) (scenes : List Nat) : (s.raiseBase src kind idx scenes).ldr = s.ldr := by 
  simp [State.raiseBase]
@[simp] theorem State.raiseBase_pcie (s : State) (src kind idx : Nat) (scenes : List Nat) : (s.raiseBase src kind idx scenes).pcie = s.pcie := by 
  simp [State.raiseBase]
@[simp] theorem State.raiseBase_net (s : State) (src kind idx : Nat) (scenes : List Nat) : (s.raiseBase src kind idx scenes).net = s.net := by 
  simp [State.raiseBase]
@[simp] theorem State.raiseBase_boot (s : State) (src kind idx : Nat) (scenes : List Nat) : (s.raiseBase src kind idx scenes).boot = s.boot := by 
  simp [State.raiseBase]
@[simp] theorem State.raiseBase_pwr (s : State) (src kind idx : Nat) (scenes : List Nat) : (s.raiseBase src kind idx scenes).pwr = s.pwr := by 
  simp [State.raiseBase]
@[simp] theorem State.raiseBase_hkm (s : State) (src kind idx : Nat) (scenes : List Nat) : (s.raiseBase src kind idx scenes).hkm = s.hkm := by 
  simp [State.raiseBase]
@[simp] theorem State.raiseBase_calStart (s : State) (src kind idx : Nat) (scenes : List Nat) : (s.raiseBase src kind idx scenes).calStart = s.calStart := by 
  simp [State.raiseBase]
@[simp] theorem State.raiseBase_calReference (s : State) (src kind idx : Nat) (scenes : List Nat) : (s.raiseBase src kind idx scenes).calReference = s.calReference := by 
  simp [State.raiseBase]
@[simp] theorem State.autoSubstitute_pending (s : State) (home src : Nat) : (s.autoSubstitute home src).pending = s.pending := by 
  unfold State.autoSubstitute
  split
  · simp
  · split <;> simp
@[simp] theorem State.autoSubstitute_shadows (s : State) (home src : Nat) : (s.autoSubstitute home src).shadows = s.shadows := by 
  unfold State.autoSubstitute
  split
  · simp
  · split <;> simp
@[simp] theorem State.autoSubstitute_tiles (s : State) (home src : Nat) : (s.autoSubstitute home src).tiles = s.tiles := by 
  unfold State.autoSubstitute
  split
  · simp
  · split <;> simp
@[simp] theorem State.autoSubstitute_ldr (s : State) (home src : Nat) : (s.autoSubstitute home src).ldr = s.ldr := by 
  unfold State.autoSubstitute
  split
  · simp
  · split <;> simp
@[simp] theorem State.autoSubstitute_pcie (s : State) (home src : Nat) : (s.autoSubstitute home src).pcie = s.pcie := by 
  unfold State.autoSubstitute
  split
  · simp
  · split <;> simp
@[simp] theorem State.autoSubstitute_net (s : State) (home src : Nat) : (s.autoSubstitute home src).net = s.net := by 
  unfold State.autoSubstitute
  split
  · simp
  · split <;> simp
@[simp] theorem State.autoSubstitute_boot (s : State) (home src : Nat) : (s.autoSubstitute home src).boot = s.boot := by 
  unfold State.autoSubstitute
  split
  · simp
  · split <;> simp
@[simp] theorem State.autoSubstitute_pwr (s : State) (home src : Nat) : (s.autoSubstitute home src).pwr = s.pwr := by 
  unfold State.autoSubstitute
  split
  · simp
  · split <;> simp
@[simp] theorem State.autoSubstitute_hkm (s : State) (home src : Nat) : (s.autoSubstitute home src).hkm = s.hkm := by 
  unfold State.autoSubstitute
  split
  · simp
  · split <;> simp
@[simp] theorem State.autoSubstitute_calStart (s : State) (home src : Nat) : (s.autoSubstitute home src).calStart = s.calStart := by 
  unfold State.autoSubstitute
  split
  · simp
  · split <;> simp
@[simp] theorem State.autoSubstitute_calReference (s : State) (home src : Nat) : (s.autoSubstitute home src).calReference = s.calReference := by 
  unfold State.autoSubstitute
  split
  · simp
  · split <;> simp
@[simp] theorem State.moveToBypass_pending (s : State) (x : Subst) (src : Nat) : (s.moveToBypass x src).pending = s.pending := by 
  unfold State.moveToBypass
  rfl
@[simp] theorem State.moveToBypass_regs (s : State) (x : Subst) (src : Nat) : (s.moveToBypass x src).regs = s.regs := by 
  unfold State.moveToBypass
  rfl
@[simp] theorem State.moveToBypass_shadows (s : State) (x : Subst) (src : Nat) : (s.moveToBypass x src).shadows = s.shadows := by 
  unfold State.moveToBypass
  rfl
@[simp] theorem State.moveToBypass_tiles (s : State) (x : Subst) (src : Nat) : (s.moveToBypass x src).tiles = s.tiles := by 
  unfold State.moveToBypass
  rfl
@[simp] theorem State.moveToBypass_kv (s : State) (x : Subst) (src : Nat) : (s.moveToBypass x src).kv = s.kv := by 
  unfold State.moveToBypass
  rfl
@[simp] theorem State.moveToBypass_ldr (s : State) (x : Subst) (src : Nat) : (s.moveToBypass x src).ldr = s.ldr := by 
  unfold State.moveToBypass
  rfl
@[simp] theorem State.moveToBypass_mbx (s : State) (x : Subst) (src : Nat) : (s.moveToBypass x src).mbx = s.mbx := by 
  unfold State.moveToBypass
  rfl
@[simp] theorem State.moveToBypass_pcie (s : State) (x : Subst) (src : Nat) : (s.moveToBypass x src).pcie = s.pcie := by 
  unfold State.moveToBypass
  rfl
@[simp] theorem State.moveToBypass_net (s : State) (x : Subst) (src : Nat) : (s.moveToBypass x src).net = s.net := by 
  unfold State.moveToBypass
  rfl
@[simp] theorem State.moveToBypass_boot (s : State) (x : Subst) (src : Nat) : (s.moveToBypass x src).boot = s.boot := by 
  unfold State.moveToBypass
  rfl
@[simp] theorem State.moveToBypass_pwr (s : State) (x : Subst) (src : Nat) : (s.moveToBypass x src).pwr = s.pwr := by 
  unfold State.moveToBypass
  rfl
@[simp] theorem State.moveToBypass_hkm (s : State) (x : Subst) (src : Nat) : (s.moveToBypass x src).hkm = s.hkm := by 
  unfold State.moveToBypass
  rfl
@[simp] theorem State.moveToBypass_integ (s : State) (x : Subst) (src : Nat) : (s.moveToBypass x src).integ = s.integ := by 
  unfold State.moveToBypass
  rfl
@[simp] theorem State.moveToBypass_ledger (s : State) (x : Subst) (src : Nat) : (s.moveToBypass x src).ledger = s.ledger := by 
  unfold State.moveToBypass
  rfl
@[simp] theorem State.moveToBypass_outside (s : State) (x : Subst) (src : Nat) : (s.moveToBypass x src).outside = s.outside := by 
  unfold State.moveToBypass
  rfl
@[simp] theorem State.moveToBypass_calStart (s : State) (x : Subst) (src : Nat) : (s.moveToBypass x src).calStart = s.calStart := by 
  unfold State.moveToBypass
  rfl
@[simp] theorem State.moveToBypass_calReference (s : State) (x : Subst) (src : Nat) : (s.moveToBypass x src).calReference = s.calReference := by 
  unfold State.moveToBypass
  rfl
@[simp] theorem State.fenceTile_pending (s : State) (t : Nat) (on : Bool) : (s.fenceTile t on).pending = s.pending := by 
  unfold State.fenceTile
  rfl
@[simp] theorem State.fenceTile_regs (s : State) (t : Nat) (on : Bool) : (s.fenceTile t on).regs = s.regs := by 
  unfold State.fenceTile
  rfl
@[simp] theorem State.fenceTile_shadows (s : State) (t : Nat) (on : Bool) : (s.fenceTile t on).shadows = s.shadows := by 
  unfold State.fenceTile
  rfl
@[simp] theorem State.fenceTile_kv (s : State) (t : Nat) (on : Bool) : (s.fenceTile t on).kv = s.kv := by 
  unfold State.fenceTile
  rfl
@[simp] theorem State.fenceTile_prm (s : State) (t : Nat) (on : Bool) : (s.fenceTile t on).prm = s.prm := by 
  unfold State.fenceTile
  rfl
@[simp] theorem State.fenceTile_ldr (s : State) (t : Nat) (on : Bool) : (s.fenceTile t on).ldr = s.ldr := by 
  unfold State.fenceTile
  rfl
@[simp] theorem State.fenceTile_mbx (s : State) (t : Nat) (on : Bool) : (s.fenceTile t on).mbx = s.mbx := by 
  unfold State.fenceTile
  rfl
@[simp] theorem State.fenceTile_pcie (s : State) (t : Nat) (on : Bool) : (s.fenceTile t on).pcie = s.pcie := by 
  unfold State.fenceTile
  rfl
@[simp] theorem State.fenceTile_net (s : State) (t : Nat) (on : Bool) : (s.fenceTile t on).net = s.net := by 
  unfold State.fenceTile
  rfl
@[simp] theorem State.fenceTile_boot (s : State) (t : Nat) (on : Bool) : (s.fenceTile t on).boot = s.boot := by 
  unfold State.fenceTile
  rfl
@[simp] theorem State.fenceTile_pwr (s : State) (t : Nat) (on : Bool) : (s.fenceTile t on).pwr = s.pwr := by 
  unfold State.fenceTile
  rfl
@[simp] theorem State.fenceTile_hkm (s : State) (t : Nat) (on : Bool) : (s.fenceTile t on).hkm = s.hkm := by 
  unfold State.fenceTile
  rfl
@[simp] theorem State.fenceTile_integ (s : State) (t : Nat) (on : Bool) : (s.fenceTile t on).integ = s.integ := by 
  unfold State.fenceTile
  rfl
@[simp] theorem State.fenceTile_ledger (s : State) (t : Nat) (on : Bool) : (s.fenceTile t on).ledger = s.ledger := by 
  unfold State.fenceTile
  rfl
@[simp] theorem State.fenceTile_cnt (s : State) (t : Nat) (on : Bool) : (s.fenceTile t on).cnt = s.cnt := by 
  unfold State.fenceTile
  rfl
@[simp] theorem State.fenceTile_outside (s : State) (t : Nat) (on : Bool) : (s.fenceTile t on).outside = s.outside := by 
  unfold State.fenceTile
  rfl
@[simp] theorem State.fenceTile_calStart (s : State) (t : Nat) (on : Bool) : (s.fenceTile t on).calStart = s.calStart := by 
  unfold State.fenceTile
  rfl
@[simp] theorem State.fenceTile_calReference (s : State) (t : Nat) (on : Bool) : (s.fenceTile t on).calReference = s.calReference := by 
  unfold State.fenceTile
  rfl
@[simp] theorem State.degradeAt_pending (s : State) (src t : Nat) : (s.degradeAt src t).pending = s.pending := by 
  unfold State.degradeAt
  dsimp only
  repeat' (first | (simp; done) | split)
@[simp] theorem State.degradeAt_shadows (s : State) (src t : Nat) : (s.degradeAt src t).shadows = s.shadows := by 
  unfold State.degradeAt
  dsimp only
  repeat' (first | (simp; done) | split)
@[simp] theorem State.degradeAt_ldr (s : State) (src t : Nat) : (s.degradeAt src t).ldr = s.ldr := by 
  unfold State.degradeAt
  dsimp only
  repeat' (first | (simp; done) | split)
@[simp] theorem State.degradeAt_pcie (s : State) (src t : Nat) : (s.degradeAt src t).pcie = s.pcie := by 
  unfold State.degradeAt
  dsimp only
  repeat' (first | (simp; done) | split)
@[simp] theorem State.degradeAt_net (s : State) (src t : Nat) : (s.degradeAt src t).net = s.net := by 
  unfold State.degradeAt
  dsimp only
  repeat' (first | (simp; done) | split)
@[simp] theorem State.degradeAt_boot (s : State) (src t : Nat) : (s.degradeAt src t).boot = s.boot := by 
  unfold State.degradeAt
  dsimp only
  repeat' (first | (simp; done) | split)
@[simp] theorem State.degradeAt_pwr (s : State) (src t : Nat) : (s.degradeAt src t).pwr = s.pwr := by 
  unfold State.degradeAt
  dsimp only
  repeat' (first | (simp; done) | split)
@[simp] theorem State.degradeAt_hkm (s : State) (src t : Nat) : (s.degradeAt src t).hkm = s.hkm := by 
  unfold State.degradeAt
  dsimp only
  repeat' (first | (simp; done) | split)
@[simp] theorem State.degradeAt_calStart (s : State) (src t : Nat) : (s.degradeAt src t).calStart = s.calStart := by 
  unfold State.degradeAt
  dsimp only
  repeat' (first | (simp; done) | split)
@[simp] theorem State.degradeAt_calReference (s : State) (src t : Nat) : (s.degradeAt src t).calReference = s.calReference := by 
  unfold State.degradeAt
  dsimp only
  repeat' (first | (simp; done) | split)
@[simp] theorem State.ledgerSettle_pending (s : State) : (s.ledgerSettle).pending = s.pending := by 
  simp [State.ledgerSettle]
@[simp] theorem State.ledgerSettle_shadows (s : State) : (s.ledgerSettle).shadows = s.shadows := by 
  simp [State.ledgerSettle]
@[simp] theorem State.ledgerSettle_tiles (s : State) : (s.ledgerSettle).tiles = s.tiles := by 
  simp [State.ledgerSettle]
@[simp] theorem State.ledgerSettle_ldr (s : State) : (s.ledgerSettle).ldr = s.ldr := by 
  simp [State.ledgerSettle]
@[simp] theorem State.ledgerSettle_pcie (s : State) : (s.ledgerSettle).pcie = s.pcie := by 
  simp [State.ledgerSettle]
@[simp] theorem State.ledgerSettle_net (s : State) : (s.ledgerSettle).net = s.net := by 
  simp [State.ledgerSettle]
@[simp] theorem State.ledgerSettle_boot (s : State) : (s.ledgerSettle).boot = s.boot := by 
  simp [State.ledgerSettle]
@[simp] theorem State.ledgerSettle_pwr (s : State) : (s.ledgerSettle).pwr = s.pwr := by 
  simp [State.ledgerSettle]
@[simp] theorem State.ledgerSettle_hkm (s : State) : (s.ledgerSettle).hkm = s.hkm := by 
  simp [State.ledgerSettle]
@[simp] theorem State.ledgerSettle_calStart (s : State) : (s.ledgerSettle).calStart = s.calStart := by 
  simp [State.ledgerSettle]
@[simp] theorem State.ledgerSettle_calReference (s : State) : (s.ledgerSettle).calReference = s.calReference := by 
  simp [State.ledgerSettle]
@[simp] theorem State.popEntry_pending (s : State) (r : Nat) : (s.popEntry r).pending = s.pending := by 
  unfold State.popEntry
  rfl
@[simp] theorem State.popEntry_regs (s : State) (r : Nat) : (s.popEntry r).regs = s.regs := by 
  unfold State.popEntry
  rfl
@[simp] theorem State.popEntry_shadows (s : State) (r : Nat) : (s.popEntry r).shadows = s.shadows := by 
  unfold State.popEntry
  rfl
@[simp] theorem State.popEntry_tiles (s : State) (r : Nat) : (s.popEntry r).tiles = s.tiles := by 
  unfold State.popEntry
  rfl
@[simp] theorem State.popEntry_fabric (s : State) (r : Nat) : (s.popEntry r).fabric = s.fabric := by 
  unfold State.popEntry
  rfl
@[simp] theorem State.popEntry_kv (s : State) (r : Nat) : (s.popEntry r).kv = s.kv := by 
  unfold State.popEntry
  rfl
@[simp] theorem State.popEntry_prm (s : State) (r : Nat) : (s.popEntry r).prm = s.prm := by 
  unfold State.popEntry
  rfl
@[simp] theorem State.popEntry_ldr (s : State) (r : Nat) : (s.popEntry r).ldr = s.ldr := by 
  unfold State.popEntry
  rfl
@[simp] theorem State.popEntry_pcie (s : State) (r : Nat) : (s.popEntry r).pcie = s.pcie := by 
  unfold State.popEntry
  rfl
@[simp] theorem State.popEntry_net (s : State) (r : Nat) : (s.popEntry r).net = s.net := by 
  unfold State.popEntry
  rfl
@[simp] theorem State.popEntry_boot (s : State) (r : Nat) : (s.popEntry r).boot = s.boot := by 
  unfold State.popEntry
  rfl
@[simp] theorem State.popEntry_pwr (s : State) (r : Nat) : (s.popEntry r).pwr = s.pwr := by 
  unfold State.popEntry
  rfl
@[simp] theorem State.popEntry_hkm (s : State) (r : Nat) : (s.popEntry r).hkm = s.hkm := by 
  unfold State.popEntry
  rfl
@[simp] theorem State.popEntry_integ (s : State) (r : Nat) : (s.popEntry r).integ = s.integ := by 
  unfold State.popEntry
  rfl
@[simp] theorem State.popEntry_ledger (s : State) (r : Nat) : (s.popEntry r).ledger = s.ledger := by 
  unfold State.popEntry
  rfl
@[simp] theorem State.popEntry_cnt (s : State) (r : Nat) : (s.popEntry r).cnt = s.cnt := by 
  unfold State.popEntry
  rfl
@[simp] theorem State.popEntry_outside (s : State) (r : Nat) : (s.popEntry r).outside = s.outside := by 
  unfold State.popEntry
  rfl
@[simp] theorem State.popEntry_calStart (s : State) (r : Nat) : (s.popEntry r).calStart = s.calStart := by 
  unfold State.popEntry
  rfl
@[simp] theorem State.popEntry_calReference (s : State) (r : Nat) : (s.popEntry r).calReference = s.calReference := by 
  unfold State.popEntry
  rfl
@[simp] theorem State.nextAlive_pending (s : State) (r : Nat) : (s.nextAlive r).pending = s.pending := by 
  unfold State.nextAlive
  rfl
@[simp] theorem State.nextAlive_regs (s : State) (r : Nat) : (s.nextAlive r).regs = s.regs := by 
  unfold State.nextAlive
  rfl
@[simp] theorem State.nextAlive_shadows (s : State) (r : Nat) : (s.nextAlive r).shadows = s.shadows := by 
  unfold State.nextAlive
  rfl
@[simp] theorem State.nextAlive_tiles (s : State) (r : Nat) : (s.nextAlive r).tiles = s.tiles := by 
  unfold State.nextAlive
  rfl
@[simp] theorem State.nextAlive_fabric (s : State) (r : Nat) : (s.nextAlive r).fabric = s.fabric := by 
  unfold State.nextAlive
  rfl
@[simp] theorem State.nextAlive_kv (s : State) (r : Nat) : (s.nextAlive r).kv = s.kv := by 
  unfold State.nextAlive
  rfl
@[simp] theorem State.nextAlive_prm (s : State) (r : Nat) : (s.nextAlive r).prm = s.prm := by 
  unfold State.nextAlive
  rfl
@[simp] theorem State.nextAlive_ldr (s : State) (r : Nat) : (s.nextAlive r).ldr = s.ldr := by 
  unfold State.nextAlive
  rfl
@[simp] theorem State.nextAlive_pcie (s : State) (r : Nat) : (s.nextAlive r).pcie = s.pcie := by 
  unfold State.nextAlive
  rfl
@[simp] theorem State.nextAlive_net (s : State) (r : Nat) : (s.nextAlive r).net = s.net := by 
  unfold State.nextAlive
  rfl
@[simp] theorem State.nextAlive_boot (s : State) (r : Nat) : (s.nextAlive r).boot = s.boot := by 
  unfold State.nextAlive
  rfl
@[simp] theorem State.nextAlive_pwr (s : State) (r : Nat) : (s.nextAlive r).pwr = s.pwr := by 
  unfold State.nextAlive
  rfl
@[simp] theorem State.nextAlive_hkm (s : State) (r : Nat) : (s.nextAlive r).hkm = s.hkm := by 
  unfold State.nextAlive
  rfl
@[simp] theorem State.nextAlive_integ (s : State) (r : Nat) : (s.nextAlive r).integ = s.integ := by 
  unfold State.nextAlive
  rfl
@[simp] theorem State.nextAlive_ledger (s : State) (r : Nat) : (s.nextAlive r).ledger = s.ledger := by 
  unfold State.nextAlive
  rfl
@[simp] theorem State.nextAlive_cnt (s : State) (r : Nat) : (s.nextAlive r).cnt = s.cnt := by 
  unfold State.nextAlive
  rfl
@[simp] theorem State.nextAlive_outside (s : State) (r : Nat) : (s.nextAlive r).outside = s.outside := by 
  unfold State.nextAlive
  rfl
@[simp] theorem State.nextAlive_calStart (s : State) (r : Nat) : (s.nextAlive r).calStart = s.calStart := by 
  unfold State.nextAlive
  rfl
@[simp] theorem State.nextAlive_calReference (s : State) (r : Nat) : (s.nextAlive r).calReference = s.calReference := by 
  unfold State.nextAlive
  rfl
@[simp] theorem State.mbxEvent_pending (s : State) (r bit : Nat) : (s.mbxEvent r bit).pending = s.pending := by 
  unfold State.mbxEvent
  rfl
@[simp] theorem State.mbxEvent_shadows (s : State) (r bit : Nat) : (s.mbxEvent r bit).shadows = s.shadows := by 
  unfold State.mbxEvent
  rfl
@[simp] theorem State.mbxEvent_tiles (s : State) (r bit : Nat) : (s.mbxEvent r bit).tiles = s.tiles := by 
  unfold State.mbxEvent
  rfl
@[simp] theorem State.mbxEvent_fabric (s : State) (r bit : Nat) : (s.mbxEvent r bit).fabric = s.fabric := by 
  unfold State.mbxEvent
  rfl
@[simp] theorem State.mbxEvent_kv (s : State) (r bit : Nat) : (s.mbxEvent r bit).kv = s.kv := by 
  unfold State.mbxEvent
  rfl
@[simp] theorem State.mbxEvent_prm (s : State) (r bit : Nat) : (s.mbxEvent r bit).prm = s.prm := by 
  unfold State.mbxEvent
  rfl
@[simp] theorem State.mbxEvent_ldr (s : State) (r bit : Nat) : (s.mbxEvent r bit).ldr = s.ldr := by 
  unfold State.mbxEvent
  rfl
@[simp] theorem State.mbxEvent_mbx (s : State) (r bit : Nat) : (s.mbxEvent r bit).mbx = s.mbx := by 
  unfold State.mbxEvent
  rfl
@[simp] theorem State.mbxEvent_pcie (s : State) (r bit : Nat) : (s.mbxEvent r bit).pcie = s.pcie := by 
  unfold State.mbxEvent
  rfl
@[simp] theorem State.mbxEvent_net (s : State) (r bit : Nat) : (s.mbxEvent r bit).net = s.net := by 
  unfold State.mbxEvent
  rfl
@[simp] theorem State.mbxEvent_boot (s : State) (r bit : Nat) : (s.mbxEvent r bit).boot = s.boot := by 
  unfold State.mbxEvent
  rfl
@[simp] theorem State.mbxEvent_pwr (s : State) (r bit : Nat) : (s.mbxEvent r bit).pwr = s.pwr := by 
  unfold State.mbxEvent
  rfl
@[simp] theorem State.mbxEvent_hkm (s : State) (r bit : Nat) : (s.mbxEvent r bit).hkm = s.hkm := by 
  unfold State.mbxEvent
  rfl
@[simp] theorem State.mbxEvent_integ (s : State) (r bit : Nat) : (s.mbxEvent r bit).integ = s.integ := by 
  unfold State.mbxEvent
  rfl
@[simp] theorem State.mbxEvent_ledger (s : State) (r bit : Nat) : (s.mbxEvent r bit).ledger = s.ledger := by 
  unfold State.mbxEvent
  rfl
@[simp] theorem State.mbxEvent_cnt (s : State) (r bit : Nat) : (s.mbxEvent r bit).cnt = s.cnt := by 
  unfold State.mbxEvent
  rfl
@[simp] theorem State.mbxEvent_outside (s : State) (r bit : Nat) : (s.mbxEvent r bit).outside = s.outside := by 
  unfold State.mbxEvent
  rfl
@[simp] theorem State.mbxEvent_calStart (s : State) (r bit : Nat) : (s.mbxEvent r bit).calStart = s.calStart := by 
  unfold State.mbxEvent
  rfl
@[simp] theorem State.mbxEvent_calReference (s : State) (r bit : Nat) : (s.mbxEvent r bit).calReference = s.calReference := by 
  unfold State.mbxEvent
  rfl
@[simp] theorem State.complete_pending (s : State) (e : Entry) (st : Status) (result : List Byte) : (s.complete e st result).pending = s.pending := by 
  simp [State.complete]
@[simp] theorem State.complete_regs (s : State) (e : Entry) (st : Status) (result : List Byte) : (s.complete e st result).regs = s.regs := by 
  simp [State.complete]
@[simp] theorem State.complete_shadows (s : State) (e : Entry) (st : Status) (result : List Byte) : (s.complete e st result).shadows = s.shadows := by 
  simp [State.complete]
@[simp] theorem State.complete_tiles (s : State) (e : Entry) (st : Status) (result : List Byte) : (s.complete e st result).tiles = s.tiles := by 
  simp [State.complete]
@[simp] theorem State.complete_fabric (s : State) (e : Entry) (st : Status) (result : List Byte) : (s.complete e st result).fabric = s.fabric := by 
  simp [State.complete]
@[simp] theorem State.complete_kv (s : State) (e : Entry) (st : Status) (result : List Byte) : (s.complete e st result).kv = s.kv := by 
  simp [State.complete]
@[simp] theorem State.complete_prm (s : State) (e : Entry) (st : Status) (result : List Byte) : (s.complete e st result).prm = s.prm := by 
  simp [State.complete]
@[simp] theorem State.complete_ldr (s : State) (e : Entry) (st : Status) (result : List Byte) : (s.complete e st result).ldr = s.ldr := by 
  simp [State.complete]
@[simp] theorem State.complete_pcie (s : State) (e : Entry) (st : Status) (result : List Byte) : (s.complete e st result).pcie = s.pcie := by 
  simp [State.complete]
@[simp] theorem State.complete_net (s : State) (e : Entry) (st : Status) (result : List Byte) : (s.complete e st result).net = s.net := by 
  simp [State.complete]
@[simp] theorem State.complete_boot (s : State) (e : Entry) (st : Status) (result : List Byte) : (s.complete e st result).boot = s.boot := by 
  simp [State.complete]
@[simp] theorem State.complete_pwr (s : State) (e : Entry) (st : Status) (result : List Byte) : (s.complete e st result).pwr = s.pwr := by 
  simp [State.complete]
@[simp] theorem State.complete_hkm (s : State) (e : Entry) (st : Status) (result : List Byte) : (s.complete e st result).hkm = s.hkm := by 
  simp [State.complete]
@[simp] theorem State.complete_integ (s : State) (e : Entry) (st : Status) (result : List Byte) : (s.complete e st result).integ = s.integ := by 
  simp [State.complete]
@[simp] theorem State.complete_ledger (s : State) (e : Entry) (st : Status) (result : List Byte) : (s.complete e st result).ledger = s.ledger := by 
  simp [State.complete]
@[simp] theorem State.complete_cnt (s : State) (e : Entry) (st : Status) (result : List Byte) : (s.complete e st result).cnt = s.cnt := by 
  simp [State.complete]
@[simp] theorem State.complete_outside (s : State) (e : Entry) (st : Status) (result : List Byte) : (s.complete e st result).outside = s.outside := by 
  simp [State.complete]
@[simp] theorem State.complete_calStart (s : State) (e : Entry) (st : Status) (result : List Byte) : (s.complete e st result).calStart = s.calStart := by 
  simp [State.complete]
@[simp] theorem State.complete_calReference (s : State) (e : Entry) (st : Status) (result : List Byte) : (s.complete e st result).calReference = s.calReference := by 
  simp [State.complete]
@[simp] theorem State.disableRing_pending (s : State) (r : Nat) : (s.disableRing r).pending = s.pending := by 
  unfold State.disableRing
  rfl
@[simp] theorem State.disableRing_regs (s : State) (r : Nat) : (s.disableRing r).regs = s.regs := by 
  unfold State.disableRing
  rfl
@[simp] theorem State.disableRing_shadows (s : State) (r : Nat) : (s.disableRing r).shadows = s.shadows := by 
  unfold State.disableRing
  rfl
@[simp] theorem State.disableRing_tiles (s : State) (r : Nat) : (s.disableRing r).tiles = s.tiles := by 
  unfold State.disableRing
  rfl
@[simp] theorem State.disableRing_fabric (s : State) (r : Nat) : (s.disableRing r).fabric = s.fabric := by 
  unfold State.disableRing
  rfl
@[simp] theorem State.disableRing_kv (s : State) (r : Nat) : (s.disableRing r).kv = s.kv := by 
  unfold State.disableRing
  rfl
@[simp] theorem State.disableRing_prm (s : State) (r : Nat) : (s.disableRing r).prm = s.prm := by 
  unfold State.disableRing
  rfl
@[simp] theorem State.disableRing_ldr (s : State) (r : Nat) : (s.disableRing r).ldr = s.ldr := by 
  unfold State.disableRing
  rfl
@[simp] theorem State.disableRing_pcie (s : State) (r : Nat) : (s.disableRing r).pcie = s.pcie := by 
  unfold State.disableRing
  rfl
@[simp] theorem State.disableRing_net (s : State) (r : Nat) : (s.disableRing r).net = s.net := by 
  unfold State.disableRing
  rfl
@[simp] theorem State.disableRing_boot (s : State) (r : Nat) : (s.disableRing r).boot = s.boot := by 
  unfold State.disableRing
  rfl
@[simp] theorem State.disableRing_pwr (s : State) (r : Nat) : (s.disableRing r).pwr = s.pwr := by 
  unfold State.disableRing
  rfl
@[simp] theorem State.disableRing_hkm (s : State) (r : Nat) : (s.disableRing r).hkm = s.hkm := by 
  unfold State.disableRing
  rfl
@[simp] theorem State.disableRing_integ (s : State) (r : Nat) : (s.disableRing r).integ = s.integ := by 
  unfold State.disableRing
  rfl
@[simp] theorem State.disableRing_ledger (s : State) (r : Nat) : (s.disableRing r).ledger = s.ledger := by 
  unfold State.disableRing
  rfl
@[simp] theorem State.disableRing_cnt (s : State) (r : Nat) : (s.disableRing r).cnt = s.cnt := by 
  unfold State.disableRing
  rfl
@[simp] theorem State.disableRing_outside (s : State) (r : Nat) : (s.disableRing r).outside = s.outside := by 
  unfold State.disableRing
  rfl
@[simp] theorem State.disableRing_calStart (s : State) (r : Nat) : (s.disableRing r).calStart = s.calStart := by 
  unfold State.disableRing
  rfl
@[simp] theorem State.disableRing_calReference (s : State) (r : Nat) : (s.disableRing r).calReference = s.calReference := by 
  unfold State.disableRing
  rfl
@[simp] theorem State.writeShadow_pending (s : State) (r : Nat) : (s.writeShadow r).pending = s.pending := by 
  unfold State.writeShadow
  rfl
@[simp] theorem State.writeShadow_regs (s : State) (r : Nat) : (s.writeShadow r).regs = s.regs := by 
  unfold State.writeShadow
  rfl
@[simp] theorem State.writeShadow_shadows (s : State) (r : Nat) : (s.writeShadow r).shadows = s.shadows := by 
  unfold State.writeShadow
  rfl
@[simp] theorem State.writeShadow_tiles (s : State) (r : Nat) : (s.writeShadow r).tiles = s.tiles := by 
  unfold State.writeShadow
  rfl
@[simp] theorem State.writeShadow_fabric (s : State) (r : Nat) : (s.writeShadow r).fabric = s.fabric := by 
  unfold State.writeShadow
  rfl
@[simp] theorem State.writeShadow_kv (s : State) (r : Nat) : (s.writeShadow r).kv = s.kv := by 
  unfold State.writeShadow
  rfl
@[simp] theorem State.writeShadow_prm (s : State) (r : Nat) : (s.writeShadow r).prm = s.prm := by 
  unfold State.writeShadow
  rfl
@[simp] theorem State.writeShadow_ldr (s : State) (r : Nat) : (s.writeShadow r).ldr = s.ldr := by 
  unfold State.writeShadow
  rfl
@[simp] theorem State.writeShadow_mbx (s : State) (r : Nat) : (s.writeShadow r).mbx = s.mbx := by 
  unfold State.writeShadow
  rfl
@[simp] theorem State.writeShadow_pcie (s : State) (r : Nat) : (s.writeShadow r).pcie = s.pcie := by 
  unfold State.writeShadow
  rfl
@[simp] theorem State.writeShadow_net (s : State) (r : Nat) : (s.writeShadow r).net = s.net := by 
  unfold State.writeShadow
  rfl
@[simp] theorem State.writeShadow_boot (s : State) (r : Nat) : (s.writeShadow r).boot = s.boot := by 
  unfold State.writeShadow
  rfl
@[simp] theorem State.writeShadow_pwr (s : State) (r : Nat) : (s.writeShadow r).pwr = s.pwr := by 
  unfold State.writeShadow
  rfl
@[simp] theorem State.writeShadow_hkm (s : State) (r : Nat) : (s.writeShadow r).hkm = s.hkm := by 
  unfold State.writeShadow
  rfl
@[simp] theorem State.writeShadow_integ (s : State) (r : Nat) : (s.writeShadow r).integ = s.integ := by 
  unfold State.writeShadow
  rfl
@[simp] theorem State.writeShadow_ledger (s : State) (r : Nat) : (s.writeShadow r).ledger = s.ledger := by 
  unfold State.writeShadow
  rfl
@[simp] theorem State.writeShadow_cnt (s : State) (r : Nat) : (s.writeShadow r).cnt = s.cnt := by 
  unfold State.writeShadow
  rfl
@[simp] theorem State.writeShadow_calStart (s : State) (r : Nat) : (s.writeShadow r).calStart = s.calStart := by 
  unfold State.writeShadow
  rfl
@[simp] theorem State.writeShadow_calReference (s : State) (r : Nat) : (s.writeShadow r).calReference = s.calReference := by 
  unfold State.writeShadow
  rfl
@[simp] theorem State.signal_pending (s : State) (r : Nat) : (s.signal r).pending = s.pending := by 
  simp [State.signal]
@[simp] theorem State.signal_shadows (s : State) (r : Nat) : (s.signal r).shadows = s.shadows := by 
  simp [State.signal]
@[simp] theorem State.signal_tiles (s : State) (r : Nat) : (s.signal r).tiles = s.tiles := by 
  simp [State.signal]
@[simp] theorem State.signal_fabric (s : State) (r : Nat) : (s.signal r).fabric = s.fabric := by 
  simp [State.signal]
@[simp] theorem State.signal_kv (s : State) (r : Nat) : (s.signal r).kv = s.kv := by 
  simp [State.signal]
@[simp] theorem State.signal_prm (s : State) (r : Nat) : (s.signal r).prm = s.prm := by 
  simp [State.signal]
@[simp] theorem State.signal_ldr (s : State) (r : Nat) : (s.signal r).ldr = s.ldr := by 
  simp [State.signal]
@[simp] theorem State.signal_pcie (s : State) (r : Nat) : (s.signal r).pcie = s.pcie := by 
  simp [State.signal]
@[simp] theorem State.signal_net (s : State) (r : Nat) : (s.signal r).net = s.net := by 
  simp [State.signal]
@[simp] theorem State.signal_boot (s : State) (r : Nat) : (s.signal r).boot = s.boot := by 
  simp [State.signal]
@[simp] theorem State.signal_pwr (s : State) (r : Nat) : (s.signal r).pwr = s.pwr := by 
  simp [State.signal]
@[simp] theorem State.signal_hkm (s : State) (r : Nat) : (s.signal r).hkm = s.hkm := by 
  simp [State.signal]
@[simp] theorem State.signal_integ (s : State) (r : Nat) : (s.signal r).integ = s.integ := by 
  simp [State.signal]
@[simp] theorem State.signal_ledger (s : State) (r : Nat) : (s.signal r).ledger = s.ledger := by 
  simp [State.signal]
@[simp] theorem State.signal_cnt (s : State) (r : Nat) : (s.signal r).cnt = s.cnt := by 
  simp [State.signal]
@[simp] theorem State.signal_calStart (s : State) (r : Nat) : (s.signal r).calStart = s.calStart := by 
  simp [State.signal]
@[simp] theorem State.signal_calReference (s : State) (r : Nat) : (s.signal r).calReference = s.calReference := by 
  simp [State.signal]
@[simp] theorem State.raiseCause_pending (s : State) (bit : Nat) : (s.raiseCause bit).pending = s.pending := by 
  unfold State.raiseCause
  rfl
@[simp] theorem State.raiseCause_shadows (s : State) (bit : Nat) : (s.raiseCause bit).shadows = s.shadows := by 
  unfold State.raiseCause
  rfl
@[simp] theorem State.raiseCause_tiles (s : State) (bit : Nat) : (s.raiseCause bit).tiles = s.tiles := by 
  unfold State.raiseCause
  rfl
@[simp] theorem State.raiseCause_kv (s : State) (bit : Nat) : (s.raiseCause bit).kv = s.kv := by 
  unfold State.raiseCause
  rfl
@[simp] theorem State.raiseCause_prm (s : State) (bit : Nat) : (s.raiseCause bit).prm = s.prm := by 
  unfold State.raiseCause
  rfl
@[simp] theorem State.raiseCause_ldr (s : State) (bit : Nat) : (s.raiseCause bit).ldr = s.ldr := by 
  unfold State.raiseCause
  rfl
@[simp] theorem State.raiseCause_mbx (s : State) (bit : Nat) : (s.raiseCause bit).mbx = s.mbx := by 
  unfold State.raiseCause
  rfl
@[simp] theorem State.raiseCause_pcie (s : State) (bit : Nat) : (s.raiseCause bit).pcie = s.pcie := by 
  unfold State.raiseCause
  rfl
@[simp] theorem State.raiseCause_net (s : State) (bit : Nat) : (s.raiseCause bit).net = s.net := by 
  unfold State.raiseCause
  rfl
@[simp] theorem State.raiseCause_boot (s : State) (bit : Nat) : (s.raiseCause bit).boot = s.boot := by 
  unfold State.raiseCause
  rfl
@[simp] theorem State.raiseCause_pwr (s : State) (bit : Nat) : (s.raiseCause bit).pwr = s.pwr := by 
  unfold State.raiseCause
  rfl
@[simp] theorem State.raiseCause_hkm (s : State) (bit : Nat) : (s.raiseCause bit).hkm = s.hkm := by 
  unfold State.raiseCause
  rfl
@[simp] theorem State.raiseCause_integ (s : State) (bit : Nat) : (s.raiseCause bit).integ = s.integ := by 
  unfold State.raiseCause
  rfl
@[simp] theorem State.raiseCause_ledger (s : State) (bit : Nat) : (s.raiseCause bit).ledger = s.ledger := by 
  unfold State.raiseCause
  rfl
@[simp] theorem State.raiseCause_cnt (s : State) (bit : Nat) : (s.raiseCause bit).cnt = s.cnt := by 
  unfold State.raiseCause
  rfl
@[simp] theorem State.raiseCause_outside (s : State) (bit : Nat) : (s.raiseCause bit).outside = s.outside := by 
  unfold State.raiseCause
  rfl
@[simp] theorem State.raiseCause_calStart (s : State) (bit : Nat) : (s.raiseCause bit).calStart = s.calStart := by 
  unfold State.raiseCause
  rfl
@[simp] theorem State.raiseCause_calReference (s : State) (bit : Nat) : (s.raiseCause bit).calReference = s.calReference := by 
  unfold State.raiseCause
  rfl
@[simp] theorem State.dropCause_pending (s : State) (bit : Nat) : (s.dropCause bit).pending = s.pending := by 
  unfold State.dropCause
  rfl
@[simp] theorem State.dropCause_regs (s : State) (bit : Nat) : (s.dropCause bit).regs = s.regs := by 
  unfold State.dropCause
  rfl
@[simp] theorem State.dropCause_shadows (s : State) (bit : Nat) : (s.dropCause bit).shadows = s.shadows := by 
  unfold State.dropCause
  rfl
@[simp] theorem State.dropCause_tiles (s : State) (bit : Nat) : (s.dropCause bit).tiles = s.tiles := by 
  unfold State.dropCause
  rfl
@[simp] theorem State.dropCause_kv (s : State) (bit : Nat) : (s.dropCause bit).kv = s.kv := by 
  unfold State.dropCause
  rfl
@[simp] theorem State.dropCause_prm (s : State) (bit : Nat) : (s.dropCause bit).prm = s.prm := by 
  unfold State.dropCause
  rfl
@[simp] theorem State.dropCause_ldr (s : State) (bit : Nat) : (s.dropCause bit).ldr = s.ldr := by 
  unfold State.dropCause
  rfl
@[simp] theorem State.dropCause_mbx (s : State) (bit : Nat) : (s.dropCause bit).mbx = s.mbx := by 
  unfold State.dropCause
  rfl
@[simp] theorem State.dropCause_pcie (s : State) (bit : Nat) : (s.dropCause bit).pcie = s.pcie := by 
  unfold State.dropCause
  rfl
@[simp] theorem State.dropCause_net (s : State) (bit : Nat) : (s.dropCause bit).net = s.net := by 
  unfold State.dropCause
  rfl
@[simp] theorem State.dropCause_boot (s : State) (bit : Nat) : (s.dropCause bit).boot = s.boot := by 
  unfold State.dropCause
  rfl
@[simp] theorem State.dropCause_pwr (s : State) (bit : Nat) : (s.dropCause bit).pwr = s.pwr := by 
  unfold State.dropCause
  rfl
@[simp] theorem State.dropCause_hkm (s : State) (bit : Nat) : (s.dropCause bit).hkm = s.hkm := by 
  unfold State.dropCause
  rfl
@[simp] theorem State.dropCause_integ (s : State) (bit : Nat) : (s.dropCause bit).integ = s.integ := by 
  unfold State.dropCause
  rfl
@[simp] theorem State.dropCause_ledger (s : State) (bit : Nat) : (s.dropCause bit).ledger = s.ledger := by 
  unfold State.dropCause
  rfl
@[simp] theorem State.dropCause_cnt (s : State) (bit : Nat) : (s.dropCause bit).cnt = s.cnt := by 
  unfold State.dropCause
  rfl
@[simp] theorem State.dropCause_outside (s : State) (bit : Nat) : (s.dropCause bit).outside = s.outside := by 
  unfold State.dropCause
  rfl
@[simp] theorem State.dropCause_calStart (s : State) (bit : Nat) : (s.dropCause bit).calStart = s.calStart := by 
  unfold State.dropCause
  rfl
@[simp] theorem State.dropCause_calReference (s : State) (bit : Nat) : (s.dropCause bit).calReference = s.calReference := by 
  unfold State.dropCause
  rfl
@[simp] theorem State.tileCycles_pending (s : State) (at_ n : Nat) : (s.tileCycles at_ n).pending = s.pending := by 
  unfold State.tileCycles
  rfl
@[simp] theorem State.tileCycles_regs (s : State) (at_ n : Nat) : (s.tileCycles at_ n).regs = s.regs := by 
  unfold State.tileCycles
  rfl
@[simp] theorem State.tileCycles_shadows (s : State) (at_ n : Nat) : (s.tileCycles at_ n).shadows = s.shadows := by 
  unfold State.tileCycles
  rfl
@[simp] theorem State.tileCycles_fabric (s : State) (at_ n : Nat) : (s.tileCycles at_ n).fabric = s.fabric := by 
  unfold State.tileCycles
  rfl
@[simp] theorem State.tileCycles_kv (s : State) (at_ n : Nat) : (s.tileCycles at_ n).kv = s.kv := by 
  unfold State.tileCycles
  rfl
@[simp] theorem State.tileCycles_prm (s : State) (at_ n : Nat) : (s.tileCycles at_ n).prm = s.prm := by 
  unfold State.tileCycles
  rfl
@[simp] theorem State.tileCycles_ldr (s : State) (at_ n : Nat) : (s.tileCycles at_ n).ldr = s.ldr := by 
  unfold State.tileCycles
  rfl
@[simp] theorem State.tileCycles_mbx (s : State) (at_ n : Nat) : (s.tileCycles at_ n).mbx = s.mbx := by 
  unfold State.tileCycles
  rfl
@[simp] theorem State.tileCycles_pcie (s : State) (at_ n : Nat) : (s.tileCycles at_ n).pcie = s.pcie := by 
  unfold State.tileCycles
  rfl
@[simp] theorem State.tileCycles_net (s : State) (at_ n : Nat) : (s.tileCycles at_ n).net = s.net := by 
  unfold State.tileCycles
  rfl
@[simp] theorem State.tileCycles_boot (s : State) (at_ n : Nat) : (s.tileCycles at_ n).boot = s.boot := by 
  unfold State.tileCycles
  rfl
@[simp] theorem State.tileCycles_pwr (s : State) (at_ n : Nat) : (s.tileCycles at_ n).pwr = s.pwr := by 
  unfold State.tileCycles
  rfl
@[simp] theorem State.tileCycles_hkm (s : State) (at_ n : Nat) : (s.tileCycles at_ n).hkm = s.hkm := by 
  unfold State.tileCycles
  rfl
@[simp] theorem State.tileCycles_integ (s : State) (at_ n : Nat) : (s.tileCycles at_ n).integ = s.integ := by 
  unfold State.tileCycles
  rfl
@[simp] theorem State.tileCycles_ledger (s : State) (at_ n : Nat) : (s.tileCycles at_ n).ledger = s.ledger := by 
  unfold State.tileCycles
  rfl
@[simp] theorem State.tileCycles_cnt (s : State) (at_ n : Nat) : (s.tileCycles at_ n).cnt = s.cnt := by 
  unfold State.tileCycles
  rfl
@[simp] theorem State.tileCycles_outside (s : State) (at_ n : Nat) : (s.tileCycles at_ n).outside = s.outside := by 
  unfold State.tileCycles
  rfl
@[simp] theorem State.tileCycles_calStart (s : State) (at_ n : Nat) : (s.tileCycles at_ n).calStart = s.calStart := by 
  unfold State.tileCycles
  rfl
@[simp] theorem State.tileCycles_calReference (s : State) (at_ n : Nat) : (s.tileCycles at_ n).calReference = s.calReference := by 
  unfold State.tileCycles
  rfl
@[simp] theorem State.arrive_pending (s : State) (t : Nat) (a : Arrival) : (s.arrive t a).pending = s.pending := by 
  unfold State.arrive
  rfl
@[simp] theorem State.arrive_regs (s : State) (t : Nat) (a : Arrival) : (s.arrive t a).regs = s.regs := by 
  unfold State.arrive
  rfl
@[simp] theorem State.arrive_shadows (s : State) (t : Nat) (a : Arrival) : (s.arrive t a).shadows = s.shadows := by 
  unfold State.arrive
  rfl
@[simp] theorem State.arrive_fabric (s : State) (t : Nat) (a : Arrival) : (s.arrive t a).fabric = s.fabric := by 
  unfold State.arrive
  rfl
@[simp] theorem State.arrive_kv (s : State) (t : Nat) (a : Arrival) : (s.arrive t a).kv = s.kv := by 
  unfold State.arrive
  rfl
@[simp] theorem State.arrive_prm (s : State) (t : Nat) (a : Arrival) : (s.arrive t a).prm = s.prm := by 
  unfold State.arrive
  rfl
@[simp] theorem State.arrive_ldr (s : State) (t : Nat) (a : Arrival) : (s.arrive t a).ldr = s.ldr := by 
  unfold State.arrive
  rfl
@[simp] theorem State.arrive_mbx (s : State) (t : Nat) (a : Arrival) : (s.arrive t a).mbx = s.mbx := by 
  unfold State.arrive
  rfl
@[simp] theorem State.arrive_pcie (s : State) (t : Nat) (a : Arrival) : (s.arrive t a).pcie = s.pcie := by 
  unfold State.arrive
  rfl
@[simp] theorem State.arrive_net (s : State) (t : Nat) (a : Arrival) : (s.arrive t a).net = s.net := by 
  unfold State.arrive
  rfl
@[simp] theorem State.arrive_boot (s : State) (t : Nat) (a : Arrival) : (s.arrive t a).boot = s.boot := by 
  unfold State.arrive
  rfl
@[simp] theorem State.arrive_pwr (s : State) (t : Nat) (a : Arrival) : (s.arrive t a).pwr = s.pwr := by 
  unfold State.arrive
  rfl
@[simp] theorem State.arrive_hkm (s : State) (t : Nat) (a : Arrival) : (s.arrive t a).hkm = s.hkm := by 
  unfold State.arrive
  rfl
@[simp] theorem State.arrive_integ (s : State) (t : Nat) (a : Arrival) : (s.arrive t a).integ = s.integ := by 
  unfold State.arrive
  rfl
@[simp] theorem State.arrive_ledger (s : State) (t : Nat) (a : Arrival) : (s.arrive t a).ledger = s.ledger := by 
  unfold State.arrive
  rfl
@[simp] theorem State.arrive_cnt (s : State) (t : Nat) (a : Arrival) : (s.arrive t a).cnt = s.cnt := by 
  unfold State.arrive
  rfl
@[simp] theorem State.arrive_outside (s : State) (t : Nat) (a : Arrival) : (s.arrive t a).outside = s.outside := by 
  unfold State.arrive
  rfl
@[simp] theorem State.arrive_calStart (s : State) (t : Nat) (a : Arrival) : (s.arrive t a).calStart = s.calStart := by 
  unfold State.arrive
  rfl
@[simp] theorem State.arrive_calReference (s : State) (t : Nat) (a : Arrival) : (s.arrive t a).calReference = s.calReference := by 
  unfold State.arrive
  rfl
@[simp] theorem State.sramWrite_pending (s : State) (t a : Nat) (bs : List Byte) : (s.sramWrite t a bs).pending = s.pending := by 
  unfold State.sramWrite
  rfl
@[simp] theorem State.sramWrite_regs (s : State) (t a : Nat) (bs : List Byte) : (s.sramWrite t a bs).regs = s.regs := by 
  unfold State.sramWrite
  rfl
@[simp] theorem State.sramWrite_shadows (s : State) (t a : Nat) (bs : List Byte) : (s.sramWrite t a bs).shadows = s.shadows := by 
  unfold State.sramWrite
  rfl
@[simp] theorem State.sramWrite_fabric (s : State) (t a : Nat) (bs : List Byte) : (s.sramWrite t a bs).fabric = s.fabric := by 
  unfold State.sramWrite
  rfl
@[simp] theorem State.sramWrite_kv (s : State) (t a : Nat) (bs : List Byte) : (s.sramWrite t a bs).kv = s.kv := by 
  unfold State.sramWrite
  rfl
@[simp] theorem State.sramWrite_prm (s : State) (t a : Nat) (bs : List Byte) : (s.sramWrite t a bs).prm = s.prm := by 
  unfold State.sramWrite
  rfl
@[simp] theorem State.sramWrite_ldr (s : State) (t a : Nat) (bs : List Byte) : (s.sramWrite t a bs).ldr = s.ldr := by 
  unfold State.sramWrite
  rfl
@[simp] theorem State.sramWrite_mbx (s : State) (t a : Nat) (bs : List Byte) : (s.sramWrite t a bs).mbx = s.mbx := by 
  unfold State.sramWrite
  rfl
@[simp] theorem State.sramWrite_pcie (s : State) (t a : Nat) (bs : List Byte) : (s.sramWrite t a bs).pcie = s.pcie := by 
  unfold State.sramWrite
  rfl
@[simp] theorem State.sramWrite_net (s : State) (t a : Nat) (bs : List Byte) : (s.sramWrite t a bs).net = s.net := by 
  unfold State.sramWrite
  rfl
@[simp] theorem State.sramWrite_boot (s : State) (t a : Nat) (bs : List Byte) : (s.sramWrite t a bs).boot = s.boot := by 
  unfold State.sramWrite
  rfl
@[simp] theorem State.sramWrite_pwr (s : State) (t a : Nat) (bs : List Byte) : (s.sramWrite t a bs).pwr = s.pwr := by 
  unfold State.sramWrite
  rfl
@[simp] theorem State.sramWrite_hkm (s : State) (t a : Nat) (bs : List Byte) : (s.sramWrite t a bs).hkm = s.hkm := by 
  unfold State.sramWrite
  rfl
@[simp] theorem State.sramWrite_integ (s : State) (t a : Nat) (bs : List Byte) : (s.sramWrite t a bs).integ = s.integ := by 
  unfold State.sramWrite
  rfl
@[simp] theorem State.sramWrite_ledger (s : State) (t a : Nat) (bs : List Byte) : (s.sramWrite t a bs).ledger = s.ledger := by 
  unfold State.sramWrite
  rfl
@[simp] theorem State.sramWrite_cnt (s : State) (t a : Nat) (bs : List Byte) : (s.sramWrite t a bs).cnt = s.cnt := by 
  unfold State.sramWrite
  rfl
@[simp] theorem State.sramWrite_outside (s : State) (t a : Nat) (bs : List Byte) : (s.sramWrite t a bs).outside = s.outside := by 
  unfold State.sramWrite
  rfl
@[simp] theorem State.sramWrite_calStart (s : State) (t a : Nat) (bs : List Byte) : (s.sramWrite t a bs).calStart = s.calStart := by 
  unfold State.sramWrite
  rfl
@[simp] theorem State.sramWrite_calReference (s : State) (t a : Nat) (bs : List Byte) : (s.sramWrite t a bs).calReference = s.calReference := by 
  unfold State.sramWrite
  rfl
@[simp] theorem State.sramPut_pending (s : State) (t a n : Nat) (ws : List Nat) : (s.sramPut t a n ws).pending = s.pending := by 
  unfold State.sramPut
  rfl
@[simp] theorem State.sramPut_regs (s : State) (t a n : Nat) (ws : List Nat) : (s.sramPut t a n ws).regs = s.regs := by 
  unfold State.sramPut
  rfl
@[simp] theorem State.sramPut_shadows (s : State) (t a n : Nat) (ws : List Nat) : (s.sramPut t a n ws).shadows = s.shadows := by 
  unfold State.sramPut
  rfl
@[simp] theorem State.sramPut_fabric (s : State) (t a n : Nat) (ws : List Nat) : (s.sramPut t a n ws).fabric = s.fabric := by 
  unfold State.sramPut
  rfl
@[simp] theorem State.sramPut_kv (s : State) (t a n : Nat) (ws : List Nat) : (s.sramPut t a n ws).kv = s.kv := by 
  unfold State.sramPut
  rfl
@[simp] theorem State.sramPut_prm (s : State) (t a n : Nat) (ws : List Nat) : (s.sramPut t a n ws).prm = s.prm := by 
  unfold State.sramPut
  rfl
@[simp] theorem State.sramPut_ldr (s : State) (t a n : Nat) (ws : List Nat) : (s.sramPut t a n ws).ldr = s.ldr := by 
  unfold State.sramPut
  rfl
@[simp] theorem State.sramPut_mbx (s : State) (t a n : Nat) (ws : List Nat) : (s.sramPut t a n ws).mbx = s.mbx := by 
  unfold State.sramPut
  rfl
@[simp] theorem State.sramPut_pcie (s : State) (t a n : Nat) (ws : List Nat) : (s.sramPut t a n ws).pcie = s.pcie := by 
  unfold State.sramPut
  rfl
@[simp] theorem State.sramPut_net (s : State) (t a n : Nat) (ws : List Nat) : (s.sramPut t a n ws).net = s.net := by 
  unfold State.sramPut
  rfl
@[simp] theorem State.sramPut_boot (s : State) (t a n : Nat) (ws : List Nat) : (s.sramPut t a n ws).boot = s.boot := by 
  unfold State.sramPut
  rfl
@[simp] theorem State.sramPut_pwr (s : State) (t a n : Nat) (ws : List Nat) : (s.sramPut t a n ws).pwr = s.pwr := by 
  unfold State.sramPut
  rfl
@[simp] theorem State.sramPut_hkm (s : State) (t a n : Nat) (ws : List Nat) : (s.sramPut t a n ws).hkm = s.hkm := by 
  unfold State.sramPut
  rfl
@[simp] theorem State.sramPut_integ (s : State) (t a n : Nat) (ws : List Nat) : (s.sramPut t a n ws).integ = s.integ := by 
  unfold State.sramPut
  rfl
@[simp] theorem State.sramPut_ledger (s : State) (t a n : Nat) (ws : List Nat) : (s.sramPut t a n ws).ledger = s.ledger := by 
  unfold State.sramPut
  rfl
@[simp] theorem State.sramPut_cnt (s : State) (t a n : Nat) (ws : List Nat) : (s.sramPut t a n ws).cnt = s.cnt := by 
  unfold State.sramPut
  rfl
@[simp] theorem State.sramPut_outside (s : State) (t a n : Nat) (ws : List Nat) : (s.sramPut t a n ws).outside = s.outside := by 
  unfold State.sramPut
  rfl
@[simp] theorem State.sramPut_calStart (s : State) (t a n : Nat) (ws : List Nat) : (s.sramPut t a n ws).calStart = s.calStart := by 
  unfold State.sramPut
  rfl
@[simp] theorem State.sramPut_calReference (s : State) (t a n : Nat) (ws : List Nat) : (s.sramPut t a n ws).calReference = s.calReference := by 
  unfold State.sramPut
  rfl
@[simp] theorem State.modStep_pending (s : State) (n : Nat) (f : Step → Step) : (s.modStep n f).pending = s.pending := by 
  unfold State.modStep
  rfl
@[simp] theorem State.modStep_regs (s : State) (n : Nat) (f : Step → Step) : (s.modStep n f).regs = s.regs := by 
  unfold State.modStep
  rfl
@[simp] theorem State.modStep_shadows (s : State) (n : Nat) (f : Step → Step) : (s.modStep n f).shadows = s.shadows := by 
  unfold State.modStep
  rfl
@[simp] theorem State.modStep_tiles (s : State) (n : Nat) (f : Step → Step) : (s.modStep n f).tiles = s.tiles := by 
  unfold State.modStep
  rfl
@[simp] theorem State.modStep_fabric (s : State) (n : Nat) (f : Step → Step) : (s.modStep n f).fabric = s.fabric := by 
  unfold State.modStep
  rfl
@[simp] theorem State.modStep_kv (s : State) (n : Nat) (f : Step → Step) : (s.modStep n f).kv = s.kv := by 
  unfold State.modStep
  rfl
@[simp] theorem State.modStep_prm (s : State) (n : Nat) (f : Step → Step) : (s.modStep n f).prm = s.prm := by 
  unfold State.modStep
  rfl
@[simp] theorem State.modStep_ldr (s : State) (n : Nat) (f : Step → Step) : (s.modStep n f).ldr = s.ldr := by 
  unfold State.modStep
  rfl
@[simp] theorem State.modStep_mbx (s : State) (n : Nat) (f : Step → Step) : (s.modStep n f).mbx = s.mbx := by 
  unfold State.modStep
  rfl
@[simp] theorem State.modStep_pcie (s : State) (n : Nat) (f : Step → Step) : (s.modStep n f).pcie = s.pcie := by 
  unfold State.modStep
  rfl
@[simp] theorem State.modStep_boot (s : State) (n : Nat) (f : Step → Step) : (s.modStep n f).boot = s.boot := by 
  unfold State.modStep
  rfl
@[simp] theorem State.modStep_pwr (s : State) (n : Nat) (f : Step → Step) : (s.modStep n f).pwr = s.pwr := by 
  unfold State.modStep
  rfl
@[simp] theorem State.modStep_hkm (s : State) (n : Nat) (f : Step → Step) : (s.modStep n f).hkm = s.hkm := by 
  unfold State.modStep
  rfl
@[simp] theorem State.modStep_integ (s : State) (n : Nat) (f : Step → Step) : (s.modStep n f).integ = s.integ := by 
  unfold State.modStep
  rfl
@[simp] theorem State.modStep_ledger (s : State) (n : Nat) (f : Step → Step) : (s.modStep n f).ledger = s.ledger := by 
  unfold State.modStep
  rfl
@[simp] theorem State.modStep_cnt (s : State) (n : Nat) (f : Step → Step) : (s.modStep n f).cnt = s.cnt := by 
  unfold State.modStep
  rfl
@[simp] theorem State.modStep_outside (s : State) (n : Nat) (f : Step → Step) : (s.modStep n f).outside = s.outside := by 
  unfold State.modStep
  rfl
@[simp] theorem State.modStep_calStart (s : State) (n : Nat) (f : Step → Step) : (s.modStep n f).calStart = s.calStart := by 
  unfold State.modStep
  rfl
@[simp] theorem State.modStep_calReference (s : State) (n : Nat) (f : Step → Step) : (s.modStep n f).calReference = s.calReference := by 
  unfold State.modStep
  rfl
@[simp] theorem State.enableFl_pending (s : State) (t : Nat) : (s.enableFl t).pending = s.pending := by 
  unfold State.enableFl
  rfl
@[simp] theorem State.enableFl_regs (s : State) (t : Nat) : (s.enableFl t).regs = s.regs := by 
  unfold State.enableFl
  rfl
@[simp] theorem State.enableFl_shadows (s : State) (t : Nat) : (s.enableFl t).shadows = s.shadows := by 
  unfold State.enableFl
  rfl
@[simp] theorem State.enableFl_fabric (s : State) (t : Nat) : (s.enableFl t).fabric = s.fabric := by 
  unfold State.enableFl
  rfl
@[simp] theorem State.enableFl_kv (s : State) (t : Nat) : (s.enableFl t).kv = s.kv := by 
  unfold State.enableFl
  rfl
@[simp] theorem State.enableFl_prm (s : State) (t : Nat) : (s.enableFl t).prm = s.prm := by 
  unfold State.enableFl
  rfl
@[simp] theorem State.enableFl_ldr (s : State) (t : Nat) : (s.enableFl t).ldr = s.ldr := by 
  unfold State.enableFl
  rfl
@[simp] theorem State.enableFl_mbx (s : State) (t : Nat) : (s.enableFl t).mbx = s.mbx := by 
  unfold State.enableFl
  rfl
@[simp] theorem State.enableFl_pcie (s : State) (t : Nat) : (s.enableFl t).pcie = s.pcie := by 
  unfold State.enableFl
  rfl
@[simp] theorem State.enableFl_net (s : State) (t : Nat) : (s.enableFl t).net = s.net := by 
  unfold State.enableFl
  rfl
@[simp] theorem State.enableFl_boot (s : State) (t : Nat) : (s.enableFl t).boot = s.boot := by 
  unfold State.enableFl
  rfl
@[simp] theorem State.enableFl_pwr (s : State) (t : Nat) : (s.enableFl t).pwr = s.pwr := by 
  unfold State.enableFl
  rfl
@[simp] theorem State.enableFl_hkm (s : State) (t : Nat) : (s.enableFl t).hkm = s.hkm := by 
  unfold State.enableFl
  rfl
@[simp] theorem State.enableFl_integ (s : State) (t : Nat) : (s.enableFl t).integ = s.integ := by 
  unfold State.enableFl
  rfl
@[simp] theorem State.enableFl_ledger (s : State) (t : Nat) : (s.enableFl t).ledger = s.ledger := by 
  unfold State.enableFl
  rfl
@[simp] theorem State.enableFl_cnt (s : State) (t : Nat) : (s.enableFl t).cnt = s.cnt := by 
  unfold State.enableFl
  rfl
@[simp] theorem State.enableFl_outside (s : State) (t : Nat) : (s.enableFl t).outside = s.outside := by 
  unfold State.enableFl
  rfl
@[simp] theorem State.enableFl_calStart (s : State) (t : Nat) : (s.enableFl t).calStart = s.calStart := by 
  unfold State.enableFl
  rfl
@[simp] theorem State.enableFl_calReference (s : State) (t : Nat) : (s.enableFl t).calReference = s.calReference := by 
  unfold State.enableFl
  rfl
@[simp] theorem State.directLights_pending (s : State) (t : Nat) (direct : Bool) : (s.directLights t direct).pending = s.pending := by
  unfold State.directLights; split <;> simp
@[simp] theorem State.directLights_regs (s : State) (t : Nat) (direct : Bool) : (s.directLights t direct).regs = s.regs := by
  unfold State.directLights; split <;> simp
@[simp] theorem State.directLights_shadows (s : State) (t : Nat) (direct : Bool) : (s.directLights t direct).shadows = s.shadows := by
  unfold State.directLights; split <;> simp
@[simp] theorem State.directLights_fabric (s : State) (t : Nat) (direct : Bool) : (s.directLights t direct).fabric = s.fabric := by
  unfold State.directLights; split <;> simp
@[simp] theorem State.directLights_kv (s : State) (t : Nat) (direct : Bool) : (s.directLights t direct).kv = s.kv := by
  unfold State.directLights; split <;> simp
@[simp] theorem State.directLights_prm (s : State) (t : Nat) (direct : Bool) : (s.directLights t direct).prm = s.prm := by
  unfold State.directLights; split <;> simp
@[simp] theorem State.directLights_ldr (s : State) (t : Nat) (direct : Bool) : (s.directLights t direct).ldr = s.ldr := by
  unfold State.directLights; split <;> simp
@[simp] theorem State.directLights_mbx (s : State) (t : Nat) (direct : Bool) : (s.directLights t direct).mbx = s.mbx := by
  unfold State.directLights; split <;> simp
@[simp] theorem State.directLights_pcie (s : State) (t : Nat) (direct : Bool) : (s.directLights t direct).pcie = s.pcie := by
  unfold State.directLights; split <;> simp
@[simp] theorem State.directLights_net (s : State) (t : Nat) (direct : Bool) : (s.directLights t direct).net = s.net := by
  unfold State.directLights; split <;> simp
@[simp] theorem State.directLights_boot (s : State) (t : Nat) (direct : Bool) : (s.directLights t direct).boot = s.boot := by
  unfold State.directLights; split <;> simp
@[simp] theorem State.directLights_pwr (s : State) (t : Nat) (direct : Bool) : (s.directLights t direct).pwr = s.pwr := by
  unfold State.directLights; split <;> simp
@[simp] theorem State.directLights_hkm (s : State) (t : Nat) (direct : Bool) : (s.directLights t direct).hkm = s.hkm := by
  unfold State.directLights; split <;> simp
@[simp] theorem State.directLights_integ (s : State) (t : Nat) (direct : Bool) : (s.directLights t direct).integ = s.integ := by
  unfold State.directLights; split <;> simp
@[simp] theorem State.directLights_ledger (s : State) (t : Nat) (direct : Bool) : (s.directLights t direct).ledger = s.ledger := by
  unfold State.directLights; split <;> simp
@[simp] theorem State.directLights_cnt (s : State) (t : Nat) (direct : Bool) : (s.directLights t direct).cnt = s.cnt := by
  unfold State.directLights; split <;> simp
@[simp] theorem State.directLights_outside (s : State) (t : Nat) (direct : Bool) : (s.directLights t direct).outside = s.outside := by
  unfold State.directLights; split <;> simp
@[simp] theorem State.directLights_calStart (s : State) (t : Nat) (direct : Bool) : (s.directLights t direct).calStart = s.calStart := by
  unfold State.directLights; split <;> simp
@[simp] theorem State.directLights_calReference (s : State) (t : Nat) (direct : Bool) : (s.directLights t direct).calReference = s.calReference := by
  unfold State.directLights; split <;> simp
@[simp] theorem State.startRun_pending (s : State) (t : Nat) (arrays : List Nat) (direct : Bool) : (s.startRun t arrays direct).pending = s.pending := by 
  simp [State.startRun]
@[simp] theorem State.startRun_regs (s : State) (t : Nat) (arrays : List Nat) (direct : Bool) : (s.startRun t arrays direct).regs = s.regs := by 
  simp [State.startRun]
@[simp] theorem State.startRun_shadows (s : State) (t : Nat) (arrays : List Nat) (direct : Bool) : (s.startRun t arrays direct).shadows = s.shadows := by 
  simp [State.startRun]
@[simp] theorem State.startRun_fabric (s : State) (t : Nat) (arrays : List Nat) (direct : Bool) : (s.startRun t arrays direct).fabric = s.fabric := by 
  simp [State.startRun]
@[simp] theorem State.startRun_kv (s : State) (t : Nat) (arrays : List Nat) (direct : Bool) : (s.startRun t arrays direct).kv = s.kv := by 
  simp [State.startRun]
@[simp] theorem State.startRun_prm (s : State) (t : Nat) (arrays : List Nat) (direct : Bool) : (s.startRun t arrays direct).prm = s.prm := by 
  simp [State.startRun]
@[simp] theorem State.startRun_ldr (s : State) (t : Nat) (arrays : List Nat) (direct : Bool) : (s.startRun t arrays direct).ldr = s.ldr := by 
  simp [State.startRun]
@[simp] theorem State.startRun_mbx (s : State) (t : Nat) (arrays : List Nat) (direct : Bool) : (s.startRun t arrays direct).mbx = s.mbx := by 
  simp [State.startRun]
@[simp] theorem State.startRun_pcie (s : State) (t : Nat) (arrays : List Nat) (direct : Bool) : (s.startRun t arrays direct).pcie = s.pcie := by 
  simp [State.startRun]
@[simp] theorem State.startRun_net (s : State) (t : Nat) (arrays : List Nat) (direct : Bool) : (s.startRun t arrays direct).net = s.net := by 
  simp [State.startRun]
@[simp] theorem State.startRun_boot (s : State) (t : Nat) (arrays : List Nat) (direct : Bool) : (s.startRun t arrays direct).boot = s.boot := by 
  simp [State.startRun]
@[simp] theorem State.startRun_pwr (s : State) (t : Nat) (arrays : List Nat) (direct : Bool) : (s.startRun t arrays direct).pwr = s.pwr := by 
  simp [State.startRun]
@[simp] theorem State.startRun_hkm (s : State) (t : Nat) (arrays : List Nat) (direct : Bool) : (s.startRun t arrays direct).hkm = s.hkm := by 
  simp [State.startRun]
@[simp] theorem State.startRun_integ (s : State) (t : Nat) (arrays : List Nat) (direct : Bool) : (s.startRun t arrays direct).integ = s.integ := by 
  simp [State.startRun]
@[simp] theorem State.startRun_ledger (s : State) (t : Nat) (arrays : List Nat) (direct : Bool) : (s.startRun t arrays direct).ledger = s.ledger := by 
  simp [State.startRun]
@[simp] theorem State.startRun_cnt (s : State) (t : Nat) (arrays : List Nat) (direct : Bool) : (s.startRun t arrays direct).cnt = s.cnt := by 
  simp [State.startRun]
@[simp] theorem State.startRun_outside (s : State) (t : Nat) (arrays : List Nat) (direct : Bool) : (s.startRun t arrays direct).outside = s.outside := by 
  simp [State.startRun]
@[simp] theorem State.continueRun_pending (s : State) (t : Nat) (r : CalRunState) (direct : Bool) (more : List Nat) : (s.continueRun t r direct more).pending = s.pending := by 
  simp [State.continueRun]
@[simp] theorem State.continueRun_regs (s : State) (t : Nat) (r : CalRunState) (direct : Bool) (more : List Nat) : (s.continueRun t r direct more).regs = s.regs := by 
  simp [State.continueRun]
@[simp] theorem State.continueRun_shadows (s : State) (t : Nat) (r : CalRunState) (direct : Bool) (more : List Nat) : (s.continueRun t r direct more).shadows = s.shadows := by 
  simp [State.continueRun]
@[simp] theorem State.continueRun_fabric (s : State) (t : Nat) (r : CalRunState) (direct : Bool) (more : List Nat) : (s.continueRun t r direct more).fabric = s.fabric := by 
  simp [State.continueRun]
@[simp] theorem State.continueRun_kv (s : State) (t : Nat) (r : CalRunState) (direct : Bool) (more : List Nat) : (s.continueRun t r direct more).kv = s.kv := by 
  simp [State.continueRun]
@[simp] theorem State.continueRun_prm (s : State) (t : Nat) (r : CalRunState) (direct : Bool) (more : List Nat) : (s.continueRun t r direct more).prm = s.prm := by 
  simp [State.continueRun]
@[simp] theorem State.continueRun_ldr (s : State) (t : Nat) (r : CalRunState) (direct : Bool) (more : List Nat) : (s.continueRun t r direct more).ldr = s.ldr := by 
  simp [State.continueRun]
@[simp] theorem State.continueRun_mbx (s : State) (t : Nat) (r : CalRunState) (direct : Bool) (more : List Nat) : (s.continueRun t r direct more).mbx = s.mbx := by 
  simp [State.continueRun]
@[simp] theorem State.continueRun_pcie (s : State) (t : Nat) (r : CalRunState) (direct : Bool) (more : List Nat) : (s.continueRun t r direct more).pcie = s.pcie := by 
  simp [State.continueRun]
@[simp] theorem State.continueRun_net (s : State) (t : Nat) (r : CalRunState) (direct : Bool) (more : List Nat) : (s.continueRun t r direct more).net = s.net := by 
  simp [State.continueRun]
@[simp] theorem State.continueRun_boot (s : State) (t : Nat) (r : CalRunState) (direct : Bool) (more : List Nat) : (s.continueRun t r direct more).boot = s.boot := by 
  simp [State.continueRun]
@[simp] theorem State.continueRun_pwr (s : State) (t : Nat) (r : CalRunState) (direct : Bool) (more : List Nat) : (s.continueRun t r direct more).pwr = s.pwr := by 
  simp [State.continueRun]
@[simp] theorem State.continueRun_hkm (s : State) (t : Nat) (r : CalRunState) (direct : Bool) (more : List Nat) : (s.continueRun t r direct more).hkm = s.hkm := by 
  simp [State.continueRun]
@[simp] theorem State.continueRun_integ (s : State) (t : Nat) (r : CalRunState) (direct : Bool) (more : List Nat) : (s.continueRun t r direct more).integ = s.integ := by 
  simp [State.continueRun]
@[simp] theorem State.continueRun_ledger (s : State) (t : Nat) (r : CalRunState) (direct : Bool) (more : List Nat) : (s.continueRun t r direct more).ledger = s.ledger := by 
  simp [State.continueRun]
@[simp] theorem State.continueRun_cnt (s : State) (t : Nat) (r : CalRunState) (direct : Bool) (more : List Nat) : (s.continueRun t r direct more).cnt = s.cnt := by 
  simp [State.continueRun]
@[simp] theorem State.continueRun_outside (s : State) (t : Nat) (r : CalRunState) (direct : Bool) (more : List Nat) : (s.continueRun t r direct more).outside = s.outside := by 
  simp [State.continueRun]
@[simp] theorem State.continueRun_calStart (s : State) (t : Nat) (r : CalRunState) (direct : Bool) (more : List Nat) : (s.continueRun t r direct more).calStart = s.calStart := by 
  simp [State.continueRun]
@[simp] theorem State.continueRun_calReference (s : State) (t : Nat) (r : CalRunState) (direct : Bool) (more : List Nat) : (s.continueRun t r direct more).calReference = s.calReference := by 
  simp [State.continueRun]
@[simp] theorem State.directRun_pending (s : State) (t : Nat) (arrays : List Nat) : (s.directRun t arrays).pending = s.pending := by 
  unfold State.directRun
  dsimp only
  split <;> simp
@[simp] theorem State.directRun_regs (s : State) (t : Nat) (arrays : List Nat) : (s.directRun t arrays).regs = s.regs := by 
  unfold State.directRun
  dsimp only
  split <;> simp
@[simp] theorem State.directRun_shadows (s : State) (t : Nat) (arrays : List Nat) : (s.directRun t arrays).shadows = s.shadows := by 
  unfold State.directRun
  dsimp only
  split <;> simp
@[simp] theorem State.directRun_fabric (s : State) (t : Nat) (arrays : List Nat) : (s.directRun t arrays).fabric = s.fabric := by 
  unfold State.directRun
  dsimp only
  split <;> simp
@[simp] theorem State.directRun_kv (s : State) (t : Nat) (arrays : List Nat) : (s.directRun t arrays).kv = s.kv := by 
  unfold State.directRun
  dsimp only
  split <;> simp
@[simp] theorem State.directRun_prm (s : State) (t : Nat) (arrays : List Nat) : (s.directRun t arrays).prm = s.prm := by 
  unfold State.directRun
  dsimp only
  split <;> simp
@[simp] theorem State.directRun_ldr (s : State) (t : Nat) (arrays : List Nat) : (s.directRun t arrays).ldr = s.ldr := by 
  unfold State.directRun
  dsimp only
  split <;> simp
@[simp] theorem State.directRun_mbx (s : State) (t : Nat) (arrays : List Nat) : (s.directRun t arrays).mbx = s.mbx := by 
  unfold State.directRun
  dsimp only
  split <;> simp
@[simp] theorem State.directRun_pcie (s : State) (t : Nat) (arrays : List Nat) : (s.directRun t arrays).pcie = s.pcie := by 
  unfold State.directRun
  dsimp only
  split <;> simp
@[simp] theorem State.directRun_net (s : State) (t : Nat) (arrays : List Nat) : (s.directRun t arrays).net = s.net := by 
  unfold State.directRun
  dsimp only
  split <;> simp
@[simp] theorem State.directRun_boot (s : State) (t : Nat) (arrays : List Nat) : (s.directRun t arrays).boot = s.boot := by 
  unfold State.directRun
  dsimp only
  split <;> simp
@[simp] theorem State.directRun_pwr (s : State) (t : Nat) (arrays : List Nat) : (s.directRun t arrays).pwr = s.pwr := by 
  unfold State.directRun
  dsimp only
  split <;> simp
@[simp] theorem State.directRun_hkm (s : State) (t : Nat) (arrays : List Nat) : (s.directRun t arrays).hkm = s.hkm := by 
  unfold State.directRun
  dsimp only
  split <;> simp
@[simp] theorem State.directRun_integ (s : State) (t : Nat) (arrays : List Nat) : (s.directRun t arrays).integ = s.integ := by 
  unfold State.directRun
  dsimp only
  split <;> simp
@[simp] theorem State.directRun_ledger (s : State) (t : Nat) (arrays : List Nat) : (s.directRun t arrays).ledger = s.ledger := by 
  unfold State.directRun
  dsimp only
  split <;> simp
@[simp] theorem State.directRun_cnt (s : State) (t : Nat) (arrays : List Nat) : (s.directRun t arrays).cnt = s.cnt := by 
  unfold State.directRun
  dsimp only
  split <;> simp
@[simp] theorem State.directRun_outside (s : State) (t : Nat) (arrays : List Nat) : (s.directRun t arrays).outside = s.outside := by 
  unfold State.directRun
  dsimp only
  split <;> simp
@[simp] theorem State.leaveSlots_pending (s : State) (t : Nat) : (s.leaveSlots t).pending = s.pending := by 
  unfold State.leaveSlots
  split <;> simp
@[simp] theorem State.leaveSlots_regs (s : State) (t : Nat) : (s.leaveSlots t).regs = s.regs := by 
  unfold State.leaveSlots
  split <;> simp
@[simp] theorem State.leaveSlots_shadows (s : State) (t : Nat) : (s.leaveSlots t).shadows = s.shadows := by 
  unfold State.leaveSlots
  split <;> simp
@[simp] theorem State.leaveSlots_fabric (s : State) (t : Nat) : (s.leaveSlots t).fabric = s.fabric := by 
  unfold State.leaveSlots
  split <;> simp
@[simp] theorem State.leaveSlots_kv (s : State) (t : Nat) : (s.leaveSlots t).kv = s.kv := by 
  unfold State.leaveSlots
  split <;> simp
@[simp] theorem State.leaveSlots_prm (s : State) (t : Nat) : (s.leaveSlots t).prm = s.prm := by 
  unfold State.leaveSlots
  split <;> simp
@[simp] theorem State.leaveSlots_ldr (s : State) (t : Nat) : (s.leaveSlots t).ldr = s.ldr := by 
  unfold State.leaveSlots
  split <;> simp
@[simp] theorem State.leaveSlots_mbx (s : State) (t : Nat) : (s.leaveSlots t).mbx = s.mbx := by 
  unfold State.leaveSlots
  split <;> simp
@[simp] theorem State.leaveSlots_pcie (s : State) (t : Nat) : (s.leaveSlots t).pcie = s.pcie := by 
  unfold State.leaveSlots
  split <;> simp
@[simp] theorem State.leaveSlots_net (s : State) (t : Nat) : (s.leaveSlots t).net = s.net := by 
  unfold State.leaveSlots
  split <;> simp
@[simp] theorem State.leaveSlots_boot (s : State) (t : Nat) : (s.leaveSlots t).boot = s.boot := by 
  unfold State.leaveSlots
  split <;> simp
@[simp] theorem State.leaveSlots_pwr (s : State) (t : Nat) : (s.leaveSlots t).pwr = s.pwr := by 
  unfold State.leaveSlots
  split <;> simp
@[simp] theorem State.leaveSlots_hkm (s : State) (t : Nat) : (s.leaveSlots t).hkm = s.hkm := by 
  unfold State.leaveSlots
  split <;> simp
@[simp] theorem State.leaveSlots_integ (s : State) (t : Nat) : (s.leaveSlots t).integ = s.integ := by 
  unfold State.leaveSlots
  split <;> simp
@[simp] theorem State.leaveSlots_ledger (s : State) (t : Nat) : (s.leaveSlots t).ledger = s.ledger := by 
  unfold State.leaveSlots
  split <;> simp
@[simp] theorem State.leaveSlots_cnt (s : State) (t : Nat) : (s.leaveSlots t).cnt = s.cnt := by 
  unfold State.leaveSlots
  split <;> simp
@[simp] theorem State.leaveSlots_outside (s : State) (t : Nat) : (s.leaveSlots t).outside = s.outside := by 
  unfold State.leaveSlots
  split <;> simp
@[simp] theorem State.placeRun_pending (s : State) (t : Nat) : (s.placeRun t).pending = s.pending := by 
  unfold State.placeRun; repeat' split
  all_goals simp
@[simp] theorem State.placeRun_regs (s : State) (t : Nat) : (s.placeRun t).regs = s.regs := by 
  unfold State.placeRun; repeat' split
  all_goals simp
@[simp] theorem State.placeRun_shadows (s : State) (t : Nat) : (s.placeRun t).shadows = s.shadows := by 
  unfold State.placeRun; repeat' split
  all_goals simp
@[simp] theorem State.placeRun_fabric (s : State) (t : Nat) : (s.placeRun t).fabric = s.fabric := by 
  unfold State.placeRun; repeat' split
  all_goals simp
@[simp] theorem State.placeRun_kv (s : State) (t : Nat) : (s.placeRun t).kv = s.kv := by 
  unfold State.placeRun; repeat' split
  all_goals simp
@[simp] theorem State.placeRun_prm (s : State) (t : Nat) : (s.placeRun t).prm = s.prm := by 
  unfold State.placeRun; repeat' split
  all_goals simp
@[simp] theorem State.placeRun_ldr (s : State) (t : Nat) : (s.placeRun t).ldr = s.ldr := by 
  unfold State.placeRun; repeat' split
  all_goals simp
@[simp] theorem State.placeRun_mbx (s : State) (t : Nat) : (s.placeRun t).mbx = s.mbx := by 
  unfold State.placeRun; repeat' split
  all_goals simp
@[simp] theorem State.placeRun_pcie (s : State) (t : Nat) : (s.placeRun t).pcie = s.pcie := by 
  unfold State.placeRun; repeat' split
  all_goals simp
@[simp] theorem State.placeRun_net (s : State) (t : Nat) : (s.placeRun t).net = s.net := by 
  unfold State.placeRun; repeat' split
  all_goals simp
@[simp] theorem State.placeRun_boot (s : State) (t : Nat) : (s.placeRun t).boot = s.boot := by 
  unfold State.placeRun; repeat' split
  all_goals simp
@[simp] theorem State.placeRun_pwr (s : State) (t : Nat) : (s.placeRun t).pwr = s.pwr := by 
  unfold State.placeRun; repeat' split
  all_goals simp
@[simp] theorem State.placeRun_hkm (s : State) (t : Nat) : (s.placeRun t).hkm = s.hkm := by 
  unfold State.placeRun; repeat' split
  all_goals simp
@[simp] theorem State.placeRun_integ (s : State) (t : Nat) : (s.placeRun t).integ = s.integ := by 
  unfold State.placeRun; repeat' split
  all_goals simp
@[simp] theorem State.placeRun_ledger (s : State) (t : Nat) : (s.placeRun t).ledger = s.ledger := by 
  unfold State.placeRun; repeat' split
  all_goals simp
@[simp] theorem State.placeRun_cnt (s : State) (t : Nat) : (s.placeRun t).cnt = s.cnt := by 
  unfold State.placeRun; repeat' split
  all_goals simp
@[simp] theorem State.placeRun_outside (s : State) (t : Nat) : (s.placeRun t).outside = s.outside := by 
  unfold State.placeRun; repeat' split
  all_goals simp
@[simp] theorem State.queueRun_pending (s : State) (t : Nat) : (s.queueRun t).pending = s.pending := by 
  simp [State.queueRun]
@[simp] theorem State.queueRun_regs (s : State) (t : Nat) : (s.queueRun t).regs = s.regs := by 
  simp [State.queueRun]
@[simp] theorem State.queueRun_shadows (s : State) (t : Nat) : (s.queueRun t).shadows = s.shadows := by 
  simp [State.queueRun]
@[simp] theorem State.queueRun_fabric (s : State) (t : Nat) : (s.queueRun t).fabric = s.fabric := by 
  simp [State.queueRun]
@[simp] theorem State.queueRun_kv (s : State) (t : Nat) : (s.queueRun t).kv = s.kv := by 
  simp [State.queueRun]
@[simp] theorem State.queueRun_prm (s : State) (t : Nat) : (s.queueRun t).prm = s.prm := by 
  simp [State.queueRun]
@[simp] theorem State.queueRun_ldr (s : State) (t : Nat) : (s.queueRun t).ldr = s.ldr := by 
  simp [State.queueRun]
@[simp] theorem State.queueRun_mbx (s : State) (t : Nat) : (s.queueRun t).mbx = s.mbx := by 
  simp [State.queueRun]
@[simp] theorem State.queueRun_pcie (s : State) (t : Nat) : (s.queueRun t).pcie = s.pcie := by 
  simp [State.queueRun]
@[simp] theorem State.queueRun_net (s : State) (t : Nat) : (s.queueRun t).net = s.net := by 
  simp [State.queueRun]
@[simp] theorem State.queueRun_boot (s : State) (t : Nat) : (s.queueRun t).boot = s.boot := by 
  simp [State.queueRun]
@[simp] theorem State.queueRun_pwr (s : State) (t : Nat) : (s.queueRun t).pwr = s.pwr := by 
  simp [State.queueRun]
@[simp] theorem State.queueRun_hkm (s : State) (t : Nat) : (s.queueRun t).hkm = s.hkm := by 
  simp [State.queueRun]
@[simp] theorem State.queueRun_integ (s : State) (t : Nat) : (s.queueRun t).integ = s.integ := by 
  simp [State.queueRun]
@[simp] theorem State.queueRun_ledger (s : State) (t : Nat) : (s.queueRun t).ledger = s.ledger := by 
  simp [State.queueRun]
@[simp] theorem State.queueRun_cnt (s : State) (t : Nat) : (s.queueRun t).cnt = s.cnt := by 
  simp [State.queueRun]
@[simp] theorem State.queueRun_outside (s : State) (t : Nat) : (s.queueRun t).outside = s.outside := by 
  simp [State.queueRun]
@[simp] theorem State.startPending_pending (s : State) (t : Nat) : (s.startPending t).pending = s.pending := by 
  simp [State.startPending]
@[simp] theorem State.startPending_regs (s : State) (t : Nat) : (s.startPending t).regs = s.regs := by 
  simp [State.startPending]
@[simp] theorem State.startPending_shadows (s : State) (t : Nat) : (s.startPending t).shadows = s.shadows := by 
  simp [State.startPending]
@[simp] theorem State.startPending_fabric (s : State) (t : Nat) : (s.startPending t).fabric = s.fabric := by 
  simp [State.startPending]
@[simp] theorem State.startPending_kv (s : State) (t : Nat) : (s.startPending t).kv = s.kv := by 
  simp [State.startPending]
@[simp] theorem State.startPending_prm (s : State) (t : Nat) : (s.startPending t).prm = s.prm := by 
  simp [State.startPending]
@[simp] theorem State.startPending_ldr (s : State) (t : Nat) : (s.startPending t).ldr = s.ldr := by 
  simp [State.startPending]
@[simp] theorem State.startPending_mbx (s : State) (t : Nat) : (s.startPending t).mbx = s.mbx := by 
  simp [State.startPending]
@[simp] theorem State.startPending_pcie (s : State) (t : Nat) : (s.startPending t).pcie = s.pcie := by 
  simp [State.startPending]
@[simp] theorem State.startPending_net (s : State) (t : Nat) : (s.startPending t).net = s.net := by 
  simp [State.startPending]
@[simp] theorem State.startPending_boot (s : State) (t : Nat) : (s.startPending t).boot = s.boot := by 
  simp [State.startPending]
@[simp] theorem State.startPending_pwr (s : State) (t : Nat) : (s.startPending t).pwr = s.pwr := by 
  simp [State.startPending]
@[simp] theorem State.startPending_hkm (s : State) (t : Nat) : (s.startPending t).hkm = s.hkm := by 
  simp [State.startPending]
@[simp] theorem State.startPending_integ (s : State) (t : Nat) : (s.startPending t).integ = s.integ := by 
  simp [State.startPending]
@[simp] theorem State.startPending_ledger (s : State) (t : Nat) : (s.startPending t).ledger = s.ledger := by 
  simp [State.startPending]
@[simp] theorem State.startPending_cnt (s : State) (t : Nat) : (s.startPending t).cnt = s.cnt := by 
  simp [State.startPending]
@[simp] theorem State.startPending_outside (s : State) (t : Nat) : (s.startPending t).outside = s.outside := by 
  simp [State.startPending]
@[simp] theorem State.endRehearsal_pending (s : State) : (s.endRehearsal).pending = s.pending := by 
  unfold State.endRehearsal
  split <;> simp
@[simp] theorem State.endRehearsal_regs (s : State) : (s.endRehearsal).regs = s.regs := by 
  unfold State.endRehearsal
  split <;> simp
@[simp] theorem State.endRehearsal_shadows (s : State) : (s.endRehearsal).shadows = s.shadows := by 
  unfold State.endRehearsal
  split <;> simp
@[simp] theorem State.endRehearsal_fabric (s : State) : (s.endRehearsal).fabric = s.fabric := by 
  unfold State.endRehearsal
  split <;> simp
@[simp] theorem State.endRehearsal_kv (s : State) : (s.endRehearsal).kv = s.kv := by 
  unfold State.endRehearsal
  split <;> simp
@[simp] theorem State.endRehearsal_prm (s : State) : (s.endRehearsal).prm = s.prm := by 
  unfold State.endRehearsal
  split <;> simp
@[simp] theorem State.endRehearsal_ldr (s : State) : (s.endRehearsal).ldr = s.ldr := by 
  unfold State.endRehearsal
  split <;> simp
@[simp] theorem State.endRehearsal_mbx (s : State) : (s.endRehearsal).mbx = s.mbx := by 
  unfold State.endRehearsal
  split <;> simp
@[simp] theorem State.endRehearsal_pcie (s : State) : (s.endRehearsal).pcie = s.pcie := by 
  unfold State.endRehearsal
  split <;> simp
@[simp] theorem State.endRehearsal_net (s : State) : (s.endRehearsal).net = s.net := by 
  unfold State.endRehearsal
  split <;> simp
@[simp] theorem State.endRehearsal_boot (s : State) : (s.endRehearsal).boot = s.boot := by 
  unfold State.endRehearsal
  split <;> simp
@[simp] theorem State.endRehearsal_pwr (s : State) : (s.endRehearsal).pwr = s.pwr := by 
  unfold State.endRehearsal
  split <;> simp
@[simp] theorem State.endRehearsal_hkm (s : State) : (s.endRehearsal).hkm = s.hkm := by 
  unfold State.endRehearsal
  split <;> simp
@[simp] theorem State.endRehearsal_ledger (s : State) : (s.endRehearsal).ledger = s.ledger := by 
  unfold State.endRehearsal
  split <;> simp
@[simp] theorem State.endRehearsal_cnt (s : State) : (s.endRehearsal).cnt = s.cnt := by 
  unfold State.endRehearsal
  split <;> simp
@[simp] theorem State.endRehearsal_outside (s : State) : (s.endRehearsal).outside = s.outside := by 
  unfold State.endRehearsal
  split <;> simp
@[simp] theorem State.queueHalf_pending (s : State) (h : Nat) : (s.queueHalf h).pending = s.pending := by 
  simp [State.queueHalf]
@[simp] theorem State.queueHalf_regs (s : State) (h : Nat) : (s.queueHalf h).regs = s.regs := by 
  simp [State.queueHalf]
@[simp] theorem State.queueHalf_shadows (s : State) (h : Nat) : (s.queueHalf h).shadows = s.shadows := by 
  simp [State.queueHalf]
@[simp] theorem State.queueHalf_fabric (s : State) (h : Nat) : (s.queueHalf h).fabric = s.fabric := by 
  simp [State.queueHalf]
@[simp] theorem State.queueHalf_kv (s : State) (h : Nat) : (s.queueHalf h).kv = s.kv := by 
  simp [State.queueHalf]
@[simp] theorem State.queueHalf_prm (s : State) (h : Nat) : (s.queueHalf h).prm = s.prm := by 
  simp [State.queueHalf]
@[simp] theorem State.queueHalf_ldr (s : State) (h : Nat) : (s.queueHalf h).ldr = s.ldr := by 
  simp [State.queueHalf]
@[simp] theorem State.queueHalf_mbx (s : State) (h : Nat) : (s.queueHalf h).mbx = s.mbx := by 
  simp [State.queueHalf]
@[simp] theorem State.queueHalf_pcie (s : State) (h : Nat) : (s.queueHalf h).pcie = s.pcie := by 
  simp [State.queueHalf]
@[simp] theorem State.queueHalf_net (s : State) (h : Nat) : (s.queueHalf h).net = s.net := by 
  simp [State.queueHalf]
@[simp] theorem State.queueHalf_boot (s : State) (h : Nat) : (s.queueHalf h).boot = s.boot := by 
  simp [State.queueHalf]
@[simp] theorem State.queueHalf_pwr (s : State) (h : Nat) : (s.queueHalf h).pwr = s.pwr := by 
  simp [State.queueHalf]
@[simp] theorem State.queueHalf_hkm (s : State) (h : Nat) : (s.queueHalf h).hkm = s.hkm := by 
  simp [State.queueHalf]
@[simp] theorem State.queueHalf_integ (s : State) (h : Nat) : (s.queueHalf h).integ = s.integ := by 
  simp [State.queueHalf]
@[simp] theorem State.queueHalf_ledger (s : State) (h : Nat) : (s.queueHalf h).ledger = s.ledger := by 
  simp [State.queueHalf]
@[simp] theorem State.queueHalf_cnt (s : State) (h : Nat) : (s.queueHalf h).cnt = s.cnt := by 
  simp [State.queueHalf]
@[simp] theorem State.queueHalf_outside (s : State) (h : Nat) : (s.queueHalf h).outside = s.outside := by 
  simp [State.queueHalf]
@[simp] theorem State.record_pending (s : State) (code digest : Nat) : (s.record code digest).pending = s.pending := by 
  unfold State.record
  rfl
@[simp] theorem State.record_regs (s : State) (code digest : Nat) : (s.record code digest).regs = s.regs := by 
  unfold State.record
  rfl
@[simp] theorem State.record_shadows (s : State) (code digest : Nat) : (s.record code digest).shadows = s.shadows := by 
  unfold State.record
  rfl
@[simp] theorem State.record_tiles (s : State) (code digest : Nat) : (s.record code digest).tiles = s.tiles := by 
  unfold State.record
  rfl
@[simp] theorem State.record_fabric (s : State) (code digest : Nat) : (s.record code digest).fabric = s.fabric := by 
  unfold State.record
  rfl
@[simp] theorem State.record_kv (s : State) (code digest : Nat) : (s.record code digest).kv = s.kv := by 
  unfold State.record
  rfl
@[simp] theorem State.record_prm (s : State) (code digest : Nat) : (s.record code digest).prm = s.prm := by 
  unfold State.record
  rfl
@[simp] theorem State.record_ldr (s : State) (code digest : Nat) : (s.record code digest).ldr = s.ldr := by 
  unfold State.record
  rfl
@[simp] theorem State.record_mbx (s : State) (code digest : Nat) : (s.record code digest).mbx = s.mbx := by 
  unfold State.record
  rfl
@[simp] theorem State.record_pcie (s : State) (code digest : Nat) : (s.record code digest).pcie = s.pcie := by 
  unfold State.record
  rfl
@[simp] theorem State.record_net (s : State) (code digest : Nat) : (s.record code digest).net = s.net := by 
  unfold State.record
  rfl
@[simp] theorem State.record_pwr (s : State) (code digest : Nat) : (s.record code digest).pwr = s.pwr := by 
  unfold State.record
  rfl
@[simp] theorem State.record_hkm (s : State) (code digest : Nat) : (s.record code digest).hkm = s.hkm := by 
  unfold State.record
  rfl
@[simp] theorem State.record_integ (s : State) (code digest : Nat) : (s.record code digest).integ = s.integ := by 
  unfold State.record
  rfl
@[simp] theorem State.record_ledger (s : State) (code digest : Nat) : (s.record code digest).ledger = s.ledger := by 
  unfold State.record
  rfl
@[simp] theorem State.record_cnt (s : State) (code digest : Nat) : (s.record code digest).cnt = s.cnt := by 
  unfold State.record
  rfl
@[simp] theorem State.record_outside (s : State) (code digest : Nat) : (s.record code digest).outside = s.outside := by 
  unfold State.record
  rfl
@[simp] theorem State.record_calStart (s : State) (code digest : Nat) : (s.record code digest).calStart = s.calStart := by 
  unfold State.record
  rfl
@[simp] theorem State.record_calReference (s : State) (code digest : Nat) : (s.record code digest).calReference = s.calReference := by 
  unfold State.record
  rfl
end Sys2Proof.Machine
end

