-- ==== Sys2Proof/Laws/Maps.lean ====
section
/-!
SUPPORT. Reading a map, a tile, a register, a ring pair, a port, a lane, a frame or a sequence entry after each operation that
writes one.
-/
namespace Sys2Proof

/-- Reading a map at the key just put gives the value put; every other key reads as before. -/
theorem Map.get?_put {α : Type} (m : Map α) (i j : Nat) (v : α) :
    Map.get? (Map.put m i v) j = if i = j then some v else Map.get? m j := by
  induction m with
  | nil => rfl
  | cons x m ih =>
    obtain ⟨k, w⟩ := x
    unfold Map.put
    split
    · rfl
    · split
      · next r =>
        subst r
        simp only [Map.get?]
        split <;> rfl
      · simp only [Map.get?, ih]
        split
        · next h _ q => rw [if_neg (by omega)]
        · rfl

/-- The key just put. -/
@[simp] theorem Map.get?_put_same {α : Type} (m : Map α) (i : Nat) (v : α) : Map.get? (Map.put m i v) i = some v := by
  rw [Map.get?_put, if_pos rfl]

/-- Another key than the one just put. -/
theorem Map.get?_put_other {α : Type} (m : Map α) {i j : Nat} (v : α) (h : i ≠ j) :
    Map.get? (Map.put m i v) j = Map.get? m j := by
  rw [Map.get?_put, if_neg h]

/-- Reading with a default after a put. -/
theorem Map.getD_put {α : Type} (m : Map α) (i j : Nat) (v d : α) :
    Map.getD (Map.put m i v) j d = if i = j then v else Map.getD m j d := by
  unfold Map.getD
  rw [Map.get?_put]
  split <;> rfl

/-- Reading a map of which entries have gone by a test on the key. -/
theorem Map.get?_dropKeys {α : Type} (m : Map α) (p : Nat → Bool) (j : Nat) :
    Map.get? (Map.dropKeys m p) j = if p j = true then none else Map.get? m j := by
  induction m with
  | nil => simp [Map.dropKeys, Map.get?]
  | cons x m ih =>
    obtain ⟨k, w⟩ := x
    unfold Map.dropKeys at ih ⊢
    rw [List.filter_cons]
    cases hk : p k with
    | true =>
      simp only [Bool.not_true, Bool.false_eq_true, if_false, ih, Map.get?]
      by_cases q : k = j
      · subst q
        rw [if_pos hk, if_pos hk]
      · rw [if_neg q]
    | false =>
      simp only [Bool.not_false, if_true, Map.get?, ih]
      by_cases q : k = j
      · subst q
        simp [hk]
      · rw [if_neg q, if_neg q]

/-- Reading a map without the entry at a key. -/
theorem Map.get?_erase {α : Type} (m : Map α) (i j : Nat) :
    Map.get? (Map.erase m i) j = if i = j then none else Map.get? m j := by
  have h : Map.erase m i = Map.dropKeys m (fun k => decide (k = i)) := by
    unfold Map.erase Map.dropKeys
    congr 1
    funext e
    simp
  rw [h, Map.get?_dropKeys]
  by_cases q : i = j
  · rw [if_pos q, if_pos (decide_eq_true q.symm)]
  · rw [if_neg q, if_neg (by simpa using fun e => q e.symm)]

/-- Reading a map whose values have been changed in place. -/
theorem Map.get?_mapVals {α β : Type} (m : Map α) (f : Nat → α → β) (j : Nat) :
    Map.get? (Map.mapVals m f) j = (Map.get? m j).map (f j) := by
  induction m with
  | nil => rfl
  | cons x m ih =>
    obtain ⟨k, w⟩ := x
    unfold Map.mapVals at ih ⊢
    simp only [List.map_cons, Map.get?, ih]
    split
    · next q => subst q; rfl
    · rfl

end Sys2Proof

namespace Sys2Proof.Machine

/-- The tile just put, and every other. -/
theorem State.tile_setTile (s : State) (t u : Nat) (x : Tile) : (s.setTile t x).tile u = if t = u then x else s.tile u :=
  Map.getD_put _ _ _ _ _

/-- The tile just changed, and every other. -/
theorem State.tile_modTile (s : State) (t u : Nat) (f : Tile → Tile) :
    (s.modTile t f).tile u = if t = u then f (s.tile t) else s.tile u := State.tile_setTile _ _ _ _

@[simp] theorem State.tile_setTile_same (s : State) (t : Nat) (x : Tile) : (s.setTile t x).tile t = x := by
  rw [State.tile_setTile, if_pos rfl]

@[simp] theorem State.tile_modTile_same (s : State) (t : Nat) (f : Tile → Tile) : (s.modTile t f).tile t = f (s.tile t) := by
  rw [State.tile_modTile, if_pos rfl]

/-- States with the same tiles have the same tile at each index. -/
theorem State.tile_congr {s t : State} (h : s.tiles = t.tiles) (x : Nat) : s.tile x = t.tile x := by
  unfold State.tile
  rw [h]

/-- The register just set, and every other. -/
theorem State.reg_setReg (s : State) (o p v : Nat) : (s.setReg o v).reg p = if o = p then v % 2 ^ 32 else s.reg p := by
  unfold State.reg State.setReg
  simp only [Map.get?_put]
  by_cases h : o = p
  · rw [if_pos h, if_pos h]
    exact BitVec.toNat_ofNat v 32
  · rw [if_neg h, if_neg h]

@[simp] theorem State.reg_setReg_same (s : State) (o v : Nat) : (s.setReg o v).reg o = v % 2 ^ 32 := by
  rw [State.reg_setReg, if_pos rfl]

/-- States with the same register file have the same register at each offset. -/
theorem State.reg_congr {s t : State} (h : s.regs = t.regs) (o : Nat) : s.reg o = t.reg o := by
  unfold State.reg
  rw [h]

/-- The ring pair just changed, and every other. -/
theorem State.ring_modRing (s : State) (r q : Nat) (f : Ring → Ring) :
    (s.modRing r f).ring q = if r = q then f (s.ring r) else s.ring q := Map.getD_put _ _ _ _ _

@[simp] theorem State.ring_modRing_same (s : State) (r : Nat) (f : Ring → Ring) : (s.modRing r f).ring r = f (s.ring r) := by
  rw [State.ring_modRing, if_pos rfl]

/-- States with the same mailbox have the same ring pair at each index. -/
theorem State.ring_congr {s t : State} (h : s.mbx = t.mbx) (r : Nat) : s.ring r = t.ring r := by
  unfold State.ring
  rw [h]

/-- The port just changed, and every other. -/
theorem State.port_modPort (s : State) (p q : Nat) (f : Port → Port) :
    (s.modPort p f).port q = if p = q then f (s.port p) else s.port q := Map.getD_put _ _ _ _ _

/-- The lane just changed, and every other. -/
theorem State.lane_modLane (s : State) (n m : Nat) (f : EthLane → EthLane) :
    (s.modLane n f).lane m = if n = m then f (s.lane n) else s.lane m := Map.getD_put _ _ _ _ _

/-- The frame descriptor just put, which takes its own DESC_CRC, and every other. -/
theorem State.frame_setFrame (s : State) (f g : Nat) (x : Frame) :
    (s.setFrame f x).frame g = if f = g then { x with descCrc := crc32c x.bytes, raw := none } else s.frame g := by
  unfold State.frame State.setFrame
  simp only [Map.get?_put]
  by_cases h : f = g
  · rw [if_pos h, if_pos h]
  · rw [if_neg h, if_neg h]

/-- The sequence entry just put, and every other. -/
theorem State.seq?_setSeq (s : State) (e i : Nat) (q : Seq) : (s.setSeq e q).seq? i = if e = i then some q else s.seq? i :=
  Map.get?_put _ _ _ _

end Sys2Proof.Machine
end

