-- ==== Sys2Proof/Machine/Package.lean ====
section
/-!
DEFINITION. The balls of the package (R524 to R528): their positions, their names and what each carries.
-/
namespace Sys2Proof.Machine

/-- The four quadrants of the ball grid (R524). -/
inductive Quadrant where
  | nw
  | ne
  | sw
  | se
  deriving DecidableEq, Repr

/-- What a ball carries (R526, R527). Differential balls say whether they are the P side. -/
inductive Ball where
  | vss
  | vddStage
  | vddArray
  | vddConv
  | vddHbmCore
  | vddHbmIo
  | vddSerdes09
  | vddSerdes12
  | vddIo
  | ethTx (lane : Nat) (p : Bool)
  | ethRx (lane : Nat) (p : Bool)
  | pcieTx (lane : Nat) (p : Bool)
  | pcieRx (lane : Nat) (p : Bool)
  | pcieRefclk (p : Bool)
  | coreRefclk (p : Bool)
  | ethRefclkW (p : Bool)
  | ethRefclkE (p : Bool)
  | perstN
  /-- COOLANT_OK, ERR_N, THERMTRIP_N, SYS_RST_N, PWR_GOOD, COOLANT_SENSE, in that order. -/
  | control (n : Nat)
  /-- AVS_CLK, AVS_MDATA, AVS_SDATA, in that order. -/
  | avs (n : Nat)
  /-- SMB_SCL, SMB_SDA. -/
  | smb (n : Nat)
  /-- Remote sense of VDD_STAGE, VDD_ARRAY, VDD_CONV. -/
  | vsense (rail : Nat) (p : Bool)
  /-- XSPI_CLK, XSPI_CS_N, XSPI_DQS, XSPI_RESET_N. -/
  | xspi (n : Nat)
  | xspiDq (d : Nat)
  /-- TCK, TMS, TDI, TDO, TRST_N. -/
  | test (n : Nat)
  | reserved
  deriving DecidableEq, Repr

/-- Whether local coordinates name a ball: 1 to 59, and not both 41 or more (R524). -/
def ballPopulated (i j : Nat) : Bool := decide (1 ≤ i ∧ i ≤ 59 ∧ 1 ≤ j ∧ j ≤ 59) && !decide (41 ≤ i ∧ 41 ≤ j)

/-- Package position (x, y) of a ball (R524). -/
def ballPosition (q : Quadrant) (i j : Nat) : Nat × Nat :=
  match q with
  | .nw => (j, i)
  | .ne => (119 - j, i)
  | .sw => (j, 119 - i)
  | .se => (119 - j, 119 - i)

/-- Index of a ball in its quadrant's names (R525). -/
def ballIndex (i j : Nat) : Nat := if i ≤ 40 then 59 * (i - 1) + j else 2360 + 40 * (i - 41) + j

/-- Centre of a ball, east and north of the package centre, in units of 0.45 mm (R525). -/
def ballCentre (x y : Nat) : Int × Int := (2 * (x : Int) - 119, 119 - 2 * (y : Int))

/-- The first Ethernet lane of a quadrant (R527). -/
def ethBase (q : Quadrant) : Nat :=
  match q with
  | .nw => 0
  | .sw => 8
  | .ne => 16
  | .se => 24

/-- A core ball (R526): the first matching row decides. -/
def coreBall (i j : Nat) : Ball :=
  if (i + j) % 2 = 1 then .vss
  else if j ≤ 20 then (if i % 2 = 1 then .vddHbmCore else .vddHbmIo)
  else if i ≤ 12 then .vddArray
  else if i ≤ 14 then .vddConv
  else .vddStage

/-- A ball of the column band, where the Ethernet lanes lie; lane k has base row 10 + 6k (R527). -/
def columnBall (q : Quadrant) (i j : Nat) : Ball :=
  if i < 10 ∨ 58 ≤ i then .vss
  else
    let lane := ethBase q + (i - 10) / 6
    match (i - 10) % 6, j with
    | 0, 2 => .ethTx lane true
    | 1, 2 => .ethTx lane false
    | 0, 5 => .ethRx lane true
    | 1, 5 => .ethRx lane false
    | 3, 1 => .vddSerdes12
    | 3, 3 => .vddSerdes09
    | 3, 4 => .vddSerdes09
    | 3, 6 => .vddSerdes09
    | 3, 7 => .vddSerdes09
    | _, _ => .vss

/-- The PCIe lanes of a southern row band; lane k has base column 10 + 6k (R527). -/
def pcieBall (first i j : Nat) : Ball :=
  if j < 10 ∨ 58 ≤ j then .vss
  else
    let lane := first + (j - 10) / 6
    match (j - 10) % 6, i with
    | 0, 2 => .pcieTx lane true
    | 1, 2 => .pcieTx lane false
    | 0, 5 => .pcieRx lane true
    | 1, 5 => .pcieRx lane false
    | 3, 1 => .vddSerdes12
    | 3, 3 => .vddSerdes09
    | 3, 4 => .vddSerdes09
    | 3, 6 => .vddSerdes09
    | 3, 7 => .vddSerdes09
    | _, _ => .vss

/-- A ball of the north-west row band (R527). -/
def northWestBall (i j : Nat) : Ball :=
  if i = 2 ∧ 10 ≤ j ∧ j ≤ 11 then .coreRefclk (j == 10)
  else if i = 2 ∧ 14 ≤ j ∧ j ≤ 15 then .ethRefclkW (j == 14)
  else if i = 5 ∧ 20 ≤ j ∧ j ≤ 25 then .control (j - 20)
  else if i = 5 ∧ 28 ≤ j ∧ j ≤ 30 then .avs (j - 28)
  else if i = 5 ∧ 33 ≤ j ∧ j ≤ 34 then .smb (j - 33)
  else if i = 7 ∧ 40 ≤ j ∧ j ≤ 47 ∧ (j - 40) % 3 < 2 then .vsense ((j - 40) / 3) ((j - 40) % 3 == 0)
  else if (i = 2 ∨ i = 5) ∧ 50 ≤ j then .reserved
  else .vss

/-- A ball of the north-east row band (R527). -/
def northEastBall (i j : Nat) : Ball :=
  if i = 2 ∧ 14 ≤ j ∧ j ≤ 15 then .ethRefclkE (j == 14)
  else if i = 5 ∧ 20 ≤ j ∧ j ≤ 23 then .xspi (j - 20)
  else if i = 5 ∧ 24 ≤ j ∧ j ≤ 31 then .xspiDq (j - 24)
  else if i = 5 ∧ 34 ≤ j ∧ j ≤ 38 then .test (j - 34)
  else if (i = 2 ∨ i = 5) ∧ 50 ≤ j then .reserved
  else .vss

/-- A ball of the row band (R527). -/
def rowBall (q : Quadrant) (i j : Nat) : Ball :=
  if i = 8 ∧ 10 ≤ j ∧ j ≤ 58 ∧ j % 2 = 0 then .vddIo
  else
    match q with
    | .nw => northWestBall i j
    | .ne => northEastBall i j
    | .sw =>
      if i = 2 ∧ 58 ≤ j then .pcieRefclk (j == 58) else if i = 5 ∧ j = 58 then .perstN else pcieBall 0 i j
    | .se => pcieBall 8 i j

/-- What the ball at local coordinates carries; none where the grid is unpopulated (R524, R526, R527). -/
def ballAt (q : Quadrant) (i j : Nat) : Option Ball :=
  if !ballPopulated i j then none
  else if i ≤ 8 then some (rowBall q i j)
  else if j ≤ 8 then some (columnBall q i j)
  else some (coreBall i j)

end Sys2Proof.Machine
end

