-- ==== Sys2Proof/Certificates/Slice0/Obligations.lean ====
section
/-!
DEFINITION. The statements for the provers: what the commands and the block do, by the rules of the spec that each cites. A
mailbox command is stated where its entry begins (Begins): the checks of R390, which come before every command's own rules,
are stated once in EntryChecksInOrder.
-/
open Sys2Proof Sys2Proof.Machine

/-- A step takes the command at the front of the queue and answers what that command's own rules give on the state with
the queue's rest. -/
def Obligations.StepRunsTheFrontCommand : Prop :=
  ∀ (c : Instr) (rest : List Instr) (s : State), s.pending = c :: rest → step s = exec c { s with pending := rest }

/-- On an empty queue a step is one stage cycle (the model's choice, log 2): a stopped stage clock changes nothing; with a
running one the schedule counter advances by one, modulo 2^64, where a cue sheet is active and no cause was raised two
cycles before, and stands still otherwise; with no cue sheet and no tile at work the cycle counts itself and moves the
causes that are raised two places on (R158, R177, R510). -/
def Obligations.IdleStepIsOneStageCycle : Prop :=
  ∀ s : State, s.pending = [] → step s = .next s.stageCycle ∧ (s.clockRuns = false → s.stageCycle = s) ∧
    (s.clockRuns = true → s.stageCycle.fabric.counter =
      if s.fabric.active.isSome = true ∧ s.fabric.history2 = 0 then (s.fabric.counter + 1) % 2 ^ 64 else s.fabric.counter) ∧
    (s.clockRuns = true → s.fabric.active = none → s.tiles = [] → s.fabric.formatLeft = 0 → s.fabric.handover = 0 →
      s.stageCycle.fabric.history2 = s.fabric.history1 ∧ s.stageCycle.fabric.history1 = s.fabric.causes ∧
        s.stageCycle.counter 0 = min 0xFFFFFFFFFFFF (s.counter 0 + 1) ∧
        s.stageCycle.kv = s.kv ∧ s.stageCycle.prm = s.prm ∧ s.stageCycle.mbx = s.mbx ∧ s.stageCycle.regs = s.regs)

/-- Every command that the environment can send has a next state; a command that names an absent unit is the only one
that stops a run, and none is refused. -/
def Obligations.WellFormedCommandsNeverStop : Prop :=
  (∀ (c : Instr) (s : State), c.wellFormed = true → ∃ t, exec c s = .next t) ∧
    ∀ (c : Instr) (s : State) (r : Refusal), exec c s ≠ .refused r

/-- Every step keeps HBM in its canonical form: addresses strictly rising, no zero byte listed (that a byte which no
cell lists reads as zero is the model's choice, log 5; the bytes are those of the frames of R214 and R234). -/
def Obligations.StepKeepsHbmCanonical : Prop :=
  ∀ s t : State, memWf s.kv.hbm = true → step s = .next t → memWf t.kv.hbm = true

/-- No command changes the queue of the commands that wait: whatever a command does, the queue's rest is as it was when
the command was taken (the model's own rule for its queue, log 2). -/
def Obligations.ExecLeavesTheQueue : Prop :=
  ∀ (c : Instr) (s t : State), exec c s = .next t → t.pending = s.pending

/-- At reset the queue is empty, every byte memory is canonical and lists nothing, and no tile, frame, sequence, ring
pair or command in progress is held; a read returns the values of the Reset columns: GLB_ID, CAL_CONFIG, FAB_CONFIG, the
DROOP and CHORUS configurations, LANE_TAPS, ARR_INFO_REF, CAL_INDEX and the policy word of FW_WATCHDOG (R11, R70, R113,
R117, R202, R372, R375, R383, R461, R485). That no byte of host memory or of HBM is listed at reset is the model's
choice (log 5). -/
def Obligations.ResetState : Prop :=
  State.reset.pending = [] ∧ State.reset.memoriesWf = true ∧ State.reset.outside.hostMem = [] ∧ State.reset.kv.hbm = [] ∧
    State.reset.tiles = [] ∧ State.reset.kv.frames = [] ∧ State.reset.prm.seqs = [] ∧ State.reset.mbx.rings = [] ∧
    State.reset.mbx.jobs = [] ∧ State.reset.integ.fatalStop = false ∧ State.reset.boot.fws = .romInit ∧
  State.reset.hostRead 0x0 = 0xB0121F4C ∧ State.reset.hostRead 0x200 = 0x00010006 ∧
    State.reset.hostRead 0x410 = 0x00010064 ∧ State.reset.hostRead 0x80028 = 0x4028 ∧
    State.reset.hostRead 0xB000C = 0xB0C00294 ∧ State.reset.hostRead 0xB2004 = 0x00000C00 ∧
    State.reset.hostRead 0x01000018 = 0x0000FFFF ∧ State.reset.hostRead 0x01000118 = 0 ∧
    State.reset.hostRead 0x000210E4 = 0xDB000064

/-- The first check of R390 that an entry fails decides its completion, and its command does not run: a failing CRC-32C
gives CRC_FAIL, a wrong alive counter ALIVE_REPEAT, both with the expected counter unchanged, their bit of MBX_EVENT and
their fault source; an unlisted opcode, or flags or bytes 56 to 59 that are not zero, give INVALID with the counter
incremented modulo 65,536; where all pass the command begins with the counter incremented. -/
def Obligations.EntryChecksInOrder : Prop :=
  ∀ (e : Entry) (s : State), entryWf e = true → (s.ring e.ring).enabled = true →
    (s.ring e.ring).staged.head? = some e → s.slotFree e.ring = true → s.firmwareRuns = true →
    (e.crcOk = false →
      mbxBegin e s = .rejected ((((s.popEntry e.ring).complete e .crcFail []).mbxEvent e.ring 0).raise srcMailboxCheck 8 e.ring []) ∧
      exec (.unsupportedOpcode e) s =
        .next ((((s.popEntry e.ring).complete e .crcFail []).mbxEvent e.ring 0).raise srcMailboxCheck 8 e.ring [])) ∧
    (e.crcOk = true → e.alive ≠ (s.ring e.ring).expected →
      mbxBegin e s =
        .rejected ((((s.popEntry e.ring).complete e .aliveRepeat []).mbxEvent e.ring 1).raise srcMailboxAlive 8 e.ring []) ∧
      exec (.unsupportedOpcode e) s =
        .next ((((s.popEntry e.ring).complete e .aliveRepeat []).mbxEvent e.ring 1).raise srcMailboxAlive 8 e.ring [])) ∧
    (e.crcOk = true → e.alive = (s.ring e.ring).expected → s.jobsOf e.ring = [] → s.mbx.jobs.length < 256 →
      e.opcode ∉ opcodeTable ∨ e.zerosOk = false →
      mbxBegin e s = .rejected ((s.begun e).complete e .invalid []) ∧
      exec (.unsupportedOpcode e) s = .next ((s.begun e).complete e .invalid [])) ∧
    (∀ op pcie body, Begins e op pcie s → op ∈ opcodeTable → runCmd e op pcie body s = .next (runBody e body (s.begun e))) ∧
    ((s.popEntry e.ring).ring e.ring).expected = (s.ring e.ring).expected ∧
    ((s.begun e).ring e.ring).expected = ((s.ring e.ring).expected + 1) % 65536 ∧
    (∀ u : State, (u.mbxEvent e.ring 0).mbx = u.mbx ∧ Nat.testBit ((u.mbxEvent e.ring 0).reg 0x10800) 0 = true ∧
      (u.mbxEvent e.ring 1).mbx = u.mbx ∧ Nat.testBit ((u.mbxEvent e.ring 1).reg 0x10800) 1 = true)

/-- A completion entry has the layout of R388, byte for byte: tag, status, PHASE and RECORD with the other bits of byte
5 zero, the completion alive counter, the result, and the CRC-32C over bytes 0 to 27. -/
def Obligations.CompletionEntryLayout : Prop :=
  ∀ (c : Completion) (phase : Bool) (alive : Nat), c.tag < 2 ^ 32 → alive < 65536 → c.result.length = 20 →
    (completionBytes c phase alive).length = 32 ∧
    fieldAt (completionBytes c phase alive) 0 4 = c.tag ∧
    fieldAt (completionBytes c phase alive) 4 1 = c.status.code ∧
    Nat.testBit (fieldAt (completionBytes c phase alive) 5 1) 0 = phase ∧
    Nat.testBit (fieldAt (completionBytes c phase alive) 5 1) 1 = c.isRecord ∧
    fieldAt (completionBytes c phase alive) 5 1 < 4 ∧
    fieldAt (completionBytes c phase alive) 6 2 = alive ∧
    sliceBytes (completionBytes c phase alive) 8 20 = c.result ∧
    fieldAt (completionBytes c phase alive) 28 4 = crc32c ((completionBytes c phase alive).take 28)

/-- COMPLETION_POST writes the first entry that waits on a ring at CQ_TAIL of its completion ring in host memory, and
leaves every other byte of host memory as it was: PHASE inverts where CQ_TAIL wraps to 0, the completion alive counter
and CQ_TAIL increment. No post happens while (CQ_TAIL + 1) mod size equals MBX_CQ_HEAD (R391), and a sequence record waits
for the completion of its SEQ_ADMIT on another ring (R393). -/
def Obligations.CompletionPostWritesOneEntry : Prop :=
  (∀ (r : Nat) (s : State) (c : Completion) (rest : List Completion), r < 16 → (s.ring r).waiting = c :: rest →
    s.slotOpen r = true → s.mayRequest = true → s.awaitsAdmit r c = false → memWf s.outside.hostMem = true →
    ∃ t, exec (.completionPost r) s = .next t ∧
      memReadList t.outside.hostMem (s.pair (ringReg r 0x08) + 32 * (s.ring r).cqTail) 32 =
        completionBytes c (s.ring r).phase (s.ring r).compAlive ∧
      (∀ a, a < s.pair (ringReg r 0x08) + 32 * (s.ring r).cqTail ∨ s.pair (ringReg r 0x08) + 32 * (s.ring r).cqTail + 32 ≤ a →
        memRead t.outside.hostMem a = memRead s.outside.hostMem a) ∧
      (t.ring r).waiting = rest ∧ (t.ring r).cqTail = ((s.ring r).cqTail + 1) % s.cqSize r ∧
      (t.ring r).compAlive = ((s.ring r).compAlive + 1) % 65536 ∧
      (t.ring r).phase = (if (s.ring r).cqTail + 1 = s.cqSize r then !(s.ring r).phase else (s.ring r).phase) ∧
      t.tiles = s.tiles ∧ t.kv = s.kv ∧ t.prm = s.prm ∧ t.ldr = s.ldr ∧ t.net = s.net ∧ t.fabric = s.fabric) ∧
  (∀ (r : Nat) (s : State), r < 16 → s.slotOpen r = false → exec (.completionPost r) s = .next s) ∧
  (∀ (r : Nat) (s : State) (c : Completion) (rest : List Completion), r < 16 → (s.ring r).waiting = c :: rest →
    s.awaitsAdmit r c = true → exec (.completionPost r) s = .next s)

/-- MBX_RING_CFG with ENABLE 1 enables a pair whose sizes, bases and readiness R386 accepts, with SQ_HEAD, CQ_TAIL and
both alive counters 0 and PHASE 1; else ENABLE stays 0 and MBX_EVENT.CFG_ERROR is set with the ring; a pair that is
enabled is left as it is. With ENABLE 0 an enabled pair stops: entries that have not begun go, completions go and
sequence records stay, but for a FATAL stop, after which none is posted (R484); on a disabled pair the sizes are written
(R275, R386, R392). A write of MBX_CQ_HEAD stores the head (R9, R391). -/
def Obligations.RingPairsEnableAndDisable : Prop :=
  (∀ (r : Nat) (v : Word) (s : State), r < 16 → Nat.testBit v.toNat 31 = true →
    ((s.ring r).enabled = true → exec (.ringEnable r v) s = .next s) ∧
    ((s.ring r).enabled = false →
      16 ≤ bitsOf v.toNat 0 13 ∧ bitsOf v.toNat 0 13 ≤ 4096 ∧ 16 ≤ bitsOf v.toNat 13 13 ∧ bitsOf v.toNat 13 13 ≤ 4096 ∧
        s.reg (ringReg r 0x00) % 4096 = 0 ∧ s.reg (ringReg r 0x08) % 4096 = 0 ∧ s.reg (ringReg r 0x10) % 64 = 0 ∧
        s.mbx.ready = true →
      ∃ g : Ring, exec (.ringEnable r v) s =
          .next ((s.setReg (ringReg r 0x18) (v.toNat &&& 0x03FFFFFF)).modRing r (fun _ => g)) ∧
        g.enabled = true ∧ g.sqHead = 0 ∧ g.cqTail = 0 ∧ g.phase = true ∧ g.expected = 0 ∧ g.compAlive = 0 ∧ g.staged = [] ∧
        g.waiting = (s.ring r).waiting.filter (fun c => c.isRecord)) ∧
    ((s.ring r).enabled = false →
      bitsOf v.toNat 0 13 < 16 ∨ 4096 < bitsOf v.toNat 0 13 ∨ bitsOf v.toNat 13 13 < 16 ∨ 4096 < bitsOf v.toNat 13 13 ∨
        s.reg (ringReg r 0x00) % 4096 ≠ 0 ∨ s.reg (ringReg r 0x08) % 4096 ≠ 0 ∨ s.reg (ringReg r 0x10) % 64 ≠ 0 ∨
        s.mbx.ready = false →
      exec (.ringEnable r v) s =
        .next (((s.setReg (ringReg r 0x18) (v.toNat &&& 0x03FFFFFF)).setField 0x10800 16 4 r).orReg 0x10800 8))) ∧
  (∀ (r : Nat) (v : Word) (s : State), r < 16 → Nat.testBit v.toNat 31 = false → (s.ring r).enabled = true →
    ∃ g : Ring, exec (.ringDisable r v) s = .next (s.modRing r (fun _ => g)) ∧ g.enabled = false ∧ g.staged = [] ∧
      g.gen = (s.ring r).gen + 1 ∧
      g.waiting = (s.ring r).waiting.filter (fun c => c.isRecord && !s.integ.fatalStop)) ∧
  (∀ (r : Nat) (v : Word) (s : State), r < 16 → Nat.testBit v.toNat 31 = false → (s.ring r).enabled = false →
    exec (.ringDisable r v) s = .next (s.setReg (ringReg r 0x18) (v.toNat &&& 0x03FFFFFF))) ∧
  (∀ (r : Nat) (v : Word) (s : State), r < 16 →
    exec (.mbxCqHead r v) s = .next (s.setReg (ringReg r 0x20) (v.toNat % 4096)))

/-- A doorbell with a tail below the ring size stores it, copies the entries from SQ_HEAD up to it to the staging area
and writes the head shadow of R389 to host memory; while the function may issue no request they wait, and are fetched once it
may (R380); a disabled pair stores the tail; a tail at or above the size changes MBX_EVENT only, with DB_RANGE and the ring. -/
def Obligations.DoorbellCopiesEntries : Prop :=
  (∀ (r : Nat) (v : Word) (es : List Entry) (s : State), r < 16 → v.toNat % 4096 < s.sqSize r →
    (s.ring r).enabled = true → s.mayRequest = true → es.all entryWf = true → (∀ e ∈ es, e.ring = r) →
    es.length = (v.toNat % 4096 + s.sqSize r - (s.ring r).sqHead) % s.sqSize r → memWf s.outside.hostMem = true →
    ∃ t, exec (.mbxSqTail r v es) s = .next t ∧ (t.ring r).sqHead = v.toNat % 4096 ∧
      (t.ring r).staged = (s.ring r).staged ++ es ∧ (t.ring r).expected = (s.ring r).expected ∧
      memReadList t.outside.hostMem (t.pair (ringReg r 0x10)) 8 = leBytes 4 (v.toNat % 4096) ++
        leBytes 2 (((s.ring r).expected + (s.ring r).staged.length + es.length) % 65536) ++ leBytes 2 0 ∧
      t.tiles = s.tiles ∧ t.kv = s.kv ∧ t.prm = s.prm ∧ t.ldr = s.ldr ∧ t.net = s.net ∧ t.mbx.jobs = s.mbx.jobs) ∧
  (∀ (r : Nat) (v : Word) (es : List Entry) (s : State), r < 16 → v.toNat % 4096 < s.sqSize r →
    (s.ring r).enabled = true → s.mayRequest = false → es.all entryWf = true → (∀ e ∈ es, e.ring = r) →
    es.length = (v.toNat % 4096 + s.sqSize r - (s.ring r).sqHead) % s.sqSize r →
    ∃ t, exec (.mbxSqTail r v es) s = .next t ∧ t.reg (ringReg r 0x1C) = v.toNat % 4096 ∧ (t.ring r).sqHead = (s.ring r).sqHead ∧
      (t.ring r).staged = (s.ring r).staged ∧ (t.ring r).unfetched = es ∧ t.outside = s.outside ∧ t.kv = s.kv) ∧
  (∀ (r : Nat) (s : State), s.mayRequest = true → (s.ring r).enabled = true →
    ((s.fetchEntries r).ring r).staged = (s.ring r).staged ++ (s.ring r).unfetched ∧
    ((s.fetchEntries r).ring r).unfetched = [] ∧ ((s.fetchEntries r).ring r).sqHead = s.reg (ringReg r 0x1C)) ∧
  (∀ (r : Nat) (v : Word) (es : List Entry) (s : State), r < 16 → v.toNat % 4096 < s.sqSize r → (s.ring r).enabled = false →
    exec (.mbxSqTail r v es) s = .next (s.setReg (ringReg r 0x1C) (v.toNat % 4096))) ∧
  (∀ (r : Nat) (v : Word) (es : List Entry) (s : State), r < 16 → s.sqSize r ≤ v.toNat % 4096 →
    exec (.mbxSqTail r v es) s = .next ((s.setField 0x10800 16 4 r).orReg 0x10800 4))

/-- COAL_TIMER raises the ring's vector where an entry waits for an interrupt and TIME is not 0 (R391); a poisoned
completion ends the commands of its ring and tag with CRC_FAIL and raises PCIE_UNCORRECTABLE (R380), and so does a link
error that AER does not mask raise it (R376, R404; which bit is which error, and that ECRC checking gates bit 19, is the
model's, log 157); a write of the PCIe configuration takes effect once the endpoint answers configuration requests, and what
waited for the function goes on: bus master enable, power state, the payload and read-request sizes, the BAR2 size and the
MSI-X enable and mask (R376, R377, R379, R411); an MSI-X message that waited leaves, and its pending bit clears (R379). -/
def Obligations.CoalescingAndPcieErrors : Prop :=
  (∀ (r : Nat) (s : State), r < 16 → (s.ring r).unsignalled ≠ 0 → s.field (ringReg r 0x28) 0 12 ≠ 0 →
    exec (.coalTimer r) s =
      .next ((s.raiseVector (s.field (ringReg r 0x28) 20 6)).modRing r (fun g => { g with unsignalled := 0 }))) ∧
  (∀ (r : Nat) (s : State), r < 16 → (s.ring r).unsignalled = 0 ∨ s.field (ringReg r 0x28) 0 12 = 0 →
    exec (.coalTimer r) s = .next s) ∧
  (∀ (r tag : Nat) (s : State), r < 16 → exec (.dmaCompletion r tag false) s = .next s) ∧
  (∀ (r tag : Nat) (s : State), r < 16 →
    exec (.dmaCompletion r tag true) s = .next ((s.finishJobs (fun j =>
      if j.ring = r ∧ j.tag = tag then some (.crcFail, []) else none)).raise srcPcieUncorrectable 0 0 [])) ∧
  (∀ (bit : Nat) (s : State), bit < 32 →
    (Nat.testBit s.pcie.aerMask bit = true ∨ (bit = 19 ∧ s.pcie.ecrcCheck = false) → exec (.pcieLinkError bit) s = .next s) ∧
    (Nat.testBit s.pcie.aerMask bit = false → bit ≠ 19 ∨ s.pcie.ecrcCheck = true →
      exec (.pcieLinkError bit) s = .next (s.raise srcPcieUncorrectable 0 0 []))) ∧
  (∀ (w : CfgWrite) (s : State),
    (s.configReady = false → exec (.pcieConfigWrite w) s = .next s) ∧
    (s.configReady = true → ∃ t, exec (.pcieConfigWrite w) s = .next t ∧
      t = { s with pcie := s.pcie.write w }.resumeRequests ∧ t.pcie = s.pcie.write w ∧ t.tiles = s.tiles ∧ t.kv = s.kv ∧
      t.prm = s.prm)) ∧
  (∀ (n v : Nat) (on mask : Bool) (p : Pcie),
    p.write (.bar2Size n) = (if 28 ≤ n ∧ n ≤ 34 then { p with bar2Log2 := n } else p) ∧
    p.write (.busMaster on) = { p with busMaster := on } ∧ p.write (.dState on) = { p with d3hot := on } ∧
    p.write (.msix on mask) = { p with msixEnable := on, msixMask := mask } ∧
    (p.write (.devControl v)).maxPayload = (if bitsOf v 5 3 ≤ 2 then 128 * 2 ^ bitsOf v 5 3 else p.maxPayload) ∧
    (p.write (.devControl v)).maxReadRequest = (if bitsOf v 12 3 ≤ 5 then 128 * 2 ^ bitsOf v 12 3 else p.maxReadRequest)) ∧
  (∀ (v : Nat) (s : State), v < 64 → s.maySignal = true → Nat.testBit (s.reg (0x1D000 + 4 * (v / 32))) (v % 32) = true →
    s.reg (0x1C00C + 0x10 * v) % 2 = 0 →
    v ∈ s.deliverPending.outside.msix ∧ Nat.testBit (s.deliverPending.reg (0x1D000 + 4 * (v / 32))) (v % 32) = false)

/-- ECHO returns operand bytes 8 to 27, QUERY_INFO writes its 256-byte block to the host address, LEDGER_READ the
records, and COUNTER_SNAPSHOT of mode 0 copies the counters at once; each of them also begins during a FATAL stop (R396,
R397, R484, R499, R516). -/
def Obligations.InformationCommandsComplete : Prop :=
  (∀ (e : Entry) (s : State), Begins e 0x01 false s →
    exec (.echo e) s = .next ((s.begun e).complete e .ok (sliceBytes e.bytes 8 20))) ∧
  (∀ (e : Entry) (s : State), Begins e 0x02 true s → e.op 8 8 % 64 = 0 →
    exec (.queryInfo e) s = .next (((s.begun e).dmaWrite e.tag (e.op 8 8) s.infoBlock).complete e .ok [0x04, 0xB0])) ∧
  (∀ (e : Entry) (s : State), Begins e 0x81 true s → e.op 8 1 ≤ 3 → e.op 16 8 % 64 = 0 →
    (e.op 8 1 = 1 ∨ e.op 8 1 = 2 → e.op 12 4 < 8 * Config.tiles) →
    exec (.ledgerRead e) s = .next (((s.begun e).dmaWrite e.tag (e.op 16 8)
      ((s.begun e).ledgerRecords (e.op 8 1) (e.op 12 4) (e.op 24 4)).flatten).complete e .ok
        (leBytes 4 ((s.begun e).ledgerRecords (e.op 8 1) (e.op 12 4) (e.op 24 4)).flatten.length))) ∧
  (∀ (e : Entry) (s : State), Begins e 0x80 false s → e.op 8 1 = 0 → s.snapPending = false →
    exec (.counterSnapshot e) s = .next ({ s.begun e with cnt := { s.cnt with
      snap := s.cnt.live, snapHeld := true, snapSc := s.prm.scCount, snapTime := s.net.ptpNs, snapStep := s.pwr.step } }.complete
        e .ok (leBytes 8 s.prm.scCount)))

/-- PLAYBILL writes a report of 594 bytes whose first 480 bytes state the scene change that it reports and whose last
114 are its Ed448 signature by the identity key; a short or unaligned buffer is INVALID, and before the boot check of the
arrays has run it completes with NOT_READY (R396, R420). -/
def Obligations.PlaybillWritesItsReport : Prop :=
  ∀ (e : Entry) (s : State), Begins e 0x03 true s →
    (594 ≤ e.op 48 4 → e.op 8 8 % 64 = 0 → s.ldr.bootVerified = true →
      exec (.playbill e) s = .next (((s.begun e).dmaWrite e.tag (e.op 8 8)
        ((s.begun e).playbillBody (sliceBytes e.bytes 16 32) ++ ed448Sign "FQB-PB1" s.boot.fuses.idPrivate
          ((s.begun e).playbillBody (sliceBytes e.bytes 16 32)))).complete e .ok (leBytes 4 594))) ∧
    (s.boot.latched.chain.length = 64 → ((s.begun e).playbillBody (sliceBytes e.bytes 16 32)).length = 480) ∧
    (∀ m : List Byte, (ed448Sign "FQB-PB1" s.boot.fuses.idPrivate m).length = 114) ∧
    (e.op 48 4 < 594 ∨ e.op 8 8 % 64 ≠ 0 → exec (.playbill e) s = .next ((s.begun e).complete e .invalid [])) ∧
    (594 ≤ e.op 48 4 → e.op 8 8 % 64 = 0 → s.ldr.bootVerified = false →
      exec (.playbill e) s = .next ((s.begun e).complete e .notReady []))

/-- CAL_INDEX selects the trim pair that CAL_DATA accesses by SET, ARRAY and COLUMN; each read or write of CAL_DATA
takes COLUMN one on, from 1,039 back to 0, with ARRAY, SET and the reserved bits unchanged; a write of CAL_INDEX sets
SET and ARRAY, and COLUMN where it is at most 1,039, and leaves the reserved bits; the register resets to 0. A read of
CAL_DATA returns the selected trim pair and changes nothing but CAL_INDEX; a write installs the pair for the array's
next MVM, unless that array is under calibration. -/
def Obligations.CalIndexSelectsAndSteps : Prop :=
  (∀ (t : Nat) (v : Word) (s : State), t < Config.tiles → s.windowOpen t 0x11C = true →
    (∃ r u, exec (.calDataRead t) s = .next r ∧ exec (.calDataWrite t v) s = .next u ∧
      ∀ x, x = r ∨ x = u →
        bitsOf (x.reg (tileReg t 0x118)) 0 11 =
          (if 1039 ≤ bitsOf (s.reg (tileReg t 0x118)) 0 11 then 0 else bitsOf (s.reg (tileReg t 0x118)) 0 11 + 1) ∧
        bitsOf (x.reg (tileReg t 0x118)) 11 21 = bitsOf (s.reg (tileReg t 0x118)) 11 21)) ∧
  (∀ (t : Nat) (v : Word) (s : State), t < Config.tiles → (s.tile t).inReset = 0 →
    ∃ r, exec (.registerWrite (tileReg t 0x118) v) s = .next r ∧
      bitsOf (r.reg (tileReg t 0x118)) 15 17 = bitsOf (s.reg (tileReg t 0x118)) 15 17 ∧
      bitsOf (r.reg (tileReg t 0x118)) 14 1 = bitsOf v.toNat 14 1 ∧
      bitsOf (r.reg (tileReg t 0x118)) 11 3 = bitsOf v.toNat 11 3 ∧
      bitsOf (r.reg (tileReg t 0x118)) 0 11 =
        (if bitsOf v.toNat 0 11 ≤ 1039 then bitsOf v.toNat 0 11 else bitsOf (s.reg (tileReg t 0x118)) 0 11)) ∧
  (∀ t, t < Config.tiles → State.reset.reg (tileReg t 0x118) = 0) ∧
  (∀ (t : Nat) (s : State),
    s.calSelect t = (s.field (tileReg t 0x118) 14 1, s.field (tileReg t 0x118) 11 3, s.field (tileReg t 0x118) 0 11)) ∧
  (∀ (t : Nat) (s : State), t < Config.tiles → s.windowOpen t 0x11C = true →
    exec (.calDataRead t) s = .next (({ s with outside := { s.outside with
      readData := (s.tile t).installedTrim (trimKey (s.calSelect t).1 (s.calSelect t).2.1 (s.calSelect t).2.2) } }).calNext t)) ∧
  (∀ (t : Nat) (v : Word) (s : State), t < Config.tiles → s.windowOpen t 0x11C = true → (s.tile t).calRun = none →
    exec (.calDataWrite t v) s = .next ((s.setTile t { s.tile t with
      newTrims := Map.put (s.tile t).newTrims (trimKey (s.calSelect t).1 (s.calSelect t).2.1 (s.calSelect t).2.2)
        (v &&& 0x03FF00FF) }).calNext t)) ∧
  (∀ (t : Nat) (v : Word) (s : State) (r : CalRunState), t < Config.tiles → s.windowOpen t 0x11C = true →
    (s.tile t).calRun = some r → r.arrays.head? = some (s.calSelect t).2.1 →
    exec (.calDataWrite t v) s = .next (s.calNext t))

/-- GLB_SCRATCH holds the word written and does nothing else; BASE of GLB_APERTURE takes what is written, with the reserved
bits as they were; the window uses BASE with its bits below the BAR2 size taken as zero; both reset to 0 (R385). A BASE
above 2,303, for which R385 states no effect, is stored like the others (the model's choice, log 99). -/
def Obligations.ScratchAndAperture : Prop :=
  (∀ (v : Word) (s : State), exec (.registerWrite 0x0C v) s = .next (s.setReg 0x0C v.toNat)) ∧
  (∀ (v : Word) (s : State), ∃ t, exec (.registerWrite 0x10 v) s = .next t ∧
    t.field 0x10 0 12 = v.toNat % 4096 ∧
    t.field 0x10 12 20 = s.field 0x10 12 20 ∧ (∀ o, o ≠ 0x10 → t.reg o = s.reg o) ∧ t.tiles = s.tiles ∧ t.kv = s.kv ∧
    t.pcie = s.pcie) ∧
  (∀ (o : Nat) (s : State), 28 ≤ s.pcie.bar2Log2 →
    s.bar2Addr o = s.field 0x10 0 12 / 2 ^ (s.pcie.bar2Log2 - 28) * 2 ^ (s.pcie.bar2Log2 - 28) * 2 ^ 28 + o) ∧
  State.reset.reg 0x0C = 0 ∧ State.reset.reg 0x10 = 0

/-- A host write sets the RW bits whose field lies in its range, clears the W1C bits where it writes 1, and leaves every
other bit: three registers stand for the three kinds, PTP_RATE, FAB_HOLD_SEEN and COOLANT_CAL, which ignores 0 (R9,
R465). An unaligned access and one of another size change nothing, and a read returns zero; an aligned 64-bit write of the
MSI-X table writes its two words (R382). -/
def Obligations.RegisterWriteByAccessType : Prop :=
  (∀ (v : Word) (s : State), exec (.registerWrite 0xB0028 v) s = .next (s.setReg 0xB0028 v.toNat)) ∧
  (∀ (v : Word) (s : State), exec (.registerWrite 0x408 v) s =
    .next (s.setReg 0x408 (s.reg 0x408 - (s.reg 0x408 &&& (v.toNat &&& 0x3FF))))) ∧
  (∀ (v : Word) (s : State), 1 ≤ v.toNat % 65536 → 1 ≤ v.toNat / 65536 →
    exec (.registerWrite 0x8003C v) s = .next (s.setReg 0x8003C v.toNat)) ∧
  (∀ (o size : Nat) (v high : Word) (s : State), o % 4 ≠ 0 ∨ (size ≠ 4 ∧ size ≠ 8) →
    exec (.registerWrite o v size high) s = .next s ∧ exec (.rcRead o size) s = .next (s.returnData 0)) ∧
  (∀ (o : Nat) (v high : Word) (s : State), o % 4 = 0 → exec (.registerWrite o v 4 high) s = .next (s.writeWord o v.toNat)) ∧
  (∀ (k : Nat) (v high : Word) (s : State), k < 128 → exec (.registerWrite (0x1C000 + 8 * k) v 8 high) s =
    .next ((s.writeWord (0x1C000 + 8 * k) v.toNat).writeWord (0x1C004 + 8 * k) high.toNat))

/-- A read returns the word and then clears its read-to-clear bits as one access; a read of a LO word latches its HI
word into the shadow that a read of HI returns; a write of PRM_SEQ_SELECT latches the 160 bytes of the entry as the most
recent scene change left it, zeros where it was FREE, and stores the index (R9, R280, R281, R463). -/
def Obligations.ReadsClearLatchAndSelect : Prop :=
  (∀ s : State, exec (.rcRead 0x8002C) s =
    .next ({ s.setReg 0x8002C (s.reg 0x8002C - (s.reg 0x8002C &&& 0xFFFFFFFF)) with
      outside := { s.outside with readData := s.hostRead 0x8002C } })) ∧
  (∀ s : State, exec (.rcRead 0x0C) s = .next { s with outside := { s.outside with readData := s.hostRead 0x0C } }) ∧
  (∀ s : State, exec (.shadowLoRead 0xA0010) s = .next ({ s with
    shadows := Map.put s.shadows 0xA0014 (BitVec.ofNat 32 (s.prm.scCount / 2 ^ 32 % 2 ^ 32))
    outside := { s.outside with readData := s.hostRead 0xA0010 } })) ∧
  (∀ (v : Word) (s : State) (q : Seq), Map.get? s.prm.settled (v.toNat % 4096) = some q →
    exec (.prmSeqSelect v) s = .next (({ s with prm := { s.prm with window := q.image } }).setReg 0xA001C (v.toNat % 4096))) ∧
  (∀ (v : Word) (s : State), Map.get? s.prm.settled (v.toNat % 4096) = none →
    exec (.prmSeqSelect v) s =
      .next (({ s with prm := { s.prm with window := List.replicate 160 0 } }).setReg 0xA001C (v.toNat % 4096)))

/-- A BAR2 write stores its bytes in HBM at BASE × 256 MiB plus its offset where no production copy lies there and the
address is below 576 GiB, and the read of the same range returns them, with every other byte of HBM unchanged; a write
to a frame of a production copy stores nothing and sets LDR_EVENT.APERTURE_BLOCKED, and a read of one returns all ones
and sets it too (R294, R378, R385). -/
def Obligations.Bar2WritesReadsAndBlocks : Prop :=
  (∀ (o : Nat) (bs : List Byte) (s : State), o + bs.length ≤ 2 ^ s.pcie.bar2Log2 → memWf s.kv.hbm = true →
    (∀ i, i < bs.length → s.inCopy ((s.bar2Addr o + i) / Config.frameBytes) = false ∧
      s.bar2Addr o + i < 576 * 2 ^ 30) →
    ∃ t u, exec (.bar2Access o (some bs) 0) s = .next t ∧ exec (.bar2Access o none bs.length) t = .next u ∧
      u.outside.readData = leNat bs ∧ u.kv.hbm = t.kv.hbm ∧
      (∀ a, a < s.bar2Addr o ∨ s.bar2Addr o + bs.length ≤ a → memRead t.kv.hbm a = memRead s.kv.hbm a) ∧
      t.tiles = s.tiles ∧ t.prm = s.prm ∧ t.ldr = s.ldr ∧ t.mbx = s.mbx ∧ t.fabric = s.fabric) ∧
  (∀ (o : Nat) (b : Byte) (s : State), o + 1 ≤ 2 ^ s.pcie.bar2Log2 → s.inCopy (s.bar2Addr o / Config.frameBytes) = true →
    exec (.bar2Access o (some [b]) 0) s = .next (s.orReg 0xC0804 8) ∧
    ∃ t, exec (.bar2Access o none 1) s = .next t ∧ t.outside.readData = 0xFF ∧ t.kv = s.kv ∧
      Nat.testBit (t.reg 0xC0804) 3 = true)

/-- The PTP registers: a write of PTP_STEP_HI adds the signed 64-bit step in HI and LO, in nanoseconds, to the timebase
modulo 2^64 and changes nothing else, and the timebase counts as set from then on; PTP_RATE and PTP_STEP_LO take what is
written; a read of PTP_TIME_LO returns the low word and latches the high one into the shadow that PTP_TIME_HI returns;
the time words ignore writes, the step words read zero, and all reset to zero. -/
def Obligations.PtpRegisters : Prop :=
  (∀ (v : Word) (s : State),
    ∃ n : Nat, exec (.ptpStepHi v) s = .next { s with net := { s.net with ptpNs := n, ptpSet := true } } ∧ n < 2 ^ 64 ∧
      ((n : Int) - (s.net.ptpNs : Int) - signedOf 64 (v.toNat * 2 ^ 32 + s.reg 0xB002C)) % 2 ^ 64 = 0) ∧
  (∀ (v : Word) (s : State), exec (.registerWrite 0xB002C v) s = .next (s.setReg 0xB002C v.toNat) ∧
    exec (.registerWrite 0xB0028 v) s = .next (s.setReg 0xB0028 v.toNat)) ∧
  (∀ s : State, exec (.shadowLoRead 0xB0020) s = .next ({ s with
    shadows := Map.put s.shadows 0xB0024 (BitVec.ofNat 32 (s.net.ptpNs / 2 ^ 32 % 2 ^ 32))
    outside := { s.outside with readData := s.net.ptpNs % 2 ^ 32 } })) ∧
  (∀ s : State, s.hostRead 0xB0024 = ((Map.get? s.shadows 0xB0024).map (fun w => w.toNat)).getD 0 ∧
    s.hostRead 0xB0028 = s.reg 0xB0028 ∧ s.hostRead 0xB002C = 0 ∧ s.hostRead 0xB0030 = 0) ∧
  (∀ (o : Nat) (v : Word) (s : State), o = 0xB0020 ∨ o = 0xB0024 → exec (.registerWrite o v) s = .next s) ∧
  State.reset.net.ptpNs = 0 ∧ State.reset.reg 0xB0028 = 0 ∧ State.reset.shadows = []

/-- GLB_RESET with KEY 0xB0 and KIND 1 is a chip reset, and with KEY 0xB0 and KIND 2 a block reset of the block that BLOCK_TYPE and
INDEX name, at once (R423); a write whose KEY is not 0xB0, whose INDEX is out of range for BLOCK_TYPE, or whose KIND is 0 or
3, is dropped (R430). A block reset of a port die takes its ports, lanes and queue pairs, one of an HBM stack the bytes of its
frames and of their annexes (log 148), and one of a tile drops its MVM and leaves its cells and SRAM (log 91). -/
def Obligations.GlbResetNeedsItsKey : Prop :=
  (∀ (v : Word) (b : List Byte) (s : State), bitsOf v.toNat 24 8 = 0xB0 → bitsOf v.toNat 22 2 = 1 →
    bitsOf v.toNat 0 14 < (match bitsOf v.toNat 20 2 with | 0 => 10560 | 1 => 160 | 2 => 2 | _ => 12) →
    s.pwr.powerGood = true → s.pwr.allStopped = false → s.boot.fws ≠ .romInit → s.boot.stopped = false →
    ∃ t, exec (.glbResetChip v true true b) s = .next t ∧ t.boot.fws = .wait ∧ t.pcie = s.pcie ∧ t.kv = {} ∧ t.prm = {} ∧ t.mbx = {} ∧
      t.fabric = { forms := s.fabric.forms } ∧ t.net = {} ∧ t.integ = {} ∧ t.ldr.journal = s.ldr.journal ∧ t.boot.fuses = s.boot.fuses ∧ t.ledger = s.ledger ∧
      t.pending = s.pending) ∧
  (∀ (v : Word) (s : State), bitsOf v.toNat 24 8 = 0xB0 → bitsOf v.toNat 22 2 = 2 →
    bitsOf v.toNat 0 14 < (match bitsOf v.toNat 20 2 with | 0 => 10560 | 1 => 160 | 2 => 2 | _ => 12) →
    s.pwr.powerGood = true → s.pwr.allStopped = false →
    ∃ t, exec (.glbResetBlock v) s = .next t ∧
      (∀ d, bitsOf v.toNat 20 2 = 2 → d = bitsOf v.toNat 0 14 → (∀ p, p / 8 = d → t.port p = {}) ∧ (∀ n, n / 16 = d → t.lane n = {}) ∧
        ∀ q ∈ t.net.qps, q.2.port / 8 ≠ d) ∧
      (∀ k, bitsOf v.toNat 20 2 = 3 → k = bitsOf v.toNat 0 14 → memWf s.kv.hbm = true →
        ∀ a, memRead t.kv.hbm a = if stackOf a = k then 0 else memRead s.kv.hbm a) ∧
      (∀ x, bitsOf v.toNat 20 2 = 0 → x = bitsOf v.toNat 0 14 → (t.tile x).mvm = none ∧ (t.tile x).cells = (s.tile x).cells ∧
        (t.tile x).sram = (s.tile x).sram ∧ ∀ y, y ≠ x → t.tile y = s.tile y) ∧
      (∀ r, bitsOf v.toNat 20 2 = 1 → r = bitsOf v.toNat 0 14 → r ∉ t.fabric.rowFaults ∧
        ∀ x, rowOf x = r → (t.tile x).mvm = none ∧ (t.tile x).cells = (s.tile x).cells)) ∧
  (∀ (v : Word) (selfTest identity : Bool) (b : List Byte) (s : State), bitsOf v.toNat 24 8 ≠ 0xB0 ∨
    (match bitsOf v.toNat 20 2 with | 0 => 10560 | 1 => 160 | 2 => 2 | _ => 12) ≤ bitsOf v.toNat 0 14 ∨
      bitsOf v.toNat 22 2 = 0 ∨ bitsOf v.toNat 22 2 = 3 →
    exec (.glbResetChip v selfTest identity b) s = .next s ∧ exec (.glbResetBlock v) s = .next s) ∧
  (∀ (v : Word) (selfTest identity : Bool) (b : List Byte) (s : State),
    (bitsOf v.toNat 22 2 ≠ 1 → exec (.glbResetChip v selfTest identity b) s = .next s) ∧
    (bitsOf v.toNat 22 2 ≠ 2 → exec (.glbResetBlock v) s = .next s))

/-- Firmware staging: FWS_LENGTH of 4 KiB to 4 MiB starts receiving in WAIT, and one outside WAIT or out of range is dropped;
FWS_PIECE while receiving starts the copy of a piece below the count, and one while BUSY is 1, with an index at or above the
count, or while no image is received is dropped; the copy's end takes the window's bytes as the piece, the later copy of a
piece governing, and the last piece of all takes STATE to VERIFYING (R412, R429). -/
def Obligations.FirmwareStagingByState : Prop :=
  (∀ (v : Word) (s : State), s.boot.fws = .wait → 4096 ≤ v.toNat % 8388608 → v.toNat % 8388608 ≤ 4194304 →
    exec (.fwsLength v) s = .next { s with boot := { s.boot with
      length := v.toNat % 8388608, fws := .receiving, pieces := [], image := [] } }) ∧
  (∀ (v : Word) (s : State), s.boot.fws ≠ .wait ∨ v.toNat % 8388608 < 4096 ∨ 4194304 < v.toNat % 8388608 →
    exec (.fwsLength v) s = .next s) ∧
  (∀ (v : Word) (s : State), s.boot.fws = .receiving → s.boot.busy = false →
    v.toNat % 256 < (s.boot.length + 32767) / 32768 →
    exec (.fwsPiece v) s = .next { s with boot := { s.boot with pieceIndex := v.toNat % 256, busy := true } }) ∧
  (∀ (v : Word) (s : State), s.boot.fws ≠ .receiving ∨ s.boot.busy = true ∨ (s.boot.length + 32767) / 32768 ≤ v.toNat % 256 →
    exec (.fwsPiece v) s = .next s) ∧
  (∀ s : State, s.boot.fws = .receiving → s.boot.busy = true →
    exec .fwsPieceCopied s = .next { s with boot := { s.boot with
      busy := false
      image := Map.put s.boot.image s.boot.pieceIndex (memReadList s.boot.window 0 32768)
      pieces := insertNat s.boot.pieceIndex s.boot.pieces
      fws := if (insertNat s.boot.pieceIndex s.boot.pieces).length = (s.boot.length + 32767) / 32768 then .verifying
        else .receiving } }) ∧
  (∀ s : State, s.boot.fws ≠ .receiving ∨ s.boot.busy = false → exec .fwsPieceCopied s = .next s)

/-- PERST_N or SYS_RST_N takes the device to its full reset, and the ROM waits until both are released, after which it runs to WAIT,
or stops with code 6 in FWS_FAIL where its self-test fails; while THERMTRIP_N is asserted neither ball's assertion nor its release does
anything but be seen (R411, R423, R424, R453). -/
def Obligations.FundamentalResetAndRelease : Prop :=
  (∀ (sys : Bool) (s : State), s.pwr.powerGood = true → s.pwr.thermtrip = false →
    ∃ t, exec (.fundamentalReset sys) s = .next t ∧ t.boot.fws = .romInit ∧ t.pwr.perst = (s.pwr.perst || !sys) ∧
      t.pwr.sysRst = (s.pwr.sysRst || sys) ∧ t.kv = {} ∧ t.prm = {} ∧
      t.fabric = { forms := s.fabric.forms } ∧ t.mbx = {} ∧ t.net = {} ∧ t.pcie = {} ∧ t.cnt = {} ∧ t.integ = {} ∧
      t.ldr.journal = s.ldr.journal ∧ t.ldr.wear = s.ldr.wear ∧ t.ledger = s.ledger ∧ t.boot.fuses = s.boot.fuses ∧
      (∀ x, (t.tile x).cells = (s.tile x).cells ∨ (s.tile x).cells = []) ∧ t.pending = s.pending) ∧
  (∀ (sys : Bool) (s : State), s.pwr.powerGood = false ∨ s.pwr.thermtrip = true →
    exec (.fundamentalReset sys) s = .next { s with pwr := { s.pwr with
      perst := s.pwr.perst || !sys, sysRst := s.pwr.sysRst || sys } }) ∧
  (∀ (sys : Bool) (b : List Byte) (s : State), s.pwr.powerGood = true → s.pwr.thermtrip = false →
    s.pwr.perst = !sys → s.pwr.sysRst = sys →
    (∃ t, exec (.perstNDeassert sys true true b) s = .next t ∧ t.boot.fws = .wait ∧ t.pwr.perst = false ∧ t.pwr.sysRst = false ∧
      t.pwr.pllLocked = true ∧ t.pwr.stageStopped = !s.pwr.coolantOk ∧ t.kv = s.kv ∧ t.tiles = s.tiles) ∧
    ∃ t, exec (.perstNDeassert sys false true b) s = .next t ∧ t.boot.fws = s.boot.fws ∧ t.outside.errLow = true ∧
      t.field 0xD000C 16 8 = 6 ∧ t.kv = s.kv ∧ t.tiles = s.tiles) ∧
  (∀ (sys selfTest identity : Bool) (b : List Byte) (s : State),
    (s.pwr.perst && sys) = true ∨ (s.pwr.sysRst && !sys) = true ∨ s.pwr.powerGood = false ∨ s.pwr.thermtrip = true ∨
      (s.pwr.perst = false ∧ s.pwr.sysRst = false) →
    exec (.perstNDeassert sys selfTest identity b) s = .next { s with pwr := { s.pwr with
      perst := s.pwr.perst && sys, sysRst := s.pwr.sysRst && !sys } })

/-- A hot reset and a function-level reset disable every ring pair, erase the content keys of the production under load and return
the PCIe function to its reset state; the HBM, the sequences, the cells, SRAM, router, footlights, trims and MVM of every tile, the
substitutions, the ports and the running firmware stay, and they do nothing to a device without power. A chip reset that a fault
reaction asked for restarts the ROM and keeps the PCIe function and the MSI-X table, and is not taken where none was asked for
(R379, R423, R424). -/
def Obligations.HotAndChipResets : Prop :=
  (∀ s : State, s.pwr.powerGood = true → s.pwr.allStopped = false →
    ∃ t, exec .hotReset s = .next t ∧ exec .flr s = .next t ∧ (∀ r, r < 16 → (t.ring r).enabled = false) ∧
      (∀ x, t.ldr.current = some x → x.keys = []) ∧ t.pcie = {} ∧ t.mbx.ready = false ∧ t.mbx.jobs = s.mbx.jobs ∧
      t.kv = s.kv ∧ t.prm = s.prm ∧
      (∀ x, (t.tile x).cells = (s.tile x).cells ∧ (t.tile x).sram = (s.tile x).sram ∧ (t.tile x).router = (s.tile x).router ∧
        (t.tile x).fl = (s.tile x).fl ∧ (t.tile x).trims = (s.tile x).trims ∧ (t.tile x).mvm = (s.tile x).mvm ∧
        (t.tile x).valid = (s.tile x).valid ∧ (t.tile x).lanes = (s.tile x).lanes ∧
        (t.tile x).groups = (s.tile x).groups.filter (fun (e : Nat × AccGroup) => e.2.isOpen)) ∧
      t.fabric = s.fabric ∧ t.net = s.net ∧ t.boot = s.boot ∧ t.ldr.journal = s.ldr.journal ∧ t.pwr = s.pwr ∧ t.outside = s.outside ∧
      t.ledger = s.ledger ∧ t.pending = s.pending) ∧
  (∀ s : State, s.pwr.powerGood = false ∨ s.pwr.allStopped = true → exec .hotReset s = .next s ∧ exec .flr s = .next s) ∧
  (∀ (b : List Byte) (s : State), s.pwr.powerGood = true → s.pwr.allStopped = false → s.integ.chipReset = true →
    s.boot.fws ≠ .romInit → s.boot.stopped = false →
    ∃ t, exec (.chipReset true true b) s = .next t ∧ t.boot.fws = .wait ∧ t.pcie = s.pcie ∧
      t.reg 0x1C000 = s.reg 0x1C000 ∧ t.reg 0x1C00C = s.reg 0x1C00C ∧ t.reg 0x1D000 = s.reg 0x1D000 ∧
      t.kv = {} ∧ t.prm = {} ∧ t.fabric = { forms := s.fabric.forms } ∧ t.mbx = {} ∧ t.integ.fatalStop = false ∧ t.integ.chipReset = false ∧
      t.ldr.journal = s.ldr.journal ∧ t.boot.fuses = s.boot.fuses ∧ t.ledger = s.ledger) ∧
  (∀ (selfTest identity : Bool) (b : List Byte) (s : State), s.integ.chipReset = false →
    exec (.chipReset selfTest identity b) s = .next s)

/-- A block reset that a fault reaction, a substitution or a rehearsal asked for takes its block and is no longer asked for; of a port die it takes its
ports, lanes and queue pairs; of an HBM stack the bytes of its
frames and of their annexes (log 148), keeping every other; of a tile it leaves cells, SRAM and router, turns the footlights OFF, drops the MVM and frees the
accumulator file, whose tags stay, and the words of the tile's window read all ones until the reset ends, which opens it again; of
a row it does so for its 66 tiles, resets their routers and clears the row's fault (R11, R57, R62, R151, R197, R370, R423, R424). That bytes
which a stack reset took read as zero is the model's choice (log 5). -/
def Obligations.BlockResetsTakeTheirBlock : Prop :=
  (∀ (d : Nat) (s : State), d < 2 → s.pwr.powerGood = true → s.pwr.allStopped = false → (2, d) ∈ s.integ.blockResets →
    ∃ t, exec (.blockReset 2 d) s = .next t ∧ (∀ p, p / 8 = d → t.port p = {}) ∧ (∀ n, n / 16 = d → t.lane n = {}) ∧
      (∀ q ∈ t.net.qps, q.2.port / 8 ≠ d) ∧
      ((∀ p, p / 8 = d → (s.port p).up = false) → (2, d) ∉ t.integ.blockResets)) ∧
  (∀ (k : Nat) (s : State), k < 12 → s.pwr.powerGood = true → s.pwr.allStopped = false → (3, k) ∈ s.integ.blockResets →
    memWf s.kv.hbm = true →
    ∃ t, exec (.blockReset 3 k) s = .next t ∧ (s.fabric.active = none → (3, k) ∉ t.integ.blockResets) ∧
      (∀ a, memRead t.kv.hbm a = if stackOf a = k then 0 else memRead s.kv.hbm a)) ∧
  (∀ (t : Nat) (s : State), t < Config.tiles → s.pwr.powerGood = true → s.pwr.allStopped = false →
    (0, t) ∈ s.integ.blockResets →
    ∃ u, exec (.blockReset 0 t) s = .next u ∧ (u.tile t).cells = (s.tile t).cells ∧ (u.tile t).sram = (s.tile t).sram ∧
      (u.tile t).router = (s.tile t).router ∧ (u.tile t).fl.state = .off ∧ (u.tile t).fl.holds = [] ∧
      (u.tile t).mvm = none ∧ (u.tile t).lanes = [] ∧ (∀ e ∈ (u.tile t).groups, e.2.isOpen = false) ∧
      (∀ off, off < 0x180 → off % 4 = 0 → u.hostRead (tileReg t off) = 0xFFFFFFFF)) ∧
  (∀ (r : Nat) (s : State), r < Config.rows → s.pwr.powerGood = true → s.pwr.allStopped = false →
    (1, r) ∈ s.integ.blockResets →
    ∃ u, exec (.blockReset 1 r) s = .next u ∧ r ∉ u.fabric.rowFaults ∧ (∀ t, rowOf t = r →
      (u.tile t).cells = (s.tile t).cells ∧ (u.tile t).sram = (s.tile t).sram ∧ (u.tile t).fl.state = .off ∧
        (u.tile t).router = (s.tile t).router.rowReset ∧ (u.tile t).mvm = none) ∧
      (∀ t, rowOf t ≠ r → u.tile t = s.tile t)) ∧
  (∀ (k i : Nat) (s : State), blockWf k i = true → (k, i) ∉ s.integ.blockResets → exec (.blockReset k i) s = .next s) ∧
  (∀ (t : Nat) (ds : Map (List Nat)) (s : State), t < Config.tiles → s.firmwareRuns = true → (s.tile t).inReset = 1 →
    exec (.blockResetEnd 0 t ds) s = .next ((s.endTileReset t ds).proceed)) ∧
  (∀ (k i : Nat) (ds : Map (List Nat)) (ts : List Nat) (s : State), blockWf k i = true → s.firmwareRuns = true →
    ts = (resetTiles k i).filter (fun t => (s.tile t).inReset == k + 1) →
    (ts ≠ [] → exec (.blockResetEnd k i ds) s = .next (ts.foldl (fun s t => s.endTileReset t ds) s).proceed) ∧
    (ts = [] → exec (.blockResetEnd k i ds) s = .next s))

/-- When PWR_GOOD goes away the stage clock stops and no array is programmed any more; when rails fall, arrays keep
their cells and journals and the package is without power. A cold reset with no reset ball asserted and a ROM that
passes leaves the ROM in WAIT, with the array cells, journals, wear, ledger, fuses and service hours as they were, HBM,
sequences, substitutions and registers at their reset values, and the stage clock running where COOLANT_OK is asserted
(R11, R317, R411, R424, R426, R532, R533). -/
def Obligations.PowerLossAndColdReset : Prop :=
  (∀ s : State, s.pwr.powerGood = true →
    ∃ t, exec .powerDown s = .next t ∧ t.pwr.powerGood = false ∧ t.pwr.stageStopped = true ∧ t.ldr = s.ldr ∧ t.kv = s.kv ∧
      (∀ x, (t.tile x).cells = (s.tile x).cells ∧ (t.tile x).programming = none)) ∧
  (∀ s : State, ∃ t, exec .railLoss s = .next t ∧ t.pwr.powerGood = false ∧ t.pwr.rails = false ∧ t.pwr.thermtrip = false ∧
    t.ldr.journal = s.ldr.journal ∧ t.ledger = s.ledger ∧ t.boot.fuses = s.boot.fuses ∧ t.kv = {} ∧
    (∀ x, (t.tile x).cells = (s.tile x).cells ∨ (s.tile x).cells = [])) ∧
  (∀ (b : List Byte) (s : State), s.pwr.powerGood = false → s.pwr.perst = false → s.pwr.sysRst = false →
    ∃ t, exec (.coldReset true true b) s = .next t ∧ t.boot.fws = .wait ∧ t.boot.fuses = s.boot.fuses ∧
      t.ldr.journal = s.ldr.journal ∧ t.ldr.wear = s.ldr.wear ∧ t.ledger = s.ledger ∧ t.pwr.hours = s.pwr.hours ∧
      (∀ x, (t.tile x).cells = (s.tile x).cells ∨ (s.tile x).cells = []) ∧ t.kv = {} ∧ t.prm = {} ∧
      t.fabric = { forms := s.fabric.forms } ∧
      t.net = {} ∧ t.mbx = {} ∧ t.pcie = {} ∧ t.cnt = {} ∧ t.pwr.stageStopped = !s.pwr.coolantOk ∧
      t.outside.hostMem = s.outside.hostMem ∧ t.pending = s.pending ∧
      (t.reg 0xC = 0 ∧ t.reg 0x410 = 0x00010064 ∧ t.reg (tileReg 7 0x124) = s.reg (tileReg 7 0x124)))

/-- CAP_SET takes a cap of 500 W to 1,350 W, brings a throttle limit above it down to it and returns the previous cap,
and refuses a value outside the range; THERMAL_SET takes each hysteresis from 2 to 10 °C and refuses others. An interval
measures power and updates the demands; a bubble block takes its target from the demands and the debt and runs its 64
stage cycles; and the ramp ceiling falls to 4 when the device is idle and else rises by one up to 64 (R396, R440, R441,
R442, R443, R444, R447, R451, R452). -/
def Obligations.PowerCapAndControl : Prop :=
  (∀ (e : Entry) (s : State), Begins e 0x60 false s → 500 ≤ e.op 8 2 → e.op 8 2 ≤ 1350 →
    exec (.capSet e) s = .next ({ s.begun e with pwr := { s.pwr with
      cap := e.op 8 2, throttle := s.pwr.throttle.map (min (e.op 8 2)) } }.complete e .ok (leBytes 2 s.pwr.cap))) ∧
  (∀ (e : Entry) (s : State), Begins e 0x60 false s → e.op 8 2 < 500 ∨ 1350 < e.op 8 2 →
    exec (.capSet e) s = .next ((s.begun e).complete e .invalid [])) ∧
  (∀ (e : Entry) (s : State), Begins e 0x61 false s → 2 ≤ e.op 8 1 → e.op 8 1 ≤ 10 → 2 ≤ e.op 9 1 → e.op 9 1 ≤ 10 →
    exec (.thermalSet e) s = .next (((s.begun e).setReg 0x80038 (e.op 9 1 * 256 + e.op 8 1)).complete e .ok
      (leBytes 1 (s.field 0x80038 0 4) ++ leBytes 1 (s.field 0x80038 8 4)))) ∧
  (∀ (e : Entry) (s : State), Begins e 0x61 false s → e.op 8 1 < 2 ∨ 10 < e.op 8 1 ∨ e.op 9 1 < 2 ∨ 10 < e.op 9 1 →
    exec (.thermalSet e) s = .next ((s.begun e).complete e .invalid [])) ∧
  (∀ (d p : Nat) (s : State), s.pwr.powerGood = true → s.pwr.allStopped = false → s.packagePower d = p →
    exec (.controlInterval d) s = .next ({ (s.elapse 1).measure p with
      pwr := ((s.elapse 1).measure p).pwr.interval p s.fabric.phaseTag (!s.prm.scenes.isEmpty) }.capUnmet p)) ∧
  (∀ (b : Blocked) (s : State), s.pwr.powerGood = true → s.pwr.allStopped = false → s.pwr.stageStopped = false →
    s.openStep? = none →
    b = (List.range 64).foldl (Blocked.cycle (min 60 (max (max (64 - s.pwr.ceiling) s.pwr.capDemand) s.pwr.throttleDemand +
      min s.pwr.debt 16))) { state := { s with pwr := { s.pwr with
        target := min 60 (max (max (64 - s.pwr.ceiling) s.pwr.capDemand) s.pwr.throttleDemand + min s.pwr.debt 16)
        debt := s.pwr.debt - (min 60 (max (max (64 - s.pwr.ceiling) s.pwr.capDemand) s.pwr.throttleDemand + min s.pwr.debt 16) -
          max (max (64 - s.pwr.ceiling) s.pwr.capDemand) s.pwr.throttleDemand) } } } →
    exec .bubbleBlock s = .next { b.state with pwr := { b.state.pwr with bubbles := b.bubbles } }) ∧
  (∀ s : State, s.pwr.powerGood = true → s.pwr.allStopped = false → s.pwr.stageStopped = true → exec .bubbleBlock s = .next s) ∧
  (∀ s : State, s.pwr.powerGood = true → s.pwr.allStopped = false →
    (s.deviceIdle = true → exec (.rampStep true) s = .next { s with pwr := { s.pwr with ceiling := 4 } }) ∧
    (s.deviceIdle = false → exec (.rampStep false) s =
      .next { s with pwr := { s.pwr with ceiling := min 64 (s.pwr.ceiling + 1) } }))

/-- UNIT_TUNE: a header trim of a row sets the regulator with its tuning record, and a change of the stage clock step
stays in progress; an epoch other than FAB_FENCE_EPOCH is STALE_EPOCH. A change runs in the order of R434: it proceeds
once no collective step is open; a faster step first waits for its voltage, a slower one raises cause BUBBLE; after the
hold cycles of the switch the divider switches and the cause drops, and with a slower step the voltage follows (R194,
R434, R435, R437, R497). -/
def Obligations.TuningAndStepChanges : Prop :=
  (∀ (e : Entry) (s : State), Begins e 0x54 false s → e.op 8 1 = 0 → e.op 10 2 ≤ 159 → e.op 12 1 ≤ 4 →
    e.op 16 4 = s.fabric.epoch → s.regulatorFor s.pwr.step (trimsWith s.pwr.rowTrims (e.op 10 2) (e.op 12 1)) ≤ 850 →
    s.pwr.change = none → s.pwr.avsFaults = [] → e.op 12 1 ≠ s.rowTrim (e.op 10 2) →
    exec (.unitTuneTrim e) s = .next ((((s.begun e).setTrim (e.op 10 2) (e.op 12 1)).tuneRecord false false (e.op 10 2)
      (s.rowTrim (e.op 10 2)) (e.op 12 1)).ledgerSettle.complete e .ok (leBytes 1 (s.rowTrim (e.op 10 2))))) ∧
  (∀ (e : Entry) (s : State), Begins e 0x54 false s → e.op 8 1 = 1 → e.op 12 1 ≤ 3 → e.op 16 4 = s.fabric.epoch →
    s.regulatorFor (e.op 12 1) s.pwr.rowTrims ≤ 850 → s.pwr.change = none → s.pwr.avsFaults = [] →
    e.op 12 1 ≠ s.pwr.step →
    ∃ t, exec (.unitTuneStep e) s = .next t ∧ t.pwr.change = some (e.op 12 1, .waiting, some s.mbx.nextJob) ∧
      t.pwr.step = s.pwr.step ∧ t.mbx.jobs = s.mbx.jobs ++ ([{
        id := s.mbx.nextJob, ring := e.ring, gen := (s.ring e.ring).gen, tag := e.tag, kind := .step s.pwr.step }] : List Job) ∧ t.tiles = s.tiles ∧ t.kv = s.kv) ∧
  (∀ (e : Entry) (s : State), Begins e 0x54 false s → e.op 8 1 = 1 → e.op 12 1 ≤ 3 → e.op 16 4 ≠ s.fabric.epoch →
    exec (.unitTuneStep e) s = .next ((s.begun e).complete e .staleEpoch [])) ∧
  (∀ (v : Nat) (j : Option Nat) (s : State), s.pwr.change = some (v, .waiting, j) → s.pwr.powerGood = true →
    s.pwr.allStopped = false → s.openStep? = none →
    (v < s.pwr.step → exec (.stepChangeProceed false) s = .next { s with pwr := { s.pwr with change := some (v, .voltage, j) } }) ∧
    (s.pwr.step ≤ v → exec (.stepChangeProceed false) s = .next (s.raiseSwitch v j))) ∧
  (∀ (v : Nat) (j : Option Nat) (s : State), s.pwr.change = some (v, .voltage, j) → s.pwr.powerGood = true →
    s.pwr.allStopped = false → s.pwr.step ≠ v →
    exec .regulatorReached s = .next ({ s with pwr := { s.pwr with
      regulator := s.regulatorFor v s.pwr.rowTrims } }.raiseSwitch v j)) ∧
  (∀ (v : Nat) (j : Option Nat) (u w s : State), s.pwr.change = some (v, .switching, j) → s.pwr.powerGood = true →
    s.pwr.allStopped = false → s.pwr.stageStopped = false →
    u = (({ s.runSwitch with pwr := { s.runSwitch.pwr with step := v } }.runCycles 2).dropCause 2).runCycles 2 →
    w = (if j.isSome then ((u.setReg 0x80020 (min 0xFFFF (u.reg 0x80020 + 1))).writeTuning v).tuneRecord true false 0 s.pwr.step v
      else (u.setReg 0x80020 (min 0xFFFF (u.reg 0x80020 + 1))).writeTuning v).ledgerSettle →
    (v < s.pwr.step → exec .stepSwitch s = .next (w.endStep .ok)) ∧
    (s.pwr.step ≤ v → w.pwr.avsFaults = [] →
      exec .stepSwitch s = .next { w with pwr := { w.pwr with change := some (v, .voltage, j) } }) ∧
    (s.pwr.step ≤ v → w.pwr.avsFaults ≠ [] → exec .stepSwitch s = .next (w.endStep .timeout))) ∧
  (∀ s : State, s.pwr.stageStopped = true → exec .stepSwitch s = .next s)

/-- Loss of PLL lock stops the stage clock at once and raises PLL_UNLOCK for the scenes in flight; a regulator failure
raises AVS_FAULT with its rail, and the telemetry of every rail that works is taken; loss of coolant stops the stage
clock, drives ERR_N and stops firmware, its return starts the stage clock of a ROM that waits at boot, and after a loss
only a reset does (R433, R439, R440, R454). -/
def Obligations.FailuresStopTheStageClock : Prop :=
  (∀ s : State, s.pwr.powerGood = true → s.pwr.allStopped = false → s.pwr.pllLocked = true →
    exec .pllUnlock s = .next ({ s with pwr := { s.pwr with pllLocked := false, stageStopped := true } }.raise srcPllUnlock 0 0
      s.flight)) ∧
  (∀ (rail : Nat) (s : State), rail < 8 → s.pwr.powerGood = true → s.pwr.allStopped = false → s.pwr.change = none →
    exec (.avsFault rail) s = .next (({ s with pwr := { s.pwr with
      avsFaults := insertNat rail s.pwr.avsFaults } }.pwrEvent 5).raise srcAvsFault 9 rail [])) ∧
  (∀ (mw : List Nat) (s : State), mw.length = 8 → s.pwr.powerGood = true → s.pwr.allStopped = false →
    ∃ t, exec (.avsTelemetry mw) s = .next t ∧ (∀ i, i < 8 → s.pwr.avsFaults = [] →
      Map.getD t.pwr.telemetry i 0 = mw.getD i 0) ∧ t.tiles = s.tiles ∧ t.kv = s.kv ∧ t.regs = s.regs) ∧
  (∀ s : State, s.pwr.coolantOk = true → s.pwr.powerGood = true → s.pwr.allStopped = false →
    ∃ t, exec .coolantLoss s = .next t ∧ t.pwr.coolantOk = false ∧ t.boot.stopped = true ∧ t.pwr.stageStopped = true ∧
      t.outside.errLow = true ∧ t.firmwareRuns = false) ∧
  (∀ s : State, s.pwr.coolantOk = false → s.pwr.powerGood = true → s.pwr.allStopped = false → s.pwr.pllLocked = true →
    s.integ.fatalStop = false → s.boot.stopped = false →
    ∃ t, exec .coolantOkRestored s = .next t ∧ t.pwr.coolantOk = true ∧ t.pwr.stageStopped = false ∧ t.tiles = s.tiles) ∧
  (∀ s : State, s.pwr.coolantOk = false → s.pwr.powerGood = true → s.pwr.allStopped = false → s.boot.stopped = true →
    ∃ t, exec .coolantOkRestored s = .next t ∧ t.pwr.coolantOk = true ∧ t.pwr.stageStopped = s.pwr.stageStopped)

/-- Service hours select the age column: FRESH below 8,760, then 1 YEAR, 3 YEARS from 26,280 and 5 YEARS from 43,800; a
crossing sets the regulator for the new column at once (R436). -/
def Obligations.AgeColumnByServiceHours : Prop :=
  (∀ h : Nat, ageColumnOf h = if h < 8760 then 0 else if h < 26280 then 1 else if h < 43800 then 2 else 3) ∧
  (∀ (h : Nat) (s : State), s.pwr.powerGood = true → s.pwr.allStopped = false → s.firmwareRuns = true → s.pwr.hours ≤ h →
    s.pwr.avsFaults = [] → ageColumnOf h ≠ s.pwr.ageColumn →
    ∃ t, exec (.ageColumnCrossing h) s = .next t ∧ t.pwr.hours = h ∧ t.pwr.ageColumn = ageColumnOf h ∧
      t.pwr.regulator = t.regulatorFor t.pwr.step t.pwr.rowTrims ∧ t.pwr.step = s.pwr.step ∧ t.regs = s.regs ∧ t.kv = s.kv)

/-- A droop raises hold cause DROOP, increments DROOP_COUNT up to its maximum and sets PWR_EVENT.DROOP; the cause drops
at the recovery once every droop re-run has completed (R449, R450). -/
def Obligations.DroopHoldsUntilRecovery : Prop :=
  (∀ (row : Nat) (s : State), row < 160 → s.pwr.powerGood = true → s.pwr.allStopped = false →
    s.pwr.droopRaised = some s.integ.clock →
    ∃ t, exec (.droop row) s = .next t ∧ Nat.testBit t.fabric.causes 3 = true ∧
      t.reg 0x8002C = min 0xFFFFFFFF (s.reg 0x8002C + 1) ∧ t.pwr.droopActive = true ∧
      Nat.testBit (t.reg 0x80004) 2 = true ∧ t.kv = s.kv ∧ t.prm = s.prm ∧ t.mbx = s.mbx) ∧
  (∀ s : State, s.pwr.powerGood = true → s.pwr.allStopped = false → s.pwr.rerunsLeft = 0 →
    ∃ t, exec .droopRecovery s = .next t ∧ Nat.testBit t.fabric.causes 3 = false ∧ t.pwr.droopActive = false ∧
      t.fabric.counter = s.fabric.counter ∧ t.tiles = s.tiles ∧ t.regs = s.regs) ∧
  (∀ s : State, s.pwr.powerGood = true → s.pwr.allStopped = false → s.pwr.rerunsLeft ≠ 0 →
    exec .droopRecovery s = .next { s with pwr := { s.pwr with droopActive := false, droopQuiet := true } })

/-- A pass of a half's housekeeping monitor counts itself modulo 65,536 and gives its 48 diodes the temperatures of their codes, whose
conversion is free (log 158); an HBM reading below every threshold leaves its
zone out of warning and throttle; the throttle limit falls by 25 W, to no less than 250 W, while a zone is hot; a shutdown
that firmware does not record stops every clock at its timeout; a software trigger asks for an injected run of its half,
and a run leaves the merged triggers for the next one (R451, R452, R453, R456, R457, R458, R467). -/
def Obligations.HousekeepingAndThrottle : Prop :=
  (∀ (half : Nat) (codes : List Nat) (s : State), half < 2 → s.pwr.powerGood = true →
    s.pwr.allStopped = false → codes.length = 64 →
    ∃ t, exec (.hkmPass half codes) s = .next t ∧
      (∀ d, d < 48 → Map.getD t.pwr.dieTemps (48 * half + d) 0 =
        Config.diodeTemp (48 * half + d) (codes.getD d 0 % 4096)) ∧
      (Map.getD t.hkm half {}).passes = ((Map.getD s.hkm half {}).passes + 1) % 65536 ∧
      (∀ h, h ≠ half → (Map.getD t.hkm h {}).passes = (Map.getD s.hkm h {}).passes) ∧ t.pwr.cap = s.pwr.cap ∧
      t.fabric.active = s.fabric.active) ∧
  (∀ (temps : List Int) (s : State), s.pwr.powerGood = true → s.pwr.allStopped = false → temps.length = 12 →
    (∀ x ∈ temps, x < 85 * 16) → s.pwr.hbmWarn = false → s.pwr.hbmThrottle = false → s.pwr.overShutdown = [] →
    ∃ t, exec (.hbmSensorRead temps) s = .next t ∧ t.pwr.hbmWarn = false ∧ t.pwr.hbmThrottle = false ∧
      t.fabric = s.fabric ∧ t.tiles = s.tiles ∧ t.kv = s.kv) ∧
  (∀ (l : Nat) (s : State), s.pwr.throttle = some l → s.pwr.powerGood = true → s.pwr.allStopped = false →
    105 * 16 ≤ s.zoneReading true → exec .throttleLimitStep s =
      .next { s with pwr := { s.pwr with throttle := some (max (min l 250) (l - 25)) } }) ∧
  (∀ s : State, s.pwr.powerGood = true → s.pwr.allStopped = false → s.pwr.shutdownDue = true →
    exec .thermtripTimeout s = .next s.tripThermal) ∧
  (∀ (half : Nat) (v : Word) (s : State), half < 2 → Nat.testBit v.toNat 31 = true → bitsOf v.toNat 27 1 = 1 →
    (Map.getD s.hkm half {}).injActive = 0 →
    ∃ t, exec (.swTrigger half v) s = .next t ∧ (Map.getD t.hkm half {}).injActive = 8 ∧
      (Map.getD t.hkm half {}).passes = (Map.getD s.hkm half {}).passes ∧ t.tiles = s.tiles ∧ t.pwr = s.pwr) ∧
  (∀ (half : Nat) (codes : List Nat) (s : State), half < 2 → s.pwr.powerGood = true → s.pwr.allStopped = false →
    (Map.getD s.hkm half {}).injActive ≠ 0 →
    ∃ t, exec (.injectedSequence half codes) s = .next t ∧
      (Map.getD t.hkm half {}).injActive = (Map.getD s.hkm half {}).injPending ∧ (Map.getD t.hkm half {}).injPending = 0 ∧
      (Map.getD t.hkm half {}).passes = (Map.getD s.hkm half {}).passes ∧ t.tiles = s.tiles ∧ t.kv = s.kv)

/-- PRODUCTION_OPEN reserves the copy's frames and opens the loader where the publisher's signature and key pass, PRODUCTION_PUSH
and PRODUCTION_FETCH take the segments that arrive of a range into the copy and report the first that fails, KEY_UNWRAP
puts a content key that unwraps into its slot and enters the history chain, and RECAST_ABORT returns the frames of an
open production or turns a rolling recast back (R292, R295, R296, R313, R419). That a rolling recast without an old copy
is INVALID to abort is the model's choice (log 42). -/
def Obligations.ProductionCommandsTakeACopyIn : Prop :=
  (∀ (e : Entry) (x : ManifestIn) (m : Manifest) (fs : List Nat) (u v s : State), Begins e 0x10 (e.op 20 2 == 0xFFFF) s →
    s.ldr.state = .idle → s.ldr.bootVerified = true → transferOk e 8 20 = true →
    e.op 20 2 = 0xFFFF ∨ s.qpUsable (e.op 20 2) = true →
    v = (if e.op 20 2 = 0xFFFF then s.begun e else (s.begun e).remoteRead (e.op 20 2) (e.op 8 8) (e.op 16 4) (e.op 24 4) true) →
    m = v.envelopeOf (readManifest x) → m.wf (e.op 24 4) = true → v.epochClash m.epoch m.identity = false →
    v.takeCopyFrames m.copyFrames = some (fs, u) →
    exec (.productionOpen e (some x)) s = .next (
      if manifestSigned x.bytes = true ∧ has ((v.boot.config.map (fun c => c.publisherKeys)).getD []) m.keyDigest = true then
        { u with ldr := { u.ldr with
          state := .opened, current := some { man := m, frames := fs, accepted := [], keys := [] }
          envelopes := Map.put u.ldr.envelopes m.identity m.model } }.complete e .ok (leBytes 4 fs.length ++ leBytes 4 m.epoch)
      else v.complete e .badSignature [])) ∧
  (∀ (e : Entry) (c : Copy) (wanted : List Nat) (xs : List SegArrival) (r : FetchRun) (u v s : State), s.ldr.state = .opened →
    s.ldr.current = some c → 1 ≤ e.op 26 2 → e.op 24 2 + e.op 26 2 ≤ c.man.segments.length →
    wanted = ((List.range (e.op 26 2)).map (e.op 24 2 + ·)).filter (fun g => !has c.accepted g) →
    (∀ g ∈ wanted, ((c.man.segments[g]?).map (fun x => x.encrypted && (Map.get? c.keys x.keySlot).isNone)).getD false = false) →
    r = (xs.filter (fun x => has wanted x.seg)).foldl FetchRun.take { state := v } →
    u = (if (r.state.ldr.current.map (fun c => decide (c.accepted.length = c.man.segments.length))).getD false then
      r.state.copyComplete.proceed else r.state) →
    (Begins e 0x12 true s → v = s.begun e → e.op 8 8 % 64 = 0 →
      exec (.productionPush e (some xs)) s = .next (match r.failed with
        | some (g, st) => u.complete e st (leBytes 2 r.accepted ++ leBytes 2 g)
        | none => u.complete e .ok (leBytes 2 r.accepted ++ leBytes 2 0xFFFF))) ∧
    (Begins e 0x11 false s → v = (s.begun e).remoteRead (e.op 20 2) (e.op 8 8) (e.op 16 4)
        ((List.range (e.op 26 2)).map (fun i => ((c.man.segments[e.op 24 2 + i]?).map (fun x => x.stored)).getD 0)).sum true →
      e.op 20 2 ≠ 0xFFFF → s.qpUsable (e.op 20 2) = true →
      exec (.productionFetch e (some xs)) s = .next (match r.failed with
        | some (g, st) => u.complete e st (leBytes 2 r.accepted ++ leBytes 2 g)
        | none => u.complete e .ok (leBytes 2 r.accepted ++ leBytes 2 0xFFFF)))) ∧
  (∀ (r : FetchRun) (c : Copy) (x : SegArrival), r.state.ldr.current = some c → has c.accepted x.seg = false →
    ((checkArrival c.man x (c.opened x).1 (c.opened x).2).accepted = true → (r.take x).accepted = r.accepted + 1 ∧
      (r.take x).failed = r.failed ∧
      (r.take x).state.ldr.current = some { c with accepted := insertNat x.seg c.accepted } ∧
      (r.take x).state.fabric = r.state.fabric ∧ (r.take x).state.tiles = r.state.tiles ∧ (r.take x).state.prm = r.state.prm) ∧
    ((checkArrival c.man x (c.opened x).1 (c.opened x).2).accepted = false → (r.take x).accepted = r.accepted ∧
      (r.take x).failed = some (r.failed.getD (x.seg,
        if (checkArrival c.man x (c.opened x).1 (c.opened x).2).group then .crcFail else .badSignature)) ∧
      (r.take x).state.ldr.current = some c ∧ (r.take x).state.fabric = r.state.fabric ∧
      (r.take x).state.tiles = r.state.tiles ∧ (r.take x).state.prm = r.state.prm)) ∧
  (∀ (e : Entry) (c : Copy) (b : List Byte) (s : State), Begins e 0x16 true s → s.ldr.current = some c →
    s.ldr.state ≠ .sealing → e.op 8 8 % 64 = 0 → fieldAt b 0 1 < 16 → fieldAt b 1 3 = 0 → fieldAt b 100 28 = 0 →
    Map.get? c.keys (fieldAt b 0 1) = none →
    exec (.keyUnwrap e (some b)) s = .next (match s.boot.fuses.unwrap c.man.identity b with
      | some key => ({ (s.begun e).dmaRead e.tag b with ldr := { s.ldr with
          current := some { c with keys := Map.put c.keys (fieldAt b 0 1) key } } }.record 0x05 c.man.identity).complete e .ok []
      | none => ((s.begun e).dmaRead e.tag b).complete e .badSignature [])) ∧
  (∀ (e : Entry) (s : State), Begins e 0x15 false s →
    (s.ldr.sealRun.isSome = true → exec (.recastAbort e) s = .next ((s.begun e).complete e .busy [])) ∧
    (s.ldr.sealRun = none → ∀ r, s.ldr.recast = some r →
      (∀ o, s.ldr.old = some o → exec (.recastAbort e) s = .next ({ s.begun e with ldr := { s.ldr with
        recast := some { copy := o, back := !r.back, started := false, todo := r.touched, finished := r.todo }
        serving := some o, old := some r.copy } }.complete e .ok [])) ∧
      (s.ldr.old = none → exec (.recastAbort e) s = .next ((s.begun e).complete e .invalid []))) ∧
    (s.ldr.sealRun = none → s.ldr.recast = none → ∀ c, s.ldr.current = some c → s.ldr.refill = [] →
      exec (.recastAbort e) s = .next ({ (s.begun e).freeCopy c with ldr := { ((s.begun e).freeCopy c).ldr with
        state := .idle, current := none } }.complete e .ok [])) ∧
    (s.ldr.sealRun = none → s.ldr.recast = none → s.ldr.current = none →
      exec (.recastAbort e) s = .next ((s.begun e).complete e .invalid [])))

/-- PRODUCTION_SEAL of a STAGED production whose checks pass drains first where a cue sheet is active and else starts to
program; RECAST_ROLLING takes the production into service and recasts layer by layer, and with no cue sheet active takes
the loaded one into service at once, and is BUSY while another recast runs; the drain timeout cancels the sequences of another epoch
that are not PAUSED, and the drain ends once none of them is left (R306, R307, R308, R309, R314). That a failing group CRC at the seal
is INVALID with its event is the model's choice (log 144). -/
def Obligations.SealDrainsAndRollingRecastServes : Prop :=
  (∀ (e : Entry) (c : Copy) (sheet : CueSheet) (full : Bool) (u s : State), Begins e 0x13 false s → s.ldr.bootVerified = true →
    e.op 8 4 ≤ 600000 → s.ldr.state = .staged → s.ldr.current = some c → s.fabric.loaded = some sheet →
    sheet.identity = c.man.identity → sheet.epoch = c.man.epoch → s.ldr.recast = none → s.ldr.old = none →
    (s.begun e).sealFail c sheet = none → full = s.fabric.active.isSome →
    u = { (s.begun e).addJob e.ring e.tag .production with ldr := { s.ldr with
      state := .sealing
      sealRun := some { copy := c, sheet := sheet, job := s.mbx.nextJob, drainMs := e.op 8 4, draining := full, full := full, left := [] } } } →
    (full = true → exec (.productionSeal e) s = .next { u with prm := { s.prm with pointerDue := some c.man.epoch } }) ∧
    (full = false → exec (.productionSeal e) s = .next u.startProgramming)) ∧
  (∀ (e : Entry) (c : Copy) (sheet : CueSheet) (code i : Nat) (s : State), Begins e 0x13 false s → s.ldr.bootVerified = true →
    e.op 8 4 ≤ 600000 → s.ldr.state = .staged → s.ldr.current = some c → s.fabric.loaded = some sheet →
    sheet.identity = c.man.identity → sheet.epoch = c.man.epoch → s.ldr.recast = none → s.ldr.old = none →
    (s.begun e).sealFail c sheet = some (code, i) →
    exec (.productionSeal e) s = .next ((((s.begun e).orReg 0xC0804 (code == 1).toNat).setFail code i).complete e .invalid [])) ∧
  (∀ (e : Entry) (c : Copy) (sheet : CueSheet) (s : State), Begins e 0x14 false s → s.ldr.bootVerified = true →
    e.op 8 4 ≤ 294912 → s.ldr.state = .staged → s.ldr.current = some c → s.fabric.loaded = some sheet →
    sheet.identity = c.man.identity → sheet.epoch = c.man.epoch → c.man.tromal = false →
    (∀ p ∈ sheet.placements, p.reversed = false) → s.recasting = false → s.ldr.old = none →
    (s.fabric.active = none → ∃ r : Recast, exec (.recastRolling e) s =
      .next ({ ((s.begun e).acceptRolling c (e.op 8 4) r none).refillSums sheet with
        fabric := { (((s.begun e).acceptRolling c (e.op 8 4) r none).refillSums sheet).fabric with
          loaded := none } }.activate sheet |>.complete e .ok []) ∧
      r.copy = c.keyless ∧ r.started = true ∧ r.back = false ∧ r.current = none) ∧
    (∀ a, s.fabric.active = some a → sameBody sheet a = true → (∀ o, s.ldr.serving = some o → shapeFail o.man c.man = none) →
      exec (.recastRolling e) s = .next (((s.begun e).acceptRolling c (e.op 8 4)
        { copy := c.keyless, todo := arrayLayers c.man sheet } s.ldr.serving).complete e .ok []))) ∧
  (∀ (r : SealRun) (s : State), s.ldr.sealRun = some r → r.draining = true → s.prm.pointerDue = none →
    (∃ u, exec .drainTimeout s = .next ({ s with prm := { s.prm with seqs := u } }.orReg 0xC0804 0x80) ∧
      ∀ i, Map.get? u i = (s.seq? i).map (fun q =>
        if q.epoch ≠ r.copy.man.epoch ∧ q.state ≠ .paused then
          { q with cancelPend := true, pausePend := false } else q)) ∧
    (s.prm.scenes = [] → s.prm.seqs.all (fun x => decide (x.2.epoch = r.copy.man.epoch) || decide (x.2.state = .paused)) = true →
      exec .drainComplete s = .next s.deactivate.startProgramming)) ∧
  (∀ (e : Entry) (s : State), Begins e 0x14 false s → s.ldr.bootVerified = true → e.op 8 4 ≤ 294912 →
    s.ldr.state = .sealing ∨ (s.ldr.state = .staged ∧ (s.recasting = true ∨ s.ldr.old.isSome = true)) →
    exec (.recastRolling e) s = .next ((s.begun e).complete e .busy [])) ∧
  (∀ s : State, s.ldr.sealRun = none → exec .drainTimeout s = .next s ∧ exec .drainComplete s = .next s)

/-- A programmed array whose readback verifies becomes valid in its journal, holds its new contents, leaves the work
list, and a calibration run of its tile falls due; one that does not verify is left FAILED, with ARRAY_VALID 0, RECAST_VERIFY_FAIL and
its LDR_EVENT bit; the wear record of either is updated (R302, R304, R305, R317, R325). BOOT_VERIFY runs once, and WEAR_UPDATE dates
the wear records by the service hours (R318, R325). -/
def Obligations.ArraysAfterProgrammingAndAtBoot : Prop :=
  (∀ (t a : Nat) (reads : List Nat) (p : Placement) (c : Copy) (x : Tensor) (u v s : State), t < Config.tiles → a < 8 →
    (s.tile t).programming = some a → u = s.modTile t (fun x => { x with programming := none }) → u.target t a = some (p, c) →
    c.man.tensors[p.tensor]? = some x →
    v = (u.tally true).journalWrite t a (fun g => { g with inProgress := false, valid := true }) →
    (reads.take 2).any (fun d => d == ((u.gov t a).map (fun g => g.digest)).getD 0) = true →
    exec (.arrayProgrammed t a true reads) s = .next ((((((v.fillArray t c x p).setValid t a true).leaveLeft t a).modTile t
      (fun y => { y with runDue := true })).wearTouch t a).proceed)) ∧
  (∀ (t a : Nat) (ok : Bool) (reads : List Nat) (p : Placement) (c : Copy) (x : Tensor) (u v w s : State), t < Config.tiles → a < 8 →
    (s.tile t).programming = some a → u = s.modTile t (fun x => { x with programming := none }) → u.target t a = some (p, c) →
    c.man.tensors[p.tensor]? = some x →
    ok = false ∨ (reads.take 2).any (fun d => d == ((u.gov t a).map (fun g => g.digest)).getD 0) = false →
    v = (u.tally true).journalWrite t a (fun g => { g with inProgress := false, valid := false, failed := true }) →
    w = (((v.setValid t a false).leaveLeft t a).orReg 0xC0804 0x10).raise srcRecastVerify 1 t [] →
    exec (.arrayProgrammed t a ok reads) s = .next (({ w with ldr := { w.ldr with sealRun := w.ldr.sealRun.map (fun (r : SealRun) =>
      { r with substituted := r.substituted + (w.fabric.cutovers.length - v.fabric.cutovers.length) }) } }.wearTouch t a).proceed)) ∧
  (∀ (t a : Nat) (on : Bool) (s : State), a < 8 → Nat.testBit ((s.setValid t a on).tile t).valid a = on ∧
    (∀ x, x ≠ t → (s.setValid t a on).tile x = s.tile x)) ∧
  (∀ (t a : Nat) (reads : List Nat) (s : State), t < Config.tiles → a < 8 → (s.tile t).programming ≠ some a →
    exec (.arrayProgrammed t a true reads) s = .next s) ∧
  (∀ (ds : Map (List Nat)) (s : State), s.ldr.bootVerified = false → s.firmwareRuns = true →
    ∃ t, exec (.bootVerify ds) s = .next t ∧ t.ldr.bootVerified = true ∧ t.boot = s.boot ∧ t.net = s.net ∧ t.pcie = s.pcie ∧
      (s.ldr.journal = [] → t = { s with ldr := { s.ldr with
        bootVerified := true, resident := s.ldr.resident.filter (fun r => s.allPass r.2) } }) ∧
      exec (.bootVerify ds) t = .next t) ∧
  (∀ s : State, ∃ t, exec .wearUpdate s = .next t ∧ t.ldr.wearHours = s.pwr.hours ∧ t.ldr.journal = s.ldr.journal ∧
    t.boot = s.boot ∧ t.net = s.net ∧
    (s.ldr.journal = [] → s.tiles = [] →
      t = ({ s with ldr := { s.ldr with wearHours := s.pwr.hours } }.setReg 0xC081C 0xFFFF0000))) ∧
  (∀ (t a : Nat) (s : State), ∃ w : WearRecord, (s.wearTouch t a).ldr.wear = Map.put s.ldr.wear (arrayKey t a) w ∧
    w.hours = s.pwr.hours ∧ (s.wearTouch t a).tiles = s.tiles ∧ (s.wearTouch t a).ldr.journal = s.ldr.journal)

/-- The verification of a received image starts firmware, measured, with an empty history chain, or returns the ROM to WAIT with
the window cleared and the check's code. Firmware opens the mailbox, takes a signed pattern pack that is newer, and
installs it once its write to the free slot succeeds, keeping the pack before otherwise (R408, R411, R412, R414, R418, R419, R422, R498). -/
def Obligations.FirmwareStartsAndTakesPacks : Prop :=
  (∀ s : State, s.boot.fws = .verifying → exec .firmwareVerified s = .next (match s.boot.imageCheck s.boot.imageBytes with
    | some code => s.rejectImage code
    | none => s.startFirmware s.boot.imageBytes)) ∧
  (∀ s : State, s.boot.fws ≠ .verifying → exec .firmwareVerified s = .next s) ∧
  (∀ (bs : List Byte) (s : State), (s.startFirmware bs).boot.fws = .running ∧ (s.startFirmware bs).boot.stopped = false ∧
    (s.startFirmware bs).boot.window = [] ∧ (s.startFirmware bs).boot.chain = List.replicate 64 0 ∧
    (s.startFirmware bs).boot.chainCount = 0 ∧ (s.startFirmware bs).boot.firmware = some {
      line := fieldAt bs 4 1, build := fieldAt bs 12 4, svn := fieldAt bs 16 4, digest := shake32 bs }) ∧
  (∀ (code : Nat) (s : State), (s.rejectImage code).boot.fws = .wait ∧ (s.rejectImage code).boot.window = [] ∧
    (s.rejectImage code).boot.firmware = s.boot.firmware ∧ (s.rejectImage code).tiles = s.tiles ∧
    (s.rejectImage code).ldr = s.ldr ∧ (s.rejectImage code).pwr = s.pwr) ∧
  (∀ s : State, s.firmwareRuns = true → exec .mbxReady s =
    .next { s with kv := { s.kv with laidOut := true }, mbx := { s.mbx with ready := true } }) ∧
  (∀ s : State, s.firmwareRuns = false → exec .mbxReady s = .next s) ∧
  (∀ (e : Entry) (p : List Byte) (u s : State), Begins e 0x53 true s → e.op 8 8 % 64 = 0 → packOk p = true →
    fieldAt p 8 4 ≤ e.op 24 4 → u = (s.begun e).dmaRead e.tag p →
    exec (.patternInstall e (some p)) s = .next (
      if packSigned p = true ∧ has (s.boot.fuses.patternKeys ++ (s.boot.config.map (fun c => c.patternKeys)).getD [])
          (shake32 (sliceBytes p 16 57)) = true then
        if fieldAt p 12 4 ≤ s.boot.packVersion then u.complete e .invalid []
        else if s.boot.installing.isSome = true then u.complete e .busy []
        else { u.addJob e.ring e.tag (.patternInstall (fieldAt p 12 4)) with
          boot := { s.boot with installing := some (fieldAt p 12 4, shake32 (p.take (fieldAt p 8 4)), p.take (fieldAt p 8 4)) } }
      else u.complete e .badSignature [])) ∧
  (∀ (e : Entry) (p : List Byte) (s : State), Begins e 0x53 true s → e.op 8 8 % 64 = 0 →
    packOk p = false ∨ e.op 24 4 < fieldAt p 8 4 →
    exec (.patternInstall e (some p)) s = .next (((s.begun e).dmaRead e.tag p).complete e .invalid [])) ∧
  (∀ (v d : Nat) (bs : List Byte) (s : State), s.boot.installing = some (v, d, bs) → s.hasJob (fun k => k == .patternInstall v) = true →
    memWf s.boot.flash = true →
    ∃ t u, exec (.patternWriteDone true) s = .next t ∧ t.boot.packVersion = v ∧ t.boot.packDigest = d ∧
      t.boot.packSlot = 1 - s.boot.packSlot ∧ memReadList t.boot.flash (packAddr (1 - s.boot.packSlot)) bs.length = bs ∧
      t.boot.installing = none ∧ t.boot.chainCount = s.boot.chainCount + 1 ∧
      exec (.patternWriteDone false) s = .next u ∧ u.boot = { s.boot with installing := none } ∧
      t.tiles = s.tiles ∧ u.tiles = s.tiles)

/-- CUESHEET_LOAD keeps a sheet that no check of R169 fails, or refills a lost store with it, and reports the first check
that fails; CUESHEET_ACTIVATE of a sheet whose production is resident and whose arrays are valid takes effect at once
where no scene is in flight, and otherwise waits (R169, R170, R203, R425). -/
def Obligations.CueSheetsLoadAndActivate : Prop :=
  (∀ (e : Entry) (x : SheetIn) (c : CueSheet) (u v s : State), Begins e 0x20 (e.op 20 2 == 0xFFFF) s → s.recasting = false →
    transferOk e 8 20 = true → e.op 20 2 = 0xFFFF ∨ s.qpUsable (e.op 20 2) = true →
    u = (if e.op 20 2 = 0xFFFF then s.begun e else (s.begun e).remoteRead (e.op 20 2) (e.op 8 8) (e.op 16 4) (e.op 24 8) true) →
    c = u.compiledAs (readSheet x) → v = u.noteForm c →
    exec (.cuesheetLoad e (some x)) s = .next (match sheetCheck c (e.op 24 8) with
      | none =>
        if v.fabric.storeLost = true ∧ (v.fabric.active.map (fun a => a.digest == c.digest)).getD false = true then
          { v.setReg 0x41C 0 with fabric := { v.fabric with storeLost := false } }.complete e .ok []
        else ((v.setReg 0x41C 0).storeSheet c).complete e .ok []
      | some (code, tile) => (v.setCheck code tile).complete e .invalid (leBytes 1 code ++ leBytes 1 0 ++ leBytes 2 tile))) ∧
  (∀ (code tile : Nat) (s : State), s.setCheck code tile = s.setReg 0x41C ((code <<< 24) + (tile <<< 10))) ∧
  (∀ (e : Entry) (c : CueSheet) (s : State), Begins e 0x21 false s → s.fabric.loaded = some c → s.ldr.bootVerified = true →
    s.recasting = false → s.hasJob (fun k => k == .activate) = false → (c.identity, c.epoch) ∈ s.ldr.resident →
    s.arraysValid c = true → Nat.testBit c.flags 2 = false ∨ (s.groupFor c).isSome = true →
    (s.prm.scenes = [] → exec (.cuesheetActivate e) s = .next ({ (s.begun e).addJob e.ring e.tag .activate with
      fabric := { s.fabric with loaded := none, activating := some c } }.activate c)) ∧
    (s.prm.scenes ≠ [] → exec (.cuesheetActivate e) s = .next { (s.begun e).addJob e.ring e.tag .activate with
      fabric := { s.fabric with loaded := none, activating := some c } })) ∧
  (∀ (e : Entry) (s : State), Begins e 0x21 false s →
    (s.ldr.bootVerified = false ∨ s.recasting = true → exec (.cuesheetActivate e) s = .next ((s.begun e).complete e .busy [])) ∧
    (s.ldr.bootVerified = true → s.recasting = false → s.fabric.loaded = none →
      exec (.cuesheetActivate e) s =
        .next ((s.begun e).complete e (if s.fabric.activating.isSome then .busy else .invalid) [])))

/-- TILE_FENCE of a home tile plans a cut-over to the understudy that R183 names, and fences an idle understudy at once;
the epoch that the command carries must be FAB_FENCE_EPOCH; TILE_RESTORE plans the way back; and a streamed position is
served by its arrays once all of them are ready (R183, R186, R187, R189, R191, R194). -/
def Obligations.FencesAndRestoresPlanCutovers : Prop :=
  (∀ (e : Entry) (s : State), Begins e 0x50 false s → e.op 8 2 < Config.tiles → e.op 16 1 < 2 →
    (e.op 12 4 ≠ s.fabric.epoch → exec (.tileFence e) s = .next ((s.begun e).complete e .staleEpoch [])) ∧
    (e.op 12 4 = s.fabric.epoch → s.fenceBusy (e.op 8 2) = true →
      exec (.tileFence e) s = .next ((s.begun e).complete e .busy [])) ∧
    (e.op 12 4 = s.fabric.epoch → s.fenceBusy (e.op 8 2) = false → (s.tile (e.op 8 2)).router.fenced = false →
      s.rehearsing (e.op 8 2) = false → s.fabric.storeLost = false →
      (s.positionOf (e.op 8 2) = none → exec (.tileFence e) s =
        .next (((s.begun e).fenceTile (e.op 8 2) true).complete e .ok ((s.begun e).fenceResult 0xFFFF))) ∧
      (∀ home, s.positionOf (e.op 8 2) = some home →
        (s.chooseUnderstudy home = none → exec (.tileFence e) s = .next ((s.begun e).complete e .noSpace [])) ∧
        (∀ u, s.chooseUnderstudy home = some u → exec (.tileFence e) s =
          .next { (s.begun e).addJob e.ring e.tag (.fence (e.op 8 2)) with fabric := { s.fabric with
            cutovers := s.fabric.cutovers ++ [{
              home := home, under := u, restore := false, copy := !isUnderstudy (e.op 8 2) && e.op 16 1 == 0, bypass := (s.tile home).router.faulty, auto := false
              prepared := false, job := some s.mbx.nextJob, expect := some s.fabric.epoch, mark := some (e.op 8 2) }] } })))) ∧
  (∀ (e : Entry) (s : State), Begins e 0x51 false s → e.op 8 2 < Config.tiles → (s.tile (e.op 8 2)).router.fenced = true →
    e.op 12 4 = s.fabric.epoch → s.fenceBusy (e.op 8 2) = false → s.rehearsing (e.op 8 2) = false →
    (isUnderstudy (e.op 8 2) = true → exec (.tileRestore e) s =
      .next (((s.begun e).fenceTile (e.op 8 2) false).complete e .ok (leBytes 4 0 ++ leBytes 4 s.fabric.epoch))) ∧
    (isUnderstudy (e.op 8 2) = false → (s.tile (e.op 8 2)).router.faulty = false →
      ∃ t, exec (.tileRestore e) s = .next t ∧ t.fabric.cutovers = s.fabric.cutovers ++ [{
        home := e.op 8 2, under := s.servingTile (e.op 8 2), restore := true, copy := true, bypass := false, auto := false
        prepared := true, job := some s.mbx.nextJob, expect := some s.fabric.epoch }] ∧ t.fabric.substs = s.fabric.substs ∧ t.kv = s.kv)) ∧
  (∀ (t : Nat) (s : State), t < Config.tiles → exec (.understudyPrepared t) s = .next { s with fabric := { s.fabric with
    cutovers := s.fabric.cutovers.map (fun c => if c.under = t && !c.restore then { c with prepared := true } else c) } }) ∧
  (∀ (row : Nat) (east : Bool) (x : Subst) (c : CueSheet) (s : State), row < Config.rows → s.fabric.active = some c →
    s.servesAs (row * 66 + (if east then 65 else 0)) = some x → x.streamed = true →
    (s.allServe c x.home (row * 66 + (if east then 65 else 0)) = false → exec (.understudyArraysReady row east) s = .next s) ∧
    (s.allServe c x.home (row * 66 + (if east then 65 else 0)) = true →
      ∃ t, exec (.understudyArraysReady row east) s = .next t ∧ t.fabric.substs = s.fabric.substs.map (fun (y : Subst) =>
        if y.under = row * 66 + (if east then 65 else 0) then { y with streamed := false } else y) ∧ t.tiles = s.tiles ∧
        t.kv = s.kv ∧ t.prm = s.prm))

/-- SEQ_ADMIT takes the lowest FREE entry for a record whose CRC and operands pass; SEQ_CANCEL marks a running sequence,
SEQ_PAUSE asks for its pause once PTP time is set, SEQ_APPEND keeps its tokens for the next scene change and reads them from a remote
buffer where a queue pair is named, SEQ_EVICT posts the EVICTED record and frees the entry, and SEQ_RESUME of a PAUSED entry begins to
bring its image back; member 0 of a group keeps what it accepted for its next SCENE step (R248, R249, R268 to R273, R358, R395). -/
def Obligations.SequenceCommandsByState : Prop :=
  (∀ (e : Entry) (r : List Byte) (toks : List Nat) (i : Nat) (s : State), Begins e 0x30 true s → s.follower = false →
    s.fabric.active.isSome = true → e.op 8 8 % 64 = 0 →
    fieldAt (sliceBytes r 0 128) 124 4 = crc32c ((sliceBytes r 0 128).take 124) →
    admitOk s.model (sliceBytes r 0 128) = true → s.freeEntry = some i →
    fieldAt (sliceBytes r 0 128) 12 2 = 0xFFFF → exec (.seqAdmit e (some r) toks) s =
      .next ((((s.begun e).dmaRead e.tag (sliceBytes r 0 128)).accept (.enter i e.tag (sliceBytes r 0 128) toks)).complete e .ok (leBytes 2 i))) ∧
  (∀ (i tag : Nat) (b : List Byte) (toks : List Nat) (s : State), s.seq? i = none →
    s.carryOut (.enter i tag b toks) = ((({ s with prm := { s.prm with order := s.prm.order + 1 } }.setSeq i
      (admitted b tag s.prm.epoch (s.prm.order + 1) toks)).takeMap i).lookup i
        ((admitted b tag s.prm.epoch (s.prm.order + 1) toks).tokens.length / 4096)).count 25 1) ∧
  (∀ (r : Relay) (s : State), (s.ownIndex ≠ some 0 → s.accept r = s.carryOut r) ∧
    (s.ownIndex = some 0 → ∃ t, t = s.carryOut r ∧ s.accept r = { t with net := { t.net with relays := t.net.relays ++ [r] } })) ∧
  (∀ (i : Nat) (q : Seq) (a : Append) (dest : Nat × Nat × Nat × Nat) (key : Nat) (s : State), s.seq? i = some q →
    s.carryOut (.cancel i) = s.setSeq i { q with cancelPend := true, pausePend := false } ∧
    s.carryOut (.pause i dest key) = s.setSeq i { q with pausePend := true, pauseTo := dest, pauseKey := key } ∧
    s.carryOut (.append i a) = s.setSeq i { q with append := q.append ++ [a] } ∧
    s.carryOut (.evict i) = s.releaseSeq i ∧
    (∀ im, s.carryOut (.resume i none im) = s.beginResume i q im)) ∧
  (∀ (e : Entry) (q : Seq) (s : State), s.follower = false → s.seq? e.seqIndex = some q → q.tag = e.seqTag →
    (Begins e 0x32 false s → q.state = .queued ∨ q.state = .prefill ∨ q.state = .decode ∨ q.state = .idle →
      exec (.seqCancel e) s = .next (((s.begun e).accept (.cancel e.seqIndex)).complete e .ok [])) ∧
    (Begins e 0x33 false s → q.state = .prefill ∨ q.state = .decode ∨ q.state = .idle → q.cancelPend = false →
      q.pausePend = false → 1 ≤ e.op 40 4 → e.op 40 4 ≤ 86400 → sourceOk (e.op 16 8) (e.op 28 2) = true → s.net.ptpSet = true →
      exec (.seqPause e) s = .next (((s.begun e).accept
        (.pause e.seqIndex (e.op 16 8, e.op 32 8, e.op 28 2, e.op 40 4) (e.op 24 4))).complete e .ok [])) ∧
    (∀ toks, Begins e 0x31 false s → q.state = .idle →
      1 ≤ e.op 32 4 → q.append.foldl (fun k a => k + a.tokens.length) q.tokenLen + e.op 32 4 ≤ 4194305 → e.op 36 4 ≤ 4194304 →
      ([e.op 40 4, e.op 44 4, e.op 48 4].all (stopOk s.model)) = true → sourceOk (e.op 16 8) (e.op 28 2) = true →
      (e.op 28 2 = 0xFFFF → exec (.seqAppend e toks) s = .next (((s.begun e).accept (.append e.seqIndex {
        tokens := readTokens (e.op 32 4) toks, maxNew := e.op 36 4, stops := [e.op 40 4, e.op 44 4, e.op 48 4]
        source := e.op 16 8, qp := e.op 28 2, key := e.op 24 4 })).complete e .ok [])) ∧
      (e.op 28 2 ≠ 0xFFFF → s.qpUsable (e.op 28 2) = false →
        exec (.seqAppend e toks) s = .next ((s.begun e).complete e .timeout [])) ∧
      (e.op 28 2 ≠ 0xFFFF → s.qpUsable (e.op 28 2) = true → exec (.seqAppend e toks) s =
        .next ((((s.begun e).remoteRead (e.op 28 2) (e.op 16 8) (e.op 24 4) (4 * e.op 32 4) true).accept (.append e.seqIndex {
          tokens := readTokens (e.op 32 4) toks, maxNew := e.op 36 4, stops := [e.op 40 4, e.op 44 4, e.op 48 4]
          source := e.op 16 8, qp := e.op 28 2, key := e.op 24 4 })).complete e .ok []))) ∧
    (Begins e 0x35 false s → q.state = .paused → exec (.seqEvict e) s = .next
      ((((s.begun e).complete e .ok []).seqRecord e.seqIndex 7 .ok 0 true 0 0 []).accept (.evict e.seqIndex))) ∧
    (∀ im, Begins e 0x34 (s.resumeLocal e) s → e.op 8 2 ≠ 0xFFFF → q.state = .paused → s.net.ptpNs ≤ q.deadline →
      q.pauseTo.2.2.1 = 0xFFFF → s.imageStatus im q.deadline = none → exec (.seqResume e (some im)) s =
        .next (((s.begun e).accept (.resume e.seqIndex none im)).complete e .ok (leBytes 2 e.seqIndex)))) ∧
  (∀ (e : Entry) (im : Image) (i : Nat) (s : State), Begins e 0x34 (s.resumeLocal e) s → e.op 8 2 = 0xFFFF → s.follower = false →
    s.net.ptpSet = true → e.op 40 1 ≤ 15 → sourceOk (e.op 16 8) (e.op 28 2) = true → e.op 28 2 = 0xFFFF →
    imageLength (imagePageCount im) ≤ e.op 32 8 →
    s.imageStatus im (fieldAt im.header 84 8) = none → s.freeEntry = some i →
    exec (.seqResume e (some im)) s =
      .next (((s.begun e).accept (.resume i (some (e.op 40 1)) im)).complete e .ok (leBytes 2 i))) ∧
  (∀ (i r : Nat) (im : Image) (s : State), s.seq? i = none →
    s.carryOut (.resume i (some r) im) = { s with prm := { s.prm with order := s.prm.order + 1 } }.beginResume i
      { seqOfImage (sliceBytes im.header 96 160) with
        former := (seqOfImage (sliceBytes im.header 96 160)).state, ring := r, order := s.prm.order + 1, tokens := im.tokens } im) ∧
  (∀ (e : Entry) (s : State), Begins e 0x32 false s → s.seq? e.seqIndex = none →
    exec (.seqCancel e) s = .next ((s.begun e).complete e .invalid []))

/-- PREFIX_PIN adds a pin to an entry of the directory and to its ancestors and sets its LAST_USE, and PREFIX_UNPIN takes one
away. PIN answers NO_SPACE where a count of the chain is 65,535 already, and UNPIN answers INVALID where the entry's count is 0,
with no count changed; an entry that the directory does not hold is INVALID, and so is one whose ENTRY_CRC, or an ancestor's,
fails: it is never used, and is evicted (R227, R236). That a failing ancestor takes the entry with it is the model's reading
(log 122). -/
def Obligations.PrefixPinsCountAlongTheChain : Prop :=
  (∀ (e : Entry) (i : Nat) (u s : State), Begins e 0x36 false s → s.findEntry (e.op 8 8, e.op 16 8) = some i → s.entrySound i = true →
    u = (s.begun e).checkEntries (s.pinChain i) →
    ((∀ j ∈ s.pinChain i, s.entrySound j = true) → u = s.begun e) ∧
    (u.entryValid i = false → exec (.prefixPin e) s = .next (u.complete e .invalid [])) ∧
    (u.entryValid i = true → (∃ j ∈ s.pinChain i, ((Map.get? u.kv.dir j).map (fun d => d.pins)).getD 0 = 65535) →
      exec (.prefixPin e) s = .next (u.complete e .noSpace [])) ∧
    (u.entryValid i = true → (∀ j ∈ s.pinChain i, ((Map.get? u.kv.dir j).map (fun d => d.pins)).getD 0 ≠ 65535) →
      ∃ t, t = ((s.pinChain i).foldl (fun s j => s.modDir j (fun d => { d with pins := d.pins + 1 })) u).modDir i
          (fun d => { d with lastUse := s.prm.scCount }) ∧
        exec (.prefixPin e) s = .next (t.complete e .ok (t.pinResult i)) ∧ t.kv.hbm = u.kv.hbm ∧ t.kv.frames = u.kv.frames ∧
        t.prm = u.prm ∧ t.tiles = s.tiles)) ∧
  (∀ (e : Entry) (i : Nat) (u s : State), Begins e 0x37 false s → s.findEntry (e.op 8 8, e.op 16 8) = some i → s.entrySound i = true →
    u = (s.begun e).checkEntries (s.pinChain i) →
    (u.entryValid i = false → exec (.prefixUnpin e) s = .next (u.complete e .invalid [])) ∧
    (((Map.get? u.kv.dir i).map (fun d => d.pins)).getD 0 = 0 → exec (.prefixUnpin e) s = .next (u.complete e .invalid [])) ∧
    (u.entryValid i = true → ((Map.get? u.kv.dir i).map (fun d => d.pins)).getD 0 ≠ 0 →
      ∃ t, t = (u.pinChain i).foldl (fun s j => s.modDir j (fun d => { d with pins := d.pins - 1 })) u ∧
        exec (.prefixUnpin e) s = .next (t.complete e .ok (t.pinResult i)) ∧ t.kv.hbm = u.kv.hbm ∧ t.kv.frames = u.kv.frames ∧
        t.prm = u.prm ∧ t.tiles = s.tiles)) ∧
  (∀ (e : Entry) (s : State), Begins e 0x36 false s → s.findEntry (e.op 8 8, e.op 16 8) = none →
    exec (.prefixPin e) s = .next ((s.begun e).complete e .invalid [])) ∧
  (∀ (e : Entry) (s : State), Begins e 0x37 false s → s.findEntry (e.op 8 8, e.op 16 8) = none →
    exec (.prefixUnpin e) s = .next ((s.begun e).complete e .invalid [])) ∧
  (∀ (e : Entry) (i : Nat) (s : State), Begins e 0x36 false s → s.findEntry (e.op 8 8, e.op 16 8) = some i →
    s.entrySound i = false →
    exec (.prefixPin e) s = .next (((s.begun e).kvCheckFail i 3 []).complete e .invalid [])) ∧
  (∀ (e : Entry) (i : Nat) (s : State), Begins e 0x37 false s → s.findEntry (e.op 8 8, e.op 16 8) = some i →
    s.entrySound i = false →
    exec (.prefixUnpin e) s = .next (((s.begun e).kvCheckFail i 3 []).complete e .invalid []))

/-- The end of a pause copy whose pages pass their checks makes a PAUSING sequence PAUSED with its deadline, frees its frames and
posts its record (event kind 4); a copy that may not leave, or of a sequence that a drain cancels, goes on. The deadline releases a
PAUSED one with EXPIRED and its PRM_EVENT bit; a resume whose pages pass their checks returns the sequence to the state that it was
paused in, one of which a page fails is left for the scene change to fail, and one that waits for frames goes on waiting while it
cannot have them or a sequence admitted before it waits (R235, R236, R269, R270, R271). -/
def Obligations.GreenRoomEvents : Prop :=
  (∀ (i : Nat) (q : Seq) (s : State), i < 4096 → s.seq? i = some q → q.state = .pausing →
    ((if q.pauseTo.2.2.1 = 0xFFFF then s.mayRequest else s.qpUsable q.pauseTo.2.2.1) = true → q.cancelPend = false →
      (s.checkPages (s.mapped i)).1 = true → (∀ j ∈ q.refs, s.entrySound j = true) → ∃ t, exec (.pauseCopyDone i) s = .next t ∧
      (t.seq? i).map (fun q => q.state) = some .paused ∧
      (t.seq? i).map (fun q => q.deadline) = some ((s.net.ptpNs + q.pauseTo.2.2.2 * 1000000000) % 2 ^ 64) ∧
      (t.seq? i).map (fun q => q.mapFrames) = some [] ∧ t.tiles = s.tiles ∧ t.fabric = s.fabric) ∧
    ((if q.pauseTo.2.2.1 = 0xFFFF then s.mayRequest else s.qpUsable q.pauseTo.2.2.1) = true → q.cancelPend = false →
      (s.checkPages (s.mapped i)).1 = false → exec (.pauseCopyDone i) s = .next (s.checkPages (s.mapped i)).2) ∧
    ((if q.pauseTo.2.2.1 = 0xFFFF then s.mayRequest else s.qpUsable q.pauseTo.2.2.1) = false ∨ q.cancelPend = true →
      exec (.pauseCopyDone i) s = .next s)) ∧
  (∀ (i : Nat) (q : Seq) (s : State), i < 4096 → s.seq? i = some q → q.state ≠ .pausing →
    exec (.pauseCopyDone i) s = .next s) ∧
  (∀ (i : Nat) (q : Seq) (s : State), i < 4096 → s.seq? i = some q → q.state = .paused → q.deadline ≤ s.net.ptpNs →
    s.integ.fatalStop = false → ∃ t, exec (.greenRoomExpiry i) s = .next t ∧ t.seq? i = none ∧
      t.prm.scenes = s.prm.scenes ∧ t.tiles = s.tiles ∧ t.fabric = s.fabric) ∧
  (∀ (i : Nat) (q : Seq) (s : State), i < 4096 → s.seq? i = some q → q.state = .paused → s.net.ptpNs < q.deadline →
    exec (.greenRoomExpiry i) s = .next s) ∧
  (∀ (i : Nat) (q : Seq) (u s : State), i < 4096 → s.seq? i = some q → q.state = .resuming → q.failStatus = 0 →
    q.starved = false → u = q.fetched.foldl (fun s p => s.placeRecord i p) s →
    ((∀ p ∈ q.fetched, ∀ f, u.filledFrame i p.1 = some f → recordSound p.2 = true ∧ u.pageFault u.model f = none) →
      ∃ t, exec (.resumeComplete i) s = .next t ∧ (t.seq? i).map (fun q => q.state) = some q.former ∧
        t.tiles = s.tiles ∧ t.fabric = s.fabric ∧ (q.fetched = [] → t.kv = s.kv)) ∧
    (∀ p ∈ q.fetched, ∀ f, u.filledFrame i p.1 = some f → recordSound p.2 = false ∨ u.pageFault u.model f ≠ none →
      exec (.resumeComplete i) s = .next (s.setSeq i { q with failStatus := Status.code .crcFail }))) ∧
  (∀ (i : Nat) (q : Seq) (s : State), i < 4096 → s.seq? i = some q → q.state = .resuming → q.failStatus = 0 →
    q.starved = true →
    (s.awaited q.order = true → exec (.resumeComplete i) s = .next s) ∧
    (s.awaited q.order = false → (s.resumeFrames i).1 = false →
      exec (.resumeComplete i) s = .next (s.resumeFrames i).2)) ∧
  (∀ (i : Nat) (q : Seq) (s : State), i < 4096 → s.seq? i = some q → q.state ≠ .resuming →
    exec (.resumeComplete i) s = .next s)

/-- SCENE_FORM starts a scene of the least variant that holds the chosen members at its start, after its descriptor has gone to the
other members of a group, and none while FATAL_STOP is set or 16 scenes are in flight; a member other than member 0 starts the scene that it was sent. SCENE_CHANGE ends the
oldest scene once the counter has reached its end and EMPTY_SCENE_CHANGE runs the steps without members where something
waits for them; SECTION_START brings the counter to the section, starts its routers and takes its phase tag (R162, R252,
R253, R254, R256, R265, R266, R357, R484). -/
def Obligations.ScenesFormAndChange : Prop :=
  (∀ (c : CueSheet) (big : Variant) (f : Forming) (s : State), s.fabric.active = some c → s.mayForm = true →
    s.follower = false → c.variants.getLast? = some big → f = s.chooseFor c big →
    (f.chosen = [] → exec .sceneForm s = .next f.st) ∧
    (∀ n v, f.chosen ≠ [] → variantFor c.variants f.positions f.chosen.length = some (n, v) →
      exec .sceneForm s = .next (((f.st.advanceTo f.st.nextStart).sendScene
        { variant := n, members := f.chosen, positions := f.positions }).startScene (n, v)
        f.st.nextStart f.chosen f.positions))) ∧
  (∀ (c : CueSheet) (s : State), s.fabric.active = some c → s.mayForm = true → s.follower = true →
    exec .sceneForm s = .next (s.startSent c)) ∧
  (∀ (c : CueSheet) (s : State), s.fabric.active = some c → s.integ.fatalStop = true ∨ 16 ≤ s.prm.scenes.length →
    exec .sceneForm s = .next s) ∧
  (∀ (sc x : Scene) (rest tail : List Scene) (c : CueSheet) (v : Variant) (u s : State), s.prm.scenes = sc :: rest →
    s.fabric.active = some c → c.variants[sc.variant]? = some v → u = s.advanceTo (sc.start + v.length) →
    (sc.start + v.length ≤ u.fabric.counter → u.prm.scenes = x :: tail → exec .sceneChange s = .next (u.endScene x)) ∧
    (u.fabric.counter < sc.start + v.length → exec .sceneChange s = .next u)) ∧
  (∀ (n : Nat) (s : State), n ≤ s.fabric.counter → s.advanceTo n = s) ∧
  (∀ s : State, s.prm.scenes = [] → s.integ.fatalStop = false →
    (s.emptyDue = true → exec .emptySceneChange s = .next (s.changeSteps none).afterChange) ∧
    (s.emptyDue = false → exec .emptySceneChange s = .next s)) ∧
  (∀ (i id : Nat) (sc : Scene) (x : Section) (errors : List SecError) (u s : State), s.sectionOf i id = some (sc, x) →
    u = s.advanceTo (sc.start + x.start) → u.fabric.running.any (fun r => r.index == i && r.scene == id) = false →
    (u.reached (sc.start + x.start) = true → exec (.sectionStart i id errors) s =
      .next (errors.foldl (State.sectionError id) (u.beginSection i id (sc.start + x.start) x.tag))) ∧
    (u.reached (sc.start + x.start) = false → exec (.sectionStart i id errors) s = .next u)) ∧
  (∀ (i id at_ tag : Nat) (s : State), (s.beginSection i id at_ tag).fabric.phaseTag = tag ∧
    (s.beginSection i id at_ tag).fabric.running = s.fabric.running ++ [{ index := i, scene := id, start := at_ }] ∧
    (∀ t, (s.beginSection i id at_ tag).tile t = s.tile t ∨ (s.beginSection i id at_ tag).tile t =
      { s.tile t with router := (s.tile t).router.startSection i }) ∧
    (s.beginSection i id at_ tag).kv = s.kv ∧ (s.beginSection i id at_ tag).prm = s.prm)

/-- CAL_RUN queues a run of every tile of its range; AUTO_EN and CAL_TRIGGER queue a half whose mean has moved by the
threshold or whose last run lies 24 h back; a run takes the half's reference temperature and time at its start; a calibration slot
starts a queued run over the arrays that hold weights, and gives a run in progress up to 64 windows (R94, R97, R98, R117). That a
run without an array starts nothing, and that a run queued within a slot waits for the next, are the model's choices (logs 138,
139). -/
def Obligations.CalibrationRunsAreQueued : Prop :=
  (∀ (e : Entry) (s : State), Begins e 0x40 false s → e.op 8 2 < Config.tiles → 1 ≤ e.op 10 2 →
    e.op 8 2 + e.op 10 2 ≤ Config.tiles → exec (.calRun e) s = .next (((List.range (e.op 10 2)).foldl (fun s i =>
      s.queueRun (e.op 8 2 + i)) (s.begun e)).complete e .ok (leBytes 4 (e.op 10 2)))) ∧
  (∀ (e : Entry) (s : State), Begins e 0x40 false s → Config.tiles < e.op 8 2 + e.op 10 2 ∨ e.op 10 2 = 0 →
    exec (.calRun e) s = .next ((s.begun e).complete e .invalid [])) ∧
  (∀ (v : Word) (u s : State), u = s.writeReg 0x200 v.toNat →
    (u.field 0x200 16 1 = 0 → exec (.autoEn v) s = .next u) ∧
    (u.field 0x200 16 1 = 1 → exec (.autoEn v) s = .next ((List.range 2).foldl (fun s h =>
      if s.triggerDue h then s.queueHalf h else s) u)) ∧
    u.field 0x200 16 1 = bitsOf v.toNat 16 1 ∧
    u.field 0x200 0 5 = (if 1 ≤ bitsOf v.toNat 0 5 ∧ bitsOf v.toNat 0 5 ≤ 20 then bitsOf v.toNat 0 5 else s.field 0x200 0 5)) ∧
  (∀ (h : Nat) (s : State), h < 2 →
    (s.field 0x200 16 1 = 0 → exec (.calTrigger h) s = .next s) ∧
    (s.field 0x200 16 1 = 1 → s.triggerDue h = true → exec (.calTrigger h) s = .next (s.queueHalf h)) ∧
    (s.triggerDue h = false → exec (.calTrigger h) s = .next s) ∧
    (86400000000 ≤ s.integ.clock - Map.getD s.calStart h 0 → s.triggerDue h = true) ∧
    (48 * 8 * s.field 0x200 0 5 ≤ (s.halfSum h - Map.getD s.calReference h 0).natAbs → s.triggerDue h = true)) ∧
  (∀ (t : Nat) (arrays : List Nat) (s : State), arrays ≠ [] →
    ((s.startRun t arrays false).tile t).calRun = some { arrays := arrays, direct := false } ∧
    ((s.startRun t arrays false).tile t).calQueued = false ∧
    Map.getD (s.startRun t arrays false).calStart (halfOf t) 0 = s.integ.clock ∧
    Map.getD (s.startRun t arrays false).calReference (halfOf t) 0 = s.halfSum (halfOf t) ∧
    (∀ x, x ≠ t → (s.startRun t arrays false).tile x = s.tile x) ∧ (s.startRun t arrays false).kv = s.kv) ∧
  (∀ (t home offset at_ : Nat) (ws : List CalWindow) (c : CueSheet) (u s : State), t < Config.tiles →
    s.fabric.active = some c → s.positionOf t = some home → s.servingTile home = t →
    Map.get? c.compiled.calOffsets home = some offset →
    at_ = nextSlot s.fabric.counter c.calPeriod offset (s.tile t).calFrom → u = s.advanceTo at_ →
    (u.reached at_ = true → exec (.calSlot t ws) s = .next (u.runSlot t at_ ws)) ∧
    (u.reached at_ = false → exec (.calSlot t ws) s = .next u)) ∧
  (∀ (t at_ : Nat) (ws : List CalWindow) (s : State),
    (∀ r, (s.tile t).calRun = some r → r.direct = true → s.runSlot t at_ ws = s) ∧
    (∀ r, (s.tile t).calRun = some r → r.direct = false → s.runSlot t at_ ws =
      (ws.take 64).foldl (fun s w => s.calWindow t w) (s.modTile t (fun x => { x with calFrom := at_ + 1 }))) ∧
    ((s.tile t).calRun = none → (s.tile t).calQueued = true → s.calArrays t ≠ [] → s.runSlot t at_ ws =
      (ws.take 64).foldl (fun s w => s.calWindow t w)
        ((s.startRun t (s.calArrays t) false).modTile t (fun x => { x with calFrom := at_ + 1 }))) ∧
    ((s.tile t).calRun = none → (s.tile t).calQueued = true → s.calArrays t = [] → s.runSlot t at_ ws =
      s.modTile t (fun x => { x with calQueued := false })) ∧
    ((s.tile t).calRun = none → (s.tile t).calQueued = false → s.runSlot t at_ ws = s)) ∧
  (∀ (counter period offset start at_ : Nat), 0 < period → at_ = nextSlot counter period offset start →
    (∃ k, at_ = offset + k * period) ∧ (counter < at_ ∨ (start ≤ at_ ∧ at_ ≤ counter ∧ counter < at_ + 4096))) ∧
  (∀ (t : Nat) (ws : List CalWindow) (s : State), t < Config.tiles → s.positionOf t = none → exec (.calSlot t ws) s = .next s)

/-- The end of the run of an array installs the pooled trims where its two passes agree and disagrees otherwise; with the
last array CAL_COUNT increments up to its maximum and CAL_LAST_TIME takes the PTP time; CAL_EXPORT writes a record for
each tile at its stride, and CAL_IMPORT installs the records that pass and reports the first that does not (R94, R95,
R96, R99, R100, R101, R102). That the status of an import is that of the first rejected record is the model's reading
(log 31). -/
def Obligations.CalibrationRecordsAndResults : Prop :=
  (∀ (t a : Nat) (rest : List Nat) (ws : List CalWindow) (r : CalRunState) (s : State), t < Config.tiles →
    s.rehearsing t = false → (s.tile t).calRun = some r → r.direct = false → r.arrays = a :: rest →
    (r.window < 46080 → exec (.calRunComplete t ws) s = .next s) ∧
    (46080 ≤ r.window → rest = [] → exec (.calRunComplete t ws) s = .next ((s.applyFit t a r).runDone t)) ∧
    (46080 ≤ r.window → rest ≠ [] → exec (.calRunComplete t ws) s = .next ((s.applyFit t a r).modTile t (fun x => { x with
      calRun := some { arrays := rest, direct := false } })))) ∧
  (∀ (t : Nat) (ws : List CalWindow) (r : CalRunState) (s : State), t < Config.tiles → s.rehearsing t = false →
    (s.tile t).calRun = some r → r.direct = true → s.clockRuns = true → (s.tile t).fl.state = .ready →
    exec (.calRunComplete t ws) s = .next ((ws.foldl (fun s w => s.calWindow t w) s).endCalArray t)) ∧
  (∀ (t : Nat) (ws : List CalWindow) (s : State), t < Config.tiles → s.rehearsing t = true ∨ (s.tile t).calRun = none →
    exec (.calRunComplete t ws) s = .next s) ∧
  (∀ (t a : Nat) (r : CalRunState) (s : State),
    ((s.tile t).fitAccepted (s.reg (tileReg t 0x18)) a r = true →
      ((s.applyFit t a r).tile t).trimsValid = (s.tile t).trimsValid ||| 2 ^ a ∧
      ((s.applyFit t a r).tile t).trims = (s.tile t).trims ∧ (∀ x, x ≠ t → (s.applyFit t a r).tile x = s.tile x)) ∧
    ((s.tile t).fitAccepted (s.reg (tileReg t 0x18)) a r = false → s.applyFit t a r =
      ((s.modTile t (fun x => { x with calDisagree := x.calDisagree ||| 2 ^ a })).count 42 1).raise srcCalDisagree 1 t [])) ∧
  (∀ (t : Nat) (s : State), s.net.ptpNs < 2 ^ 64 →
    (s.endRun t).reg (tileReg t 0x10C) = min 0xFFFFFFFF (s.reg (tileReg t 0x10C) + 1) ∧
    (s.endRun t).pair (tileReg t 0x110) = s.net.ptpNs) ∧
  (∀ (e : Entry) (s : State), Begins e 0x41 true s → tileRangeOk e = true → e.op 16 8 % 64 = 0 →
    66596 * e.op 10 2 ≤ e.op 24 8 → exec (.calExport e) s = .next (((List.range (e.op 10 2)).foldl (fun s i =>
      s.dmaWrite e.tag (e.op 16 8 + 66596 * i) (s.calRecord (e.op 8 2 + i))) (s.begun e)).complete e .ok (leBytes 4 (e.op 10 2)))) ∧
  (∀ (e : Entry) (s : State), Begins e 0x41 true s → tileRangeOk e = false ∨ e.op 16 8 % 64 ≠ 0 ∨ e.op 24 8 < 66596 * e.op 10 2 →
    exec (.calExport e) s = .next ((s.begun e).complete e .invalid [])) ∧
  (∀ (e : Entry) (bs : List Byte) (go : Importing) (u s : State), Begins e 0x42 true s → tileRangeOk e = true →
    e.op 16 8 % 64 = 0 → 66596 * e.op 10 2 ≤ e.op 24 8 →
    go = (List.range (e.op 10 2)).foldl (fun (a : Importing) i =>
      importRecord a (e.op 8 2 + i) (sliceBytes bs (66596 * i) 66596)) (s.begun e, 0, none) →
    u = (if 0 < go.2.1 then go.1.record 0x03 (shake32 (bs.take (e.op 10 2 * 66596))) else go.1) →
    exec (.calImport e (some bs)) s = .next (match go.2.2 with
      | some (t, st) => u.complete e st (leBytes 4 go.2.1 ++ leBytes 2 t)
      | none => u.complete e .ok (leBytes 4 go.2.1 ++ leBytes 2 0xFFFF))) ∧
  (∀ (a : Importing) (t : Nat) (r : List Byte),
    (crcTrailed r = true → fieldAt r 0 2 = t → fieldAt r 2 1 = 0xB0 → (r.drop 18).take 14 = List.replicate 14 0 →
      importRecord a t r = (a.1.installRecord t r, a.2.1 + 1, a.2.2)) ∧
    (crcTrailed r = false → importRecord a t r = (a.1, a.2.1, some (a.2.2.getD (t, .crcFail)))))

/-- A footlight call of the cue sheet, once the schedule has reached it, enables the footlights of the tile that serves its
position and holds them until its last cycle; the settle timer makes them READY; a tile that no call holds powers down when
its idle counter reaches 300,000; FL_HOLD_FORCE 1 enables OFF footlights and returns the idle counter to 0, and 0 releases
this hold and no other (R52, R53, R54, R57, R68). -/
def Obligations.FootlightsByTimersAndHolds : Prop :=
  (∀ (call : FlCall) (s : State), call.tile < Config.tiles → s.fabric.active = none → exec (.footlightCall call) s = .next s) ∧
  (∀ (call : FlCall) (c : CueSheet) (s : State), call.tile < Config.tiles → s.fabric.active = some c →
    (call ∉ c.calls → exec (.footlightCall call) s = .next s) ∧
    (call ∈ c.calls → (s.advanceTo call.act).reached call.act = true →
      exec (.footlightCall call) s = .next ((s.advanceTo call.act).footlightCall call)) ∧
    (call ∈ c.calls → (s.advanceTo call.act).reached call.act = false →
      exec (.footlightCall call) s = .next (s.advanceTo call.act))) ∧
  (∀ (k : FlCall) (s : State), ((s.footlightCall k).tile (s.servingTile k.tile)).fl.idle = 0 ∧
    ((s.footlightCall k).tile (s.servingTile k.tile)).fl.untilCall = false ∧
    k.until_ ∈ ((s.footlightCall k).tile (s.servingTile k.tile)).fl.holds ∧
    ((s.footlightCall k).tile (s.servingTile k.tile)).fl.state = (if (s.tile (s.servingTile k.tile)).fl.state = .off
      then .settling else (s.tile (s.servingTile k.tile)).fl.state) ∧
    (∀ x, x ≠ s.servingTile k.tile → (s.footlightCall k).tile x = s.tile x) ∧ (s.footlightCall k).fabric = s.fabric ∧
    (s.footlightCall k).kv = s.kv) ∧
  (∀ (x : Nat) (s : State), x < Config.tiles →
    ((s.tile x).fl.state = .settling → exec (.flSettled x) s =
      .next (s.setTile x { s.tile x with fl := { (s.tile x).fl with state := .ready, settle := 0 } })) ∧
    ((s.tile x).fl.state ≠ .settling → ∃ t, exec (.flSettled x) s = .next t ∧ ∀ y, t.tile y = s.tile y)) ∧
  (∀ (x : Nat) (u s : State), x < Config.tiles → (s.tile x).fl.state ≠ .off → s.flHeld x = false →
    u = s.advanceTo (s.fabric.counter + (300000 - (s.tile x).fl.idle)) →
    (300000 ≤ (u.tile x).fl.idle → u.flHeld x = false → exec (.flPowerdown x) s = .next (u.powerDownFl x)) ∧
    ((u.tile x).fl.idle < 300000 ∨ u.flHeld x = true → exec (.flPowerdown x) s = .next u)) ∧
  (∀ (x : Nat) (s : State), (s.tile x).mvm = none → ((s.powerDownFl x).tile x).fl.state = .off ∧
    Nat.testBit ((s.powerDownFl x).reg (tileReg x 0x08)) 3 = true ∧
    (∀ y, y ≠ x → (s.powerDownFl x).tile y = s.tile y) ∧ (s.powerDownFl x).fabric = s.fabric) ∧
  (∀ (x : Nat) (s : State), x < Config.tiles → (s.tile x).fl.state = .off ∨ s.flHeld x = true →
    exec (.flPowerdown x) s = .next s) ∧
  (∀ (t : Nat) (v : Word) (s : State), t < Config.tiles → s.windowOpen t 0x10 = false → exec (.flHoldForce t v) s = .next s) ∧
  (∀ (t : Nat) (v : Word) (s : State), t < Config.tiles → s.windowOpen t 0x10 = true → v.toNat % 2 = 1 →
    ∃ r, exec (.flHoldForce t v) s = .next r ∧ r.reg (tileReg t 0x10) = 1 ∧ (r.tile t).fl.idle = 0 ∧
      (r.tile t).fl.state = (if (s.tile t).fl.state = .off then .settling else (s.tile t).fl.state) ∧
      (r.tile t).fl.holds = (s.tile t).fl.holds ∧ r.kv = s.kv ∧ r.prm = s.prm ∧ r.mbx = s.mbx ∧ r.fabric = s.fabric) ∧
  (∀ (t : Nat) (v : Word) (s : State), t < Config.tiles → s.windowOpen t 0x10 = true → v.toNat % 2 = 0 →
    exec (.flHoldForce t v) s = .next (s.setReg (tileReg t 0x10) 0))

/-- A phase window opens the MVM of a slot once the schedule reaches it, that of an excess row, or goes on with the MVM in
progress; a word of the row's vector that reads uncorrectable fails the scene and starts none; a phase whose conversion passes
adds its counts at the weight of its bit-plane; one that does not starts an encore, or exhausts after 128, which ends the MVM
(log 136); and results leave the output register when the schedule reaches their delivery, the earliest first, and go to the lanes of
their group (R34, R35, R49, R75, R79, R81, R126, R144). -/
def Obligations.PhasesAddAndResultsAreDelivered : Prop :=
  (∀ (t : Nat) (start : Option MvmRef) (input : PhaseIn) (s : State), t < Config.tiles → s.fabric.active = none →
    exec (.phaseWindow t start input) s = .next s) ∧
  (∀ (t : Nat) (c : CueSheet) (input : PhaseIn) (s : State), t < Config.tiles → s.fabric.active = some c →
    (∀ i scene, exec (.phaseWindow t (some (.slot i scene)) input) s = .next (s.startSlot c t i scene input)) ∧
    exec (.phaseWindow t (some .excess) input) s = .next (s.startExcess c t input) ∧
    (∀ m, (s.tile t).mvm = some m → exec (.phaseWindow t none input) s = .next (s.nextWindow t m input)) ∧
    ((s.tile t).mvm = none → exec (.phaseWindow t none input) s = .next s)) ∧
  (∀ (c : CueSheet) (t index scene at_ row : Nat) (slot : MvmSlot) (input : PhaseIn) (s : State),
    c.compiled.mvms[index]? = some slot → s.sectionAt slot.sec scene slot.start = some at_ →
    (s.advanceTo at_).slotRow slot scene = some row → (s.advanceTo at_).servingTile slot.tile = t →
    (s.advanceTo at_).reached at_ = true → (s.advanceTo at_).mayStart t slot.array = true →
    (s.advanceTo at_).usesArray t slot.array scene row = true →
    (((s.advanceTo at_).tile t).badWord ((s.advanceTo at_).vectorSpans slot row scene) = none →
      s.startSlot c t index scene input =
        (s.advanceTo at_).beginMvm t { (s.advanceTo at_).openMvm c t at_ slot row scene with slot := index, row := row } input) ∧
    (∀ w, ((s.advanceTo at_).tile t).badWord ((s.advanceTo at_).vectorSpans slot row scene) = some w →
      s.startSlot c t index scene input = (s.advanceTo at_).sramUe t w [scene])) ∧
  (∀ (t lo rows plane group window : Nat) (base : Bool) (m : Mvm) (input : PhaseIn) (vs counts : List Int) (s : State),
    vs = (s.tile t).converted m.performance m.start.array input.levels →
    counts = vs.map (fun v => countOf m.performance (codeOf m.performance v)) →
    (convert (s.tile t) m lo rows plane input.storeUe vs counts = .pass →
      (s.resolve t m lo rows plane group window base input).2 =
        some { m with acc := addCounts m.acc (m.start.significance plane) counts }) ∧
    (convert (s.tile t) m lo rows plane input.storeUe vs counts = .mismatch → 128 ≤ m.encores →
      (s.resolve t m lo rows plane group window base input).2 = none) ∧
    (convert (s.tile t) m lo rows plane input.storeUe vs counts = .mismatch → m.encores < 128 → m.performance = true ∨ rows ≠ 8 →
      (s.resolve t m lo rows plane group window base input).2 = some (m.encore lo rows plane group (64 * window + 140)))) ∧
  (∀ (t : Nat) (s : State), t < Config.tiles → (s.tile t).outs = [] → exec (.mvmDelivery t) s = .next s) ∧
  (∀ (t : Nat) (o : OutReg) (s : State), t < Config.tiles → (s.tile t).nextOut = some o →
    exec (.mvmDelivery t) s = .next (if (s.advanceTo o.deliver).reached o.deliver then (s.advanceTo o.deliver).deliverDue t
      else s.advanceTo o.deliver)) ∧
  (∀ (x : Tile) (o : OutReg), x.nextOut = some o → o ∈ x.outs ∧ ∀ p ∈ x.outs, o.deliver ≤ p.deliver) ∧
  (∀ (t : Nat) (s : State), s.deliverDue t =
    ((s.tile t).outs.filter (fun o => decide (o.deliver ≤ s.fabric.counter))).foldl (fun s o => s.deliverOut t o) s) ∧
  (∀ (t : Nat) (o : OutReg) (s : State), ((s.deliverOut t o).tile t).outs = (s.tile t).outs.erase o ∧
    (∃ a : Arrival, ((s.deliverOut t o).tile t).arrivals = (s.tile t).arrivals ++ [a] ∧
      a.sec = o.sec ∧ a.scene = o.scene ∧ a.fp = false ∧ a.producer = .array) ∧
    (∀ x, x ≠ t → (s.deliverOut t o).tile x = s.tile x) ∧ (s.deliverOut t o).kv = s.kv)

/-- The close of an open group begins in its cycle, behind which the slot drains and takes no more contributions; the
scrubber walks the 12,288 words of the SRAM while it is enabled, no hold stands and its bank is free, and counts its passes; a word
that read uncorrectable does so again; and the end of a
monitor window stores its estimate (R90, R126, R128, R144, R146). -/
def Obligations.GroupsScrubberAndMonitor : Prop :=
  (∀ (t slot : Nat) (s : State), t < Config.tiles → s.fabric.active = none → exec (.groupClose t slot) s = .next s) ∧
  (∀ (t slot : Nat) (c : CueSheet) (s : State), t < Config.tiles → s.fabric.active = some c →
    ((∀ v ∈ s.closeTimes c t slot, v < s.fabric.counter) → exec (.groupClose t slot) s = .next s) ∧
    (∀ v, v ∈ s.closeTimes c t slot → s.fabric.counter ≤ v →
      (∀ w ∈ s.closeTimes c t slot, s.fabric.counter ≤ w → v ≤ w) →
      exec (.groupClose t slot) s = .next (if (s.advanceTo v).reached v then (s.advanceTo v).beginClose t slot
        else s.advanceTo v))) ∧
  (∀ (t slot : Nat) (g : AccGroup) (s : State), Map.get? (s.tile t).groups slot = some g → g.isOpen = true →
    g.draining = none → Map.get? ((s.beginClose t slot).tile t).groups slot = some { g with draining := some 0 } ∧
      ((s.beginClose t slot).tile t).lanes = (s.tile t).lanes ∧ (∀ x, x ≠ t → (s.beginClose t slot).tile x = s.tile x)) ∧
  (∀ (t : Nat) (u s : State), t < Config.tiles → Nat.testBit (s.reg (tileReg t 0x16C)) 31 = true → s.held = false →
    sramBank (16 * (s.tile t).scrubAt) ∉ s.banksUsed t → (s.tile t).scrubAt + 1 < 12288 →
    u = s.modTile t (fun x => { x with scrubAt := (s.tile t).scrubAt + 1 }) →
    ((s.tile t).scrubAt ∉ (s.tile t).badWords → exec (.sramScrubAccess t 0) s = .next u ∧
      exec (.sramScrubAccess t 1) s = .next (u.sramCe t (s.tile t).scrubAt)) ∧
    (∀ ecc, 2 ≤ ecc ∨ (s.tile t).scrubAt ∈ (s.tile t).badWords →
      exec (.sramScrubAccess t ecc) s = .next (u.sramUe t (s.tile t).scrubAt u.flight))) ∧
  (∀ (t : Nat) (s : State), t < Config.tiles → Nat.testBit (s.reg (tileReg t 0x16C)) 31 = true → s.held = false →
    sramBank (16 * (s.tile t).scrubAt) ∉ s.banksUsed t → (s.tile t).scrubAt ∉ (s.tile t).badWords →
    (s.tile t).scrubAt + 1 = 12288 → ∃ u, exec (.sramScrubAccess t 0) s = .next u ∧ (u.tile t).scrubAt = 0 ∧
      u.field (tileReg t 0x16C) 0 16 = min 0xFFFF (s.field (tileReg t 0x16C) 0 16 + 1) ∧ u.kv = s.kv) ∧
  (∀ (t ecc : Nat) (s : State), t < Config.tiles → Nat.testBit (s.reg (tileReg t 0x16C)) 31 = false ∨ s.held = true ∨
    sramBank (16 * (s.tile t).scrubAt) ∈ s.banksUsed t → exec (.sramScrubAccess t ecc) s = .next s) ∧
  (∀ (t : Nat) (s : State), t < Config.tiles → (s.tile t).statEnded = [] → exec (.statWindowEnd t) s = .next s) ∧
  (∀ (t : Nat) (w : Int × Nat × Nat) (rest : List (Int × Nat × Nat)) (s : State), t < Config.tiles →
    (s.tile t).statEnded = w :: rest → exec (.statWindowEnd t) s =
      .next ((s.setTile t { s.tile t with statEnded := rest }).endStatWindow t w)) ∧
  (∀ (t a : Nat) (s : State), (s.endStatWindow t (0, 0, a)).field (tileReg t 0x120) 0 16 = 0 ∧
    (∀ x, (s.endStatWindow t (0, 0, a)).tile x = s.tile x) ∧ (s.endStatWindow t (0, 0, a)).kv = s.kv)

/-- A wing issues a source transfer when the schedule has come within the lookahead of its line, in ascending order, under the
target's next alive counter; the data of a line come from the source of its next use; a line that is not ready at its test raises WING_IN, and
an outbound store without room WING_OUT; the oldest outbound line drains; and a completion with the expected counter is taken,
while another raises STEP_ALIVE and releases its line as zeros (R171, R172, R173, R174, R473, R476). -/
def Obligations.WingsAwaitTheirLines : Prop :=
  (∀ (r line target at_ : Nat) (s : State), r < 320 → target < 15 → s.fabric.active = none →
    exec (.wingSourceIssue r line target at_) s = .next s) ∧
  (∀ (r line target at_ : Nat) (c : CueSheet) (u s : State), r < 320 → target < 15 → s.fabric.active = some c →
    u = s.advanceTo (at_ - c.lookahead) →
    (u.fabric.counter + c.lookahead < at_ ∨ at_ < (Map.getD u.fabric.wings r {}).issued →
      exec (.wingSourceIssue r line target at_) s = .next u) ∧
    (at_ ≤ u.fabric.counter + c.lookahead → (Map.getD u.fabric.wings r {}).issued ≤ at_ → ∃ t,
      exec (.wingSourceIssue r line target at_) s = .next t ∧ (Map.getD t.fabric.wings r {}).issued = at_ ∧
      Map.getD t.fabric.stepIssued (stepKey r target) 0 = (Map.getD u.fabric.stepIssued (stepKey r target) 0 + 1) % 65536 ∧
      t.tiles = u.tiles ∧ t.kv = u.kv ∧ t.regs = u.regs)) ∧
  (∀ (r line : Nat) (data : List Byte) (s : State), r < 320 → line < 4096 → s.fabric.active = none →
    exec (.wingLineReady r line data) s = .next s) ∧
  (∀ (r line : Nat) (data : List Byte) (c : CueSheet) (s : State), r < 320 → line < 4096 → s.fabric.active = some c →
    (s.nextUse r [line] = none → exec (.wingLineReady r line data) s = .next s) ∧
    (∀ (l : WingLine) (scene : Nat), s.nextUse r [line] = some (l, scene) →
      exec (.wingLineReady r line data) s = .next (match l.other with
        | .hbm a => s.lineArrives c r line (memReadList s.kv.hbm a 64)
        | .outside => s.lineArrives c r line data
        | .chorus index offset => match s.chorusLine [scene] index offset with
          | some bs => s.lineArrives c r line bs
          | none => s))) ∧
  (∀ (r line : Nat) (data : List Byte) (c : CueSheet) (s : State),
    c.compiled.blocks.find? (fun b => b.rowEnd == r && (has b.lines line || b.trailer == line)) = none →
    line ∈ (Map.getD (s.lineArrives c r line data).fabric.wings r {}).ready ∧
    line ∉ (Map.getD (s.lineArrives c r line data).fabric.wings r {}).awaited ∧
    (s.lineArrives c r line data).tiles = s.tiles ∧ (s.lineArrives c r line data).kv = s.kv) ∧
  (∀ (r at_ : Nat) (s : State), r < 320 →
    ((s.advanceTo (at_ - 8)).reached (at_ - 8) = true → (s.advanceTo (at_ - 8)).fabric.counter ≤ at_ →
      exec (.wingReadyTest r at_) s = .next ((s.advanceTo (at_ - 8)).wingTest r at_)) ∧
    ((s.advanceTo (at_ - 8)).reached (at_ - 8) = false ∨ at_ < (s.advanceTo (at_ - 8)).fabric.counter →
      exec (.wingReadyTest r at_) s = .next (s.advanceTo (at_ - 8)))) ∧
  (∀ (r at_ : Nat) (l : WingLine) (s : State), l ∈ s.wingDue r at_ → l.inbound = true →
    l.line ∉ (Map.getD s.fabric.wings r {}).ready → Nat.testBit (s.wingTest r at_).fabric.causes 0 = true) ∧
  (∀ (r at_ : Nat) (s : State), 0 < ((s.wingDue r at_).filter (fun l => !l.inbound)).length →
    4096 < (Map.getD s.fabric.wings r {}).used + ((s.wingDue r at_).filter (fun l => !l.inbound)).length →
    Nat.testBit (s.wingTest r at_).fabric.causes 1 = true) ∧
  (∀ (r : Nat) (u v s : State), r < 320 → u = (match (Map.getD s.fabric.wings r {}).outbound with
      | { dest := .hbm a, data := data, .. } :: _ => { s with kv := { s.kv with hbm := memWriteList s.kv.hbm a data } }
      | { dest := .chorus index offset, scene := scene, data := data, .. } :: _ => s.chorusPut scene index offset data
      | _ => s) →
    v = u.modWing r (fun w => { w with outbound := w.outbound.drop 1, outCause := false }) →
    exec (.wingOutboundDrain r) s = .next (if v.fabric.wings.any (fun e => e.2.outCause) then v else v.dropCause 1)) ∧
  (∀ (r : Nat) (s : State), r < 320 →
    ((Map.getD s.fabric.wings r {}).inCause = true ∨ (Map.getD s.fabric.wings r {}).outCause = true →
      exec (.wingStall r) s = .next ((s.setReg 0x418 (2 ^ 31 + r)).raise srcWingStall 3 r s.flight)) ∧
    ((Map.getD s.fabric.wings r {}).inCause = false → (Map.getD s.fabric.wings r {}).outCause = false →
      exec (.wingStall r) s = .next s)) ∧
  (∀ (r target alive line : Nat) (u s : State), r < 320 → target < 15 → line < 4096 →
    u = { s with fabric := { s.fabric with
      stepExpected := Map.put s.fabric.stepExpected (stepKey r target) ((alive + 1) % 65536) } } →
    (alive = Map.getD s.fabric.stepExpected (stepKey r target) 0 →
      exec (.stepDescriptorCompletion r target alive line) s = .next u) ∧
    (alive ≠ Map.getD s.fabric.stepExpected (stepKey r target) 0 →
      exec (.stepDescriptorCompletion r target alive line) s =
        .next (((u.orReg 0x30800 0x2).raise srcStepAlive 3 r ((u.orReg 0x30800 0x2).lineScene r [line])).releaseZero r [line])))

/-- REHEARSE of a tile begins a rehearsal unless a row of R490 refuses it, with a stale epoch before them; REHEARSE with
tile 0xFFFF sets the rotation period; a rotation step rehearses the first tile that R493 does not skip; and the end of a
rehearsal takes its result, restoring the tile or leaving it fenced (R490, R491, R492, R493). -/
def Obligations.RehearsalsByTheirConditions : Prop :=
  (∀ (e : Entry) (s : State), Begins e 0x52 false s → e.op 8 2 < Config.tiles →
    (e.op 12 4 ≠ s.fabric.epoch → exec (.rehearse e) s = .next ((s.begun e).complete e .staleEpoch [])) ∧
    (∀ st, e.op 12 4 = s.fabric.epoch → s.rehearsalRefused (e.op 8 2) = some st →
      exec (.rehearse e) s = .next ((s.begun e).complete e st [])) ∧
    (e.op 12 4 = s.fabric.epoch → s.rehearsalRefused (e.op 8 2) = none → exec (.rehearse e) s =
      .next (((s.begun e).addJob e.ring e.tag (.rehearse (e.op 8 2))).startRehearsal (e.op 8 2) (some s.mbx.nextJob)))) ∧
  (∀ (e : Entry) (s : State), Begins e 0x52 false s → e.op 8 2 = 0xFFFF → e.op 16 4 ≤ 86400 → e.op 12 4 = s.fabric.epoch →
    exec (.rehearseRotation e) s = .next (((s.begun e).setReg 0x20014 (e.op 16 4)).complete e .ok [2])) ∧
  (∀ (t k : Nat) (s : State), s.reg 0x20014 ≠ 0 → s.firmwareRuns = true → s.integ.fatalStop = false →
    s.rehearsalBusy = false → k < Config.tiles → t = (s.integ.lastRotated + 1 + k) % Config.tiles →
    (s.tile t).router.fenced = false → rowOf t ∉ s.fabric.rowFaults → s.rehearsalRefused t = none →
    (∀ i, i < k → (s.tile ((s.integ.lastRotated + 1 + i) % Config.tiles)).router.fenced = true) →
    exec .rotationStep s = .next (({ s with integ := { s.integ with lastRotated := t } }).startRehearsal t none)) ∧
  (∀ s : State, s.reg 0x20014 = 0 → exec .rotationStep s = .next s) ∧
  (∀ (found result first set : Nat) (digests : Map (List Nat)) (r : Rehearsal) (s : State), s.integ.rehearsal = some r →
    r.passed = false → s.firmwareRuns = true → (∀ c ∈ s.fabric.cutovers, c.rehearse = false) → (s.tile r.tile).inReset = 0 →
    found < 3 → result = (if found ≠ 1 ∧ s.readsBack r.tile digests = false then 3 else found) →
    exec (.rehearsalDone found first set digests) s = .next (if result = 0 then (s.setField 0x20010 0 8 0).rehearsalPass r
      else (s.setField 0x20010 0 8 result).rehearsalFail r result first set)) ∧
  (∀ (t a : Nat) (g : JournalSlot) (digests : Map (List Nat)) (s : State), a < 8 → s.gov t a = some g → g.inProgress = false →
    g.failed = false → g.valid = true → Map.getD digests (8 * t + a) [] ≠ [] →
    g.digest ∉ (Map.getD digests (8 * t + a) []).take 2 → s.readsBack t digests = false)

/-- FAULT_POLICY_SET replaces a source's policy and returns the previous word, and refuses a severity of R485 below the
source's; a quiet period takes a source out of fault and counts its recovery; the watchdog raises FW_WATCHDOG; firmware
refreshes its copy of the fault state and its sensors, temperatures in °C, and answers the readings and descriptions of its
sensors at its address on the sideband, 0x4C by default, and nothing at another address or while it does not run (R402, R403, R410,
R415, R481, R485, R489). How a temperature that is no whole number of degrees rounds is free, and the codes of the units
and states of a description are the model's (log 9). -/
def Obligations.PoliciesQuietPeriodsAndSideband : Prop :=
  (∀ (e : Entry) (x : Nat) (s : State), Begins e 0x90 false s → Map.get? sourceSeverity (e.op 8 2) = some x →
    1 ≤ e.op 12 4 → e.op 12 4 ≤ 10000 → e.op 11 1 < 32 → Nat.testBit (e.op 11 1) 2 = false →
    (e.op 8 2 ∉ [57, 64, 70, 71] → e.op 10 1 ≤ 3 → exec (.faultPolicySet e) s = .next (((s.begun e).setReg
      (0x21000 + 4 * e.op 8 2) (e.op 10 1 * 2 ^ 30 + e.op 11 1 * 2 ^ 24 + e.op 12 4)).complete e .ok
        (leBytes 4 (s.reg (0x21000 + 4 * e.op 8 2))))) ∧
    (e.op 8 2 ∈ [57, 64, 70, 71] → e.op 10 1 < 3 →
      exec (.faultPolicySet e) s = .next ((s.begun e).complete e .invalid []))) ∧
  (∀ (n : Nat) (s : State), n < 512 → (s.inFault n = false → exec (.faultQuiet n) s = .next s) ∧
    (s.inFault n = true → ∃ t, exec (.faultQuiet n) s = .next t ∧ t.inFault n = false ∧
      t.field (0x21800 + 4 * n) 0 16 = min 0xFFFF (s.field (0x21800 + 4 * n) 0 16 + 1) ∧
      (∀ o, o ≠ 0x21800 + 4 * n → t.reg o = s.reg o) ∧ t.tiles = s.tiles ∧ t.kv = s.kv ∧ t.pwr = s.pwr ∧ t.mbx = s.mbx)) ∧
  (∀ s : State, s.powered = true → s.boot.fws = .running → exec .fwWatchdog s = .next (s.raise srcFwWatchdog 0 0 s.flight)) ∧
  (∀ s : State, s.firmwareRuns = true →
    exec .mgmtRefresh s = .next { s with integ := { s.integ with firmwareCopy := s.faultSummary } }) ∧
  (∀ s : State, s.firmwareRuns = true → ∃ t, exec .pldmSensorRefresh s = .next t ∧
    Map.getD t.integ.sensors 1 0 = wholeDegrees (s.zoneReading true) ∧
    (∀ i, i < 12 → Map.getD t.integ.sensors (2 + i) 0 = wholeDegrees (Map.getD s.pwr.hbmTemps i 0)) ∧
    Map.getD t.integ.sensors 15 0 = (s.field 0x8000C 16 16 : Int) ∧ Map.getD t.integ.sensors 16 0 = (s.limitInForce : Int) ∧
    t.tiles = s.tiles ∧ t.regs = s.regs ∧ t.pwr = s.pwr ∧ t.kv = s.kv ∧ t.mbx = s.mbx) ∧
  (∀ (n : Nat) (s : State), s.firmwareRuns = true → 1 ≤ n → n ≤ 16 →
    exec (.smbusMessage s.smbusAddress (.numericSensor n)) s = .next (s.send (.sensor n (Map.getD s.integ.sensors n 0)))) ∧
  (∀ (n : Nat) (s : State), s.firmwareRuns = true → 1 ≤ n → n ≤ 18 →
    exec (.smbusMessage s.smbusAddress (.getPdr n)) s = .next (s.send (pdrOf n))) ∧
  (∀ s : State, s.firmwareRuns = true →
    exec (.smbusMessage s.smbusAddress (.stateSensor 17)) s = .next (s.send (.sensor 17 s.integ.firmwareCopy)) ∧
    exec (.smbusMessage s.smbusAddress (.stateSensor 18)) s = .next (s.send (.sensor 18 s.thermalState))) ∧
  (∀ v : Int, 16 * wholeDegrees v - 16 < v ∧ v < 16 * wholeDegrees v + 16) ∧
  (∀ s : State, s.boot.config = none → s.smbusAddress = 0x4C) ∧
  (∀ (a : Nat) (x : SmbusRequest) (s : State), s.firmwareRuns = false ∨ a ≠ s.smbusAddress → exec (.smbusMessage a x) s = .next s)

/-- CNT_CLEAR zeroes the counters of the groups that it names and no other; a bandwidth window that runs latches its
results and counts itself, and a write of its configuration zeroes results and peaks; a counter that saturated raises
its source once; CHK_RUN and CHK_BYTES take what is written, and MODE becomes 1 only while no cue sheet is active (R478,
R479, R512, R513, R518). -/
def Obligations.CountersWindowsAndCheckUnits : Prop :=
  (∀ (v : Word) (i : Nat) (s : State), Nat.testBit v.toNat 31 = false → i < 240 → ∃ t, exec (.cntClear v) s = .next t ∧
    t.counter i = (if Nat.testBit v.toNat (i / 16) then 0 else s.counter i) ∧ t.regs = s.regs ∧ t.tiles = s.tiles ∧
    t.kv = s.kv ∧ t.cnt.snap = s.cnt.snap) ∧
  (∀ (v : Word) (i : Nat) (s : State), Nat.testBit v.toNat 31 = true → i < 240 → ∃ t, exec (.cntClear v) s = .next t ∧
    t.counter i = 0) ∧
  (∀ (w : Nat) (v : Word) (s : State), w < 22 → ∃ t, exec (.cntBwCfg w v) s = .next t ∧
    (∀ k, 2 ≤ k → k < 10 → t.reg (bwReg w (4 * k)) = 0) ∧ t.tiles = s.tiles ∧ t.kv = s.kv ∧ t.cnt = s.cnt) ∧
  (∀ (w a b : Nat) (s : State), w < 22 →
    (s.field (bwReg w 0) 31 1 = 0 → exec (.bwWindowEnd w a b) s = .next s) ∧
    (s.field (bwReg w 0) 31 1 = 1 → a < 2 ^ 64 → b < 2 ^ 64 → ∃ t, exec (.bwWindowEnd w a b) s = .next t ∧
      t.pair (bwReg w 0x8) = a ∧ t.pair (bwReg w 0x10) = b ∧ t.pair (bwReg w 0x18) = max a (s.pair (bwReg w 0x18)) ∧
      t.pair (bwReg w 0x20) = max b (s.pair (bwReg w 0x20)) ∧
      t.field (bwReg w 4) 0 16 = (s.field (bwReg w 4) 0 16 + 1) % 65536 ∧ t.tiles = s.tiles ∧ t.kv = s.kv)) ∧
  (∀ (i : Nat) (s : State), (i ∉ s.cnt.saturated → exec (.counterSaturated i) s = .next s) ∧
    (i ∈ s.cnt.saturated → exec (.counterSaturated i) s = .next ({ s with cnt := { s.cnt with
      saturated := without s.cnt.saturated i } }.raise srcCounterSaturated 0 0 []))) ∧
  (∀ (e c : Nat) (v : Word) (s : State), e < 24 → c < 4 →
    exec (.chkRunWrite (chkReg e c 8) v) s = .next (s.writeReg (chkReg e c 8) v.toNat) ∧
    exec (.chkRunWrite (chkReg e c 12) v) s = .next (s.writeReg (chkReg e c 12) v.toNat)) ∧
  (∀ (e : Nat) (v : Word) (s : State), e < 24 → s.fabric.active = none →
    exec (.chkModeWrite e v) s = .next (s.writeReg (chkReg e 0 0) v.toNat)) ∧
  (∀ (e : Nat) (v : Word) (s : State), e < 24 → s.fabric.active.isSome = true →
    Nat.testBit (s.reg (chkReg e 0 0)) 31 = false →
    exec (.chkModeWrite e v) s = .next (s.writeReg (chkReg e 0 0) (v.toNat % 2 ^ 31)))

/-- A lane that waits for signal starts training from the preset; a training frame of a native lane whose control CRC passes
applies its request once per sequence number, within the limits of R340, and is answered with the receiver's readiness and the number
of the request; in modes 3 and 4 only the readiness counts. The lane locks when both ends are ready; training that has not locked in
500 ms fails and is tried again 100 ms later; a locked lane that loses lock waits for signal, and its port goes down. A loopback, a
pattern or a silent transmitter takes the lane's port down and no other, and a read of LANE_STATUS while PRBS13Q or PRBS31Q is
checked adds the errors of the receiver to PRBS_ERRORS, which saturates, before it returns and clears the count (R339, R340, R341,
R375). The number of errors is free (log 156). -/
def Obligations.LanesTrainAndLock : Prop :=
  (∀ (n : Nat) (s : State), n < Config.lanes →
    ((s.lane n).train = .off → exec (.laneSignalDetect n) s = .next s) ∧
    ((s.lane n).train = .signalWait → ∃ t, exec (.laneSignalDetect n) s = .next t ∧
      t.lane n = { train := .training, signal := true, checks := (s.lane n).checks } ∧ t.reg (laneReg n 4) = 48 * 2 ^ 6 ∧
      (∀ m, m ≠ n → t.lane m = s.lane m) ∧ t.net.ports = s.net.ports ∧ t.tiles = s.tiles ∧ t.kv = s.kv) ∧
    ((s.lane n).train ≠ .off → (s.lane n).train ≠ .signalWait →
      exec (.laneSignalDetect n) s = .next (s.modLane n (fun x => { x with signal := true })))) ∧
  (∀ (n c snr : Nat) (ready : Bool) (s : State), n < Config.lanes →
    ((s.lane n).train ≠ .training → exec (.trainingFrame n c ready snr) s = .next s) ∧
    ((s.lane n).train = .training → 3 ≤ s.portMode (n / 4) → ∃ t, exec (.trainingFrame n c ready snr) s = .next t ∧
      ((t.lane n).train = .locked ↔ Nat.testBit c 6 = true ∧ ready = true) ∧ (t.lane n).snr = snr ∧
      (∀ m, m ≠ n → t.lane m = s.lane m) ∧ t.regs = s.regs ∧ t.outside = s.outside ∧ t.tiles = s.tiles ∧ t.kv = s.kv)) ∧
  (∀ (n c snr : Nat) (ready : Bool) (s : State), n < Config.lanes → (s.lane n).train = .training → s.portMode (n / 4) < 3 →
    (bitsOf c 16 16 ≠ controlCrc c → exec (.trainingFrame n c ready snr) s = .next s) ∧
    (bitsOf c 16 16 = controlCrc c → ∃ t, exec (.trainingFrame n c ready snr) s = .next t ∧
      (t.lane n).lastApplied = some (bitsOf c 12 4) ∧ (t.lane n).snr = snr ∧ (t.lane n).precode = Nat.testBit c 5 ∧
      ((t.lane n).train = .locked ↔ Nat.testBit c 6 = true ∧ ready = true) ∧
      ((s.lane n).lastApplied = some (bitsOf c 12 4) → t.reg (laneReg n 4) = s.reg (laneReg n 4)) ∧
      ((s.lane n).lastApplied ≠ some (bitsOf c 12 4) →
        (requestTaps (s.reg (laneReg n 4)) (bitsOf c 0 3) (bitsOf c 3 2) = none → t.reg (laneReg n 4) = s.reg (laneReg n 4)) ∧
        (∀ w, requestTaps (s.reg (laneReg n 4)) (bitsOf c 0 3) (bitsOf c 3 2) = some w → t.reg (laneReg n 4) = w)) ∧
      t.outside.sent = .handshake n (controlWord ready (bitsOf c 12 4)) :: s.outside.sent ∧
      (∀ m, m ≠ n → t.lane m = s.lane m) ∧ t.net.ports = s.net.ports ∧ t.tiles = s.tiles ∧ t.kv = s.kv)) ∧
  (∀ (w tap : Nat), requestTaps w tap 0 = some w ∧ requestTaps w tap 3 = some (48 * 2 ^ 6) ∧
    (∀ r v, r ≠ 0 → r ≠ 3 → requestTaps w tap r = some v → tap ≤ 4 ∧ tapSum v ≤ 64)) ∧
  (∀ (n : Nat) (s : State), n < Config.lanes →
    ((s.lane n).train = .training →
      exec (.trainingTimeout n) s = .next (s.modLane n (fun x => { x with train := .failed }))) ∧
    ((s.lane n).train ≠ .training → exec (.trainingTimeout n) s = .next s) ∧
    ((s.lane n).train = .failed →
      exec (.trainingRetry n) s = .next (s.modLane n (fun x => { x with train := .signalWait, signal := false }))) ∧
    ((s.lane n).train ≠ .failed → exec (.trainingRetry n) s = .next s) ∧
    ((s.lane n).train = .locked → exec (.laneLockLoss n) s =
      .next ((s.modLane n (fun x => { x with train := .signalWait, signal := false })).laneDown n)) ∧
    ((s.lane n).train ≠ .locked → exec (.laneLockLoss n) s = .next s)) ∧
  (∀ (n : Nat) (v : Word) (s : State), n < Config.lanes →
    (bitsOf v.toNat 28 4 = 0 → bitsOf v.toNat 26 1 = 0 →
      exec (.laneCtrl n v) s = .next (s.writeReg (laneReg n 0) v.toNat)) ∧
    (bitsOf v.toNat 28 4 ≠ 0 ∨ bitsOf v.toNat 26 1 = 1 →
      ∃ t, exec (.laneCtrl n v) s = .next t ∧ t = (s.writeReg (laneReg n 0) v.toNat).laneDown n ∧
        (∀ p, s.portOfLane n = some p → (t.port p).up = false ∧ (∀ q, q ≠ p → t.port q = s.port q)) ∧
        (s.portOfLane n = none → t = s.writeReg (laneReg n 0) v.toNat))) ∧
  (∀ (n k : Nat) (s : State), n < Config.lanes → k = s.field (laneReg n 8) 0 16 →
    s.field (laneReg n 0) 28 2 = 1 ∨ s.field (laneReg n 0) 28 2 = 2 →
    ∃ t, exec (.rcRead (laneReg n 8) 4) s = .next t ∧
      t.outside.readData % 65536 = min 0xFFFF (k + Config.patternErrors n (s.lane n).checks) ∧
      t.field (laneReg n 8) 0 16 = 0 ∧ t.net.ports = s.net.ports ∧ t.tiles = s.tiles ∧ t.kv = s.kv)

/-- LINK_CONFIG subfunction 0 sets a block's mode and subfunction 3 a port's addresses, within their ranges; a port
comes up when its PCS aligns with every lane locked, and asks for preemption where that is offered, three times at most
(R336, R344, R374, R399). -/
def Obligations.PortsTakeModesAndComeUp : Prop :=
  (∀ (e : Entry) (s : State), Begins e 0x71 false s → e.op 8 1 = 0 →
    (e.op 9 1 ≤ 7 → e.op 10 1 ≤ 2 → s.portMode (e.op 9 1) ≤ 2 → e.op 10 1 ≠ s.portMode (e.op 9 1) →
      exec (.portMode e) s = .next (((s.begun e).setMode (e.op 9 1) (e.op 10 1) false).complete e .ok [])) ∧
    (7 < e.op 9 1 ∨ 4 < e.op 10 1 ∨ (e.op 10 1 = 4 ∧ e.op 9 1 % 2 = 1) ∨ s.portMode (e.op 9 1) = 5 →
      exec (.portMode e) s = .next ((s.begun e).complete e .invalid []))) ∧
  (∀ (e : Entry) (s : State), Begins e 0x71 false s → e.op 8 1 = 3 → e.op 9 1 < 16 →
    (e.op 10 1 = 4 → e.op 36 1 ≤ 32 → exec (.portAddr e) s = .next (((s.begun e).modPort (e.op 9 1) (fun x => { x with
      mac := e.op 14 6, ip := e.op 20 4, ipVersion := 4, ipBits := e.op 36 1 })).complete e .ok [])) ∧
    (e.op 10 1 = 6 → e.op 36 1 ≤ 128 → exec (.portAddr e) s = .next (((s.begun e).modPort (e.op 9 1) (fun x => { x with
      mac := e.op 14 6, ip := e.op 20 16, ipVersion := 6, ipBits := e.op 36 1 })).complete e .ok []))) ∧
  (∀ (p : Nat) (s : State), p < 16 → exec (.pcsAlignment p false) s = .next (s.portDown p)) ∧
  (∀ (p : Nat) (s : State), p < 16 → (s.port p).up = false → s.portLanes p ≠ [] →
    (∀ n ∈ s.portLanes p, (s.lane n).train = .locked ∧ s.laneBlocked n = false) →
    ∃ t, exec (.pcsAlignment p true) s = .next t ∧ (t.port p).up = true ∧ (t.port p).preempt = false ∧
      (t.port p).attempts = s.field 0xB000C 2 1 ∧ (∀ q, q ≠ p → t.port q = s.port q) ∧ t.net.lanes = s.net.lanes ∧
      t.regs = s.regs ∧ t.tiles = s.tiles ∧ t.kv = s.kv) ∧
  (∀ (p : Nat) (s : State), p < 16 → (s.port p).up = true → (s.port p).attempts ≠ 0 → (s.port p).preempt = false →
    exec (.preemptVerify p true) s = .next (s.modPort p (fun x => { x with preempt := true })) ∧
    ((s.port p).attempts < 3 → exec (.preemptVerify p false) s =
      .next ((s.modPort p (fun x => { x with attempts := x.attempts + 1 })).send (.verify p))) ∧
    (3 ≤ (s.port p).attempts → exec (.preemptVerify p false) s = .next s))

/-- A PFC frame pauses the lossless classes that it names and resumes them with quanta 0, and is ignored where it names
the EXPRESS PCP; a frame of a paused class waits at its port and leaves when the pause ends; a pause runs out; a class above 1 MiB sends XOFF and counts it, one below 512 KiB sends XON; a global
PAUSE frame is counted and does nothing else (R338, R342, R343). -/
def Obligations.FlowControlOfTheLosslessClasses : Prop :=
  (∀ (p classes quanta : Nat) (s : State), p < 16 → Nat.testBit classes (s.field 0xB0008 29 3) = true →
    exec (.pfcFrame p classes quanta) s = .next s) ∧
  (∀ (p classes quanta : Nat) (s : State), p < 16 → Nat.testBit classes (s.field 0xB0008 29 3) = false →
    ∃ t, exec (.pfcFrame p classes quanta) s = .next t ∧
      (∀ c, c < 2 → Nat.testBit (t.port p).paused c =
        if s.pfcOn c = true ∧ Nat.testBit classes (s.classPcp c) = true then decide (quanta ≠ 0)
        else Nat.testBit (s.port p).paused c) ∧
      (∀ q, q ≠ p → t.port q = s.port q) ∧ t.regs = s.regs ∧ t.tiles = s.tiles ∧ t.kv = s.kv) ∧
  (∀ (p c : Nat) (s : State), p < 16 → c < 2 → ∃ t, exec (.pfcPauseExpiry p c) s = .next t ∧
    Nat.testBit (t.port p).paused c = false ∧ (∀ d, d ≠ c → Nat.testBit (t.port p).paused d = Nat.testBit (s.port p).paused d) ∧
    (∀ q, q ≠ p → t.port q = s.port q) ∧ t.regs = s.regs ∧ t.tiles = s.tiles ∧ t.kv = s.kv ∧
    (∀ x, (s.port p).waiting = [(c, x)] → (t.port p).waiting = [] ∧ t.outside.sent = x :: s.outside.sent)) ∧
  (∀ (p c : Nat) (x : Sent) (s : State),
    (Nat.testBit (s.port p).paused c = true → (s.egress p c x).outside = s.outside ∧
      ((s.egress p c x).port p).waiting = (s.port p).waiting ++ [(c, x)]) ∧
    (Nat.testBit (s.port p).paused c = false → s.egress p c x = s.send x)) ∧
  (∀ (p c occ : Nat) (s : State), p < 16 → c < 2 → (s.pfcOn c = false → exec (.pfcXoffRepeat p c occ) s = .next s) ∧
    (s.pfcOn c = true → 1048576 < occ → ∃ t, exec (.pfcXoffRepeat p c occ) s = .next t ∧
      Nat.testBit (t.port p).xoff c = true ∧ Nat.testBit (t.reg 0xB0004) 1 = true ∧
      t.counter 72 = min 0xFFFFFFFFFFFF (s.counter 72 + 1) ∧ t.outside.sent = .pfc p (2 ^ s.classPcp c) 0xFFFF :: s.outside.sent) ∧
    (s.pfcOn c = true → occ < 524288 → Nat.testBit (s.port p).xoff c = true → ∃ t, exec (.pfcXoffRepeat p c occ) s = .next t ∧
      Nat.testBit (t.port p).xoff c = false ∧ t.regs = s.regs ∧
      t.outside.sent = .pfc p (2 ^ s.classPcp c) 0 :: s.outside.sent)) ∧
  (∀ (p : Nat) (s : State), p < 16 → exec (.pauseFrame p) s = .next (s.modPort p (fun x => { x with
    pauseFrames := x.pauseFrames + 1 })))

/-- HOST_RING places a ring of 64 to 4,096 descriptors with its tail at 0; a tail hands the descriptors up to it over, which
the device reads once the function may issue requests; a received frame of a legal length that the device does not consume itself
goes to the first descriptor with its length, its port and the time of the PTP timebase, waits while the function may issue no
request, and is dropped and counted where no descriptor takes it; a transmitted one leaves with its FCS, under its own tag or
PCP_HOST, and returns its descriptor, and none outside 64 to 9,216 bytes is sent; a descriptor whose CRC fails returns unused (R338,
R342, R348, R349, R372, R380, R399). -/
def Obligations.HostFramesUseTheirRings : Prop :=
  (∀ (e : Entry) (s : State), Begins e 0x71 false s → e.op 8 1 = 4 →
    (1 < e.op 9 1 ∨ e.op 10 2 < 64 ∨ 4096 < e.op 10 2 ∨ e.op 16 8 % 4096 ≠ 0 →
      exec (.hostRing e) s = .next ((s.begun e).complete e .invalid [])) ∧
    (64 ≤ e.op 10 2 → e.op 10 2 ≤ 4096 → e.op 16 8 % 4096 = 0 →
      (e.op 9 1 = 0 → exec (.hostRing e) s = .next (({ s.begun e with net := { s.net with
        txRing := { base := e.op 16 8, count := e.op 10 2 } } }.setReg 0xB0014 0).complete e .ok [])) ∧
      (e.op 9 1 = 1 → exec (.hostRing e) s = .next (({ s.begun e with net := { s.net with
        rxRing := { base := e.op 16 8, count := e.op 10 2 } } }.setReg 0xB0018 0).complete e .ok [])))) ∧
  (∀ (rx : Bool) (v : Nat) (ds fresh : List (List Byte)) (u s : State), u = s.handTail rx v ds →
    fresh = ds.take ((v % 4096 + (s.hostRing rx).count - (s.hostRing rx).tail) % (s.hostRing rx).count) →
    u.tiles = s.tiles ∧ u.kv = s.kv ∧ u.outside = s.outside ∧ u.hostRing (!rx) = s.hostRing (!rx) ∧
    u.reg (hostTail rx) = v % 4096 ∧
    ((s.hostRing rx).count ≤ v % 4096 → u = s.setReg (hostTail rx) (v % 4096)) ∧
    (v % 4096 < (s.hostRing rx).count → s.mayRequest = true → (u.hostRing rx).tail = v % 4096 ∧ (u.hostRing rx).unread = [] ∧
      (u.hostRing rx).queue = (s.hostRing rx).queue ++ ((s.hostRing rx).unread ++ fresh)) ∧
    (v % 4096 < (s.hostRing rx).count → s.mayRequest = false → (u.hostRing rx).tail = v % 4096 ∧
      (u.hostRing rx).queue = (s.hostRing rx).queue ∧ (u.hostRing rx).unread = (s.hostRing rx).unread ++ fresh)) ∧
  (∀ (v : Word) (ds : List (List Byte)) (s : State), exec (.netHostTxTail v ds) s = .next (s.handTail false v.toNat ds) ∧
    exec (.netHostRxTail v ds) s = .next (s.handTail true v.toNat ds)) ∧
  (∀ (p : Nat) (frame : List Byte) (s : State), p < 16 →
    (9212 < frame.length → exec (.hostFrameReceive p frame) s =
      .next (s.modPort p (fun x => { x with overlong := x.overlong + 1 }))) ∧
    (frame.length < 60 → exec (.hostFrameReceive p frame) s = .next s) ∧
    (frame.length ≤ 9212 → s.consumes frame = true → exec (.hostFrameReceive p frame) s = .next s)) ∧
  (∀ (p : Nat) (frame : List Byte) (s : State), p < 16 → 60 ≤ frame.length → frame.length ≤ 9212 → s.consumes frame = false →
    (s.mayRequest = false → ∃ t, exec (.hostFrameReceive p frame) s = .next t ∧
      t.net.arrived = s.net.arrived ++ [(p, s.net.ptpNs, frame)] ∧ t.net.rxRing = s.net.rxRing ∧ t.outside = s.outside ∧
      t.tiles = s.tiles ∧ t.kv = s.kv) ∧
    (s.mayRequest = true → s.net.rxRing.queue = [] ∨ (∃ d ds, s.net.rxRing.queue = d :: ds ∧ descriptorOk d = true ∧
        fieldAt d 8 2 < frame.length) →
      ∃ t, exec (.hostFrameReceive p frame) s = .next t ∧ t.net.rxRing = { s.net.rxRing with dropped := true } ∧
        Nat.testBit (t.reg 0xB0004) 2 = true ∧ t.counter 73 = min 0xFFFFFFFFFFFF (s.counter 73 + 1) ∧ t.outside = s.outside ∧
        t.tiles = s.tiles ∧ t.kv = s.kv) ∧
    (∀ d ds, s.mayRequest = true → s.net.rxRing.queue = d :: ds → descriptorOk d = true → frame.length ≤ fieldAt d 8 2 →
      ∃ t, exec (.hostFrameReceive p frame) s = .next t ∧ t.net.rxRing.queue = ds ∧ t.net.rxRing.dropped = false ∧
        t.net.rxRing.head = (s.net.rxRing.head + 1) % s.net.rxRing.count ∧ t.outside.hostMem = memWriteList
          (memWriteList s.outside.hostMem (fieldAt d 0 8) frame) (s.net.rxRing.base + 32 * s.net.rxRing.head)
          (returned d frame.length p (if s.net.rxRing.dropped then 12 else 4) s.net.ptpNs) ∧
        t.net.txRing = s.net.txRing ∧ t.tiles = s.tiles ∧ t.kv = s.kv)) ∧
  (∀ (frame : List Byte) (s : State), s.mayRequest = false ∨ s.net.txRing.queue = [] →
    exec (.hostFrameTransmitted frame) s = .next s) ∧
  (∀ (frame d : List Byte) (s : State), s.mayRequest = true → s.net.txRing.queue = [d] → descriptorOk d = false →
    exec (.hostFrameTransmitted frame) s = .next (s.giveBack false
      (returned d (fieldAt d 8 2) 0xFF (clearBits (fieldAt d 11 1) 1) (fieldAt d 16 8)))) ∧
  (∀ (frame d bytes : List Byte) (ds : List (List Byte)) (port : Nat) (s : State), s.mayRequest = true →
    s.net.txRing.queue = d :: ds → descriptorOk d = true → port = fieldAt d 10 1 % 16 → bytes = sliceBytes frame 0 (fieldAt d 8 2) →
    ∃ t, exec (.hostFrameTransmitted frame) s = .next t ∧
      t.net.txRing.queue = ds ∧ t.net.txRing.head = (s.net.txRing.head + 1) % s.net.txRing.count ∧
      (60 ≤ fieldAt d 8 2 → fieldAt d 8 2 ≤ 9212 → t.outside.sent =
        .inClass (s.hostPcp bytes) (frameMark bytes / 4) (frameMark bytes % 4) (.hostFrame port (withFcs bytes)) :: s.outside.sent) ∧
      (fieldAt d 8 2 < 60 ∨ 9212 < fieldAt d 8 2 → t.outside.sent = s.outside.sent) ∧
      (9212 < fieldAt d 8 2 → (t.port port).overlong = (s.port port).overlong + 1) ∧
      t.net.rxRing = s.net.rxRing ∧ t.tiles = s.tiles ∧ t.kv = s.kv) ∧
  (∀ (bytes : List Byte) (s : State), s.hostPcp bytes =
    if frameTagged bytes then framePcp bytes else s.field 0xB0008 20 3)

/-- QP_ESTABLISH makes a pair with the operands of R399 and is BUSY on one that works, QP_DESTROY removes it, and a pair or an
operand outside its range is INVALID; as responder the device reads and writes the staging frames under the pair's R_Key, in packets
of the path MTU, refuses others with a NAK and never has more than 16 READs to answer; acknowledgements take what they cover and
reset the retries, a NAK or a timeout sends again from the first packet that is missing until seven retries are spent and the pair
fails; a CNP halves the rate, which 50 µs raise by 1/32; a packet of no pair is a host frame, and one of a failed pair does nothing;
what a peer writes to the staging frames passes its check, a byte that BAR2 writes there does not, and a packet that carries one is not
sent but raises CHECK_FAIL at its port (R349, R350, R351, R352, R353, R378, R399, R472, R473). The packet sequence numbers and NAK codes are InfiniBand's as the model has them (log 155). -/
def Obligations.QueuePairsServeAndRecover : Prop :=
  (∀ (e : Entry) (s : State), Begins e 0x71 false s → e.op 8 1 = 1 →
    (4095 < e.op 10 2 ∨ 15 < e.op 12 1 ∨ 2 < e.op 39 1 ∨ 31 < e.op 43 1 ∨ (e.op 13 1 ≠ 4 ∧ e.op 13 1 ≠ 6) →
      exec (.qpEstablish e) s = .next ((s.begun e).complete e .invalid [])) ∧
    (e.op 10 2 ≤ 4095 → e.op 12 1 ≤ 15 → e.op 39 1 ≤ 2 → e.op 43 1 ≤ 31 → e.op 13 1 = 4 ∨ e.op 13 1 = 6 →
      (∀ x ∈ s.net.qps, x.1 = e.op 10 2 → x.2.error = true) →
        ∃ (t : State) (q : QueuePair), exec (.qpEstablish e) s = .next (t.complete e .ok []) ∧
        t = { s.begun e with net := { s.net with qps := Map.put s.net.qps (e.op 10 2) q } } ∧ q.port = e.op 12 1 ∧
        q.ipVersion = e.op 13 1 ∧ q.mac = e.op 14 6 ∧ q.ip = e.op 20 (if e.op 13 1 = 4 then 4 else 16) ∧
        q.peer = e.op 36 3 ∧ q.mtu = 1024 * 2 ^ e.op 39 1 ∧ q.sendPsn = e.op 40 3 ∧ q.recvPsn = e.op 44 3 ∧
        q.rkey = e.op 48 4 ∧ q.timeoutExp = (if e.op 43 1 = 0 then 14 else e.op 43 1) ∧ q.rate = s.portRate (e.op 12 1) ∧
        q.error = false ∧ q.unacked = [] ∧ q.retries = 0) ∧
    (e.op 10 2 ≤ 4095 → e.op 12 1 ≤ 15 → e.op 39 1 ≤ 2 → e.op 43 1 ≤ 31 → e.op 13 1 = 4 ∨ e.op 13 1 = 6 →
      (∃ x ∈ s.net.qps, x.1 = e.op 10 2 ∧ x.2.error = false) →
      exec (.qpEstablish e) s = .next ((s.begun e).complete e .busy []))) ∧
  (∀ (e : Entry) (s : State), Begins e 0x71 false s → e.op 8 1 = 2 →
    (4095 < e.op 10 2 → exec (.qpDestroy e) s = .next ((s.begun e).complete e .invalid [])) ∧
    (e.op 10 2 ≤ 4095 → exec (.qpDestroy e) s = .next ({ s.begun e with net := { s.net with
      qps := Map.erase s.net.qps (e.op 10 2) } }.complete e .ok []))) ∧
  (∀ (n port : Nat) (q : QueuePair) (ce : Bool) (p : RocePacket) (frame : List Byte) (s : State), port < 16 →
    Map.get? s.net.qps n = some q →
    (q.error = false → exec (.rocePacket n port ce p frame) s = .next (s.onPacket n q ce p)) ∧
    (q.error = true → exec (.rocePacket n port ce p frame) s = .next s)) ∧
  (∀ (n port : Nat) (ce : Bool) (p : RocePacket) (frame : List Byte) (s : State), port < 16 → Map.get? s.net.qps n = none →
    exec (.rocePacket n port ce p frame) s = .next (s.hostFrameIn port frame)) ∧
  (∀ (n : Nat) (q : QueuePair) (s : State),
    s.onPacket n q false .badIcrc = s.modQp n (fun q => { q with badPackets := q.badPackets + 1 }) ∧
    s.onPacket n q false .unsupported = (s.refuse n 1).modQp n (fun q => { q with error := true }) ∧
    (∀ psn, s.onPacket n q false (.ack psn) = s.modQp n (fun q => { q with
      unacked := q.unacked.filter (fun p => !psnFrom psn p.1), ackedPsn := psn, retries := 0, rnrRetries := 0 })) ∧
    (∀ psn, s.onPacket n q false (.nak psn) = s.goBack n psn false ∧ s.onPacket n q false (.rnrNak psn) = s.goBack n psn true) ∧
    s.onPacket n q false .cnp = (s.modQp n (fun q => { q with rate := max (q.rate / 2) (10 ^ 9) })).count 71 1 ∧
    (∀ psn part data, s.onPacket n q true (.send psn part data none) = (s.markCnp n q).onPacket n q false (.send psn part data none)) ∧
    (∀ psn addr len rkey, s.onPacket n q true (.read psn addr len rkey) =
      (s.markCnp n q).onPacket n q false (.read psn addr len rkey))) ∧
  (∀ (n psn addr len rkey : Nat) (q : QueuePair) (s : State), psn = q.recvPsn →
    (q.inbound = none → s.readsOut n q < 16 →
      (rkey = q.rkey → addr + len ≤ 2 ^ 32 → s.onPacket n q false (.read psn addr len rkey) =
        (s.takeRequest n (max 1 (ceilDiv len q.mtu))).answerRead n q psn addr len) ∧
      (rkey ≠ q.rkey ∨ 2 ^ 32 < addr + len → s.onPacket n q false (.read psn addr len rkey) = s.refuse n 2)) ∧
    (16 ≤ s.readsOut n q → s.onPacket n q false (.read psn addr len rkey) = s.refuse n 1)) ∧
  (∀ (n psn addr : Nat) (data : List Byte) (q : QueuePair) (u s : State), Map.get? s.net.qps n = some q → psn = q.recvPsn →
    q.inbound = none → u = s.ethIn q.port (3, some n) data →
    (data.length ≤ q.mtu → addr + data.length ≤ 2 ^ 32 → Nat.testBit (s.port q.port).paused 1 = false →
      ∃ t, s.onPacket n q false (.write psn .only addr data.length q.rkey data) = t ∧
      t.kv.hbm = (u.stagingWrite (stagingAddr addr) data).kv.hbm ∧
      (Map.get? t.net.qps n).map (fun x => x.recvPsn) = some ((q.recvPsn + 1) % 2 ^ 24) ∧
      t.outside.sent = .inClass (s.field 0xB0008 23 3) (s.field 0xB0008 8 6) 2 (.roceAck n psn) :: s.outside.sent ∧
      t.tiles = s.tiles ∧ t.prm = s.prm ∧ t.fabric = s.fabric) ∧
    (∀ len, data.length = q.mtu → q.mtu < len → addr + len ≤ 2 ^ 32 →
      ∃ t, s.onPacket n q false (.write psn .first addr len q.rkey data) = t ∧
      t.kv.hbm = (u.stagingWrite (stagingAddr addr) data).kv.hbm ∧
      (Map.get? t.net.qps n).map (fun x => x.inbound) = some (some { at_ := addr + q.mtu, count := len - q.mtu }) ∧
      t.outside = s.outside ∧ t.tiles = s.tiles ∧ t.prm = s.prm) ∧
    (∀ rkey, data.length ≤ q.mtu → rkey ≠ q.rkey ∨ 2 ^ 32 < addr + data.length →
      s.onPacket n q false (.write psn .only addr data.length rkey data) = u.refuse n 2)) ∧
  (∀ (a x : Nat) (bs : List Byte) (s : State), x < a ∨ a + bs.length ≤ x →
    memRead (s.stagingWrite a bs).kv.hbm x = memRead s.kv.hbm x) ∧
  (∀ (a : Nat) (bs : List Byte) (s : State), (s.stagingWrite a bs).kv.checks a bs.length = true) ∧
  (∀ (a x n : Nat) (b : Byte) (s : State), stagingAddr 0 ≤ x → x < stagingAddr (2 ^ 32) → a ≤ x → x < a + n →
    s.bar2Blocked x = false → s.mapPlace x = none → (s.bar2Put x b).kv.checks a n = false) ∧
  (∀ (n psn addr : Nat) (q : QueuePair) (p : Nat × PacketPart × List Byte) (s : State),
    (s.kv.checks (stagingAddr (addr + p.1 * q.mtu)) p.2.2.length = false →
      State.readPacket n q psn addr s p = s.checkFail 2 q.port []) ∧
    (s.kv.checks (stagingAddr (addr + p.1 * q.mtu)) p.2.2.length = true → State.readPacket n q psn addr s p =
      (s.ethOut q.port (4, some n) p.2.2).sendRoce n (.roceResponse n ((psn + p.1) % 2 ^ 24) p.2.1 p.2.2))) ∧
  (∀ (n psn : Nat) (data : List Byte) (q : QueuePair) (s : State), psn = q.recvPsn → q.inbound = none →
    (data.length ≤ 256 → s.onPacket n q false (.send psn .only data none) = (s.takeRequest n 1).sendRoce n (.roceAck n psn)) ∧
    (256 < data.length → s.onPacket n q false (.send psn .only data none) = s.refuse n 1)) ∧
  (∀ (n psn : Nat) (data : List Byte) (q : QueuePair) (s : State), psn ≠ q.recvPsn → psnFrom psn q.recvPsn = true →
    s.onPacket n q false (.send psn .only data none) = s.sendRoce n (.roceNak n 0)) ∧
  (∀ (n psn : Nat) (q : QueuePair) (again : List (Nat × Sent)) (s : State), Map.get? s.net.qps n = some q → q.error = false →
    again = q.unacked.filter (fun p => psnFrom p.1 psn) →
    (again = [] → s.goBack n psn false = s) ∧
    (again ≠ [] → 7 ≤ q.retries → s.goBack n psn false = s.qpFails n) ∧
    (again ≠ [] → q.retries < 7 → s.goBack n psn false = again.foldl (fun s p => s.sendRoce n p.2)
      ((s.modQp n (fun q => { q with retries := q.retries + 1 })).count 70 again.length))) ∧
  (∀ (n : Nat) (q : QueuePair) (s : State), n < 4096 → Map.get? s.net.qps n = some q →
    exec (.roceAckTimeout n) s = .next (s.goBack n ((q.ackedPsn + 1) % 2 ^ 24) false) ∧
    (q.error = true → exec (.roceAckTimeout n) s = .next s) ∧
    (q.rate < s.portRate q.port → exec (.roceRateIncrease n) s = .next { s with net := { s.net with
      qps := Map.put s.net.qps n { q with rate := min (s.portRate q.port) (q.rate + s.portRate q.port / 32) } } }) ∧
    (s.portRate q.port ≤ q.rate → exec (.roceRateIncrease n) s = .next (s.modQp n (fun q => q)))) ∧
  (∀ (n : Nat) (s : State), n < 4096 → Map.get? s.net.qps n = none →
    exec (.roceAckTimeout n) s = .next s ∧ exec (.roceRateIncrease n) s = .next s)

/-- CHORUS_GROUP_SET writes a group slot with alive counters at 0 and is BUSY on the bound one; a step opens under the
next number with the configured deadline; half a deadline asks for what is missing, a late notice extends it, a deadline
that passes fails the scene, and a step that is over goes with the frames kept for it (R356, R362, R363, R364, R365, R400). -/
def Obligations.ChorusGroupsAndSteps : Prop :=
  (∀ (e : Entry) (bs : List Byte) (s : State), Begins e 0x70 true s → e.op 8 1 < 2 → 2 ≤ e.op 12 2 → e.op 12 2 ≤ 1024 →
    e.op 14 2 < e.op 12 2 → e.op 16 8 % 64 = 0 →
    (s.net.bound = some (e.op 8 1) → exec (.chorusGroupSet e (some bs)) s = .next ((s.begun e).complete e .busy [])) ∧
    (s.net.bound ≠ some (e.op 8 1) →
      (∀ i, i < e.op 12 2 → memberRecordOk (sliceBytes bs (32 * i) 32) = true) → ∃ (t : State) (g : ChorusGroup),
      exec (.chorusGroupSet e (some bs)) s = .next (t.complete e .ok []) ∧ Map.get? t.net.groups (e.op 8 1) = some g ∧
      g.identity = e.op 10 2 ∧ g.size = e.op 12 2 ∧ g.own = e.op 14 2 ∧ g.recvAlive = [] ∧ g.sendAlive = [] ∧ g.gaps = 0 ∧
      g.members = (List.range (e.op 12 2)).map (fun i => sliceBytes bs (32 * i) 32) ∧ t.tiles = s.tiles ∧ t.kv = s.kv)) ∧
  (∀ (index scene : Nat) (s : State),
    (s.stepAt index scene = none → exec (.chorusStepOpen index scene) s = .next s) ∧
    (∀ v, s.stepAt index scene = some v → (s.advanceTo v).reached v = true →
      exec (.chorusStepOpen index scene) s = .next ((s.advanceTo v).openStep index scene)) ∧
    (∀ v, s.stepAt index scene = some v → (s.advanceTo v).reached v = false →
      exec (.chorusStepOpen index scene) s = .next (s.advanceTo v))) ∧
  (∀ (index scene : Nat) (s : State), s.boundGroup = none → s.openStep index scene = s) ∧
  (∀ (index scene : Nat) (b : Nat × ChorusGroup) (c : CueSheet) (p : StepSlot) (s : State), s.boundGroup = some b →
    s.fabric.active = some c → c.compiled.steps[index]? = some p → Map.get? s.net.early s.net.nextStep = none →
    ((index, scene) ∈ s.net.opened → s.openStep index scene = s) ∧
    ((index, scene) ∉ s.net.opened → ∃ t : State, s.openStep index scene = t.stepProgress s.net.nextStep ∧
      t.net.nextStep = s.net.nextStep + 1 ∧ t.tiles = s.tiles ∧ t.kv = s.kv ∧ t.prm = s.prm ∧ t.fabric = s.fabric ∧
      ∃ x : Step, t.net.steps = s.net.steps ++ [x] ∧ x.number = s.net.nextStep ∧ x.base = s.field 0xB000C 6 10 ∧
        x.deadline = s.field 0xB000C 6 10 ∧ x.plan.collective = p.collective ∧ x.plan.bytes = p.bytes ∧ x.plan.root = p.root ∧
        x.udpPort = s.field 0xB000C 16 16 ∧ x.plan.scene = scene ∧ x.closed = false ∧ x.failed = false)) ∧
  (∀ (n i : Nat) (g : ChorusGroup) (x : Step) (s : State), s.boundGroup = some (i, g) → s.liveStep? n = some x →
    ((∀ r ∈ x.plan.expected g, r.2.2.1 < r.2.2.2 → r.2.2.2 ≤ r.2.2.1 + 8192 ∧ x.holds r = true) →
      exec (.chorusRetxTimer n) s = .next s) ∧
    (∀ r, x.plan.expected g = [r] → r.2.2.1 < r.2.2.2 → r.2.2.2 ≤ r.2.2.1 + 8192 → x.holds r = false →
      exec (.chorusRetxTimer n) s = .next (s.requestRange i n r.1 r.2.1 r.2.2.1 (r.2.2.2 - r.2.2.1))) ∧
    exec (.chorusDeadline n) s = .next ((s.tellAll i g n 0x12 0).abandonStep x srcChorusDeadline 1 (x.missingMember g)) ∧
    (4 ≤ x.notices ∨ x.stalled = false ∨ (x.sent = true ∧ x.gathered = true) → exec (.lateNotice n) s = .next s) ∧
    (x.notices < 4 → x.stalled = true → x.sent = false ∨ x.gathered = false → exec (.lateNotice n) s =
      .next ((((s.tellAll i g n 0x11 x.base).orReg 0xB0004 0x20).count 66 1).modStep n (fun x =>
        { x.extend x.base with notices := x.notices + 1 })))) ∧
  (∀ (n i : Nat) (g : ChorusGroup) (x : Step) (s : State), s.boundGroup = some (i, g) → s.liveStep? n = some x →
    ∃ t, exec (.chorusRetxTimer n) s = .next t ∧ t.tiles = s.tiles ∧ t.kv = s.kv ∧ t.prm = s.prm ∧ t.fabric = s.fabric) ∧
  (∀ (n : Nat) (s : State), s.boundGroup = none ∨ s.liveStep? n = none → exec (.chorusRetxTimer n) s = .next s ∧
    exec (.chorusDeadline n) s = .next s ∧ exec (.lateNotice n) s = .next s) ∧
  (∀ (n : Nat) (x : Step) (s : State), s.liveStep? n = some x → exec (.chorusFrameRelease n) s = .next s) ∧
  (∀ (n : Nat) (s : State), s.liveStep? n = none → ∃ t, exec (.chorusFrameRelease n) s = .next t ∧
    (∀ y, y ∈ t.net.steps ↔ y ∈ s.net.steps ∧ y.number ≠ n) ∧ (∀ k, k ∈ t.net.scenesSent ↔ k ∈ s.net.scenesSent ∧ k.1 ≠ n) ∧
    (∀ r ∈ t.net.requested, r.1 ≠ n) ∧ t.net.groups = s.net.groups ∧ t.tiles = s.tiles ∧ t.kv = s.kv ∧ t.outside = s.outside)

/-- A received Chorus frame whose FCS or header CRC fails is discarded and counted; one of no group here does nothing; a
counter that repeats sets NET_EVENT.ALIVE_REPEAT and does nothing else; one that does not is taken as the last from its
source, and acts where its group is bound (R354, R355, R356, R361, R362). -/
def Obligations.ChorusFramesByTheirCounters : Prop :=
  (∀ (ce ok : Bool) (bs : List Byte) (s : State), ok = false ∨ bs.length < 40 ∨ crcTrailed (bs.take 32) = false →
    exec (.chorusFrame ce ok bs) s = .next { s with net := { s.net with badFrames := s.net.badFrames + 1 } }) ∧
  (∀ (ce : Bool) (bs : List Byte) (s : State), 40 ≤ bs.length → crcTrailed (bs.take 32) = true →
    ((s.countCe ce).groupOf (readFrame bs) = none → exec (.chorusFrame ce true bs) s = .next (s.countCe ce)) ∧
    (∀ i g, (s.countCe ce).groupOf (readFrame bs) = some (i, g) → exec (.chorusFrame ce true bs) s =
      .next (((s.countCe ce).ethIn (g.portOf (readFrame bs).src) (5, some g.identity) (readFrame bs).payload).groupFrame i g
        (readFrame bs)))) ∧
  (∀ (f : ChorusFrame) (i : Nat) (g : ChorusGroup) (s : State), f.retransmit = false →
    (aliveRepeats (Map.get? g.recvAlive f.src) f.alive = true → s.groupFrame i g f = s.orReg 0xB0004 0x80) ∧
    (aliveRepeats (Map.get? g.recvAlive f.src) f.alive = false → s.net.bound ≠ some i →
      ∃ h, Map.get? (s.groupFrame i g f).net.groups i = some h ∧ Map.get? h.recvAlive f.src = some f.alive ∧
        h.gaps = g.gaps + (if aliveGap (Map.get? g.recvAlive f.src) f.alive then 1 else 0) ∧
        (s.groupFrame i g f).net.steps = s.net.steps ∧ (s.groupFrame i g f).net.sceneQueue = s.net.sceneQueue ∧
        (s.groupFrame i g f).tiles = s.tiles ∧ (s.groupFrame i g f).kv = s.kv ∧ (s.groupFrame i g f).prm = s.prm) ∧
    (aliveRepeats (Map.get? g.recvAlive f.src) f.alive = false → s.net.bound = some i → s.groupFrame i g f =
      { s with net := { s.net with groups := Map.put s.net.groups i (g.accept f) } }.acceptFrame i (g.accept f) f)) ∧
  (∀ (f : ChorusFrame) (i : Nat) (g : ChorusGroup) (s : State), f.digest = crc64 f.payload →
    (f.op = 0x07 → g.own ≠ 0 → f.src = 0 → f.retransmit = false → s.acceptFrame i g f =
      { s with net := { s.net with sceneQueue := s.net.sceneQueue ++ [(f.alive, f.payload)] } }) ∧
    (f.op = 0x10 → s.acceptFrame i g f = s.resend g f) ∧ (f.op = 0x12 → s.acceptFrame i g f = s.routeStep f) ∧
    (1 ≤ f.op → f.op ≤ 6 → s.acceptFrame i g f = s.routeStep f) ∧
    (0x12 < f.op ∨ f.op = 0 → s.acceptFrame i g f = s)) ∧
  (∀ (a l : Nat), a < 65536 → l < 65536 → (aliveRepeats (some l) a = true ↔ a = l ∨ ∃ k, 1 ≤ k ∧ k ≤ 32767 ∧ (a + k) % 65536 = l))

/-- The balls of the package: the indices of a quadrant run from 1 to 3,120 and each names one populated ball; no two balls
share a position; the centres lie about the package centre; a core ball whose coordinates have an odd sum is VSS; and every
Ethernet pair lies on the rows of its lane (R524, R525, R526, R527). -/
def Obligations.BallsByTheirCoordinates : Prop :=
  (∀ i j : Nat, ballPopulated i j = true → 1 ≤ ballIndex i j ∧ ballIndex i j ≤ 3120) ∧
  (∀ i j k l : Nat, ballPopulated i j = true → ballPopulated k l = true → ballIndex i j = ballIndex k l → i = k ∧ j = l) ∧
  (∀ n : Nat, 1 ≤ n → n ≤ 3120 → ∃ i j, ballPopulated i j = true ∧ ballIndex i j = n) ∧
  (∀ (p q : Quadrant) (i j k l : Nat), ballPopulated i j = true → ballPopulated k l = true →
    ballPosition p i j = ballPosition q k l → p = q ∧ i = k ∧ j = l) ∧
  (∀ (q : Quadrant) (i j : Nat), ballPopulated i j = true → 1 ≤ (ballPosition q i j).1 ∧ (ballPosition q i j).1 ≤ 118 ∧
    1 ≤ (ballPosition q i j).2 ∧ (ballPosition q i j).2 ≤ 118) ∧
  (∀ x y : Nat, ballCentre x y = (2 * (x : Int) - 119, 119 - 2 * (y : Int))) ∧
  (∀ (q : Quadrant) (i j : Nat), ballAt q i j = none ↔ ballPopulated i j = false) ∧
  (∀ (q : Quadrant) (i j : Nat), ballPopulated i j = true → 9 ≤ i → 9 ≤ j → (i + j) % 2 = 1 → ballAt q i j = some .vss) ∧
  (∀ (q : Quadrant) (n : Nat) (p : Bool) (i j : Nat), (ballAt q i j = some (.ethTx n p) ↔
      ∃ k, k < 8 ∧ n = ethBase q + k ∧ i = 10 + 6 * k + (if p then 0 else 1) ∧ j = 2) ∧
    (ballAt q i j = some (.ethRx n p) ↔
      ∃ k, k < 8 ∧ n = ethBase q + k ∧ i = 10 + 6 * k + (if p then 0 else 1) ∧ j = 5))

/-- A level within half a count of count n converts to n, in exact resolution within the window and in performance
resolution within its range; a code outside 64 to 193 is flagged in exact resolution; the reset trims leave a level as it
is; a lane saturates at the limits of INT32; and the residual of a group lies between −1,024 and 1,023 (R38, R39, R40, R90,
R92, R122). -/
def Obligations.LevelsConvertToTheirCounts : Prop :=
  (∀ n v : Int, -64 ≤ n → n ≤ 63 → (2 * n - 1) * 268435456 ≤ v → v < (2 * n + 1) * 268435456 →
    countOf false (codeOf false v) = n) ∧
  (∀ n v : Int, -127 ≤ n → n ≤ 127 → (2 * n - 1) * 134217728 ≤ v → v < (2 * n + 1) * 134217728 →
    countOf true (codeOf true v) = n) ∧
  (∀ (p : Bool) (v : Int), codeOf p v < 256) ∧
  (∀ v : Int, flaggedLevel false v = true ↔ codeOf false v < 64 ∨ 193 < codeOf false v) ∧
  (∀ n v : Int, -32 ≤ n → n ≤ 32 → (2 * n - 1) * 268435456 ≤ v → v < (2 * n + 1) * 268435456 → flaggedLevel false v = false) ∧
  (∀ (k : Nat) (v : Int), trimmedLevel (trimOf [] k) v = 4096 * v) ∧
  (∀ (g : Nat) (v : Int), g < 1024 → trimmedLevel (65536 * g) v = v * (3584 + (g : Int))) ∧
  (∀ (v : Int) (w : Nat), w < 2 ^ 32 →
    (-2147483648 ≤ signedOf 32 w + v → signedOf 32 w + v ≤ 2147483647 →
      signedOf 32 (addInt v w).word = signedOf 32 w + v ∧ (addInt v w).sat = false) ∧
    (2147483647 < signedOf 32 w + v → (addInt v w).word = 0x7FFFFFFF ∧ (addInt v w).sat = true) ∧
    (signedOf 32 w + v < -2147483648 → (addInt v w).word = 0x80000000 ∧ (addInt v w).sat = true)) ∧
  (∀ (counts : List Int) (r : Nat), -1024 ≤ residualOf counts r ∧ residualOf counts r ≤ 1023 ∧
    (residualOf counts r - (counts.foldl (· + ·) 0 - (r : Int))) % 2048 = 0)
end

