-- ==== Sys2Proof/Tests/Slice0.lean ====
section
/-!
SUPPORT. The model's own tests: an ill-formed term for each check of WellFormed.lean, values that the spec states, and for
each statement of Certificates/Slice0/Obligations.lean that has hypotheses, a state and operands that meet them all, clause
by clause, at a boundary of their range where there is one.
-/
namespace Sys2Proof.Tests

open Sys2Proof Sys2Proof.Machine

set_option Elab.async false

/-- Write fields (offset, bytes, value) into a block of bytes. -/
def patch (bs : List Byte) (fields : List (Nat × Nat × Nat)) : List Byte :=
  fields.foldl (fun b f => b.take f.1 ++ leBytes f.2.1 f.2.2 ++ b.drop (f.1 + f.2.1)) bs

/-- An entry of ring pair 0 with tag 7 and alive counter 0: its opcode, its operand fields, and the CRC-32C of R387. -/
def ent (op : Nat) (fields : List (Nat × Nat × Nat) := []) : Entry :=
  let b := patch (List.replicate 60 0) ([(0, 1, op), (4, 4, 7)] ++ fields)
  { ring := 0, bytes := withCrc b }

/-- Firmware runs, bus mastering is on and ring pair 0, of 16 entries each way, is enabled with one entry staged. -/
def live (e : Entry) : State :=
  { State.reset with
    boot := { State.reset.boot with fws := .running }
    pcie := { State.reset.pcie with busMaster := true }
    pwr := { State.reset.pwr with powerGood := true, stageStopped := false, pllLocked := true }
    regs := [(ringReg 0 0x18, 131088)]
    mbx := { State.reset.mbx with
      ready := true, rings := [(0, { enabled := true, staged := [e] })] } }

/-- What Begins asks, as one test. -/
def beginsB (e : Entry) (op : Nat) (pcie : Bool) (s : State) : Bool :=
  entryWf e && decide (e.opcode = op) && (!pcie || s.mayRequest) && (s.ring e.ring).enabled &&
    decide ((s.ring e.ring).staged.head? = some e) && s.slotFree e.ring && s.firmwareRuns && e.crcOk &&
    decide (e.alive = (s.ring e.ring).expected) && (decide (e.flags % 2 ≠ 1) || decide (s.jobsOf e.ring = [])) &&
    decide (s.mbx.jobs.length < 256) && e.zerosOk && (!s.integ.fatalStop || decide (op ∈ stopOpcodes))

theorem begins_of {e : Entry} {op : Nat} {pcie : Bool} {s : State} (h : beginsB e op pcie s = true) :
    Begins e op pcie s := by
  simp only [beginsB, Bool.and_eq_true, Bool.or_eq_true, Bool.not_eq_true', decide_eq_true_eq] at h
  obtain ⟨⟨⟨⟨⟨⟨⟨⟨⟨⟨⟨⟨h1, h2⟩, h3⟩, h4⟩, h5⟩, h6⟩, h7⟩, h8⟩, h9⟩, h10⟩, h11⟩, h12⟩, h13⟩ := h
  exact ⟨h1, h2, fun h => h3.resolve_left (by simp [h]), h4, h5, h6, h7, h8, h9,
    fun h => h10.resolve_left (by simp [h]), h11, h12, fun h => h13.resolve_left (by simp [h])⟩

/-- Firmware runs and a command that reads nothing else waits on ring pair 0. -/
def up : State := live (ent 0x01)

/-- A production of one tensor of 64 rows and 4 columns, in one group of one segment. -/
def tensor0 : Tensor :=
  { layer := 0, kind := 0, format := 1, expert := 0xFFFF, layout := 0, rowsI := 64, colsO := 4, firstSeg := 0, segCount := 1
    outliers := [] }
def model0 : Model := { windows := [0], kvWidth := 256, headDim := 64, vocab := 256, specHeads := 0 }
def man0 : Manifest :=
  { magicOk := true, minor := 0, major := 1, headerLen := 256, length := 4096, epoch := 1, tromal := false, reservedZero := true
    model := model0, keyDigest := 5, identity := 9, tensors := [tensor0]
    segments := [{ stored := 64, digest := 0, encrypted := false, keySlot := 0, tensor := 0, firstGroup := 0, iv := [] }] }

/-- The same production as manifest bytes, with a signature of zeros (R287 to R289). -/
def manIn : ManifestIn :=
  { bytes := patch (List.replicate 512 0) [(0, 4, 0x4D505146), (5, 1, 1), (6, 2, 256), (8, 4, 512), (12, 4, 1), (16, 2, 1),
      (18, 2, 1), (259, 1, 1), (260, 2, 0xFFFF), (264, 4, 64), (268, 4, 4), (274, 2, 1), (320, 8, 64)]
    model := model0 }

/-- Its packed copy. -/
def copy0 : Copy := { man := man0, frames := [1024], accepted := [], keys := [] }

/-- A cue sheet of one section and one variant that places nothing. -/
def sheet0 : CueSheet :=
  { magicOk := true, minor := 1, major := 3, headerLen := 256, bodyLen := 3840, identity := 9, epoch := 1, flags := 1
    budget := 4, members := 1, member := 0, tagCount := 1, lookahead := 2048, calPeriod := 65536, routeBudget := 132
    barrier := 64, callCount := 0, sectionCount := 1, tags := [], kvLayout := 0, build := 0, reservedZero := true
    digestOk := true, digest := 3
    chunks := [{ kind := 1, target := 0xFFFFFFFF, crcOk := true, lengthOk := true, reservedOk := true }]
    variants := [{ capacity := 64, seqLimit := 1, first := 0, count := 1, length := 1000, interval := 1000 }]
    sections := [{ start := 0, length := 1000, layer := 0, tag := 0 }]
    programs := [], calls := [], placements := [], images := []
    compiled := { acts := [], mvms := [], groups := [], calOffsets := [], calls := [], wingLines := [], blocks := [], steps := [] } }

/-- A cue sheet whose one section holds one slot, group, call, inbound line and collective step, all at its start or at
offset 8, and one placed array of the last home tile. -/
def slot1 : MvmSlot :=
  { tile := 10558, array := 7, sec := 0, start := 0, deliver := 900, groupRows := 256, row := 0, input := 0, acts := 0, high := 1024
    stride := 1024, lane := 0, expert := none }
def line1 : WingLine := { rowEnd := 319, sec := 0, at_ := 8, line := 4095, inbound := true, side := 0, other := .outside }
def call1 : FlCall := { tile := 10558, act := 5, until_ := 9 }
def step1 : StepSlot := { sec := 0, at_ := 0, collective := 5, bytes := 64, root := 1, peer := 0, format := 0 }
def place1 : Placement :=
  { tile := 10558, array := 7, tensor := 0, rowBlock := 0, colBlock := 0, reversed := false, scaleAddr := 0, outlierAddr := 0
    slots := [] }
def sheet1 : CueSheet :=
  { sheet0 with
    calls := [call1], placements := [place1]
    compiled := { sheet0.compiled with
      mvms := [slot1], calOffsets := [(10558, 0)], wingLines := [line1], steps := [step1]
      groups := [{ tile := 10558, slot := 7, fp := false, sec := 0, base := 0, count := 1, opens := 0, closes := 8,
                   target := .int32, addr := 0, row := 0, site := 0, element := 0 }] } }

/-- A scene in flight of one decode position, the state in which it runs, and a queue pair that is established. -/
def scene0 : Scene := { id := 0, start := 0, variant := 0, members := [], positions := 1 }
def runs1 : State :=
  { up with
    fabric := { up.fabric with active := some sheet1, running := [{ index := 0, scene := 0, start := 0 }] }
    prm := { up.prm with scenes := [scene0] } }
def qp0 : QueuePair :=
  { port := 0, ipVersion := 4, mac := 1, ip := 1, peer := 1, mtu := 2, sendPsn := 0, recvPsn := 0, ackedPsn := 0
    timeoutExp := 14, rkey := 5, rate := 1000 }

/-- A segment of one group as stored. -/
def seg1 : List Byte := withCrc (patch (List.replicate 60 0) [(0, 1, 1)])

/-- HBM with that group where a copy in frame 1,024 holds it. -/
def seg1Hbm : List Host.Cell := memWriteList [] (copy0.addr 0) seg1

/-- The page and annex of a record, of zeros. -/
def greenPage : List Byte := List.replicate 2105344 0

/-- A page record that holds nothing but its descriptor image: one written position and ANNEX_CRC `v` (R217, R269). -/
def greenRecord (v : Nat) : List Byte :=
  greenPage ++ (List.replicate 10 0 ++ leBytes 2 1 ++ List.replicate 12 0 ++ leBytes 4 v ++ List.replicate 4 0)

def greenSeq (v : Nat) : Seq := { state := .resuming, fetched := [((0, 0, 0), greenRecord v)] }

/-- A sequence whose one page is mapped to frame 2,048, which is IN_TRANSIT. -/
def green (q : Seq) : State :=
  { up with
    prm := { up.prm with seqs := [(4095, q)] }
    kv := { up.kv with pageMaps := [(4095, [(0, 2048)])], frames := [(2048, { state := .inTransit, written := 1 })] }
    fabric := { up.fabric with active := some sheet0 }
    ldr := { up.ldr with resident := [(9, 1)], serving := some copy0 } }

/-- HBM once the record is in place. -/
def greenHbm : List Host.Cell :=
  memWriteList (memWriteList up.kv.hbm (frameAddr 2048) (sliceBytes greenPage 0 Config.frameBytes)) (annexAddr 2048)
    (sliceBytes greenPage Config.frameBytes 8192)
theorem slice_append (a b : List Byte) (off n : Nat) (h : off + n ≤ a.length) :
    sliceBytes (a ++ b) off n = sliceBytes a off n := by
  unfold sliceBytes
  rw [List.drop_append_of_le_length (by omega), List.take_append_of_le_length (by rw [List.length_drop]; omega)]

theorem green_page_length : greenPage.length = 2105344 := List.length_replicate

theorem green_descriptor (v : Nat) : sliceBytes (greenRecord v) 2105344 32 =
    List.replicate 10 0 ++ leBytes 2 1 ++ List.replicate 12 0 ++ leBytes 4 v ++ List.replicate 4 0 := by
  unfold sliceBytes greenRecord
  rw [List.drop_left' green_page_length]
  rfl

/-- What the record leaves: the page and annex in HBM, one written position and the record's ANNEX_CRC. -/
theorem green_placed (v : Nat) (hv : v < 2) (q : Seq) :
    (green q).placeRecord 4095 ((0, 0, 0), greenRecord v) =
      State.setFrame { green q with kv := { (green q).kv with hbm := greenHbm } } 2048
        { state := .inTransit, written := 1, annexCrc := v } := by
  have hf : (green q).filledFrame 4095 (0, 0, 0) = some 2048 := by
    show (green {}).filledFrame 4095 (0, 0, 0) = some 2048
    decide +kernel
  unfold State.placeRecord
  rw [hf]
  have h0 : sliceBytes (greenRecord v) 0 Config.frameBytes = sliceBytes greenPage 0 Config.frameBytes :=
    slice_append _ _ _ _ (by rw [green_page_length]; decide)
  have h1 : sliceBytes (greenRecord v) Config.frameBytes 8192 = sliceBytes greenPage Config.frameBytes 8192 :=
    slice_append _ _ _ _ (by rw [green_page_length]; decide)
  have h2 : Config.frameBytes + 8192 = 2105344 := by decide
  have h3 : v = 0 ∨ v = 1 := by omega
  simp only [h0, h1, h2, green_descriptor]
  rcases h3 with rfl | rfl <;> rfl

theorem green_filled :
    ((greenSeq 0).fetched.foldl (fun s p => s.placeRecord 4095 p) (green (greenSeq 0))).filledFrame 4095 (0, 0, 0) = some 2048 := by
  show ((green (greenSeq 0)).placeRecord 4095 ((0, 0, 0), greenRecord 0)).filledFrame 4095 (0, 0, 0) = some 2048
  rw [green_placed _ (by omega)]
  rfl

/-- DESC_CRC of the record is 0, which is not the CRC of its bytes. -/
theorem green_unsound : recordSound (greenRecord 0) = false := by
  unfold recordSound
  rw [show Config.frameBytes + 8192 = 2105344 by decide, green_descriptor]
  decide +kernel

/-- A fit agrees with itself, so a run whose two passes gathered the same is accepted. -/
theorem fits_self (fs step : Int) (a : Nat) : fitsAgree fs step a a = true := by
  unfold fitsAgree
  simp

theorem same_passes (x : Tile) (refOk a : Nat) (r : CalRunState) (h : r.passA = r.passB) : x.fitAccepted refOk a r = true := by
  unfold Tile.fitAccepted
  rw [h]
  simp only [fits_self, Bool.and_self, List.all_eq_true, implies_true]

/-! ### Ill-formed terms are refused: one for each check of WellFormed.lean -/

theorem test_illformed_entry : (Instr.echo { ring := 16, bytes := (ent 1).bytes }).wellFormed = false ∧
    (Instr.echo { ring := 0, bytes := List.replicate 63 0 }).wellFormed = false ∧
    (Instr.mbxSqTail 0 1 [{ ring := 16, bytes := [] }]).wellFormed = false := by decide +kernel

theorem test_illformed_unit : (Instr.flSettled 10560).wellFormed = false ∧ (Instr.wingStall 320).wellFormed = false ∧
    (Instr.droop 160).wellFormed = false ∧ (Instr.laneLockLoss 32).wellFormed = false ∧
    (Instr.pauseFrame 16).wellFormed = false ∧ (Instr.roceAckTimeout 4096).wellFormed = false ∧
    (Instr.greenRoomExpiry 4096).wellFormed = false ∧ (Instr.completionPost 16).wellFormed = false ∧
    (Instr.calTrigger 2).wellFormed = false ∧ (Instr.avsFault 8).wellFormed = false ∧
    (Instr.faultQuiet 512).wellFormed = false ∧ (Instr.counterSaturated 65536).wellFormed = false := by decide +kernel

theorem test_illformed_register : (Instr.registerWrite 67108864 0).wellFormed = false ∧ (Instr.shadowLoRead 2).wellFormed = false ∧
    (Instr.rcRead 67108864).wellFormed = false ∧ (Instr.chkModeWrite 24 0).wellFormed = false ∧
    (Instr.cntBwCfg 22 0).wellFormed = false := by decide +kernel

theorem test_illformed_block : (Instr.blockReset 0 10560).wellFormed = false ∧ (Instr.blockReset 1 160).wellFormed = false ∧
    (Instr.blockReset 2 2).wellFormed = false ∧ (Instr.blockReset 3 12).wellFormed = false ∧
    (Instr.blockReset 4 0).wellFormed = false := by decide +kernel

theorem test_illformed_operand : (Instr.hkmPass 0 []).wellFormed = false ∧ (Instr.hbmSensorRead []).wellFormed = false ∧
    (Instr.injectedSequence 0 []).wellFormed = false ∧ (Instr.groupClose 0 8).wellFormed = false ∧
    (Instr.arrayProgrammed 0 8 true []).wellFormed = false ∧ (Instr.wingSourceIssue 0 4096 0 0).wellFormed = false ∧
    (Instr.wingSourceIssue 0 0 15 0).wellFormed = false ∧ (Instr.wingLineReady 0 0 []).wellFormed = false ∧
    (Instr.phaseWindow 0 none { levels := [], alarm := false, storeUe := none }).wellFormed = false ∧
    (Instr.calSlot 0 [{ levels := [] }]).wellFormed = false ∧ (Instr.pfcPauseExpiry 0 2).wellFormed = false ∧
    (Instr.bwWindowEnd 22 0 0).wellFormed = false ∧ (Instr.rehearsalDone 3 0 0 []).wellFormed = false ∧
    (Instr.netHostTxTail 0 [List.replicate 31 0]).wellFormed = false ∧ (Instr.smbusMessage 128 .pdrInfo).wellFormed = false ∧
    (Instr.pcieLinkError 32).wellFormed = false ∧ (Instr.rocePacket (2 ^ 24) 0 false .cnp []).wellFormed = false ∧
    (Instr.rocePacket 0 16 false .cnp []).wellFormed = false := by decide +kernel

/-! ### Values that the spec states -/

/-- The bytes of the string "123456789". -/
def digits : List Byte := [0x31, 0x32, 0x33, 0x34, 0x35, 0x36, 0x37, 0x38, 0x39]

/-- R468. -/
theorem test_crc32c : crc32c digits = 0xE3069283 := by decide +kernel

/-- R361. -/
theorem test_crc64 : crc64 digits = 0x6C40DF5F0B497347 := by decide +kernel

/-- FIPS 202, SHAKE256 of the empty string, first four bytes. -/
theorem test_shake256 : shake256 [] 4 = [0x46, 0xB9, 0xDD, 0x2B] := by decide +kernel

/-- The states in which an outcome goes on. -/
def onward : Host.Outcome State Fault Refusal → Option State
  | .next s => some s
  | _ => none

/-- 02_arrays, "reading a tile's state": ARR_ID and ARR_STATUS of tile 6,467. -/
theorem test_arr_id : up.hostRead 0x01650C00 = 0x00614101 := by decide +kernel
theorem test_arr_status :
    State.hostRead { up with tiles := [(6467, { fl := { state := .ready, untilCall := true } })] } 0x01650C04 = 0x30 := by
  decide +kernel

/-- 02_arrays, "one count in each resolution": codes 133, 199 and 188. -/
theorem test_counts : countOf false 133 = 2 ∧ countOf true 199 = 71 ∧ countOf true 188 = 60 := by decide +kernel

/-- 04_tile_engine, "one table, three lookups". -/
theorem test_lut : lutEntry [12, -5, 3, 100] 25 = 117 ∧
    lutGroup false ((List.range 81).map (fun e => lutEntry [12, -5, 3, 100] e)) [-1, 1, 0, -1] = -117 ∧
    lutGroup true ((List.range 81).map (fun e => lutEntry [12, -5, 3, 100] e)) [-2, 1, 0, -1] = -129 := by decide +kernel

/-- 05_scheduled_fabric, "fencing a tile for rehearsal": tile 812 is served by the west understudy 792, and FAB_SUBST_12
reads 0xB4C0_0000 while it is streamed and 0xA4C0_0000 after. -/
theorem test_understudy : up.chooseUnderstudy 812 = some 792 := by decide +kernel
theorem test_fab_subst :
    State.hostRead { up with fabric := { substs := [{ home := 812, under := 792, bypass := false, streamed := true }] } }
      0x1030 = 0xB4C00000 ∧
    State.hostRead { up with fabric := { substs := [{ home := 812, under := 792, bypass := false, streamed := false }] } }
      0x1030 = 0xA4C00000 := by decide +kernel

/-- 10_host_and_mailboxes, "the first commands on a ring": MBX_RING_CFG_2 = 0x8010_0040 enables ring pair 2 with 64
submission and 128 completion entries. -/
theorem test_ring_enable :
    (onward (exec (.ringEnable 2 0x80100040) up)).map (fun t => ((t.ring 2).enabled, t.sqSize 2, t.cqSize 2)) =
      some (true, 64, 128) := by decide +kernel

/-- 10_host_and_mailboxes, the same example: ECHO answers OK with its operands. -/
theorem test_echo :
    (onward (step { live (ent 1 [(8, 4, 0x01020304)]) with pending := [.echo (ent 1 [(8, 4, 0x01020304)])] })).map
      (fun t => ((t.ring 0).waiting.map (fun c => (c.tag, c.status, c.result.take 4)), (t.ring 0).expected)) =
      some ([(7, .ok, [4, 3, 2, 1])], 1) := by decide +kernel

/-- R397: QUERY_INFO is bit 2 of byte 8 of the information block, byte 0 of the bitmap. -/
theorem test_bitmap : (opcodeBitmap.getD 0 0).toNat.testBit 2 = true := by decide +kernel

/-- 12_power_clocks_thermal, "capping a device in long-context decode": the cap demands 13, 16, 17 and 17. -/
theorem test_cap_demand : demandNext 0 1000 1240 64 = 13 ∧ demandNext 13 1000 1058 51 = 16 ∧
    demandNext 16 1000 1012 48 = 17 ∧ demandNext 17 1000 997 47 = 17 := by decide +kernel

/-- R137 at 0 and −infinity, and R123's sums in FP32: 1 + 2^-24 rounds to even, 1 + 3 × 2^-24 upward. -/
theorem test_float : exp32 0 = 0x3F800000 ∧ exp32 0xFF800000 = 0 ∧ fadd 0x3F800000 0x33800000 = 0x3F800000 ∧
    fadd 0x3F800000 0x34400000 = 0x3F800002 := by decide +kernel

/-- 15_package, "locating two balls": ETH_RX_N_27 is SE-1657 at position (114, 90), and ETH_TX_P_7 is NW-2802. -/
theorem test_balls : ballAt .se 29 5 = some (.ethRx 27 false) ∧ ballIndex 29 5 = 1657 ∧ ballPosition .se 29 5 = (114, 90) ∧
    ballAt .nw 52 2 = some (.ethTx 7 true) ∧ ballIndex 52 2 = 2802 := by decide +kernel

/-- A word spells no command, so the state stays as it is. -/
theorem test_fetch_word : decodeTableWord 32 1 = none ∧ State.withFetchWord State.reset 32 1 = State.reset := by decide +kernel

/-! ### Witnesses of the statements' hypotheses -/

theorem witness_StepRunsTheFrontCommand : ∃ (c : Instr) (rest : List Instr) (s : State),
      s.pending = c :: rest :=
  ⟨.powerDown, [.droop 159], { State.reset with
      pending := [.powerDown, .droop 159] }, by decide +kernel⟩

theorem witness_IdleStepIsOneStageCycle :
    (∃ (s : State),
      s.pending = []) ∧
    (∃ (s : State),
      s.pending = [] ∧ s.clockRuns = false) ∧
    (∃ (s : State),
      s.pending = [] ∧ s.clockRuns = true) ∧
    (∃ (s : State),
      s.pending = [] ∧ s.clockRuns = true ∧ s.fabric.active = none ∧ s.tiles = [] ∧ s.fabric.formatLeft = 0 ∧
        s.fabric.handover = 0) :=
  ⟨⟨State.reset, by decide +kernel⟩,
    ⟨{ up with
      pwr := { up.pwr with
        stageStopped := true } }, by decide +kernel⟩,
    ⟨up, by decide +kernel⟩,
    ⟨up, by decide +kernel⟩⟩

theorem witness_WellFormedCommandsNeverStop : ∃ (c : Instr),
      c.wellFormed = true :=
  ⟨.droop 159, by decide +kernel⟩

theorem witness_StepKeepsHbmCanonical : ∃ (s : State) (t : State),
      step s = .next t ∧ memWf s.kv.hbm = true :=
  ⟨{ State.reset with
      kv := { State.reset.kv with
        hbm := [(1, 1), (2, 255)] } }, { State.reset with
      kv := { State.reset.kv with
        hbm := [(1, 1), (2, 255)] } }, rfl, by decide +kernel⟩

theorem witness_ExecLeavesTheQueue : ∃ (c : Instr) (s : State) (t : State),
      exec c s = .next t :=
  ⟨.drainTimeout, State.reset, State.reset, rfl⟩

theorem witness_EntryChecksInOrder :
    (∃ (e : Entry) (s : State),
      entryWf e = true ∧ (s.ring e.ring).enabled = true ∧ (s.ring e.ring).staged.head? = some e ∧
        s.slotFree e.ring = true ∧ s.firmwareRuns = true ∧ e.crcOk = false) ∧
    (∃ (e : Entry) (s : State),
      entryWf e = true ∧ (s.ring e.ring).enabled = true ∧ (s.ring e.ring).staged.head? = some e ∧
        s.slotFree e.ring = true ∧ s.firmwareRuns = true ∧ e.crcOk = true ∧ e.alive ≠ (s.ring e.ring).expected) ∧
    (∃ (e : Entry) (s : State),
      entryWf e = true ∧ (s.ring e.ring).enabled = true ∧ (s.ring e.ring).staged.head? = some e ∧
        s.slotFree e.ring = true ∧ s.firmwareRuns = true ∧ e.crcOk = true ∧ e.alive = (s.ring e.ring).expected ∧
        s.jobsOf e.ring = [] ∧ s.mbx.jobs.length < 256 ∧ (e.opcode ∉ opcodeTable ∨ e.zerosOk = false)) ∧
    (∃ (e : Entry) (s : State) (op : Nat) (pcie : Bool),
      Begins e op pcie s ∧ entryWf e = true ∧ (s.ring e.ring).enabled = true ∧
        (s.ring e.ring).staged.head? = some e ∧ s.slotFree e.ring = true ∧ s.firmwareRuns = true ∧ op ∈ opcodeTable) ∧
    (∃ (e : Entry) (s : State),
      entryWf e = true ∧ (s.ring e.ring).enabled = true ∧ (s.ring e.ring).staged.head? = some e ∧
        s.slotFree e.ring = true ∧ s.firmwareRuns = true) ∧
    (∃ (e : Entry) (s : State),
      entryWf e = true ∧ (s.ring e.ring).enabled = true ∧ (s.ring e.ring).staged.head? = some e ∧
        s.slotFree e.ring = true ∧ s.firmwareRuns = true) :=
  ⟨⟨{ ent 1 with
 bytes := patch (ent 1).bytes [(60, 4, 0)] }, live ({ ent 1 with
 bytes := patch (ent 1).bytes [(60, 4, 0)] }), by decide +kernel⟩,
    ⟨ent 1 [(2, 2, 1)], live (ent 1 [(2, 2, 1)]), by decide +kernel⟩,
    ⟨ent 4, live (ent 4), by decide +kernel⟩,
    ⟨ent 1, up, 1, false, begins_of (by decide +kernel), by decide +kernel⟩,
    ⟨ent 1, up, by decide +kernel⟩,
    ⟨ent 1, up, by decide +kernel⟩⟩

theorem witness_CompletionEntryLayout : ∃ (c : Completion) (alive : Nat),
      c.tag < 2 ^ 32 ∧ alive < 65536 ∧ c.result.length = 20 :=
  ⟨{ tag := 2 ^ 32 - 1, status := .ok, isRecord := true, result := List.replicate 20 255 }, 65535, by decide +kernel⟩

theorem witness_CompletionPostWritesOneEntry :
    (∃ (r : Nat) (s : State) (c : Completion) (rest : List Completion),
      r < 16 ∧ (s.ring r).waiting = c :: rest ∧ s.slotOpen r = true ∧ s.mayRequest = true ∧
        s.awaitsAdmit r c = false ∧ memWf s.outside.hostMem = true) ∧
    (∃ (r : Nat) (s : State),
      r < 16 ∧ s.slotOpen r = false) ∧
    (∃ (r : Nat) (s : State) (c : Completion) (rest : List Completion),
      r < 16 ∧ (s.ring r).waiting = c :: rest ∧ s.awaitsAdmit r c = true) :=
  ⟨⟨0, { up with
      mbx := { up.mbx with
        rings := [(0, { enabled := true, waiting := [{ tag := 7, status := .ok, isRecord := false, result := List.replicate 20 0 }] })] } }, { tag := 7, status := .ok, isRecord := false, result := List.replicate 20 0 }, [], by decide +kernel⟩,
    ⟨15, up, by decide +kernel⟩,
    ⟨15, { up with
      mbx := { up.mbx with
        rings := [(0, { enabled := true, waiting := [{ tag := 7, status := .ok, isRecord := false, result := [], admits := true }] }),
          (15, { enabled := true, waiting := [{ tag := 7, status := .ok, isRecord := true, result := List.replicate 20 0 }] })] } }, { tag := 7, status := .ok, isRecord := true, result := List.replicate 20 0 }, [], by decide +kernel⟩⟩

theorem witness_RingPairsEnableAndDisable :
    (∃ (r : Nat) (v : Word) (s : State),
      r < 16 ∧ Nat.testBit v.toNat 31 = true ∧ (s.ring r).enabled = true) ∧
    (∃ (r : Nat) (v : Word) (s : State),
      r < 16 ∧ Nat.testBit v.toNat 31 = true ∧ (s.ring r).enabled = false ∧
        (16 ≤ bitsOf v.toNat 0 13 ∧ bitsOf v.toNat 0 13 ≤ 4096 ∧ 16 ≤ bitsOf v.toNat 13 13 ∧ bitsOf v.toNat 13 13 ≤ 4096 ∧ s.reg (ringReg r 0x00) % 4096 = 0 ∧ s.reg (ringReg r 0x08) % 4096 = 0 ∧ s.reg (ringReg r 0x10) % 64 = 0 ∧ s.mbx.ready = true)) ∧
    (∃ (r : Nat) (v : Word) (s : State),
      r < 16 ∧ Nat.testBit v.toNat 31 = true ∧ (s.ring r).enabled = false ∧
        (bitsOf v.toNat 0 13 < 16 ∨ 4096 < bitsOf v.toNat 0 13 ∨ bitsOf v.toNat 13 13 < 16 ∨ 4096 < bitsOf v.toNat 13 13 ∨ s.reg (ringReg r 0x00) % 4096 ≠ 0 ∨ s.reg (ringReg r 0x08) % 4096 ≠ 0 ∨ s.reg (ringReg r 0x10) % 64 ≠ 0 ∨ s.mbx.ready = false)) ∧
    (∃ (r : Nat) (v : Word) (s : State),
      r < 16 ∧ Nat.testBit v.toNat 31 = false ∧ (s.ring r).enabled = true) ∧
    (∃ (r : Nat) (v : Word) (s : State),
      r < 16 ∧ Nat.testBit v.toNat 31 = false ∧ (s.ring r).enabled = false) ∧
    (∃ (r : Nat),
      r < 16) :=
  ⟨⟨0, 0x80020010, up, by decide +kernel⟩,
    ⟨15, 0x80020010, up, by decide +kernel⟩,
    ⟨15, 0x8002000F, up, by decide +kernel⟩,
    ⟨0, 0, up, by decide +kernel⟩,
    ⟨15, 0, up, by decide +kernel⟩,
    ⟨15, by decide +kernel⟩⟩

theorem witness_DoorbellCopiesEntries :
    (∃ (r : Nat) (v : Word) (es : List Entry) (s : State),
      r < 16 ∧ v.toNat % 4096 < s.sqSize r ∧ (s.ring r).enabled = true ∧ s.mayRequest = true ∧
        es.all entryWf = true ∧ (∀ e ∈ es, e.ring = r) ∧
        es.length = (v.toNat % 4096 + s.sqSize r - (s.ring r).sqHead) % s.sqSize r ∧ memWf s.outside.hostMem = true) ∧
    (∃ (r : Nat) (v : Word) (es : List Entry) (s : State),
      r < 16 ∧ v.toNat % 4096 < s.sqSize r ∧ (s.ring r).enabled = true ∧ s.mayRequest = false ∧
        es.all entryWf = true ∧ (∀ e ∈ es, e.ring = r) ∧
        es.length = (v.toNat % 4096 + s.sqSize r - (s.ring r).sqHead) % s.sqSize r) ∧
    (∃ (r : Nat) (s : State),
      s.mayRequest = true ∧ (s.ring r).enabled = true ∧ (s.ring r).unfetched ≠ []) ∧
    (∃ (r : Nat) (v : Word) (s : State),
      r < 16 ∧ v.toNat % 4096 < s.sqSize r ∧ (s.ring r).enabled = false) ∧
    (∃ (r : Nat) (v : Word) (s : State),
      r < 16 ∧ s.sqSize r ≤ v.toNat % 4096) :=
  ⟨⟨0, 15, List.replicate 15 (ent 1), up, by decide +kernel⟩,
    ⟨0, 15, List.replicate 15 (ent 1), { up with pcie := {} }, by decide +kernel⟩,
    ⟨0, { up with mbx := { up.mbx with rings := [(0, { enabled := true, unfetched := [ent 1] })] } }, by decide +kernel⟩,
    ⟨0, 15, { up with mbx := { up.mbx with rings := [] } }, by decide +kernel⟩,
    ⟨0, 16, up, by decide +kernel⟩⟩

theorem witness_CoalescingAndPcieErrors :
    (∃ (r : Nat) (s : State),
      r < 16 ∧ (s.ring r).unsignalled ≠ 0 ∧ s.field (ringReg r 0x28) 0 12 ≠ 0) ∧
    (∃ (r : Nat) (s : State),
      r < 16 ∧ ((s.ring r).unsignalled = 0 ∨ s.field (ringReg r 0x28) 0 12 = 0)) ∧
    (∃ (r : Nat),
      r < 16) ∧
    (∃ (bit : Nat) (s : State), bit < 32 ∧ Nat.testBit s.pcie.aerMask bit = true) ∧
    (∃ (s : State), s.pcie.ecrcCheck = false) ∧
    (∃ (bit : Nat) (s : State), bit < 32 ∧ Nat.testBit s.pcie.aerMask bit = false ∧ bit ≠ 19) ∧
    (∃ (bit : Nat) (s : State), bit = 19 ∧ Nat.testBit s.pcie.aerMask bit = false ∧ s.pcie.ecrcCheck = true) ∧
    (∃ s : State, s.configReady = false) ∧
    (∃ s : State, s.configReady = true) ∧
    (∃ (v : Nat) (s : State), v < 64 ∧ s.maySignal = true ∧ Nat.testBit (s.reg (0x1D000 + 4 * (v / 32))) (v % 32) = true ∧
      s.reg (0x1C00C + 0x10 * v) % 2 = 0) :=
  ⟨⟨0, { up with
      regs := [(ringReg 0 0x28, 1)]
      mbx := { up.mbx with
        rings := [(0, { unsignalled := 1 })] } }, by decide +kernel⟩,
    ⟨15, up, by decide +kernel⟩,
    ⟨15, by decide +kernel⟩,
    ⟨31, { up with pcie := { up.pcie with aerMask := 2 ^ 31 } }, by decide +kernel⟩,
    ⟨up, by decide +kernel⟩,
    ⟨31, up, by decide +kernel⟩,
    ⟨19, { up with pcie := { up.pcie with ecrcCheck := true } }, by decide +kernel⟩,
    ⟨State.reset, by decide +kernel⟩,
    ⟨up, by decide +kernel⟩,
    ⟨63, { up with
      regs := [(0x1D004, 0x80000000), (0x1C00C + 0x10 * 63, 0)]
      pcie := { up.pcie with msixEnable := true } }, by decide +kernel⟩⟩

theorem witness_InformationCommandsComplete :
    (∃ (e : Entry) (s : State),
      Begins e 0x01 false s) ∧
    (∃ (e : Entry) (s : State),
      Begins e 0x02 true s ∧ e.op 8 8 % 64 = 0) ∧
    (∃ (e : Entry) (s : State),
      Begins e 0x81 true s ∧ e.op 8 1 ≤ 3 ∧ e.op 16 8 % 64 = 0 ∧
        (e.op 8 1 = 1 ∨ e.op 8 1 = 2 → e.op 12 4 < 8 * Config.tiles)) ∧
    (∃ (e : Entry) (s : State),
      Begins e 0x80 false s ∧ e.op 8 1 = 0 ∧ s.snapPending = false) :=
  ⟨⟨ent 1, live (ent 1), begins_of (by decide +kernel)⟩,
    ⟨ent 2 [(8, 8, 64)], live (ent 2 [(8, 8, 64)]), begins_of (by decide +kernel), by decide +kernel⟩,
    ⟨ent 0x81 [(8, 1, 1), (12, 4, 84479), (16, 8, 64)], live (ent 0x81 [(8, 1, 1), (12, 4, 84479), (16, 8, 64)]), begins_of (by decide +kernel), by decide +kernel⟩,
    ⟨ent 0x80, live (ent 0x80), begins_of (by decide +kernel), by decide +kernel⟩⟩

theorem witness_PlaybillWritesItsReport :
    (∃ (e : Entry) (s : State),
      Begins e 0x03 true s ∧ 594 ≤ e.op 48 4 ∧ e.op 8 8 % 64 = 0 ∧ s.ldr.bootVerified = true) ∧
    (∃ (e : Entry) (s : State),
      Begins e 0x03 true s ∧ s.boot.latched.chain.length = 64) ∧
    (∃ (e : Entry) (s : State),
      Begins e 0x03 true s) ∧
    (∃ (e : Entry) (s : State),
      Begins e 0x03 true s ∧ (e.op 48 4 < 594 ∨ e.op 8 8 % 64 ≠ 0)) ∧
    (∃ (e : Entry) (s : State),
      Begins e 0x03 true s ∧ 594 ≤ e.op 48 4 ∧ e.op 8 8 % 64 = 0 ∧ s.ldr.bootVerified = false) :=
  ⟨⟨ent 3 [(8, 8, 64), (48, 4, 594)], { (live (ent 3 [(8, 8, 64), (48, 4, 594)])) with
      ldr := { (live (ent 3 [(8, 8, 64), (48, 4, 594)])).ldr with
        bootVerified := true } }, begins_of (by decide +kernel), by decide +kernel⟩,
    ⟨ent 3 [(8, 8, 64), (48, 4, 594)], { (live (ent 3 [(8, 8, 64), (48, 4, 594)])) with
      boot := { (live (ent 3 [(8, 8, 64), (48, 4, 594)])).boot with
        fws := .running
        latched := { State.reset.boot.latched with chain := List.replicate 64 0 } } }, begins_of (by decide +kernel), by decide +kernel⟩,
    ⟨ent 3 [(8, 8, 64), (48, 4, 594)], live (ent 3 [(8, 8, 64), (48, 4, 594)]), begins_of (by decide +kernel)⟩,
    ⟨ent 3 [(8, 8, 64), (48, 4, 593)], live (ent 3 [(8, 8, 64), (48, 4, 593)]), begins_of (by decide +kernel), by decide +kernel⟩,
    ⟨ent 3 [(8, 8, 64), (48, 4, 594)], live (ent 3 [(8, 8, 64), (48, 4, 594)]), begins_of (by decide +kernel), by decide +kernel⟩⟩

theorem witness_CalIndexSelectsAndSteps :
    (∃ (t : Nat) (s : State),
      t < Config.tiles ∧ s.windowOpen t 0x11C = true) ∧
    (∃ (t : Nat) (s : State),
      t < Config.tiles ∧ (s.tile t).inReset = 0) ∧
    (∃ (t : Nat),
      t < Config.tiles) ∧
    (∃ (t : Nat) (s : State),
      t < Config.tiles ∧ s.windowOpen t 0x11C = true) ∧
    (∃ (t : Nat) (s : State),
      t < Config.tiles ∧ s.windowOpen t 0x11C = true ∧ (s.tile t).calRun = none) ∧
    (∃ (t : Nat) (s : State) (r : CalRunState),
      t < Config.tiles ∧ s.windowOpen t 0x11C = true ∧ (s.tile t).calRun = some r ∧
        r.arrays.head? = some (s.calSelect t).2.1) :=
  ⟨⟨10559, up, by decide +kernel⟩,
    ⟨10559, up, by decide +kernel⟩,
    ⟨10559, by decide +kernel⟩,
    ⟨10559, up, by decide +kernel⟩,
    ⟨10559, up, by decide +kernel⟩,
    ⟨10559, { up with
      tiles := [(10559, { calRun := some { arrays := [0], direct := true } })] }, { arrays := [0], direct := true }, by decide +kernel⟩⟩

theorem witness_ScratchAndAperture : ∃ (s : State),
      28 ≤ s.pcie.bar2Log2 :=
  ⟨State.reset, by decide +kernel⟩

theorem witness_RegisterWriteByAccessType :
    (∃ (v : Word), 1 ≤ v.toNat % 65536 ∧ 1 ≤ v.toNat / 65536) ∧
    (∃ o size : Nat, o % 4 ≠ 0 ∨ (size ≠ 4 ∧ size ≠ 8)) ∧
    (∃ o : Nat, o % 4 = 0) ∧
    (∃ k : Nat, k < 128) :=
  ⟨⟨0x00010001, by decide +kernel⟩, ⟨0, 2, by decide +kernel⟩, ⟨4, by decide +kernel⟩, ⟨127, by decide +kernel⟩⟩

theorem witness_ReadsClearLatchAndSelect :
    (∃ (v : Word) (s : State) (q : Seq),
      Map.get? s.prm.settled (v.toNat % 4096) = some q) ∧
    (∃ (v : Word) (s : State),
      Map.get? s.prm.settled (v.toNat % 4096) = none) :=
  ⟨⟨4095, { up with
      prm := { up.prm with
        settled := [(4095, {})] } }, {}, by decide +kernel⟩,
    ⟨4095, up, by decide +kernel⟩⟩

theorem witness_Bar2WritesReadsAndBlocks :
    (∃ (o : Nat) (bs : List Byte) (s : State),
      o + bs.length ≤ 2 ^ s.pcie.bar2Log2 ∧ memWf s.kv.hbm = true ∧
        (∀ i, i < bs.length → s.inCopy ((s.bar2Addr o + i) / Config.frameBytes) = false ∧ s.bar2Addr o + i < 576 * 2 ^ 30)) ∧
    (∃ (o : Nat) (s : State),
      o + 1 ≤ 2 ^ s.pcie.bar2Log2 ∧ s.inCopy (s.bar2Addr o / Config.frameBytes) = true) :=
  ⟨⟨2 ^ 28 - 1, [255], up, by decide +kernel⟩,
    ⟨2 ^ 28 - 1, { up with
      ldr := { up.ldr with
        serving := some { copy0 with
 frames := [127] } } }, by decide +kernel⟩⟩

theorem witness_PtpRegisters : ∃ (o : Nat),
      (o = 0xB0020 ∨ o = 0xB0024) :=
  ⟨0xB0024, by decide +kernel⟩

theorem witness_GlbResetNeedsItsKey :
    (∃ (v : Word) (s : State),
      bitsOf v.toNat 24 8 = 0xB0 ∧ bitsOf v.toNat 22 2 = 1 ∧
        bitsOf v.toNat 0 14 < (match bitsOf v.toNat 20 2 with | 0 => 10560 | 1 => 160 | 2 => 2 | _ => 12) ∧
        s.pwr.powerGood = true ∧ s.pwr.allStopped = false ∧ s.boot.fws ≠ .romInit ∧ s.boot.stopped = false) ∧
    (∃ (v : Word) (s : State),
      bitsOf v.toNat 24 8 = 0xB0 ∧ bitsOf v.toNat 22 2 = 2 ∧
        bitsOf v.toNat 0 14 < (match bitsOf v.toNat 20 2 with | 0 => 10560 | 1 => 160 | 2 => 2 | _ => 12) ∧
        s.pwr.powerGood = true ∧ s.pwr.allStopped = false ∧ bitsOf v.toNat 20 2 = 0) ∧
    (∃ (v : Word) (s : State),
      bitsOf v.toNat 24 8 = 0xB0 ∧ bitsOf v.toNat 22 2 = 2 ∧
        bitsOf v.toNat 0 14 < (match bitsOf v.toNat 20 2 with | 0 => 10560 | 1 => 160 | 2 => 2 | _ => 12) ∧
        s.pwr.powerGood = true ∧ s.pwr.allStopped = false ∧ bitsOf v.toNat 20 2 = 3 ∧ memWf s.kv.hbm = true) ∧
    (∃ (v : Word),
      (bitsOf v.toNat 24 8 ≠ 0xB0 ∨ bitsOf v.toNat 22 2 = 0 ∨ bitsOf v.toNat 22 2 = 3)) ∧
    (∃ (v : Word),
      bitsOf v.toNat 22 2 = 2 ∧
        (match bitsOf v.toNat 20 2 with | 0 => 10560 | 1 => 160 | 2 => 2 | _ => 12) ≤ bitsOf v.toNat 0 14) :=
  ⟨⟨0xB040293F, up, by decide +kernel⟩,
    ⟨0xB080293F, up, by decide +kernel⟩,
    ⟨0xB0B0000B, up, by decide +kernel⟩,
    ⟨0xB0C00000, by decide +kernel⟩,
    ⟨0xB0802940, by decide +kernel⟩⟩

theorem witness_FirmwareStagingByState :
    (∃ (v : Word) (s : State),
      s.boot.fws = .wait ∧ 4096 ≤ v.toNat % 8388608 ∧ v.toNat % 8388608 ≤ 4194304) ∧
    (∃ (v : Word) (s : State),
      (s.boot.fws ≠ .wait ∨ v.toNat % 8388608 < 4096 ∨ 4194304 < v.toNat % 8388608)) ∧
    (∃ (v : Word) (s : State),
      s.boot.fws = .receiving ∧ s.boot.busy = false ∧ v.toNat % 256 < (s.boot.length + 32767) / 32768) ∧
    (∃ (v : Word) (s : State),
      (s.boot.fws ≠ .receiving ∨ s.boot.busy = true ∨ (s.boot.length + 32767) / 32768 ≤ v.toNat % 256)) ∧
    (∃ (s : State),
      s.boot.fws = .receiving ∧ s.boot.busy = true) ∧
    (∃ (s : State),
      s.boot.fws ≠ .receiving ∨ s.boot.busy = false) :=
  ⟨⟨0x00400000, { up with
      boot := { up.boot with
        fws := .wait } }, by decide +kernel⟩,
    ⟨0x00400001, { up with
      boot := { up.boot with
        fws := .wait } }, by decide +kernel⟩,
    ⟨0, { up with
      boot := { up.boot with
        fws := .receiving, length := 4096 } }, by decide +kernel⟩,
    ⟨1, { up with
      boot := { up.boot with
        fws := .receiving, length := 4096 } }, by decide +kernel⟩,
    ⟨{ up with
      boot := { up.boot with
        fws := .receiving, busy := true } }, by decide +kernel⟩,
    ⟨up, by decide +kernel⟩⟩

theorem witness_FundamentalResetAndRelease :
    (∃ (s : State),
      s.pwr.powerGood = true ∧ s.pwr.thermtrip = false) ∧
    (∃ (s : State),
      s.pwr.powerGood = false ∨ s.pwr.thermtrip = true) ∧
    (∃ (sys : Bool) (s : State),
      s.pwr.powerGood = true ∧ s.pwr.thermtrip = false ∧ s.pwr.perst = !sys ∧ s.pwr.sysRst = sys) ∧
    (∃ (sys : Bool) (s : State),
      (s.pwr.perst && sys) = true ∨ (s.pwr.sysRst && !sys) = true ∨ s.pwr.powerGood = false ∨ s.pwr.thermtrip = true ∨
        (s.pwr.perst = false ∧ s.pwr.sysRst = false)) :=
  ⟨⟨up, by decide +kernel⟩,
    ⟨{ up with
      pwr := { up.pwr with
        thermtrip := true } }, by decide +kernel⟩,
    ⟨true, { up with
      pwr := { up.pwr with
        sysRst := true } }, by decide +kernel⟩,
    ⟨true, { up with
      pwr := { up.pwr with
        perst := true, sysRst := true } }, by decide +kernel⟩⟩

theorem witness_HotAndChipResets :
    (∃ (s : State),
      s.pwr.powerGood = true ∧ s.pwr.allStopped = false) ∧
    (∃ (s : State),
      s.pwr.powerGood = false ∨ s.pwr.allStopped = true) ∧
    (∃ (s : State),
      s.pwr.powerGood = true ∧ s.pwr.allStopped = false ∧ s.integ.chipReset = true ∧ s.boot.fws ≠ .romInit ∧
        s.boot.stopped = false) ∧
    (∃ (s : State), s.integ.chipReset = false) :=
  ⟨⟨up, by decide +kernel⟩,
    ⟨State.reset, by decide +kernel⟩,
    ⟨{ up with
      integ := { up.integ with
        chipReset := true } }, by decide +kernel⟩,
    ⟨up, by decide +kernel⟩⟩

theorem witness_BlockResetsTakeTheirBlock :
    (∃ (d : Nat) (s : State),
      d < 2 ∧ s.pwr.powerGood = true ∧ s.pwr.allStopped = false ∧ (2, d) ∈ s.integ.blockResets ∧
        (∀ p, p < 16 → p / 8 = d → (s.port p).up = false)) ∧
    (∃ (k : Nat) (s : State),
      k < 12 ∧ s.pwr.powerGood = true ∧ s.pwr.allStopped = false ∧ (3, k) ∈ s.integ.blockResets ∧ memWf s.kv.hbm = true ∧
        s.fabric.active = none) ∧
    (∃ (t : Nat) (s : State),
      t < Config.tiles ∧ s.pwr.powerGood = true ∧ s.pwr.allStopped = false ∧ (0, t) ∈ s.integ.blockResets) ∧
    (∃ (r : Nat) (s : State),
      r < Config.rows ∧ s.pwr.powerGood = true ∧ s.pwr.allStopped = false ∧ (1, r) ∈ s.integ.blockResets) ∧
    (∃ (k i : Nat) (s : State), blockWf k i = true ∧ (k, i) ∉ s.integ.blockResets) ∧
    (∃ (t : Nat) (s : State),
      t < Config.tiles ∧ s.firmwareRuns = true ∧ (s.tile t).inReset = 1) ∧
    (∃ (k : Nat) (i : Nat) (ts : List Nat) (s : State),
      ts = (resetTiles k i).filter (fun t => (s.tile t).inReset == k + 1) ∧ blockWf k i = true ∧
        s.firmwareRuns = true ∧ ts ≠ []) ∧
    (∃ (k : Nat) (i : Nat) (ts : List Nat) (s : State),
      ts = (resetTiles k i).filter (fun t => (s.tile t).inReset == k + 1) ∧ ts = [] ∧ blockWf k i = true ∧
        s.firmwareRuns = true) :=
  ⟨⟨1, { up with
      integ := { up.integ with
        blockResets := [(2, 1)] } }, by decide +kernel⟩,
    ⟨11, { up with
      integ := { up.integ with
        blockResets := [(3, 11)] } }, by decide +kernel⟩,
    ⟨10559, { up with
      integ := { up.integ with
        blockResets := [(0, 10559)] } }, by decide +kernel⟩,
    ⟨159, { up with
      integ := { up.integ with
        blockResets := [(1, 159)] } }, by decide +kernel⟩,
    ⟨3, 11, up, by decide +kernel⟩,
    ⟨10559, { up with
      tiles := [(10559, { inReset := 1 })] }, by decide +kernel⟩,
    ⟨1, 159, _, { up with
      tiles := [(10559, { inReset := 2 })] }, rfl, by decide +kernel⟩,
    ⟨3, 11, _, up, rfl, rfl, by decide +kernel⟩⟩

theorem witness_PowerLossAndColdReset :
    (∃ (s : State),
      s.pwr.powerGood = true) ∧
    (∃ (s : State),
      s.pwr.powerGood = false ∧ s.pwr.perst = false ∧ s.pwr.sysRst = false) :=
  ⟨⟨up, by decide +kernel⟩,
    ⟨State.reset, by decide +kernel⟩⟩

theorem witness_PowerCapAndControl :
    (∃ (e : Entry) (s : State),
      Begins e 0x60 false s ∧ 500 ≤ e.op 8 2 ∧ e.op 8 2 ≤ 1350) ∧
    (∃ (e : Entry) (s : State),
      Begins e 0x60 false s ∧ (e.op 8 2 < 500 ∨ 1350 < e.op 8 2)) ∧
    (∃ (e : Entry) (s : State),
      Begins e 0x61 false s ∧ 2 ≤ e.op 8 1 ∧ e.op 8 1 ≤ 10 ∧ 2 ≤ e.op 9 1 ∧ e.op 9 1 ≤ 10) ∧
    (∃ (e : Entry) (s : State),
      Begins e 0x61 false s ∧ (e.op 8 1 < 2 ∨ 10 < e.op 8 1 ∨ e.op 9 1 < 2 ∨ 10 < e.op 9 1)) ∧
    (∃ (d : Nat) (p : Nat) (s : State),
      s.pwr.powerGood = true ∧ s.pwr.allStopped = false ∧ s.packagePower d = p) ∧
    (∃ (b : Blocked) (s : State),
      b = (List.range 64).foldl (Blocked.cycle (min 60 (max (max (64 - s.pwr.ceiling) s.pwr.capDemand) s.pwr.throttleDemand + min s.pwr.debt 16))) { state := { s with pwr := { s.pwr with target := min 60 (max (max (64 - s.pwr.ceiling) s.pwr.capDemand) s.pwr.throttleDemand + min s.pwr.debt 16), debt := s.pwr.debt - (min 60 (max (max (64 - s.pwr.ceiling) s.pwr.capDemand) s.pwr.throttleDemand + min s.pwr.debt 16) - max (max (64 - s.pwr.ceiling) s.pwr.capDemand) s.pwr.throttleDemand) } } } ∧
        s.pwr.powerGood = true ∧ s.pwr.allStopped = false ∧ s.pwr.stageStopped = false ∧ s.openStep? = none) ∧
    (∃ (s : State),
      s.pwr.powerGood = true ∧ s.pwr.allStopped = false ∧ s.pwr.stageStopped = true) ∧
    (∃ (s : State),
      s.pwr.powerGood = true ∧ s.pwr.allStopped = false ∧ s.deviceIdle = true) ∧
    (∃ (s : State),
      s.pwr.powerGood = true ∧ s.pwr.allStopped = false ∧ s.deviceIdle = false) :=
  ⟨⟨ent 0x60 [(8, 2, 1350)], live (ent 0x60 [(8, 2, 1350)]), begins_of (by decide +kernel), by decide +kernel⟩,
    ⟨ent 0x60 [(8, 2, 499)], live (ent 0x60 [(8, 2, 499)]), begins_of (by decide +kernel), by decide +kernel⟩,
    ⟨ent 0x61 [(8, 1, 10), (9, 1, 2)], live (ent 0x61 [(8, 1, 10), (9, 1, 2)]), begins_of (by decide +kernel), by decide +kernel⟩,
    ⟨ent 0x61 [(8, 1, 11), (9, 1, 2)], live (ent 0x61 [(8, 1, 11), (9, 1, 2)]), begins_of (by decide +kernel), by decide +kernel⟩,
    ⟨0, 0, up, by decide +kernel⟩,
    ⟨_, up, rfl, by decide +kernel⟩,
    ⟨{ up with
      pwr := { up.pwr with
        stageStopped := true } }, by decide +kernel⟩,
    ⟨up, by decide +kernel⟩,
    ⟨{ up with
      prm := { up.prm with
        scenes := [scene0] } }, by decide +kernel⟩⟩

theorem witness_TuningAndStepChanges :
    (∃ (e : Entry) (s : State),
      Begins e 0x54 false s ∧ e.op 8 1 = 0 ∧ e.op 10 2 ≤ 159 ∧ e.op 12 1 ≤ 4 ∧ e.op 16 4 = s.fabric.epoch ∧
        s.regulatorFor s.pwr.step (trimsWith s.pwr.rowTrims (e.op 10 2) (e.op 12 1)) ≤ 850 ∧ s.pwr.change = none ∧
        s.pwr.avsFaults = [] ∧ e.op 12 1 ≠ s.rowTrim (e.op 10 2)) ∧
    (∃ (e : Entry) (s : State),
      Begins e 0x54 false s ∧ e.op 8 1 = 1 ∧ e.op 12 1 ≤ 3 ∧ e.op 16 4 = s.fabric.epoch ∧
        s.regulatorFor (e.op 12 1) s.pwr.rowTrims ≤ 850 ∧ s.pwr.change = none ∧ s.pwr.avsFaults = [] ∧
        e.op 12 1 ≠ s.pwr.step) ∧
    (∃ (e : Entry) (s : State),
      Begins e 0x54 false s ∧ e.op 8 1 = 1 ∧ e.op 12 1 ≤ 3 ∧ e.op 16 4 ≠ s.fabric.epoch) ∧
    (∃ (v : Nat) (j : Option Nat) (s : State),
      s.pwr.change = some (v, .waiting, j) ∧ s.pwr.powerGood = true ∧ s.pwr.allStopped = false ∧
        s.openStep? = none ∧ v < s.pwr.step) ∧
    (∃ (v : Nat) (j : Option Nat) (s : State),
      s.pwr.change = some (v, .waiting, j) ∧ s.pwr.powerGood = true ∧ s.pwr.allStopped = false ∧
        s.openStep? = none ∧ s.pwr.step ≤ v) ∧
    (∃ (v : Nat) (j : Option Nat) (s : State),
      s.pwr.change = some (v, .voltage, j) ∧ s.pwr.powerGood = true ∧ s.pwr.allStopped = false ∧ s.pwr.step ≠ v) ∧
    (∃ (v : Nat) (j : Option Nat) (u : State) (w : State) (s : State),
      u = (({ s.runSwitch with pwr := { s.runSwitch.pwr with step := v } }.runCycles 2).dropCause 2).runCycles 2 ∧
        w = (if j.isSome then ((u.setReg 0x80020 (min 0xFFFF (u.reg 0x80020 + 1))).writeTuning v).tuneRecord true false 0 s.pwr.step v else (u.setReg 0x80020 (min 0xFFFF (u.reg 0x80020 + 1))).writeTuning v).ledgerSettle ∧
        s.pwr.change = some (v, .switching, j) ∧ s.pwr.powerGood = true ∧ s.pwr.allStopped = false ∧
        s.pwr.stageStopped = false ∧ v < s.pwr.step) ∧
    (∃ (v : Nat) (j : Option Nat) (u : State) (w : State) (s : State),
      u = (({ s.runSwitch with pwr := { s.runSwitch.pwr with step := v } }.runCycles 2).dropCause 2).runCycles 2 ∧
        w = (if j.isSome then ((u.setReg 0x80020 (min 0xFFFF (u.reg 0x80020 + 1))).writeTuning v).tuneRecord true false 0 s.pwr.step v else (u.setReg 0x80020 (min 0xFFFF (u.reg 0x80020 + 1))).writeTuning v).ledgerSettle ∧
        s.pwr.change = some (v, .switching, j) ∧ s.pwr.powerGood = true ∧ s.pwr.allStopped = false ∧
        s.pwr.stageStopped = false ∧ s.pwr.step ≤ v ∧ w.pwr.avsFaults = []) ∧
    (∃ (v : Nat) (j : Option Nat) (u : State) (w : State) (s : State),
      u = (({ s.runSwitch with pwr := { s.runSwitch.pwr with step := v } }.runCycles 2).dropCause 2).runCycles 2 ∧
        w = (if j.isSome then ((u.setReg 0x80020 (min 0xFFFF (u.reg 0x80020 + 1))).writeTuning v).tuneRecord true false 0 s.pwr.step v else (u.setReg 0x80020 (min 0xFFFF (u.reg 0x80020 + 1))).writeTuning v).ledgerSettle ∧
        s.pwr.change = some (v, .switching, j) ∧ s.pwr.powerGood = true ∧ s.pwr.allStopped = false ∧
        s.pwr.stageStopped = false ∧ s.pwr.step ≤ v ∧ w.pwr.avsFaults ≠ []) ∧
    (∃ (s : State),
      s.pwr.stageStopped = true) :=
  ⟨⟨ent 0x54 [(10, 2, 159), (12, 1, 4)], live (ent 0x54 [(10, 2, 159), (12, 1, 4)]), begins_of (by decide +kernel), by decide +kernel⟩,
    ⟨ent 0x54 [(8, 1, 1), (12, 1, 3)], live (ent 0x54 [(8, 1, 1), (12, 1, 3)]), begins_of (by decide +kernel), by decide +kernel⟩,
    ⟨ent 0x54 [(8, 1, 1), (12, 1, 3), (16, 4, 1)], live (ent 0x54 [(8, 1, 1), (12, 1, 3), (16, 4, 1)]), begins_of (by decide +kernel), by decide +kernel⟩,
    ⟨0, none, { up with
      pwr := { up.pwr with
        step := 1, change := some (0, .waiting, none) } }, by decide +kernel⟩,
    ⟨3, none, { up with
      pwr := { up.pwr with
        change := some (3, .waiting, none) } }, by decide +kernel⟩,
    ⟨3, none, { up with
      pwr := { up.pwr with
        change := some (3, .voltage, none) } }, by decide +kernel⟩,
    ⟨0, none, _, _, { up with
      pwr := { up.pwr with
        step := 1, change := some (0, .switching, none) } }, rfl, rfl, by decide +kernel⟩,
    ⟨3, none, _, _, { up with
      pwr := { up.pwr with
        step := 0, change := some (3, .switching, none) } }, rfl, rfl, by decide +kernel⟩,
    ⟨3, none, _, _, { up with
      pwr := { up.pwr with
        step := 0, change := some (3, .switching, none), avsFaults := [7] } }, rfl, rfl, by decide +kernel⟩,
    ⟨{ up with
      pwr := { up.pwr with
        stageStopped := true } }, by decide +kernel⟩⟩

theorem witness_FailuresStopTheStageClock :
    (∃ (s : State),
      s.pwr.powerGood = true ∧ s.pwr.allStopped = false ∧ s.pwr.pllLocked = true) ∧
    (∃ (rail : Nat) (s : State),
      rail < 8 ∧ s.pwr.powerGood = true ∧ s.pwr.allStopped = false ∧ s.pwr.change = none) ∧
    (∃ (mw : List Nat) (s : State),
      mw.length = 8 ∧ s.pwr.powerGood = true ∧ s.pwr.allStopped = false) ∧
    (∃ (s : State),
      s.pwr.coolantOk = true ∧ s.pwr.powerGood = true ∧ s.pwr.allStopped = false) ∧
    (∃ (s : State),
      s.pwr.coolantOk = false ∧ s.pwr.powerGood = true ∧ s.pwr.allStopped = false ∧ s.pwr.pllLocked = true ∧
        s.integ.fatalStop = false ∧ s.boot.stopped = false) ∧
    (∃ (s : State),
      s.pwr.coolantOk = false ∧ s.pwr.powerGood = true ∧ s.pwr.allStopped = false ∧ s.boot.stopped = true) :=
  ⟨⟨up, by decide +kernel⟩,
    ⟨7, up, by decide +kernel⟩,
    ⟨List.replicate 8 100000, up, by decide +kernel⟩,
    ⟨{ up with
      pwr := { up.pwr with
        coolantOk := true } }, by decide +kernel⟩,
    ⟨up, by decide +kernel⟩,
    ⟨{ up with
      boot := { up.boot with
        stopped := true } }, by decide +kernel⟩⟩

theorem witness_AgeColumnByServiceHours : ∃ (h : Nat) (s : State),
      s.pwr.powerGood = true ∧ s.pwr.allStopped = false ∧ s.firmwareRuns = true ∧ s.pwr.hours ≤ h ∧
        s.pwr.avsFaults = [] ∧ ageColumnOf h ≠ s.pwr.ageColumn :=
  ⟨43800, up, by decide +kernel⟩

theorem witness_DroopHoldsUntilRecovery :
    (∃ (row : Nat) (s : State),
      row < 160 ∧ s.pwr.powerGood = true ∧ s.pwr.allStopped = false ∧ s.pwr.droopRaised = some s.integ.clock) ∧
    (∃ (s : State),
      s.pwr.powerGood = true ∧ s.pwr.allStopped = false ∧ s.pwr.rerunsLeft = 0) ∧
    (∃ (s : State),
      s.pwr.powerGood = true ∧ s.pwr.allStopped = false ∧ s.pwr.rerunsLeft ≠ 0) :=
  ⟨⟨159, { up with
      pwr := { up.pwr with
        droopRaised := some 0 } }, by decide +kernel⟩,
    ⟨up, by decide +kernel⟩,
    ⟨{ up with
      pwr := { up.pwr with
        rerunsLeft := 1 } }, by decide +kernel⟩⟩

theorem witness_HousekeepingAndThrottle :
    (∃ (half : Nat) (codes : List Nat) (s : State),
      half < 2 ∧ s.pwr.powerGood = true ∧ s.pwr.allStopped = false ∧ codes.length = 64) ∧
    (∃ (temps : List Int) (s : State),
      s.pwr.powerGood = true ∧ s.pwr.allStopped = false ∧ temps.length = 12 ∧ (∀ x ∈ temps, x < 85 * 16) ∧
        s.pwr.hbmWarn = false ∧ s.pwr.hbmThrottle = false ∧ s.pwr.overShutdown = []) ∧
    (∃ (l : Nat) (s : State),
      s.pwr.throttle = some l ∧ s.pwr.powerGood = true ∧ s.pwr.allStopped = false ∧ 105 * 16 ≤ s.zoneReading true) ∧
    (∃ (s : State),
      s.pwr.powerGood = true ∧ s.pwr.allStopped = false ∧ s.pwr.shutdownDue = true) ∧
    (∃ (half : Nat) (v : Word) (s : State),
      half < 2 ∧ Nat.testBit v.toNat 31 = true ∧ bitsOf v.toNat 27 1 = 1 ∧ (Map.getD s.hkm half {}).injActive = 0) ∧
    (∃ (half : Nat) (s : State),
      half < 2 ∧ s.pwr.powerGood = true ∧ s.pwr.allStopped = false ∧ (Map.getD s.hkm half {}).injActive ≠ 0) :=
  ⟨⟨1, List.replicate 64 512, up, by decide +kernel⟩,
    ⟨List.replicate 12 1359, up, by decide +kernel⟩,
    ⟨0, { up with
      pwr := { up.pwr with
        throttle := some 0 }
      regs := [(0x00080030, 110100480)] }, by decide +kernel⟩,
    ⟨{ up with
      pwr := { up.pwr with
        shutdownDue := true } }, by decide +kernel⟩,
    ⟨1, 0x88000000, up, by decide +kernel⟩,
    ⟨1, { up with
      hkm := [(1, { injActive := 1 })] }, by decide +kernel⟩⟩

theorem witness_ProductionCommandsTakeACopyIn :
    (∃ (e : Entry) (x : ManifestIn) (m : Manifest) (fs : List Nat) (u v s : State),
      v = (if e.op 20 2 = 0xFFFF then s.begun e else (s.begun e).remoteRead (e.op 20 2) (e.op 8 8) (e.op 16 4) (e.op 24 4) true) ∧
        m = v.envelopeOf (readManifest x) ∧ Begins e 0x10 (e.op 20 2 == 0xFFFF) s ∧ s.ldr.state = .idle ∧
        s.ldr.bootVerified = true ∧ transferOk e 8 20 = true ∧ (e.op 20 2 = 0xFFFF ∨ s.qpUsable (e.op 20 2) = true) ∧
        m.wf (e.op 24 4) = true ∧ v.epochClash m.epoch m.identity = false ∧ v.takeCopyFrames m.copyFrames = some (fs, u)) ∧
    (∃ (e : Entry) (c : Copy) (wanted : List Nat) (xs : List SegArrival) (r : FetchRun) (u v s : State),
      wanted = ((List.range (e.op 26 2)).map (e.op 24 2 + ·)).filter (fun g => !has c.accepted g) ∧
        r = (xs.filter (fun x => has wanted x.seg)).foldl FetchRun.take { state := v } ∧
        u = (if (r.state.ldr.current.map (fun c => decide (c.accepted.length = c.man.segments.length))).getD false then
          r.state.copyComplete.proceed else r.state) ∧
        v = s.begun e ∧ Begins e 0x12 true s ∧ s.ldr.state = .opened ∧ s.ldr.current = some c ∧ 1 ≤ e.op 26 2 ∧
        e.op 24 2 + e.op 26 2 ≤ c.man.segments.length ∧
        (∀ g ∈ wanted, ((c.man.segments[g]?).map (fun x => x.encrypted && (Map.get? c.keys x.keySlot).isNone)).getD false = false) ∧
        e.op 8 8 % 64 = 0) ∧
    (∃ (e : Entry) (c : Copy) (wanted : List Nat) (xs : List SegArrival) (r : FetchRun) (u v s : State),
      wanted = ((List.range (e.op 26 2)).map (e.op 24 2 + ·)).filter (fun g => !has c.accepted g) ∧
        r = (xs.filter (fun x => has wanted x.seg)).foldl FetchRun.take { state := v } ∧
        u = (if (r.state.ldr.current.map (fun c => decide (c.accepted.length = c.man.segments.length))).getD false then
          r.state.copyComplete.proceed else r.state) ∧
        v = (s.begun e).remoteRead (e.op 20 2) (e.op 8 8) (e.op 16 4)
          ((List.range (e.op 26 2)).map (fun i => ((c.man.segments[e.op 24 2 + i]?).map (fun x => x.stored)).getD 0)).sum true ∧
        Begins e 0x11 false s ∧ s.ldr.state = .opened ∧ s.ldr.current = some c ∧ 1 ≤ e.op 26 2 ∧
        e.op 24 2 + e.op 26 2 ≤ c.man.segments.length ∧
        (∀ g ∈ wanted, ((c.man.segments[g]?).map (fun x => x.encrypted && (Map.get? c.keys x.keySlot).isNone)).getD false = false) ∧
        e.op 20 2 ≠ 0xFFFF ∧ s.qpUsable (e.op 20 2) = true) ∧
    (∃ (r : FetchRun) (c : Copy) (x : SegArrival),
      r.state.ldr.current = some c ∧ has c.accepted x.seg = false ∧
        (checkArrival c.man x (c.opened x).1 (c.opened x).2).accepted = true) ∧
    (∃ (r : FetchRun) (c : Copy) (x : SegArrival),
      r.state.ldr.current = some c ∧ has c.accepted x.seg = false ∧
        (checkArrival c.man x (c.opened x).1 (c.opened x).2).accepted = false) ∧
    (∃ (e : Entry) (c : Copy) (b : List Byte) (s : State),
      Begins e 0x16 true s ∧ s.ldr.current = some c ∧ s.ldr.state ≠ .sealing ∧ e.op 8 8 % 64 = 0 ∧
        fieldAt b 0 1 < 16 ∧ fieldAt b 1 3 = 0 ∧ fieldAt b 100 28 = 0 ∧ Map.get? c.keys (fieldAt b 0 1) = none) ∧
    (∃ (e : Entry) (s : State),
      Begins e 0x15 false s ∧ s.ldr.sealRun.isSome = true) ∧
    (∃ (e : Entry) (s : State) (r : Recast) (o : Copy),
      Begins e 0x15 false s ∧ s.ldr.sealRun = none ∧ s.ldr.recast = some r ∧ s.ldr.old = some o) ∧
    (∃ (e : Entry) (s : State) (r : Recast),
      Begins e 0x15 false s ∧ s.ldr.sealRun = none ∧ s.ldr.recast = some r ∧ s.ldr.old = none) ∧
    (∃ (e : Entry) (s : State) (c : Copy),
      Begins e 0x15 false s ∧ s.ldr.sealRun = none ∧ s.ldr.recast = none ∧ s.ldr.current = some c ∧
        s.ldr.refill = []) ∧
    (∃ (e : Entry) (s : State),
      Begins e 0x15 false s ∧ s.ldr.sealRun = none ∧ s.ldr.recast = none ∧ s.ldr.current = none) :=
  ⟨(by
      obtain ⟨p, hp⟩ := Option.isSome_iff_exists.mp (show ((State.begun ({ (live (ent 0x10 [(8, 8, 64), (20, 2, 0xFFFF), (24, 4, 512)])) with
      ldr := { (live (ent 0x10 [(8, 8, 64), (20, 2, 0xFFFF), (24, 4, 512)])).ldr with
        bootVerified := true }
      kv := { (live (ent 0x10 [(8, 8, 64), (20, 2, 0xFFFF), (24, 4, 512)])).kv with
        laidOut := true } }) (ent 0x10 [(8, 8, 64), (20, 2, 0xFFFF), (24, 4, 512)])).takeCopyFrames (readManifest manIn).copyFrames).isSome = true
        by decide +kernel)
      exact ⟨ent 0x10 [(8, 8, 64), (20, 2, 0xFFFF), (24, 4, 512)], manIn, readManifest manIn, p.1, p.2, _, { (live (ent 0x10 [(8, 8, 64), (20, 2, 0xFFFF), (24, 4, 512)])) with
      ldr := { (live (ent 0x10 [(8, 8, 64), (20, 2, 0xFFFF), (24, 4, 512)])).ldr with
        bootVerified := true }
      kv := { (live (ent 0x10 [(8, 8, 64), (20, 2, 0xFFFF), (24, 4, 512)])).kv with
        laidOut := true } }, rfl, by decide +kernel, begins_of (by decide +kernel), by decide +kernel, by decide +kernel, by decide +kernel,
        by decide +kernel, by decide +kernel, by decide +kernel, hp⟩),
    ⟨ent 0x12 [(8, 8, 64), (26, 2, 1)], copy0, _, [], _, _, _, { (live (ent 0x12 [(8, 8, 64), (26, 2, 1)])) with
      ldr := { (live (ent 0x12 [(8, 8, 64), (26, 2, 1)])).ldr with
        state := .opened, current := some copy0 } }, rfl, rfl, rfl, rfl, begins_of (by decide +kernel), by decide +kernel⟩,
    ⟨ent 0x11 [(26, 2, 1), (20, 2, 4095)], copy0, _, [], _, _, _, { (live (ent 0x11 [(26, 2, 1), (20, 2, 4095)])) with
      ldr := { (live (ent 0x11 [(26, 2, 1), (20, 2, 4095)])).ldr with
        state := .opened, current := some copy0 }
      net := { (live (ent 0x11 [(26, 2, 1), (20, 2, 4095)])).net with
        qps := [(4095, qp0)] } }, rfl, rfl, rfl, rfl, begins_of (by decide +kernel), by decide +kernel⟩,
    ⟨{ state := { up with
      ldr := { up.ldr with
        current := some { copy0 with
 man := { man0 with
 segments := [{ stored := 64, digest := shake32 seg1, encrypted := false, keySlot := 0, tensor := 0, firstGroup := 0, iv := [] }] } } } } }, { copy0 with
 man := { man0 with
 segments := [{ stored := 64, digest := shake32 seg1, encrypted := false, keySlot := 0, tensor := 0, firstGroup := 0, iv := [] }] } }, { seg := 0, stored := seg1 }, by decide +kernel⟩,
    ⟨{ state := { up with
      ldr := { up.ldr with
        current := some copy0 } } }, copy0, { seg := 0, stored := [] }, by decide +kernel⟩,
    ⟨ent 0x16 [(8, 8, 64)], copy0, List.replicate 128 0, { (live (ent 0x16 [(8, 8, 64)])) with
      ldr := { (live (ent 0x16 [(8, 8, 64)])).ldr with
        state := .opened, current := some copy0 } }, begins_of (by decide +kernel), by decide +kernel⟩,
    ⟨ent 0x15, { (live (ent 0x15)) with
      ldr := { (live (ent 0x15)).ldr with
        sealRun := some { copy := copy0, sheet := sheet0, job := 0, drainMs := 0, draining := true, full := true, left := [] } } }, begins_of (by decide +kernel), by decide +kernel⟩,
    ⟨ent 0x15, { (live (ent 0x15)) with
      ldr := { (live (ent 0x15)).ldr with
        recast := some { copy := copy0, todo := [] }, old := some copy0 } }, { copy := copy0, todo := [] }, copy0, begins_of (by decide +kernel), by decide +kernel⟩,
    ⟨ent 0x15, { (live (ent 0x15)) with
      ldr := { (live (ent 0x15)).ldr with
        recast := some { copy := copy0, todo := [] } } }, { copy := copy0, todo := [] }, begins_of (by decide +kernel), by decide +kernel⟩,
    ⟨ent 0x15, { (live (ent 0x15)) with
      ldr := { (live (ent 0x15)).ldr with
        state := .opened, current := some copy0 } }, copy0, begins_of (by decide +kernel), by decide +kernel⟩,
    ⟨ent 0x15, live (ent 0x15), begins_of (by decide +kernel), by decide +kernel⟩⟩

/-- A state in which a production is STAGED under a loaded cue sheet, its group in HBM. -/
def staged (e : Entry) (sheet : CueSheet) : State :=
  { live e with
    kv := { (live e).kv with hbm := seg1Hbm }
    ldr := { (live e).ldr with state := .staged, bootVerified := true, current := some { copy0 with accepted := [0] } }
    fabric := { (live e).fabric with loaded := some sheet } }

theorem witness_SealDrainsAndRollingRecastServes :
    (∃ (e : Entry) (c : Copy) (sheet : CueSheet) (full : Bool) (u : State) (s : State),
      Begins e 0x13 false s ∧ full = s.fabric.active.isSome ∧
        u = { (s.begun e).addJob e.ring e.tag .production with ldr := { s.ldr with state := .sealing, sealRun := some { copy := c, sheet := sheet, job := s.mbx.nextJob, drainMs := e.op 8 4, draining := full, full := full, left := [] } } } ∧
        full = true ∧ s.ldr.bootVerified = true ∧ e.op 8 4 ≤ 600000 ∧ s.ldr.state = .staged ∧ s.ldr.current = some c ∧
        s.fabric.loaded = some sheet ∧ sheet.identity = c.man.identity ∧ sheet.epoch = c.man.epoch ∧
        s.ldr.recast = none ∧ s.ldr.old = none ∧ (s.begun e).sealFail c sheet = none) ∧
    (∃ (e : Entry) (c : Copy) (sheet : CueSheet) (full : Bool) (u : State) (s : State),
      Begins e 0x13 false s ∧ full = s.fabric.active.isSome ∧
        u = { (s.begun e).addJob e.ring e.tag .production with ldr := { s.ldr with state := .sealing, sealRun := some { copy := c, sheet := sheet, job := s.mbx.nextJob, drainMs := e.op 8 4, draining := full, full := full, left := [] } } } ∧
        full = false ∧ s.ldr.bootVerified = true ∧ e.op 8 4 ≤ 600000 ∧ s.ldr.state = .staged ∧
        s.ldr.current = some c ∧ s.fabric.loaded = some sheet ∧ sheet.identity = c.man.identity ∧
        sheet.epoch = c.man.epoch ∧ s.ldr.recast = none ∧ s.ldr.old = none ∧ (s.begun e).sealFail c sheet = none) ∧
    (∃ (e : Entry) (c : Copy) (sheet : CueSheet) (code : Nat) (i : Nat) (s : State),
      Begins e 0x13 false s ∧ s.ldr.bootVerified = true ∧ e.op 8 4 ≤ 600000 ∧ s.ldr.state = .staged ∧
        s.ldr.current = some c ∧ s.fabric.loaded = some sheet ∧ sheet.identity = c.man.identity ∧
        sheet.epoch = c.man.epoch ∧ s.ldr.recast = none ∧ s.ldr.old = none ∧
        (s.begun e).sealFail c sheet = some (code, i)) ∧
    (∃ (e : Entry) (c : Copy) (sheet : CueSheet) (s : State),
      Begins e 0x14 false s ∧ s.ldr.bootVerified = true ∧ e.op 8 4 ≤ 294912 ∧ s.ldr.state = .staged ∧
        s.ldr.current = some c ∧ s.fabric.loaded = some sheet ∧ sheet.identity = c.man.identity ∧
        sheet.epoch = c.man.epoch ∧ c.man.tromal = false ∧ (∀ p ∈ sheet.placements, p.reversed = false) ∧
        s.recasting = false ∧ s.ldr.old = none ∧ s.fabric.active = none) ∧
    (∃ (e : Entry) (c : Copy) (sheet : CueSheet) (s : State) (a : CueSheet),
      Begins e 0x14 false s ∧ s.ldr.bootVerified = true ∧ e.op 8 4 ≤ 294912 ∧ s.ldr.state = .staged ∧
        s.ldr.current = some c ∧ s.fabric.loaded = some sheet ∧ sheet.identity = c.man.identity ∧
        sheet.epoch = c.man.epoch ∧ c.man.tromal = false ∧ (∀ p ∈ sheet.placements, p.reversed = false) ∧
        s.recasting = false ∧ s.ldr.old = none ∧
        s.fabric.active = some a ∧ sameBody sheet a = true ∧
        (∀ o, s.ldr.serving = some o → shapeFail o.man c.man = none)) ∧
    (∃ (r : SealRun) (s : State),
      s.ldr.sealRun = some r ∧ r.draining = true ∧ s.prm.pointerDue = none ∧ s.prm.scenes = [] ∧
        s.prm.seqs.all (fun x => decide (x.2.epoch = r.copy.man.epoch) || decide (x.2.state = .paused)) = true) ∧
    (∃ (e : Entry) (s : State),
      Begins e 0x14 false s ∧ s.ldr.bootVerified = true ∧ e.op 8 4 ≤ 294912 ∧ s.ldr.state = .sealing) ∧
    (∃ (e : Entry) (s : State),
      Begins e 0x14 false s ∧ s.ldr.bootVerified = true ∧ e.op 8 4 ≤ 294912 ∧ s.ldr.state = .staged ∧ s.ldr.old.isSome = true) ∧
    (∃ (s : State),
      s.ldr.sealRun = none) :=
  ⟨⟨ent 0x13 [(8, 4, 600000)], { copy0 with accepted := [0] }, sheet0, _, _, { staged (ent 0x13 [(8, 4, 600000)]) sheet0 with
      fabric := { (staged (ent 0x13 [(8, 4, 600000)]) sheet0).fabric with
        active := some sheet0 } }, begins_of (by decide +kernel), rfl, rfl, rfl, by decide +kernel⟩,
    ⟨ent 0x13 [(8, 4, 600000)], { copy0 with accepted := [0] }, sheet0, _, _, staged (ent 0x13 [(8, 4, 600000)]) sheet0,
      begins_of (by decide +kernel), rfl, rfl, rfl, by decide +kernel⟩,
    ⟨ent 0x13 [(8, 4, 600000)], { copy0 with accepted := [0] }, { sheet0 with placements := [{ place1 with tensor := 8192 }] }, 5, 10558,
      staged (ent 0x13 [(8, 4, 600000)]) { sheet0 with placements := [{ place1 with tensor := 8192 }] },
      begins_of (by decide +kernel), by decide +kernel⟩,
    ⟨ent 0x14 [(8, 4, 294912)], { copy0 with accepted := [0] }, sheet0, staged (ent 0x14 [(8, 4, 294912)]) sheet0,
      begins_of (by decide +kernel), by decide +kernel⟩,
    ⟨ent 0x14 [(8, 4, 294912)], { copy0 with accepted := [0] }, sheet0, { staged (ent 0x14 [(8, 4, 294912)]) sheet0 with
      fabric := { (staged (ent 0x14 [(8, 4, 294912)]) sheet0).fabric with
        active := some sheet0 } }, sheet0, begins_of (by decide +kernel), by decide +kernel⟩,
    ⟨{ copy := copy0, sheet := sheet0, job := 0, drainMs := 0, draining := true, full := true, left := [] }, { up with
      ldr := { up.ldr with
        sealRun := some { copy := copy0, sheet := sheet0, job := 0, drainMs := 0, draining := true, full := true, left := [] } } }, by decide +kernel⟩,
    ⟨ent 0x14 [(8, 4, 294912)], { live (ent 0x14 [(8, 4, 294912)]) with
      ldr := { state := .sealing, bootVerified := true } }, begins_of (by decide +kernel), by decide +kernel⟩,
    ⟨ent 0x14 [(8, 4, 294912)], { live (ent 0x14 [(8, 4, 294912)]) with
      ldr := { state := .staged, bootVerified := true, old := some copy0 } }, begins_of (by decide +kernel), by decide +kernel⟩,
    ⟨up, by decide +kernel⟩⟩

theorem witness_ArraysAfterProgrammingAndAtBoot :
    (∃ (t a : Nat) (reads : List Nat) (p : Placement) (c : Copy) (x : Tensor) (u v s : State),
      u = s.modTile t (fun x => { x with programming := none }) ∧
        v = (u.tally true).journalWrite t a (fun g => { g with inProgress := false, valid := true }) ∧
        t < Config.tiles ∧ a < 8 ∧ (s.tile t).programming = some a ∧ u.target t a = some (p, c) ∧
        c.man.tensors[p.tensor]? = some x ∧
        (reads.take 2).any (fun d => d == ((u.gov t a).map (fun g => g.digest)).getD 0) = true) ∧
    (∃ (t a : Nat) (ok : Bool) (reads : List Nat) (p : Placement) (c : Copy) (x : Tensor) (u v w s : State),
      u = s.modTile t (fun x => { x with programming := none }) ∧
        v = (u.tally true).journalWrite t a (fun g => { g with inProgress := false, valid := false, failed := true }) ∧
        w = (((v.setValid t a false).leaveLeft t a).orReg 0xC0804 0x10).raise srcRecastVerify 1 t [] ∧
        t < Config.tiles ∧ a < 8 ∧ (s.tile t).programming = some a ∧ u.target t a = some (p, c) ∧
        c.man.tensors[p.tensor]? = some x ∧
        (ok = false ∨ (reads.take 2).any (fun d => d == ((u.gov t a).map (fun g => g.digest)).getD 0) = false)) ∧
    (∃ (a : Nat), a < 8) ∧
    (∃ (t : Nat) (a : Nat) (s : State),
      t < Config.tiles ∧ a < 8 ∧ (s.tile t).programming ≠ some a) ∧
    (∃ (s : State),
      s.ldr.bootVerified = false ∧ s.firmwareRuns = true ∧ s.ldr.journal = []) ∧
    (∃ (s : State),
      s.ldr.journal = [] ∧ s.tiles = []) :=
  ⟨⟨10558, 7, [0], place1, copy0, tensor0, _, _, { runs1 with
      tiles := [(10558, { programming := some 7 })]
      ldr := { runs1.ldr with
        serving := some copy0 } }, rfl, rfl, by decide +kernel⟩,
    ⟨10558, 7, false, [], place1, copy0, tensor0, _, _, _, { runs1 with
      tiles := [(10558, { programming := some 7 })]
      ldr := { runs1.ldr with
        serving := some copy0 } }, rfl, rfl, rfl, by decide +kernel⟩,
    ⟨7, by decide⟩,
    ⟨10559, 7, up, by decide +kernel⟩,
    ⟨up, by decide +kernel⟩,
    ⟨up, by decide +kernel⟩⟩

theorem witness_FirmwareStartsAndTakesPacks :
    (∃ (s : State),
      s.boot.fws = .verifying) ∧
    (∃ (s : State),
      s.boot.fws ≠ .verifying) ∧
    (∃ (s : State),
      s.firmwareRuns = true) ∧
    (∃ (s : State),
      s.firmwareRuns = false) ∧
    (∃ (e : Entry) (p : List Byte) (u : State) (s : State),
      Begins e 0x53 true s ∧ u = (s.begun e).dmaRead e.tag p ∧ e.op 8 8 % 64 = 0 ∧ packOk p = true ∧
        fieldAt p 8 4 ≤ e.op 24 4) ∧
    (∃ (e : Entry) (p : List Byte) (s : State),
      Begins e 0x53 true s ∧ e.op 8 8 % 64 = 0 ∧ (packOk p = false ∨ e.op 24 4 < fieldAt p 8 4)) ∧
    (∃ (v d : Nat) (bs : List Byte) (s : State),
      s.boot.installing = some (v, d, bs) ∧ s.hasJob (fun k => k == .patternInstall v) = true ∧ memWf s.boot.flash = true) :=
  ⟨⟨{ up with
      boot := { up.boot with
        fws := .verifying } }, by decide +kernel⟩,
    ⟨up, by decide +kernel⟩,
    ⟨up, by decide +kernel⟩,
    ⟨State.reset, by decide +kernel⟩,
    ⟨ent 0x53 [(8, 8, 64), (24, 4, 370)], patch (List.replicate 370 0) [(0, 4, 0x50535146), (4, 1, 0xB0), (8, 4, 370), (12, 4, 1)], _, live (ent 0x53 [(8, 8, 64), (24, 4, 370)]), begins_of (by decide +kernel), rfl, by decide +kernel⟩,
    ⟨ent 0x53 [(8, 8, 64), (24, 4, 369)], patch (List.replicate 370 0) [(0, 4, 0x50535146), (4, 1, 0xB0), (8, 4, 370), (12, 4, 1)], live (ent 0x53 [(8, 8, 64), (24, 4, 369)]), begins_of (by decide +kernel), by decide +kernel⟩,
    ⟨1, 2, [3], { up with
      boot := { up.boot with
        fws := .running, installing := some (1, 2, [3]) }
      mbx := { up.mbx with
        jobs := [{ id := 0, ring := 0, gen := 0, tag := 7, kind := .patternInstall 1 }] } }, by decide +kernel⟩⟩

theorem witness_CueSheetsLoadAndActivate :
    (∃ (e : Entry) (s : State),
      Begins e 0x20 (e.op 20 2 == 0xFFFF) s ∧ s.recasting = false ∧ transferOk e 8 20 = true ∧
        (e.op 20 2 = 0xFFFF ∨ s.qpUsable (e.op 20 2) = true)) ∧
    (∃ (e : Entry) (c : CueSheet) (s : State),
      Begins e 0x21 false s ∧ s.fabric.loaded = some c ∧ s.ldr.bootVerified = true ∧ s.recasting = false ∧
        s.hasJob (fun k => k == .activate) = false ∧ (c.identity, c.epoch) ∈ s.ldr.resident ∧ s.arraysValid c = true ∧
        (Nat.testBit c.flags 2 = false ∨ (s.groupFor c).isSome = true) ∧ s.prm.scenes = []) ∧
    (∃ (e : Entry) (c : CueSheet) (s : State),
      Begins e 0x21 false s ∧ s.fabric.loaded = some c ∧ s.ldr.bootVerified = true ∧ s.recasting = false ∧
        s.hasJob (fun k => k == .activate) = false ∧ (c.identity, c.epoch) ∈ s.ldr.resident ∧ s.arraysValid c = true ∧
        (Nat.testBit c.flags 2 = false ∨ (s.groupFor c).isSome = true) ∧ s.prm.scenes ≠ []) ∧
    (∃ (e : Entry) (s : State),
      Begins e 0x21 false s ∧ (s.ldr.bootVerified = false ∨ s.recasting = true)) ∧
    (∃ (e : Entry) (s : State),
      Begins e 0x21 false s ∧ s.ldr.bootVerified = true ∧ s.recasting = false ∧ s.fabric.loaded = none) :=
  ⟨⟨ent 0x20 [(8, 8, 64), (20, 2, 0xFFFF), (24, 8, 4096)], live (ent 0x20 [(8, 8, 64), (20, 2, 0xFFFF), (24, 8, 4096)]), begins_of (by decide +kernel), by decide +kernel⟩,
    ⟨ent 0x21, sheet0, { (live (ent 0x21)) with
      fabric := { (live (ent 0x21)).fabric with
        loaded := some sheet0 }
      ldr := { (live (ent 0x21)).ldr with
        bootVerified := true, resident := [(9, 1)] } }, begins_of (by decide +kernel), by decide +kernel⟩,
    ⟨ent 0x21, sheet0, { (live (ent 0x21)) with
      prm := { (live (ent 0x21)).prm with
        scenes := [scene0] }
      fabric := { (live (ent 0x21)).fabric with
        loaded := some sheet0 }
      ldr := { (live (ent 0x21)).ldr with
        bootVerified := true, resident := [(9, 1)] } }, begins_of (by decide +kernel), by decide +kernel⟩,
    ⟨ent 0x21, live (ent 0x21), begins_of (by decide +kernel), by decide +kernel⟩,
    ⟨ent 0x21, { live (ent 0x21) with ldr := { bootVerified := true } }, begins_of (by decide +kernel), by decide +kernel⟩⟩

theorem witness_FencesAndRestoresPlanCutovers :
    (∃ (e : Entry) (s : State),
      Begins e 0x50 false s ∧ e.op 8 2 < Config.tiles ∧ e.op 16 1 < 2 ∧ e.op 12 4 ≠ s.fabric.epoch) ∧
    (∃ (e : Entry) (s : State),
      Begins e 0x50 false s ∧ e.op 8 2 < Config.tiles ∧ e.op 16 1 < 2 ∧ e.op 12 4 = s.fabric.epoch ∧
        s.fenceBusy (e.op 8 2) = true) ∧
    (∃ (e : Entry) (s : State),
      Begins e 0x50 false s ∧ e.op 8 2 < Config.tiles ∧ e.op 16 1 < 2 ∧ e.op 12 4 = s.fabric.epoch ∧
        s.fenceBusy (e.op 8 2) = false ∧ (s.tile (e.op 8 2)).router.fenced = false ∧ s.rehearsing (e.op 8 2) = false ∧
        s.fabric.storeLost = false ∧ s.positionOf (e.op 8 2) = none) ∧
    (∃ (e : Entry) (s : State) (home : Nat),
      Begins e 0x50 false s ∧ e.op 8 2 < Config.tiles ∧ e.op 16 1 < 2 ∧ e.op 12 4 = s.fabric.epoch ∧
        s.fenceBusy (e.op 8 2) = false ∧ (s.tile (e.op 8 2)).router.fenced = false ∧ s.rehearsing (e.op 8 2) = false ∧
        s.fabric.storeLost = false ∧ s.positionOf (e.op 8 2) = some home ∧ s.chooseUnderstudy home = none) ∧
    (∃ (e : Entry) (s : State) (home : Nat) (u : Nat),
      Begins e 0x50 false s ∧ e.op 8 2 < Config.tiles ∧ e.op 16 1 < 2 ∧ e.op 12 4 = s.fabric.epoch ∧
        s.fenceBusy (e.op 8 2) = false ∧ (s.tile (e.op 8 2)).router.fenced = false ∧ s.rehearsing (e.op 8 2) = false ∧
        s.fabric.storeLost = false ∧ s.positionOf (e.op 8 2) = some home ∧ s.chooseUnderstudy home = some u) ∧
    (∃ (e : Entry) (s : State),
      Begins e 0x51 false s ∧ e.op 8 2 < Config.tiles ∧ (s.tile (e.op 8 2)).router.fenced = true ∧
        e.op 12 4 = s.fabric.epoch ∧ s.fenceBusy (e.op 8 2) = false ∧ s.rehearsing (e.op 8 2) = false ∧
        isUnderstudy (e.op 8 2) = true) ∧
    (∃ (e : Entry) (s : State),
      Begins e 0x51 false s ∧ e.op 8 2 < Config.tiles ∧ (s.tile (e.op 8 2)).router.fenced = true ∧
        e.op 12 4 = s.fabric.epoch ∧ s.fenceBusy (e.op 8 2) = false ∧ s.rehearsing (e.op 8 2) = false ∧
        isUnderstudy (e.op 8 2) = false ∧ (s.tile (e.op 8 2)).router.faulty = false) ∧
    (∃ (t : Nat),
      t < Config.tiles) ∧
    (∃ (row : Nat) (east : Bool) (x : Subst) (c : CueSheet) (s : State),
      row < Config.rows ∧ s.fabric.active = some c ∧ s.servesAs (row * 66 + (if east then 65 else 0)) = some x ∧
        x.streamed = true ∧ s.allServe c x.home (row * 66 + (if east then 65 else 0)) = false) ∧
    (∃ (row : Nat) (east : Bool) (x : Subst) (c : CueSheet) (s : State),
      row < Config.rows ∧ s.fabric.active = some c ∧ s.servesAs (row * 66 + (if east then 65 else 0)) = some x ∧
        x.streamed = true ∧ s.allServe c x.home (row * 66 + (if east then 65 else 0)) = true) :=
  ⟨⟨ent 0x50 [(8, 2, 10559), (16, 1, 1), (12, 4, 1)], live (ent 0x50 [(8, 2, 10559), (16, 1, 1), (12, 4, 1)]), begins_of (by decide +kernel), by decide +kernel⟩,
    ⟨ent 0x50 [(8, 2, 10559), (16, 1, 1)], { (live (ent 0x50 [(8, 2, 10559), (16, 1, 1)])) with
      mbx := { (live (ent 0x50 [(8, 2, 10559), (16, 1, 1)])).mbx with
        jobs := [{ id := 0, ring := 0, gen := 0, tag := 7, kind := .fence 10559 }] } }, begins_of (by decide +kernel), by decide +kernel⟩,
    ⟨ent 0x50 [(8, 2, 10559), (16, 1, 1)], live (ent 0x50 [(8, 2, 10559), (16, 1, 1)]), begins_of (by decide +kernel), by decide +kernel⟩,
    ⟨ent 0x50 [(8, 2, 10558), (16, 1, 1)], { (live (ent 0x50 [(8, 2, 10558), (16, 1, 1)])) with
      fabric := { (live (ent 0x50 [(8, 2, 10558), (16, 1, 1)])).fabric with
        unavailable := [10494, 10559] } }, 10558, begins_of (by decide +kernel), by decide +kernel⟩,
    ⟨ent 0x50 [(8, 2, 10558), (16, 1, 1)], live (ent 0x50 [(8, 2, 10558), (16, 1, 1)]), 10558, 10559, begins_of (by decide +kernel), by decide +kernel⟩,
    ⟨ent 0x51 [(8, 2, 10559)], { (live (ent 0x51 [(8, 2, 10559)])) with
      tiles := [(10559, { router := { fenced := true } })] }, begins_of (by decide +kernel), by decide +kernel⟩,
    ⟨ent 0x51 [(8, 2, 10558)], { (live (ent 0x51 [(8, 2, 10558)])) with
      tiles := [(10558, { router := { fenced := true } })] }, begins_of (by decide +kernel), by decide +kernel⟩,
    ⟨10559, by decide +kernel⟩,
    ⟨159, true, { home := 10558, under := 10559, bypass := false, streamed := true }, sheet1, { runs1 with
      fabric := { runs1.fabric with
        substs := [{ home := 10558, under := 10559, bypass := false, streamed := true }] } }, by decide +kernel⟩,
    ⟨159, true, { home := 10558, under := 10559, bypass := false, streamed := true }, sheet0, { up with
      fabric := { up.fabric with
        active := some sheet0
        substs := [{ home := 10558, under := 10559, bypass := false, streamed := true }] } }, by decide +kernel⟩⟩

set_option maxRecDepth 100000 in
theorem witness_SequenceCommandsByState :
    (∃ (e : Entry) (r : List Byte) (i : Nat) (s : State),
      Begins e 0x30 true s ∧ s.follower = false ∧ s.fabric.active.isSome = true ∧ e.op 8 8 % 64 = 0 ∧
        fieldAt (sliceBytes r 0 128) 124 4 = crc32c ((sliceBytes r 0 128).take 124) ∧
        admitOk s.model (sliceBytes r 0 128) = true ∧ s.freeEntry = some i ∧ fieldAt (sliceBytes r 0 128) 12 2 = 0xFFFF) ∧
    (∃ (i : Nat) (s : State), s.seq? i = none) ∧
    (∃ s : State, s.ownIndex ≠ some 0) ∧
    (∃ s : State, s.ownIndex = some 0) ∧
    (∃ (i : Nat) (q : Seq) (s : State), s.seq? i = some q) ∧
    (∃ (e : Entry) (q : Seq) (s : State),
      Begins e 0x32 false s ∧ s.follower = false ∧ s.seq? e.seqIndex = some q ∧ q.tag = e.seqTag ∧
        (q.state = .queued ∨ q.state = .prefill ∨ q.state = .decode ∨ q.state = .idle)) ∧
    (∃ (e : Entry) (q : Seq) (s : State),
      Begins e 0x33 false s ∧ s.follower = false ∧ s.seq? e.seqIndex = some q ∧ q.tag = e.seqTag ∧
        (q.state = .prefill ∨ q.state = .decode ∨ q.state = .idle) ∧ q.cancelPend = false ∧ q.pausePend = false ∧
        1 ≤ e.op 40 4 ∧ e.op 40 4 ≤ 86400 ∧ sourceOk (e.op 16 8) (e.op 28 2) = true ∧ s.net.ptpSet = true) ∧
    (∃ (e : Entry) (q : Seq) (s : State),
      Begins e 0x31 false s ∧ s.follower = false ∧ s.seq? e.seqIndex = some q ∧ q.tag = e.seqTag ∧ q.state = .idle ∧
        1 ≤ e.op 32 4 ∧
        q.append.foldl (fun k a => k + a.tokens.length) q.tokenLen + e.op 32 4 ≤ 4194305 ∧ e.op 36 4 ≤ 4194304 ∧
        ([e.op 40 4, e.op 44 4, e.op 48 4].all (stopOk s.model)) = true ∧ sourceOk (e.op 16 8) (e.op 28 2) = true ∧
        e.op 28 2 = 0xFFFF) ∧
    (∃ (e : Entry) (q : Seq) (s : State),
      Begins e 0x31 false s ∧ s.follower = false ∧ s.seq? e.seqIndex = some q ∧ q.tag = e.seqTag ∧ q.state = .idle ∧
        1 ≤ e.op 32 4 ∧
        q.append.foldl (fun k a => k + a.tokens.length) q.tokenLen + e.op 32 4 ≤ 4194305 ∧ e.op 36 4 ≤ 4194304 ∧
        ([e.op 40 4, e.op 44 4, e.op 48 4].all (stopOk s.model)) = true ∧ sourceOk (e.op 16 8) (e.op 28 2) = true ∧
        e.op 28 2 ≠ 0xFFFF ∧ s.qpUsable (e.op 28 2) = false) ∧
    (∃ (e : Entry) (q : Seq) (s : State),
      Begins e 0x31 false s ∧ s.follower = false ∧ s.seq? e.seqIndex = some q ∧ q.tag = e.seqTag ∧ q.state = .idle ∧
        1 ≤ e.op 32 4 ∧
        q.append.foldl (fun k a => k + a.tokens.length) q.tokenLen + e.op 32 4 ≤ 4194305 ∧ e.op 36 4 ≤ 4194304 ∧
        ([e.op 40 4, e.op 44 4, e.op 48 4].all (stopOk s.model)) = true ∧ sourceOk (e.op 16 8) (e.op 28 2) = true ∧
        e.op 28 2 ≠ 0xFFFF ∧ s.qpUsable (e.op 28 2) = true) ∧
    (∃ (e : Entry) (q : Seq) (s : State),
      Begins e 0x35 false s ∧ s.follower = false ∧ s.seq? e.seqIndex = some q ∧ q.tag = e.seqTag ∧
        q.state = .paused) ∧
    (∃ (e : Entry) (q : Seq) (s : State) (im : Image),
      Begins e 0x34 (s.resumeLocal e) s ∧ s.follower = false ∧ s.seq? e.seqIndex = some q ∧ q.tag = e.seqTag ∧
        e.op 8 2 ≠ 0xFFFF ∧ q.state = .paused ∧ s.net.ptpNs ≤ q.deadline ∧ q.pauseTo.2.2.1 = 0xFFFF ∧ s.imageStatus im q.deadline = none) ∧
    (∃ (e : Entry) (im : Image) (i : Nat) (s : State),
      Begins e 0x34 (s.resumeLocal e) s ∧ e.op 8 2 = 0xFFFF ∧ s.follower = false ∧ s.net.ptpSet = true ∧
        e.op 40 1 ≤ 15 ∧ sourceOk (e.op 16 8) (e.op 28 2) = true ∧
        e.op 28 2 = 0xFFFF ∧ imageLength (imagePageCount im) ≤ e.op 32 8 ∧
        s.imageStatus im (fieldAt im.header 84 8) = none ∧ s.freeEntry = some i) ∧
    (∃ (e : Entry) (s : State),
      Begins e 0x32 false s ∧ s.seq? e.seqIndex = none) :=
  ⟨⟨ent 0x30 [(8, 8, 64)], withCrc (patch (List.replicate 124 0) [(12, 2, 0xFFFF), (16, 4, 1), (34, 2, 0x3F80), (38, 1, 1), (40, 4, 0xFFFFFFFF),
 (44, 4, 0xFFFFFFFF), (48, 4, 0xFFFFFFFF)]), 0, { (live (ent 0x30 [(8, 8, 64)])) with
      fabric := { (live (ent 0x30 [(8, 8, 64)])).fabric with
        active := some sheet0 } }, begins_of (by decide +kernel), by decide +kernel⟩,
    ⟨4095, up, by decide +kernel⟩,
    ⟨up, by decide +kernel⟩,
    ⟨{ up with
      net := { up.net with
        bound := some 0, groups := [(0, { identity := 1, size := 2, own := 0, members := [] })] } }, by decide +kernel⟩,
    ⟨4095, {}, { up with
      prm := { up.prm with
        seqs := [(4095, {})] } }, by decide +kernel⟩,
    ⟨ent 0x32 [(8, 2, 4095), (12, 4, 1)], { tag := 1, state := .idle }, { (live (ent 0x32 [(8, 2, 4095), (12, 4, 1)])) with
      prm := { (live (ent 0x32 [(8, 2, 4095), (12, 4, 1)])).prm with
        seqs := [(4095, { tag := 1, state := .idle })] } }, begins_of (by decide +kernel), by decide +kernel⟩,
    ⟨ent 0x33 [(8, 2, 4095), (12, 4, 1), (28, 2, 0xFFFF), (40, 4, 86400)], { tag := 1, state := .decode }, { (live (ent 0x33 [(8, 2, 4095), (12, 4, 1), (28, 2, 0xFFFF), (40, 4, 86400)])) with
      prm := { (live (ent 0x33 [(8, 2, 4095), (12, 4, 1), (28, 2, 0xFFFF), (40, 4, 86400)])).prm with
        seqs := [(4095, { tag := 1, state := .decode })] }
      net := { (live (ent 0x33 [(8, 2, 4095), (12, 4, 1), (28, 2, 0xFFFF), (40, 4, 86400)])).net with
        ptpSet := true } }, begins_of (by decide +kernel), by decide +kernel⟩,
    ⟨ent 0x31 [(8, 2, 4095), (12, 4, 1), (28, 2, 0xFFFF), (32, 4, 4194305), (40, 4, 0xFFFFFFFF), (44, 4, 0xFFFFFFFF), (48, 4, 0xFFFFFFFF)], { tag := 1, state := .idle }, { (live (ent 0x31 [(8, 2, 4095), (12, 4, 1), (28, 2, 0xFFFF), (32, 4, 4194305), (40, 4, 0xFFFFFFFF), (44, 4, 0xFFFFFFFF), (48, 4, 0xFFFFFFFF)])) with
      prm := { (live (ent 0x31 [(8, 2, 4095), (12, 4, 1), (28, 2, 0xFFFF), (32, 4, 4194305), (40, 4, 0xFFFFFFFF), (44, 4, 0xFFFFFFFF), (48, 4, 0xFFFFFFFF)])).prm with
        seqs := [(4095, { tag := 1, state := .idle })] } }, begins_of (by decide +kernel), by decide +kernel⟩,
    ⟨ent 0x31 [(8, 2, 4095), (12, 4, 1), (28, 2, 4095), (32, 4, 4194305), (40, 4, 0xFFFFFFFF), (44, 4, 0xFFFFFFFF), (48, 4, 0xFFFFFFFF)], { tag := 1, state := .idle }, { (live (ent 0x31 [(8, 2, 4095), (12, 4, 1), (28, 2, 4095), (32, 4, 4194305), (40, 4, 0xFFFFFFFF), (44, 4, 0xFFFFFFFF), (48, 4, 0xFFFFFFFF)])) with
      prm := { (live (ent 0x31 [(8, 2, 4095), (12, 4, 1), (28, 2, 4095), (32, 4, 4194305), (40, 4, 0xFFFFFFFF), (44, 4, 0xFFFFFFFF), (48, 4, 0xFFFFFFFF)])).prm with
        seqs := [(4095, { tag := 1, state := .idle })] } }, begins_of (by decide +kernel), by decide +kernel⟩,
    ⟨ent 0x31 [(8, 2, 4095), (12, 4, 1), (28, 2, 4095), (32, 4, 4194305), (40, 4, 0xFFFFFFFF), (44, 4, 0xFFFFFFFF), (48, 4, 0xFFFFFFFF)], { tag := 1, state := .idle }, { (live (ent 0x31 [(8, 2, 4095), (12, 4, 1), (28, 2, 4095), (32, 4, 4194305), (40, 4, 0xFFFFFFFF), (44, 4, 0xFFFFFFFF), (48, 4, 0xFFFFFFFF)])) with
      prm := { (live (ent 0x31 [(8, 2, 4095), (12, 4, 1), (28, 2, 4095), (32, 4, 4194305), (40, 4, 0xFFFFFFFF), (44, 4, 0xFFFFFFFF), (48, 4, 0xFFFFFFFF)])).prm with
        seqs := [(4095, { tag := 1, state := .idle })] }
      net := { up.net with qps := [(4095, qp0)] } }, begins_of (by decide +kernel), by decide +kernel⟩,
    ⟨ent 0x35 [(8, 2, 4095), (12, 4, 1)], { tag := 1, state := .paused }, { (live (ent 0x35 [(8, 2, 4095), (12, 4, 1)])) with
      prm := { (live (ent 0x35 [(8, 2, 4095), (12, 4, 1)])).prm with
        seqs := [(4095, { tag := 1, state := .paused })] } }, begins_of (by decide +kernel), by decide +kernel⟩,
    ⟨ent 0x34 [(8, 2, 4095), (12, 4, 1)], { tag := 1, state := .paused, pauseTo := (0, 0, 0xFFFF, 0) }, { (live (ent 0x34 [(8, 2, 4095), (12, 4, 1)])) with
      prm := { (live (ent 0x34 [(8, 2, 4095), (12, 4, 1)])).prm with
        seqs := [(4095, { tag := 1, state := .paused, pauseTo := (0, 0, 0xFFFF, 0) })] }
      fabric := { (live (ent 0x34 [(8, 2, 4095), (12, 4, 1)])).fabric with
        active := some sheet0 }
      ldr := { (live (ent 0x34 [(8, 2, 4095), (12, 4, 1)])).ldr with
        resident := [(9, 1)] } }, { header := withCrc (patch (List.replicate 4092 0) [(0, 4, 0x52475146), (4, 4, 4096), (16, 4, 9), (48, 4, 1)]), records := [], tokens := [] }, begins_of (by decide +kernel), by decide +kernel⟩,
    ⟨ent 0x34 [(8, 2, 0xFFFF), (16, 8, 4096), (28, 2, 0xFFFF), (32, 8, 4096)], { header := withCrc (patch (List.replicate 4092 0) [(0, 4, 0x52475146), (4, 4, 4096), (16, 4, 9), (48, 4, 1)]), records := [], tokens := [] }, 0, { (live (ent 0x34 [(8, 2, 0xFFFF), (16, 8, 4096), (28, 2, 0xFFFF), (32, 8, 4096)])) with
      net := { (live (ent 0x34 [(8, 2, 0xFFFF), (16, 8, 4096), (28, 2, 0xFFFF), (32, 8, 4096)])).net with
        ptpSet := true }
      fabric := { (live (ent 0x34 [(8, 2, 0xFFFF), (16, 8, 4096), (28, 2, 0xFFFF), (32, 8, 4096)])).fabric with
        active := some sheet0 }
      ldr := { (live (ent 0x34 [(8, 2, 0xFFFF), (16, 8, 4096), (28, 2, 0xFFFF), (32, 8, 4096)])).ldr with
        resident := [(9, 1)] } }, begins_of (by decide +kernel), by decide +kernel⟩,
    ⟨ent 0x32 [(8, 2, 4095), (12, 4, 1)], live (ent 0x32 [(8, 2, 4095), (12, 4, 1)]), begins_of (by decide +kernel), by decide +kernel⟩⟩

/-- A directory entry with some pins, one with its ENTRY_CRC, and a state whose directory holds some entries. -/
def dir0 (pins : Nat) : DirEntry := { hash := 65535, confirm := 7, valid := true, pins := pins }
def sealed (d : DirEntry) : DirEntry := { d with crc := crc32c d.bytes }
def inDir (e : Entry) (ds : Map DirEntry) : State := { live e with kv := { (live e).kv with dir := ds } }

theorem witness_PrefixPinsCountAlongTheChain :
    (∃ (e : Entry) (i : Nat) (u s : State),
      u = (s.begun e).checkEntries (s.pinChain i) ∧ Begins e 0x36 false s ∧ s.findEntry (e.op 8 8, e.op 16 8) = some i ∧
        s.entrySound i = true ∧ (∀ j ∈ s.pinChain i, s.entrySound j = true) ∧ u.entryValid i = true ∧
        (∀ j ∈ s.pinChain i, ((Map.get? u.kv.dir j).map (fun d => d.pins)).getD 0 ≠ 65535)) ∧
    (∃ (e : Entry) (i : Nat) (u s : State),
      u = (s.begun e).checkEntries (s.pinChain i) ∧ Begins e 0x36 false s ∧ s.findEntry (e.op 8 8, e.op 16 8) = some i ∧
        s.entrySound i = true ∧ u.entryValid i = true ∧
        (∃ j ∈ s.pinChain i, ((Map.get? u.kv.dir j).map (fun d => d.pins)).getD 0 = 65535)) ∧
    (∃ (e : Entry) (i : Nat) (u s : State),
      u = (s.begun e).checkEntries (s.pinChain i) ∧ Begins e 0x36 false s ∧ s.findEntry (e.op 8 8, e.op 16 8) = some i ∧
        s.entrySound i = true ∧ u.entryValid i = false) ∧
    (∃ (e : Entry) (i : Nat) (u s : State),
      u = (s.begun e).checkEntries (s.pinChain i) ∧ Begins e 0x37 false s ∧ s.findEntry (e.op 8 8, e.op 16 8) = some i ∧
        s.entrySound i = true ∧ u.entryValid i = true ∧ ((Map.get? u.kv.dir i).map (fun d => d.pins)).getD 0 ≠ 0) ∧
    (∃ (e : Entry) (i : Nat) (u s : State),
      u = (s.begun e).checkEntries (s.pinChain i) ∧ Begins e 0x37 false s ∧ s.findEntry (e.op 8 8, e.op 16 8) = some i ∧
        s.entrySound i = true ∧ ((Map.get? u.kv.dir i).map (fun d => d.pins)).getD 0 = 0) ∧
    (∃ (e : Entry) (i : Nat) (u s : State),
      u = (s.begun e).checkEntries (s.pinChain i) ∧ Begins e 0x37 false s ∧ s.findEntry (e.op 8 8, e.op 16 8) = some i ∧
        s.entrySound i = true ∧ u.entryValid i = false) ∧
    (∃ (e : Entry) (s : State),
      Begins e 0x36 false s ∧ s.findEntry (e.op 8 8, e.op 16 8) = none) ∧
    (∃ (e : Entry) (s : State),
      Begins e 0x37 false s ∧ s.findEntry (e.op 8 8, e.op 16 8) = none) ∧
    (∃ (e : Entry) (i : Nat) (s : State),
      Begins e 0x36 false s ∧ s.findEntry (e.op 8 8, e.op 16 8) = some i ∧ s.entrySound i = false) ∧
    (∃ (e : Entry) (i : Nat) (s : State),
      Begins e 0x37 false s ∧ s.findEntry (e.op 8 8, e.op 16 8) = some i ∧ s.entrySound i = false) :=
  ⟨⟨ent 0x36 [(8, 8, 65535), (16, 8, 7)], 65535, _, inDir (ent 0x36 [(8, 8, 65535), (16, 8, 7)]) [(65535, sealed (dir0 65534))],
      rfl, begins_of (by decide +kernel), by decide +kernel⟩,
    ⟨ent 0x36 [(8, 8, 65535), (16, 8, 7)], 65535, _, inDir (ent 0x36 [(8, 8, 65535), (16, 8, 7)]) [(65535, sealed (dir0 65535))],
      rfl, begins_of (by decide +kernel), by decide +kernel⟩,
    ⟨ent 0x36 [(8, 8, 65535), (16, 8, 7)], 65535, _, inDir (ent 0x36 [(8, 8, 65535), (16, 8, 7)])
      [(1, { valid := true, crc := 1 }), (65535, sealed { dir0 0 with parent := 1 })],
      rfl, begins_of (by decide +kernel), by decide +kernel⟩,
    ⟨ent 0x37 [(8, 8, 65535), (16, 8, 7)], 65535, _, inDir (ent 0x37 [(8, 8, 65535), (16, 8, 7)]) [(65535, sealed (dir0 1))],
      rfl, begins_of (by decide +kernel), by decide +kernel⟩,
    ⟨ent 0x37 [(8, 8, 65535), (16, 8, 7)], 65535, _, inDir (ent 0x37 [(8, 8, 65535), (16, 8, 7)]) [(65535, sealed (dir0 0))],
      rfl, begins_of (by decide +kernel), by decide +kernel⟩,
    ⟨ent 0x37 [(8, 8, 65535), (16, 8, 7)], 65535, _, inDir (ent 0x37 [(8, 8, 65535), (16, 8, 7)])
      [(1, { valid := true, crc := 1 }), (65535, sealed { dir0 1 with parent := 1 })],
      rfl, begins_of (by decide +kernel), by decide +kernel⟩,
    ⟨ent 0x36 [(8, 8, 65535), (16, 8, 7)], live (ent 0x36 [(8, 8, 65535), (16, 8, 7)]), begins_of (by decide +kernel), by decide +kernel⟩,
    ⟨ent 0x37 [(8, 8, 65535), (16, 8, 7)], live (ent 0x37 [(8, 8, 65535), (16, 8, 7)]), begins_of (by decide +kernel), by decide +kernel⟩,
    ⟨ent 0x36 [(8, 8, 65535), (16, 8, 7)], 65535, inDir (ent 0x36 [(8, 8, 65535), (16, 8, 7)]) [(65535, { dir0 0 with crc := 1 })],
      begins_of (by decide +kernel), by decide +kernel⟩,
    ⟨ent 0x37 [(8, 8, 65535), (16, 8, 7)], 65535, inDir (ent 0x37 [(8, 8, 65535), (16, 8, 7)]) [(65535, { dir0 1 with crc := 1 })],
      begins_of (by decide +kernel), by decide +kernel⟩⟩

theorem witness_GreenRoomEvents :
    (∃ (i : Nat) (q : Seq) (s : State),
      i < 4096 ∧ s.seq? i = some q ∧ q.state = .pausing ∧
        (if q.pauseTo.2.2.1 = 0xFFFF then s.mayRequest else s.qpUsable q.pauseTo.2.2.1) = true ∧ q.cancelPend = false ∧
        (s.checkPages (s.mapped i)).1 = true ∧ (∀ j ∈ q.refs, s.entrySound j = true)) ∧
    (∃ (i : Nat) (q : Seq) (s : State),
      i < 4096 ∧ s.seq? i = some q ∧ q.state = .pausing ∧
        (if q.pauseTo.2.2.1 = 0xFFFF then s.mayRequest else s.qpUsable q.pauseTo.2.2.1) = true ∧ q.cancelPend = false ∧
        (s.checkPages (s.mapped i)).1 = false) ∧
    (∃ (i : Nat) (q : Seq) (s : State),
      i < 4096 ∧ s.seq? i = some q ∧ q.state = .pausing ∧
        (if q.pauseTo.2.2.1 = 0xFFFF then s.mayRequest else s.qpUsable q.pauseTo.2.2.1) = false) ∧
    (∃ (i : Nat) (q : Seq) (s : State),
      i < 4096 ∧ s.seq? i = some q ∧ q.state ≠ .pausing) ∧
    (∃ (i : Nat) (q : Seq) (s : State),
      i < 4096 ∧ s.seq? i = some q ∧ q.state = .paused ∧ q.deadline ≤ s.net.ptpNs ∧ s.integ.fatalStop = false) ∧
    (∃ (i : Nat) (q : Seq) (s : State),
      i < 4096 ∧ s.seq? i = some q ∧ q.state = .paused ∧ s.net.ptpNs < q.deadline) ∧
    (∃ (i : Nat) (q : Seq) (u : State) (s : State),
      u = q.fetched.foldl (fun s p => s.placeRecord i p) s ∧ i < 4096 ∧ s.seq? i = some q ∧ q.state = .resuming ∧
        q.failStatus = 0 ∧ q.starved = false ∧
        (∀ p ∈ q.fetched, ∀ f, u.filledFrame i p.1 = some f → recordSound p.2 = true ∧ u.pageFault u.model f = none)) ∧
    (∃ (i : Nat) (q : Seq) (u s : State) (p : (Nat × Nat × Nat) × List Byte) (f : Nat),
      i < 4096 ∧ s.seq? i = some q ∧ q.state = .resuming ∧ q.failStatus = 0 ∧ q.starved = false ∧
        u = q.fetched.foldl (fun s p => s.placeRecord i p) s ∧ p ∈ q.fetched ∧ u.filledFrame i p.1 = some f ∧
        (recordSound p.2 = false ∨ u.pageFault u.model f ≠ none)) ∧
    (∃ (i : Nat) (q : Seq) (s : State),
      i < 4096 ∧ s.seq? i = some q ∧ q.state = .resuming ∧ q.failStatus = 0 ∧ q.starved = true ∧
        s.awaited q.order = true) ∧
    (∃ (i : Nat) (q : Seq) (s : State),
      i < 4096 ∧ s.seq? i = some q ∧ q.state = .resuming ∧ q.failStatus = 0 ∧ q.starved = true ∧
        s.awaited q.order = false ∧ (s.resumeFrames i).1 = false) ∧
    (∃ (i : Nat) (q : Seq) (s : State),
      i < 4096 ∧ s.seq? i = some q ∧ q.state ≠ .resuming) :=
  ⟨⟨4095, { state := .pausing, pauseTo := (0, 0, 0xFFFF, 0) }, { up with
      prm := { up.prm with
        seqs := [(4095, { state := .pausing, pauseTo := (0, 0, 0xFFFF, 0) })] } }, by decide +kernel⟩,
    ⟨4095, { state := .pausing, pauseTo := (0, 0, 0xFFFF, 0) }, { up with
      prm := { up.prm with
        seqs := [(4095, { state := .pausing, pauseTo := (0, 0, 0xFFFF, 0) })] }
      kv := { up.kv with
        pageMaps := [(4095, [(0, 2048)])]
        frames := [(2048, { written := 1 })] }
      fabric := { up.fabric with
        active := some sheet0 }
      ldr := { up.ldr with
        resident := [(9, 1)], serving := some copy0 } }, by decide +kernel⟩,
    ⟨4095, { state := .pausing, pauseTo := (0, 0, 7, 0) }, { up with
      prm := { up.prm with
        seqs := [(4095, { state := .pausing, pauseTo := (0, 0, 7, 0) })] } }, by decide +kernel⟩,
    ⟨4095, { state := .idle }, { up with
      prm := { up.prm with
        seqs := [(4095, { state := .idle })] } }, by decide +kernel⟩,
    ⟨4095, { state := .paused, deadline := 9 }, { up with
      prm := { up.prm with
        seqs := [(4095, { state := .paused, deadline := 9 })] }
      net := { up.net with
        ptpNs := 9 } }, by decide +kernel⟩,
    ⟨4095, { state := .paused, deadline := 9 }, { up with
      prm := { up.prm with
        seqs := [(4095, { state := .paused, deadline := 9 })] }
      net := { up.net with
        ptpNs := 8 } }, by decide +kernel⟩,
    ⟨4095, { state := .resuming }, _, { up with
      prm := { up.prm with
        seqs := [(4095, { state := .resuming })] } }, rfl, by decide +kernel⟩,
    ⟨4095, greenSeq 0, _, green (greenSeq 0), ((0, 0, 0), greenRecord 0), 2048,
      by decide, rfl, rfl, rfl, rfl, rfl, List.mem_singleton.mpr rfl, green_filled, .inl green_unsound⟩,
    ⟨4095, { state := .resuming, starved := true, order := 2 }, { up with
      prm := { up.prm with
        seqs := [(0, { state := .prefill, starved := true, order := 1 }), (4095, { state := .resuming, starved := true, order := 2 })] } },
      by decide +kernel⟩,
    ⟨4095, { state := .resuming, starved := true, fetched := [((0, 0, 0), [])] }, { up with
      prm := { up.prm with
        seqs := [(4095, { state := .resuming, starved := true, fetched := [((0, 0, 0), [])] })] } }, by decide +kernel⟩,
    ⟨4095, { state := .idle }, { up with
      prm := { up.prm with
        seqs := [(4095, { state := .idle })] } }, by decide +kernel⟩⟩

theorem witness_ScenesFormAndChange :
    (∃ (c : CueSheet) (big : Variant) (f : Forming) (s : State),
      f = s.chooseFor c big ∧ s.fabric.active = some c ∧ s.mayForm = true ∧ s.follower = false ∧
        c.variants.getLast? = some big ∧ f.chosen = []) ∧
    (∃ (c : CueSheet) (big : Variant) (f : Forming) (s : State) (n : Nat) (v : Variant),
      f = s.chooseFor c big ∧ s.fabric.active = some c ∧ s.mayForm = true ∧ s.follower = false ∧
        c.variants.getLast? = some big ∧ f.chosen ≠ [] ∧
        variantFor c.variants f.positions f.chosen.length = some (n, v)) ∧
    (∃ (c : CueSheet) (s : State),
      s.fabric.active = some c ∧ s.mayForm = true ∧ s.follower = true) ∧
    (∃ (c : CueSheet) (s : State),
      s.fabric.active = some c ∧ (s.integ.fatalStop = true ∨ 16 ≤ s.prm.scenes.length)) ∧
    (∃ (sc : Scene) (x : Scene) (rest : List Scene) (tail : List Scene) (c : CueSheet) (v : Variant) (u : State) (s : State),
      u = s.advanceTo (sc.start + v.length) ∧ s.prm.scenes = sc :: rest ∧ s.fabric.active = some c ∧
        c.variants[sc.variant]? = some v ∧ sc.start + v.length ≤ u.fabric.counter ∧ u.prm.scenes = x :: tail) ∧
    (∃ (sc : Scene) (rest : List Scene) (c : CueSheet) (v : Variant) (u : State) (s : State),
      u = s.advanceTo (sc.start + v.length) ∧ s.prm.scenes = sc :: rest ∧ s.fabric.active = some c ∧
        c.variants[sc.variant]? = some v ∧ u.fabric.counter < sc.start + v.length) ∧
    (∃ (n : Nat) (s : State),
      n ≤ s.fabric.counter) ∧
    (∃ (s : State),
      s.prm.scenes = [] ∧ s.integ.fatalStop = false ∧ s.emptyDue = true) ∧
    (∃ (s : State),
      s.prm.scenes = [] ∧ s.integ.fatalStop = false ∧ s.emptyDue = false) ∧
    (∃ (i : Nat) (id : Nat) (sc : Scene) (x : Section) (u : State) (s : State),
      u = s.advanceTo (sc.start + x.start) ∧ s.sectionOf i id = some (sc, x) ∧
        u.fabric.running.any (fun r => r.index == i && r.scene == id) = false ∧
        u.reached (sc.start + x.start) = true) ∧
    (∃ (i : Nat) (id : Nat) (sc : Scene) (x : Section) (u : State) (s : State),
      u = s.advanceTo (sc.start + x.start) ∧ s.sectionOf i id = some (sc, x) ∧
        u.fabric.running.any (fun r => r.index == i && r.scene == id) = false ∧
        u.reached (sc.start + x.start) = false) :=
  ⟨⟨sheet0, { capacity := 64, seqLimit := 1, first := 0, count := 1, length := 1000, interval := 1000 }, _, { up with
      fabric := { up.fabric with
        active := some sheet0 } }, rfl, by decide +kernel⟩,
    ⟨sheet0, { capacity := 64, seqLimit := 1, first := 0, count := 1, length := 1000, interval := 1000 }, _, { up with
      fabric := { up.fabric with
        active := some sheet0 }
      prm := { up.prm with
        seqs := [(0, { state := .decode })] }
      ldr := { up.ldr with
        resident := [(9, 1)], serving := some copy0 }
      kv := { up.kv with
        laidOut := true } }, 0, { capacity := 64, seqLimit := 1, first := 0, count := 1, length := 1000, interval := 1000 }, rfl, by decide +kernel⟩,
    ⟨sheet0, { up with
      fabric := { up.fabric with
        active := some sheet0 }
      net := { up.net with
        bound := some 0, groups := [(0, { identity := 1, size := 2, own := 1, members := [] })] } }, by decide +kernel⟩,
    ⟨sheet0, { up with
      fabric := { up.fabric with
        active := some sheet0 }
      integ := { up.integ with
        fatalStop := true } }, by decide +kernel⟩,
    ⟨scene0, scene0, [], [], sheet0, { capacity := 64, seqLimit := 1, first := 0, count := 1, length := 1000, interval := 1000 }, _, { up with
      fabric := { up.fabric with
        active := some sheet0, counter := 1000 }
      prm := { up.prm with
        scenes := [scene0] } }, rfl, by decide +kernel⟩,
    ⟨scene0, [], sheet0, { capacity := 64, seqLimit := 1, first := 0, count := 1, length := 1000, interval := 1000 }, _, { up with
      fabric := { up.fabric with
        active := some sheet0, counter := 999, history2 := 1 }
      prm := { up.prm with
        scenes := [scene0] }
      pwr := { up.pwr with
        stageStopped := true } }, rfl, by decide +kernel⟩,
    ⟨0, up, by decide +kernel⟩,
    ⟨{ up with
      prm := { up.prm with
        seqs := [(0, { cancelPend := true })] } }, by decide +kernel⟩,
    ⟨up, by decide +kernel⟩,
    ⟨0, 0, scene0, { start := 0, length := 1000, layer := 0, tag := 0 }, _, { up with
      fabric := { up.fabric with
        active := some sheet0 }
      prm := { up.prm with
        scenes := [scene0] } }, rfl, by decide +kernel⟩,
    ⟨0, 0, scene0, { start := 0, length := 1000, layer := 0, tag := 0 }, _, { up with
      fabric := { up.fabric with
        active := some sheet0 }
      prm := { up.prm with
        scenes := [scene0] }
      pwr := { up.pwr with
        stageStopped := true } }, rfl, by decide +kernel⟩⟩

theorem witness_CalibrationRunsAreQueued :
    (∃ (e : Entry) (s : State),
      Begins e 0x40 false s ∧ e.op 8 2 < Config.tiles ∧ 1 ≤ e.op 10 2 ∧ e.op 8 2 + e.op 10 2 ≤ Config.tiles) ∧
    (∃ (e : Entry) (s : State),
      Begins e 0x40 false s ∧ (Config.tiles < e.op 8 2 + e.op 10 2 ∨ e.op 10 2 = 0)) ∧
    (∃ (v : Word) (u : State) (s : State),
      u = s.writeReg 0x200 v.toNat ∧ u.field 0x200 16 1 = 0) ∧
    (∃ (v : Word) (u : State) (s : State),
      u = s.writeReg 0x200 v.toNat ∧ u.field 0x200 16 1 = 1) ∧
    (∃ (h : Nat) (s : State),
      h < 2 ∧ s.field 0x200 16 1 = 0) ∧
    (∃ (h : Nat) (s : State),
      h < 2 ∧ s.field 0x200 16 1 = 1 ∧ s.triggerDue h = true) ∧
    (∃ (h : Nat) (s : State),
      h < 2 ∧ s.triggerDue h = false) ∧
    (∃ (h : Nat) (s : State),
      h < 2 ∧ 86400000000 ≤ s.integ.clock - Map.getD s.calStart h 0) ∧
    (∃ (h : Nat) (s : State),
      h < 2 ∧ 0 < s.field 0x200 0 5 ∧ 48 * 8 * s.field 0x200 0 5 ≤ (s.halfSum h - Map.getD s.calReference h 0).natAbs) ∧
    (∃ arrays : List Nat, arrays ≠ []) ∧
    (∃ (t : Nat) (home : Nat) (offset : Nat) (at_ : Nat) (c : CueSheet) (u : State) (s : State),
      at_ = nextSlot s.fabric.counter c.calPeriod offset (s.tile t).calFrom ∧ u = s.advanceTo at_ ∧
        t < Config.tiles ∧ s.fabric.active = some c ∧ s.positionOf t = some home ∧ s.servingTile home = t ∧
        Map.get? c.compiled.calOffsets home = some offset ∧ u.reached at_ = true) ∧
    (∃ (t : Nat) (home : Nat) (offset : Nat) (at_ : Nat) (c : CueSheet) (u : State) (s : State),
      at_ = nextSlot s.fabric.counter c.calPeriod offset (s.tile t).calFrom ∧ u = s.advanceTo at_ ∧
        t < Config.tiles ∧ s.fabric.active = some c ∧ s.positionOf t = some home ∧ s.servingTile home = t ∧
        Map.get? c.compiled.calOffsets home = some offset ∧ u.reached at_ = false) ∧
    (∃ (t : Nat) (s : State) (r : CalRunState),
      (s.tile t).calRun = some r ∧ r.direct = true) ∧
    (∃ (t : Nat) (s : State) (r : CalRunState),
      (s.tile t).calRun = some r ∧ r.direct = false) ∧
    (∃ (t : Nat) (s : State),
      (s.tile t).calRun = none ∧ (s.tile t).calQueued = true ∧ s.calArrays t ≠ []) ∧
    (∃ (t : Nat) (s : State),
      (s.tile t).calRun = none ∧ (s.tile t).calQueued = true ∧ s.calArrays t = []) ∧
    (∃ (t : Nat) (s : State),
      (s.tile t).calRun = none ∧ (s.tile t).calQueued = false) ∧
    (∃ (counter : Nat) (period : Nat) (offset : Nat) (start : Nat) (at_ : Nat),
      0 < period ∧ at_ = nextSlot counter period offset start ∧ start ≤ at_ ∧ at_ ≤ counter ∧ counter + 1 = at_ + 4096) ∧
    (∃ (counter : Nat) (period : Nat) (offset : Nat) (start : Nat) (at_ : Nat),
      0 < period ∧ at_ = nextSlot counter period offset start ∧ counter < at_) ∧
    (∃ (t : Nat) (s : State),
      t < Config.tiles ∧ s.positionOf t = none) :=
  ⟨⟨ent 0x40 [(8, 2, 10559), (10, 2, 1)], live (ent 0x40 [(8, 2, 10559), (10, 2, 1)]), begins_of (by decide +kernel), by decide +kernel⟩,
    ⟨ent 0x40 [(8, 2, 10559), (10, 2, 2)], live (ent 0x40 [(8, 2, 10559), (10, 2, 2)]), begins_of (by decide +kernel), by decide +kernel⟩,
    ⟨0, _, up, rfl, by decide +kernel⟩,
    ⟨0x00010000, _, up, rfl, by decide +kernel⟩,
    ⟨1, { up with
      regs := [(0x200, 6)] }, by decide +kernel⟩,
    ⟨1, { up with
      regs := [(0x200, 0x10006)]
      hkm := [(1, {})]
      integ := { up.integ with
        clock := 86400000000 } }, by decide +kernel⟩,
    ⟨1, { up with
      regs := [(0x200, 0x10006)] }, by decide +kernel⟩,
    ⟨1, { up with
      integ := { up.integ with
        clock := 86400000000 } }, by decide +kernel⟩,
    ⟨1, { up with
      regs := [(0x200, 6)]
      pwr := { up.pwr with
        dieTemps := [(48, 2304)] } }, by decide +kernel⟩,
    ⟨[7], by decide +kernel⟩,
    ⟨10558, 10558, 0, _, sheet1, _, runs1, rfl, rfl, by decide +kernel⟩,
    ⟨10558, 10558, 0, _, sheet1, _, { runs1 with
      pwr := { runs1.pwr with
        stageStopped := true } }, rfl, rfl, by decide +kernel⟩,
    ⟨10559, { up with
      tiles := [(10559, { calRun := some { arrays := [7], window := 0, direct := true } })] }, { arrays := [7], window := 0, direct := true }, by decide +kernel⟩,
    ⟨10559, { up with
      tiles := [(10559, { calRun := some { arrays := [7], window := 0, direct := false } })] }, { arrays := [7], window := 0, direct := false }, by decide +kernel⟩,
    ⟨10559, { up with
      tiles := [(10559, { calQueued := true })]
      regs := [(tileReg 10559 0x3C, 0x01000000)] }, by decide +kernel⟩,
    ⟨10559, { up with
      tiles := [(10559, { calQueued := true })] }, by decide +kernel⟩,
    ⟨10559, up, by decide +kernel⟩,
    ⟨4195, 65536, 100, 100, _, by decide, rfl, by decide +kernel⟩,
    ⟨4196, 65536, 100, 100, _, by decide, rfl, by decide +kernel⟩,
    ⟨10559, up, by decide +kernel⟩⟩

theorem witness_CalibrationRecordsAndResults :
    (∃ (t : Nat) (a : Nat) (rest : List Nat) (r : CalRunState) (s : State),
      t < Config.tiles ∧ s.rehearsing t = false ∧ (s.tile t).calRun = some r ∧ r.direct = false ∧
        r.arrays = a :: rest ∧ r.window < 46080) ∧
    (∃ (t : Nat) (a : Nat) (rest : List Nat) (r : CalRunState) (s : State),
      t < Config.tiles ∧ s.rehearsing t = false ∧ (s.tile t).calRun = some r ∧ r.direct = false ∧
        r.arrays = a :: rest ∧ 46080 ≤ r.window ∧ rest = []) ∧
    (∃ (t : Nat) (a : Nat) (rest : List Nat) (r : CalRunState) (s : State),
      t < Config.tiles ∧ s.rehearsing t = false ∧ (s.tile t).calRun = some r ∧ r.direct = false ∧
        r.arrays = a :: rest ∧ 46080 ≤ r.window ∧ rest ≠ []) :=
  ⟨⟨10559, 7, [], { arrays := [7], window := 46079, direct := false }, { up with
      tiles := [(10559, { calRun := some { arrays := [7], window := 46079, direct := false } })] }, by decide +kernel⟩,
    ⟨10559, 7, [], { arrays := [7], window := 46080, direct := false }, { up with
      tiles := [(10559, { calRun := some { arrays := [7], window := 46080, direct := false } })] }, by decide +kernel⟩,
    ⟨10559, 0, [7], { arrays := [0, 7], window := 46080, direct := false }, { up with
      tiles := [(10559, { calRun := some { arrays := [0, 7], window := 46080, direct := false } })] }, by decide +kernel⟩⟩

theorem witness_CalibrationRecordsAndResults_2 :
    (∃ (t : Nat) (r : CalRunState) (s : State),
      t < Config.tiles ∧ s.rehearsing t = false ∧ (s.tile t).calRun = some r ∧ r.direct = true ∧
        s.clockRuns = true ∧ (s.tile t).fl.state = .ready) ∧
    (∃ (t : Nat) (s : State),
      t < Config.tiles ∧ (s.rehearsing t = true ∨ (s.tile t).calRun = none)) ∧
    (∃ (t : Nat) (a : Nat) (r : CalRunState) (s : State),
      (s.tile t).fitAccepted (s.reg (tileReg t 0x18)) a r = true) :=
  ⟨⟨10559, { arrays := [7], window := 0, direct := true }, { up with
      tiles := [(10559, { calRun := some { arrays := [7], window := 0, direct := true }, fl := { state := .ready } })] }, by decide +kernel⟩,
    ⟨10559, up, by decide +kernel⟩,
    ⟨10559, 7, { arrays := [7], window := 0, direct := true }, up, same_passes _ _ _ _ rfl⟩⟩

theorem witness_CalibrationRecordsAndResults_3 :
    (∃ (t : Nat) (a : Nat) (r : CalRunState) (s : State) (x : Nat),
      (s.tile t).fitAccepted (s.reg (tileReg t 0x18)) a r = true ∧ x ≠ t) ∧
    (∃ (t : Nat) (a : Nat) (r : CalRunState) (s : State),
      (s.tile t).fitAccepted (s.reg (tileReg t 0x18)) a r = false) ∧
    (∃ (s : State),
      s.net.ptpNs < 2 ^ 64) :=
  ⟨⟨10559, 7, { arrays := [7], window := 0, direct := true }, up, 10558, same_passes _ _ _ _ rfl, by decide +kernel⟩,
    ⟨10559, 7, { arrays := [7], direct := true, passB := [(0, { num := 2, sumN := 2, sumNN := 4, sumR := 2000000000000, sumNR := 4000000000000 })] }, up, by decide +kernel⟩,
    ⟨{ up with
      net := { up.net with
        ptpNs := 2 ^ 64 - 1 } }, by decide +kernel⟩⟩

theorem witness_CalibrationRecordsAndResults_4 :
    (∃ (e : Entry) (s : State),
      Begins e 0x41 true s ∧ tileRangeOk e = true ∧ e.op 16 8 % 64 = 0 ∧ 66596 * e.op 10 2 ≤ e.op 24 8) ∧
    (∃ (e : Entry) (s : State),
      Begins e 0x41 true s ∧ (tileRangeOk e = false ∨ e.op 16 8 % 64 ≠ 0 ∨ e.op 24 8 < 66596 * e.op 10 2)) ∧
    (∃ (e : Entry) (bs : List Byte) (go : Importing) (u : State) (s : State),
      Begins e 0x42 true s ∧
        go = (List.range (e.op 10 2)).foldl (fun (a : Importing) i => importRecord a (e.op 8 2 + i) (sliceBytes bs (66596 * i) 66596)) (s.begun e, 0, none) ∧
        u = (if 0 < go.2.1 then go.1.record 0x03 (shake32 (bs.take (e.op 10 2 * 66596))) else go.1) ∧
        tileRangeOk e = true ∧ e.op 16 8 % 64 = 0 ∧ 66596 * e.op 10 2 ≤ e.op 24 8) :=
  ⟨⟨ent 0x41 [(8, 2, 10559), (10, 2, 1), (16, 8, 64), (24, 8, 66596)], live (ent 0x41 [(8, 2, 10559), (10, 2, 1), (16, 8, 64), (24, 8, 66596)]), begins_of (by decide +kernel), by decide +kernel⟩,
    ⟨ent 0x41 [(8, 2, 10559), (10, 2, 1), (16, 8, 64), (24, 8, 66595)], live (ent 0x41 [(8, 2, 10559), (10, 2, 1), (16, 8, 64), (24, 8, 66595)]), begins_of (by decide +kernel), by decide +kernel⟩,
    ⟨ent 0x42 [(8, 2, 10559), (10, 2, 1), (16, 8, 64), (24, 8, 66596)], [], _, _, live (ent 0x42 [(8, 2, 10559), (10, 2, 1), (16, 8, 64), (24, 8, 66596)]), begins_of (by decide +kernel), rfl, rfl, by decide +kernel⟩⟩

theorem witness_CalibrationRecordsAndResults_5 :
    (∃ (t : Nat) (r : List Byte),
      crcTrailed r = true ∧ fieldAt r 0 2 = t ∧ fieldAt r 2 1 = 0xB0 ∧ (r.drop 18).take 14 = List.replicate 14 0) ∧
    (∃ (r : List Byte),
      crcTrailed r = false) :=
  ⟨⟨10559, withCrc (patch (List.replicate 64 0) [(0, 2, 10559), (2, 1, 0xB0)]), by decide +kernel⟩,
    ⟨[1, 0, 0, 0, 0], by decide +kernel⟩⟩

theorem witness_FootlightsByTimersAndHolds :
    (∃ (call : FlCall) (s : State),
      call.tile < Config.tiles ∧ s.fabric.active = none) ∧
    (∃ (call : FlCall) (c : CueSheet) (s : State),
      call.tile < Config.tiles ∧ s.fabric.active = some c ∧ call ∉ c.calls) ∧
    (∃ (call : FlCall) (c : CueSheet) (s : State),
      call.tile < Config.tiles ∧ s.fabric.active = some c ∧ call ∈ c.calls ∧
        (s.advanceTo call.act).reached call.act = true) ∧
    (∃ (call : FlCall) (c : CueSheet) (s : State),
      call.tile < Config.tiles ∧ s.fabric.active = some c ∧ call ∈ c.calls ∧
        (s.advanceTo call.act).reached call.act = false) ∧
    (∃ (k : FlCall) (s : State) (x : Nat),
      x ≠ s.servingTile k.tile) ∧
    (∃ (x : Nat) (s : State),
      x < Config.tiles ∧ (s.tile x).fl.state = .settling) ∧
    (∃ (x : Nat) (s : State),
      x < Config.tiles ∧ (s.tile x).fl.state ≠ .settling) ∧
    (∃ (x : Nat) (u : State) (s : State),
      u = s.advanceTo (s.fabric.counter + (300000 - (s.tile x).fl.idle)) ∧ x < Config.tiles ∧
        (s.tile x).fl.state ≠ .off ∧ s.flHeld x = false ∧ 300000 ≤ (u.tile x).fl.idle ∧ u.flHeld x = false) ∧
    (∃ (x : Nat) (u : State) (s : State),
      u = s.advanceTo (s.fabric.counter + (300000 - (s.tile x).fl.idle)) ∧ x < Config.tiles ∧
        (s.tile x).fl.state ≠ .off ∧ s.flHeld x = false ∧ ((u.tile x).fl.idle < 300000 ∨ u.flHeld x = true)) ∧
    (∃ (x : Nat) (s : State),
      (s.tile x).mvm = none) ∧
    (∃ (x : Nat) (s : State) (y : Nat),
      (s.tile x).mvm = none ∧ y ≠ x) ∧
    (∃ (x : Nat) (s : State),
      x < Config.tiles ∧ ((s.tile x).fl.state = .off ∨ s.flHeld x = true)) ∧
    (∃ (t : Nat) (s : State),
      t < Config.tiles ∧ s.windowOpen t 0x10 = false) ∧
    (∃ (t : Nat) (v : Word) (s : State),
      t < Config.tiles ∧ s.windowOpen t 0x10 = true ∧ v.toNat % 2 = 1) ∧
    (∃ (t : Nat) (v : Word) (s : State),
      t < Config.tiles ∧ s.windowOpen t 0x10 = true ∧ v.toNat % 2 = 0) :=
  ⟨⟨call1, up, by decide +kernel⟩,
    ⟨{ tile := 10558, act := 6, until_ := 9 }, sheet1, runs1, by decide +kernel⟩,
    ⟨call1, sheet1, { runs1 with
      fabric := { runs1.fabric with
        counter := 5 } }, by decide +kernel⟩,
    ⟨call1, sheet1, { runs1 with
      fabric := { runs1.fabric with
        counter := 5 }
      pwr := { runs1.pwr with
        stageStopped := true } }, by decide +kernel⟩,
    ⟨call1, up, 0, by decide +kernel⟩,
    ⟨10559, { up with
      tiles := [(10559, { fl := { state := .settling } })] }, by decide +kernel⟩,
    ⟨10559, up, by decide +kernel⟩,
    ⟨10558, _, { up with
      tiles := [(10558, { fl := { state := .ready, idle := 300000 } })] }, rfl, by decide +kernel⟩,
    ⟨10558, _, { up with
      tiles := [(10558, { fl := { state := .ready, idle := 299999 } })] }, rfl, by decide +kernel⟩,
    ⟨10559, up, by decide +kernel⟩,
    ⟨10559, up, 0, by decide +kernel⟩,
    ⟨10559, { up with
      tiles := [(10559, { fl := { state := .ready, untilCall := true } })] }, by decide +kernel⟩,
    ⟨10559, { up with
      tiles := [(10559, { inReset := 1 })] }, by decide +kernel⟩,
    ⟨10559, 1, up, by decide +kernel⟩,
    ⟨10559, 0, up, by decide +kernel⟩⟩

theorem witness_PhasesAddAndResultsAreDelivered :
    (∃ (t : Nat) (s : State),
      t < Config.tiles ∧ s.fabric.active = none) ∧
    (∃ (t : Nat) (c : CueSheet) (s : State),
      t < Config.tiles ∧ s.fabric.active = some c) ∧
    (∃ (t : Nat) (c : CueSheet) (s : State),
      t < Config.tiles ∧ s.fabric.active = some c) ∧
    (∃ (t : Nat) (c : CueSheet) (s : State) (m : Mvm),
      t < Config.tiles ∧ s.fabric.active = some c ∧ (s.tile t).mvm = some m) ∧
    (∃ (t : Nat) (c : CueSheet) (s : State),
      t < Config.tiles ∧ s.fabric.active = some c ∧ (s.tile t).mvm = none) ∧
    (∃ (c : CueSheet) (t : Nat) (index : Nat) (scene : Nat) (at_ : Nat) (row : Nat) (slot : MvmSlot) (s : State),
      c.compiled.mvms[index]? = some slot ∧ s.sectionAt slot.sec scene slot.start = some at_ ∧
        (s.advanceTo at_).slotRow slot scene = some row ∧ (s.advanceTo at_).servingTile slot.tile = t ∧
        (s.advanceTo at_).reached at_ = true ∧ (s.advanceTo at_).mayStart t slot.array = true ∧
        (s.advanceTo at_).usesArray t slot.array scene row = true ∧
        ((s.advanceTo at_).tile t).badWord ((s.advanceTo at_).vectorSpans slot row scene) = none) ∧
    (∃ (c : CueSheet) (t : Nat) (index : Nat) (scene : Nat) (at_ : Nat) (row : Nat) (slot : MvmSlot) (w : Nat) (s : State),
      c.compiled.mvms[index]? = some slot ∧ s.sectionAt slot.sec scene slot.start = some at_ ∧
        (s.advanceTo at_).slotRow slot scene = some row ∧ (s.advanceTo at_).servingTile slot.tile = t ∧
        (s.advanceTo at_).reached at_ = true ∧ (s.advanceTo at_).mayStart t slot.array = true ∧
        (s.advanceTo at_).usesArray t slot.array scene row = true ∧
        ((s.advanceTo at_).tile t).badWord ((s.advanceTo at_).vectorSpans slot row scene) = some w) ∧
    (∃ (t : Nat) (lo : Nat) (rows : Nat) (plane : Nat) (m : Mvm) (input : PhaseIn) (vs : List Int) (counts : List Int) (s : State),
      vs = (s.tile t).converted m.performance m.start.array input.levels ∧
        counts = vs.map (fun v => countOf m.performance (codeOf m.performance v)) ∧
        convert (s.tile t) m lo rows plane input.storeUe vs counts = .pass) ∧
    (∃ (t : Nat) (lo : Nat) (rows : Nat) (plane : Nat) (m : Mvm) (input : PhaseIn) (vs : List Int) (counts : List Int) (s : State),
      vs = (s.tile t).converted m.performance m.start.array input.levels ∧
        counts = vs.map (fun v => countOf m.performance (codeOf m.performance v)) ∧
        convert (s.tile t) m lo rows plane input.storeUe vs counts = .mismatch ∧ 128 ≤ m.encores) ∧
    (∃ (t : Nat) (lo : Nat) (rows : Nat) (plane : Nat) (m : Mvm) (input : PhaseIn) (vs : List Int) (counts : List Int) (s : State),
      vs = (s.tile t).converted m.performance m.start.array input.levels ∧
        counts = vs.map (fun v => countOf m.performance (codeOf m.performance v)) ∧
        convert (s.tile t) m lo rows plane input.storeUe vs counts = .mismatch ∧ m.encores < 128 ∧
        (m.performance = true ∨ rows ≠ 8)) ∧
    (∃ (t : Nat) (s : State),
      t < Config.tiles ∧ (s.tile t).outs = []) ∧
    (∃ (t : Nat) (o : OutReg) (s : State),
      t < Config.tiles ∧ (s.tile t).nextOut = some o) ∧
    (∃ (t x : Nat), x ≠ t) :=
  ⟨⟨10559, up, by decide +kernel⟩,
    ⟨10559, sheet1, runs1, by decide +kernel⟩,
    ⟨10559, sheet1, runs1, by decide +kernel⟩,
    ⟨10559, sheet1, { runs1 with
      tiles := [(10559, { mvm := some { start := { array := 0, acts := [], outlierRows := [], fmt16 := false, groupRows := 256, sec := 0, scene := 0, lane := 0, deliver := 0 }, performance := true, acc := [] } })] }, { start := { array := 0, acts := [], outlierRows := [], fmt16 := false, groupRows := 256, sec := 0, scene := 0, lane := 0, deliver := 0 }, performance := true, acc := [] }, by decide +kernel⟩,
    ⟨10559, sheet1, runs1, by decide +kernel⟩,
    ⟨sheet1, 10558, 0, 0, 0, 0, slot1, { runs1 with
      tiles := [(10558, { valid := 128, trimsValid := 128 })]
      prm := { runs1.prm with
        scenes := [{ scene0 with
 members := [{ entry := 0, work := .decode, nodes := 1 }] }], seqs := [(0, { state := .decode, epoch := 1 })] }
      ldr := { runs1.ldr with
        serving := some copy0, resident := [(9, 1)], journal := [(arrayKey 10558 7, ({ epoch := 1, valid := true, crcOk := true }, {}))] } }, by decide +kernel⟩,
    ⟨sheet1, 10558, 0, 0, 0, 0, slot1, 0, { runs1 with
      tiles := [(10558, { valid := 128, trimsValid := 128, badWords := [0] })]
      prm := { runs1.prm with
        scenes := [{ scene0 with
 members := [{ entry := 0, work := .decode, nodes := 1 }] }], seqs := [(0, { state := .decode, epoch := 1 })] }
      ldr := { runs1.ldr with
        serving := some copy0, resident := [(9, 1)], journal := [(arrayKey 10558 7, ({ epoch := 1, valid := true, crcOk := true }, {}))] } }, by decide +kernel⟩,
    ⟨10559, 0, 64, 0, { start := { array := 0, acts := [], outlierRows := [], fmt16 := false, groupRows := 256, sec := 0, scene := 0, lane := 0, deliver := 0 }, performance := true, acc := [] }, { levels := [], alarm := false, storeUe := none }, _, _, up, rfl, rfl, by decide +kernel⟩,
    ⟨10559, 0, 128, 0, { start := { array := 0, acts := [], outlierRows := [], fmt16 := false, groupRows := 256, sec := 0, scene := 0, lane := 0, deliver := 0 }, performance := true, acc := [], encores := 128 }, { levels := [1099511627776], alarm := false, storeUe := none }, _, _, up, rfl, rfl, by decide +kernel⟩,
    ⟨10559, 0, 128, 0, { start := { array := 0, acts := [], outlierRows := [], fmt16 := false, groupRows := 256, sec := 0, scene := 0, lane := 0, deliver := 0 }, performance := true, acc := [], encores := 127 }, { levels := [1099511627776], alarm := false, storeUe := none }, _, _, up, rfl, rfl, by decide +kernel⟩,
    ⟨10559, up, by decide +kernel⟩,
    ⟨10559, { array := 0, sec := 0, scene := 0, lane := 0, deliver := 4, acc := [] }, { up with
      tiles := [(10559, { outs := [{ array := 1, sec := 0, scene := 0, lane := 0, deliver := 5, acc := [] },
        { array := 0, sec := 0, scene := 0, lane := 0, deliver := 4, acc := [] }] })] }, by decide +kernel⟩,
    ⟨0, 1, by decide⟩⟩

theorem witness_GroupsScrubberAndMonitor :
    (∃ (t : Nat) (s : State),
      t < Config.tiles ∧ s.fabric.active = none) ∧
    (∃ (t : Nat) (slot : Nat) (c : CueSheet) (s : State),
      t < Config.tiles ∧ s.fabric.active = some c ∧ (∀ v ∈ s.closeTimes c t slot, v < s.fabric.counter)) ∧
    (∃ (t : Nat) (slot : Nat) (c : CueSheet) (s : State) (v : Nat),
      t < Config.tiles ∧ s.fabric.active = some c ∧ v ∈ s.closeTimes c t slot ∧ s.fabric.counter ≤ v ∧
        (∀ w ∈ s.closeTimes c t slot, s.fabric.counter ≤ w → v ≤ w)) ∧
    (∃ (t : Nat) (slot : Nat) (g : AccGroup) (s : State),
      Map.get? (s.tile t).groups slot = some g ∧ g.isOpen = true ∧ g.draining = none) ∧
    (∃ (t : Nat) (slot : Nat) (g : AccGroup) (s : State) (x : Nat),
      Map.get? (s.tile t).groups slot = some g ∧ g.isOpen = true ∧ g.draining = none ∧ x ≠ t) ∧
    (∃ (t : Nat) (s : State),
      t < Config.tiles ∧ Nat.testBit (s.reg (tileReg t 0x16C)) 31 = true ∧ s.held = false ∧
        sramBank (16 * (s.tile t).scrubAt) ∉ s.banksUsed t ∧ (s.tile t).scrubAt + 1 < 12288 ∧
        (s.tile t).scrubAt ∉ (s.tile t).badWords) ∧
    (∃ (t : Nat) (s : State) (ecc : Nat),
      t < Config.tiles ∧ Nat.testBit (s.reg (tileReg t 0x16C)) 31 = true ∧ s.held = false ∧
        sramBank (16 * (s.tile t).scrubAt) ∉ s.banksUsed t ∧ (s.tile t).scrubAt + 1 < 12288 ∧ 2 ≤ ecc) ∧
    (∃ (t : Nat) (s : State) (ecc : Nat),
      t < Config.tiles ∧ Nat.testBit (s.reg (tileReg t 0x16C)) 31 = true ∧ s.held = false ∧
        sramBank (16 * (s.tile t).scrubAt) ∉ s.banksUsed t ∧ (s.tile t).scrubAt + 1 < 12288 ∧ ecc < 2 ∧
        (s.tile t).scrubAt ∈ (s.tile t).badWords) ∧
    (∃ (t : Nat) (s : State),
      t < Config.tiles ∧ Nat.testBit (s.reg (tileReg t 0x16C)) 31 = true ∧ s.held = false ∧
        sramBank (16 * (s.tile t).scrubAt) ∉ s.banksUsed t ∧ (s.tile t).scrubAt ∉ (s.tile t).badWords ∧
        (s.tile t).scrubAt + 1 = 12288) ∧
    (∃ (t : Nat) (s : State),
      t < Config.tiles ∧ (Nat.testBit (s.reg (tileReg t 0x16C)) 31 = false ∨ s.held = true ∨
        sramBank (16 * (s.tile t).scrubAt) ∈ s.banksUsed t)) ∧
    (∃ (t : Nat) (s : State),
      t < Config.tiles ∧ (s.tile t).statEnded = []) ∧
    (∃ (t : Nat) (w : Int × Nat × Nat) (rest : List (Int × Nat × Nat)) (s : State),
      t < Config.tiles ∧ (s.tile t).statEnded = w :: rest) :=
  ⟨⟨10559, up, by decide +kernel⟩,
    ⟨10558, 7, sheet1, { runs1 with
      fabric := { runs1.fabric with
        counter := 9 } }, by decide +kernel⟩,
    ⟨10558, 7, sheet1, { runs1 with
      fabric := { runs1.fabric with
        counter := 8 } }, 8, by decide +kernel⟩,
    ⟨10559, 7, { isOpen := true }, { up with
      tiles := [(10559, { groups := [(7, { isOpen := true })] })] }, by decide +kernel⟩,
    ⟨10559, 7, { isOpen := true }, { up with
      tiles := [(10559, { groups := [(7, { isOpen := true })] })] }, 0, by decide +kernel⟩,
    ⟨10559, { up with
      tiles := [(10559, { scrubAt := 12286 })]
      regs := [(tileReg 10559 0x16C, 0x80000000)] }, by decide +kernel⟩,
    ⟨10559, { up with
      tiles := [(10559, { scrubAt := 12286 })]
      regs := [(tileReg 10559 0x16C, 0x80000000)] }, 2, by decide +kernel⟩,
    ⟨10559, { up with
      tiles := [(10559, { scrubAt := 12286, badWords := [12286] })]
      regs := [(tileReg 10559 0x16C, 0x80000000)] }, 0, by decide +kernel⟩,
    ⟨10559, { up with
      tiles := [(10559, { scrubAt := 12287 })]
      regs := [(tileReg 10559 0x16C, 0x80000000)] }, by decide +kernel⟩,
    ⟨10559, { up with
      regs := [(tileReg 10559 0x16C, 0)] }, by decide +kernel⟩,
    ⟨10559, up, by decide +kernel⟩,
    ⟨10559, (5, 6, 7), [], { up with
      tiles := [(10559, { statEnded := [(5, 6, 7)] })] }, by decide +kernel⟩⟩

theorem witness_WingsAwaitTheirLines :
    (∃ (r : Nat) (target : Nat) (s : State),
      r < 320 ∧ target < 15 ∧ s.fabric.active = none) ∧
    (∃ (r : Nat) (target : Nat) (at_ : Nat) (c : CueSheet) (u : State) (s : State),
      u = s.advanceTo (at_ - c.lookahead) ∧ r < 320 ∧ target < 15 ∧ s.fabric.active = some c ∧
        (u.fabric.counter + c.lookahead < at_ ∨ at_ < (Map.getD u.fabric.wings r {}).issued)) ∧
    (∃ (r : Nat) (target : Nat) (at_ : Nat) (c : CueSheet) (u : State) (s : State),
      u = s.advanceTo (at_ - c.lookahead) ∧ r < 320 ∧ target < 15 ∧ s.fabric.active = some c ∧
        at_ ≤ u.fabric.counter + c.lookahead ∧ (Map.getD u.fabric.wings r {}).issued ≤ at_) ∧
    (∃ (r : Nat) (line : Nat) (s : State),
      r < 320 ∧ line < 4096 ∧ s.fabric.active = none) ∧
    (∃ (r : Nat) (line : Nat) (c : CueSheet) (s : State),
      r < 320 ∧ line < 4096 ∧ s.fabric.active = some c ∧
        s.nextUse r [line] = none) ∧
    (∃ (r : Nat) (line : Nat) (c : CueSheet) (s : State) (l : WingLine) (scene : Nat),
      r < 320 ∧ line < 4096 ∧ s.fabric.active = some c ∧ s.nextUse r [line] = some (l, scene)) ∧
    (∃ (r : Nat) (line : Nat) (c : CueSheet),
      c.compiled.blocks.find? (fun b => b.rowEnd == r && (has b.lines line || b.trailer == line)) = none) ∧
    (∃ (r : Nat) (at_ : Nat) (s : State),
      r < 320 ∧ (s.advanceTo (at_ - 8)).reached (at_ - 8) = true ∧ (s.advanceTo (at_ - 8)).fabric.counter ≤ at_) ∧
    (∃ (r : Nat) (at_ : Nat) (s : State),
      r < 320 ∧ ((s.advanceTo (at_ - 8)).reached (at_ - 8) = false ∨ at_ < (s.advanceTo (at_ - 8)).fabric.counter)) ∧
    (∃ (r : Nat) (at_ : Nat) (l : WingLine) (s : State),
      l ∈ s.wingDue r at_ ∧ l.inbound = true ∧ l.line ∉ (Map.getD s.fabric.wings r {}).ready) ∧
    (∃ (r : Nat) (at_ : Nat) (s : State),
      0 < ((s.wingDue r at_).filter (fun l => !l.inbound)).length ∧
        4096 < (Map.getD s.fabric.wings r {}).used + ((s.wingDue r at_).filter (fun l => !l.inbound)).length) ∧
    (∃ (r : Nat) (u : State) (v : State) (s : State),
      u = (match (Map.getD s.fabric.wings r {}).outbound with | { dest := .hbm a, data := data, .. } :: _ => { s with kv := { s.kv with hbm := memWriteList s.kv.hbm a data } } | { dest := .chorus index offset, scene := scene, data := data, .. } :: _ => s.chorusPut scene index offset data | _ => s) ∧
        v = u.modWing r (fun w => { w with outbound := w.outbound.drop 1, outCause := false }) ∧ r < 320) ∧
    (∃ (r : Nat) (s : State),
      r < 320 ∧ ((Map.getD s.fabric.wings r {}).inCause = true ∨ (Map.getD s.fabric.wings r {}).outCause = true)) ∧
    (∃ (r : Nat) (s : State),
      r < 320 ∧ (Map.getD s.fabric.wings r {}).inCause = false ∧ (Map.getD s.fabric.wings r {}).outCause = false) ∧
    (∃ (r : Nat) (target : Nat) (alive : Nat) (line : Nat) (u : State) (s : State),
      u = { s with fabric := { s.fabric with stepExpected := Map.put s.fabric.stepExpected (stepKey r target) ((alive + 1) % 65536) } } ∧
        r < 320 ∧ target < 15 ∧ line < 4096 ∧ alive = Map.getD s.fabric.stepExpected (stepKey r target) 0) ∧
    (∃ (r : Nat) (target : Nat) (alive : Nat) (line : Nat) (u : State) (s : State),
      u = { s with fabric := { s.fabric with stepExpected := Map.put s.fabric.stepExpected (stepKey r target) ((alive + 1) % 65536) } } ∧
        r < 320 ∧ target < 15 ∧ line < 4096 ∧ alive ≠ Map.getD s.fabric.stepExpected (stepKey r target) 0) :=
  ⟨⟨319, 14, up, by decide +kernel⟩,
    ⟨319, 14, 2049, sheet1, _, { runs1 with
      pwr := { runs1.pwr with
        stageStopped := true } }, rfl, by decide +kernel⟩,
    ⟨319, 14, 2048, sheet1, _, runs1, rfl, by decide +kernel⟩,
    ⟨319, 4095, up, by decide +kernel⟩,
    ⟨319, 4094, sheet1, runs1, by decide +kernel⟩,
    ⟨319, 4095, sheet1, runs1, line1, 0, by decide +kernel⟩,
    ⟨319, 4095, sheet1, by decide +kernel⟩,
    ⟨319, 8, runs1, by decide +kernel⟩,
    ⟨319, 9, { runs1 with
      pwr := { runs1.pwr with
        stageStopped := true } }, by decide +kernel⟩,
    ⟨319, 8, line1, runs1, by decide +kernel⟩,
    ⟨319, 8, { runs1 with
      fabric := { runs1.fabric with
        active := some { sheet1 with
 compiled := { sheet1.compiled with
 wingLines := [{ line1 with
 inbound := false }] } }
        wings := [(319, { lines := (List.range 4096).map (fun i => (i, [])) })] } }, by decide +kernel⟩,
    ⟨319, _, _, up, rfl, rfl, by decide +kernel⟩,
    ⟨319, { up with
      fabric := { up.fabric with
        wings := [(319, { outCause := true })] } }, by decide +kernel⟩,
    ⟨319, up, by decide +kernel⟩,
    ⟨319, 14, 0, 4095, _, up, rfl, by decide +kernel⟩,
    ⟨319, 14, 1, 4095, _, up, rfl, by decide +kernel⟩⟩

theorem witness_RehearsalsByTheirConditions :
    (∃ (e : Entry) (s : State),
      Begins e 0x52 false s ∧ e.op 8 2 < Config.tiles ∧ e.op 12 4 ≠ s.fabric.epoch) ∧
    (∃ (e : Entry) (s : State) (st : Status),
      Begins e 0x52 false s ∧ e.op 8 2 < Config.tiles ∧ e.op 12 4 = s.fabric.epoch ∧
        s.rehearsalRefused (e.op 8 2) = some st) ∧
    (∃ (e : Entry) (s : State),
      Begins e 0x52 false s ∧ e.op 8 2 < Config.tiles ∧ e.op 12 4 = s.fabric.epoch ∧
        s.rehearsalRefused (e.op 8 2) = none) ∧
    (∃ (e : Entry) (s : State),
      Begins e 0x52 false s ∧ e.op 8 2 = 0xFFFF ∧ e.op 16 4 ≤ 86400 ∧ e.op 12 4 = s.fabric.epoch) ∧
    (∃ (t : Nat) (k : Nat) (s : State),
      s.reg 0x20014 ≠ 0 ∧ s.firmwareRuns = true ∧ s.integ.fatalStop = false ∧ s.rehearsalBusy = false ∧
        k < Config.tiles ∧ t = (s.integ.lastRotated + 1 + k) % Config.tiles ∧ (s.tile t).router.fenced = false ∧
        rowOf t ∉ s.fabric.rowFaults ∧ s.rehearsalRefused t = none ∧
        (∀ i, i < k → (s.tile ((s.integ.lastRotated + 1 + i) % Config.tiles)).router.fenced = true)) ∧
    (∃ (s : State),
      s.reg 0x20014 = 0) ∧
    (∃ (found result : Nat) (digests : Map (List Nat)) (r : Rehearsal) (s : State),
      s.integ.rehearsal = some r ∧ r.passed = false ∧ s.firmwareRuns = true ∧
        (∀ c ∈ s.fabric.cutovers, c.rehearse = false) ∧ (s.tile r.tile).inReset = 0 ∧ found < 3 ∧
        result = (if found ≠ 1 ∧ s.readsBack r.tile digests = false then 3 else found)) ∧
    (∃ (t a : Nat) (g : JournalSlot) (digests : Map (List Nat)) (s : State),
      a < 8 ∧ s.gov t a = some g ∧ g.inProgress = false ∧ g.failed = false ∧ g.valid = true ∧
        Map.getD digests (8 * t + a) [] ≠ [] ∧ g.digest ∉ (Map.getD digests (8 * t + a) []).take 2) :=
  ⟨⟨ent 0x52 [(8, 2, 10559), (12, 4, 1)], live (ent 0x52 [(8, 2, 10559), (12, 4, 1)]), begins_of (by decide +kernel), by decide +kernel⟩,
    ⟨ent 0x52 [(8, 2, 10559)], live (ent 0x52 [(8, 2, 10559)]), .notReady, begins_of (by decide +kernel), by decide +kernel⟩,
    ⟨ent 0x52 [(8, 2, 10559)], { (live (ent 0x52 [(8, 2, 10559)])) with
      boot := { (live (ent 0x52 [(8, 2, 10559)])).boot with
        fws := .running, packVersion := 1 } }, begins_of (by decide +kernel), by decide +kernel⟩,
    ⟨ent 0x52 [(8, 2, 0xFFFF), (16, 4, 86400)], live (ent 0x52 [(8, 2, 0xFFFF), (16, 4, 86400)]), begins_of (by decide +kernel), by decide +kernel⟩,
    ⟨0, 0, { up with
      boot := { up.boot with
        fws := .running, packVersion := 1 }
      regs := [(0x20014, 1)] }, by decide +kernel⟩,
    ⟨up, by decide +kernel⟩,
    ⟨2, 3, [(84479, [5, 5])], { tile := 10559, job := none, trims := [], passed := false, pack := 1 }, { up with
      ldr := { up.ldr with journal := [(84479, ({ epoch := 1, digest := 6, valid := true, crcOk := true }, {}))] }
      integ := { up.integ with
        rehearsal := some { tile := 10559, job := none, trims := [], passed := false, pack := 1 } } }, by decide +kernel⟩,
    ⟨10559, 7, { epoch := 1, digest := 6, valid := true, crcOk := true }, [(84479, [5, 5])], { up with
      ldr := { up.ldr with journal := [(84479, ({ epoch := 1, digest := 6, valid := true, crcOk := true }, {}))] } },
      by decide +kernel⟩⟩

theorem witness_PoliciesQuietPeriodsAndSideband :
    (∃ (e : Entry) (x : Nat) (s : State),
      Begins e 0x90 false s ∧ Map.get? sourceSeverity (e.op 8 2) = some x ∧ 1 ≤ e.op 12 4 ∧ e.op 12 4 ≤ 10000 ∧
        e.op 11 1 < 32 ∧ Nat.testBit (e.op 11 1) 2 = false ∧ e.op 8 2 ∉ [57, 64, 70, 71] ∧ e.op 10 1 ≤ 3) ∧
    (∃ (e : Entry) (x : Nat) (s : State),
      Begins e 0x90 false s ∧ Map.get? sourceSeverity (e.op 8 2) = some x ∧ 1 ≤ e.op 12 4 ∧ e.op 12 4 ≤ 10000 ∧
        e.op 11 1 < 32 ∧ Nat.testBit (e.op 11 1) 2 = false ∧ e.op 8 2 ∈ [57, 64, 70, 71] ∧ e.op 10 1 < 3) ∧
    (∃ (n : Nat) (s : State),
      n < 512 ∧ s.inFault n = false) ∧
    (∃ (n : Nat) (s : State),
      n < 512 ∧ s.inFault n = true) ∧
    (∃ (s : State),
      s.powered = true ∧ s.boot.fws = .running) ∧
    (∃ (s : State),
      s.firmwareRuns = true) ∧
    (∃ (n : Nat) (s : State),
      s.firmwareRuns = true ∧ 1 ≤ n ∧ n ≤ 16) ∧
    (∃ (n : Nat) (s : State),
      s.firmwareRuns = true ∧ 1 ≤ n ∧ n ≤ 18) ∧
    (∃ (s : State),
      s.boot.config = none) ∧
    (∃ (a : Nat) (s : State),
      s.firmwareRuns = false ∧ a = s.smbusAddress) ∧
    (∃ (a : Nat) (s : State),
      s.firmwareRuns = true ∧ a ≠ s.smbusAddress) :=
  ⟨⟨ent 0x90 [(8, 2, 96), (10, 1, 3), (11, 1, 27), (12, 4, 10000)], 0, live (ent 0x90 [(8, 2, 96), (10, 1, 3), (11, 1, 27), (12, 4, 10000)]), begins_of (by decide +kernel), by decide +kernel⟩,
    ⟨ent 0x90 [(8, 2, 57), (10, 1, 2), (11, 1, 27), (12, 4, 10000)], 3, live (ent 0x90 [(8, 2, 57), (10, 1, 2), (11, 1, 27), (12, 4, 10000)]), begins_of (by decide +kernel), by decide +kernel⟩,
    ⟨511, up, by decide +kernel⟩,
    ⟨511, { up with
      regs := [(0x21FFC, 0x80000000)] }, by decide +kernel⟩,
    ⟨up, by decide +kernel⟩,
    ⟨up, by decide +kernel⟩,
    ⟨16, up, by decide +kernel⟩,
    ⟨18, up, by decide +kernel⟩,
    ⟨State.reset, by decide +kernel⟩,
    ⟨0x4C, State.reset, by decide +kernel⟩,
    ⟨0x4D, up, by decide +kernel⟩⟩

theorem witness_CountersWindowsAndCheckUnits :
    (∃ (v : Word) (i : Nat),
      Nat.testBit v.toNat 31 = false ∧ i < 240) ∧
    (∃ (v : Word) (i : Nat),
      Nat.testBit v.toNat 31 = true ∧ i < 240) ∧
    (∃ (w : Nat),
      w < 22) ∧
    (∃ (w : Nat) (s : State),
      w < 22 ∧ s.field (bwReg w 0) 31 1 = 0) ∧
    (∃ (w : Nat) (a : Nat) (b : Nat) (s : State),
      w < 22 ∧ s.field (bwReg w 0) 31 1 = 1 ∧ a < 2 ^ 64 ∧ b < 2 ^ 64) ∧
    (∃ (i : Nat) (s : State),
      i ∉ s.cnt.saturated) ∧
    (∃ (i : Nat) (s : State),
      i ∈ s.cnt.saturated) ∧
    (∃ (e : Nat) (c : Nat),
      e < 24 ∧ c < 4) ∧
    (∃ (e : Nat) (s : State),
      e < 24 ∧ s.fabric.active = none) ∧
    (∃ (e : Nat) (s : State),
      e < 24 ∧ s.fabric.active.isSome = true ∧ Nat.testBit (s.reg (chkReg e 0 0)) 31 = false) :=
  ⟨⟨239, 239, by decide +kernel⟩,
    ⟨0x80000000, 239, by decide +kernel⟩,
    ⟨21, by decide +kernel⟩,
    ⟨21, { up with
      regs := [(bwReg 21 0, 0)] }, by decide +kernel⟩,
    ⟨21, 2 ^ 64 - 1, 2 ^ 64 - 1, { up with
      regs := [(bwReg 21 0, 0x80000000)] }, by decide +kernel⟩,
    ⟨239, up, by decide +kernel⟩,
    ⟨239, { up with
      cnt := { up.cnt with
        saturated := [239] } }, by decide +kernel⟩,
    ⟨23, 3, by decide +kernel⟩,
    ⟨23, up, by decide +kernel⟩,
    ⟨23, { up with
      fabric := { up.fabric with
        active := some sheet0 } }, by decide +kernel⟩⟩

theorem witness_LanesTrainAndLock :
    (∃ (n : Nat) (s : State),
      n < Config.lanes ∧ (s.lane n).train = .off) ∧
    (∃ (n : Nat) (s : State),
      n < Config.lanes ∧ (s.lane n).train = .signalWait) ∧
    (∃ (n : Nat) (m : Nat),
      n < Config.lanes ∧ m ≠ n) ∧
    (∃ (n : Nat) (s : State),
      n < Config.lanes ∧ (s.lane n).train ≠ .off ∧ (s.lane n).train ≠ .signalWait) ∧
    (∃ (n : Nat) (s : State),
      n < Config.lanes ∧ (s.lane n).train ≠ .training) ∧
    (∃ (n : Nat) (s : State),
      n < Config.lanes ∧ (s.lane n).train = .training ∧ 3 ≤ s.portMode (n / 4)) ∧
    (∃ (n : Nat) (c : Nat) (s : State),
      n < Config.lanes ∧ (s.lane n).train = .training ∧ s.portMode (n / 4) < 3 ∧ bitsOf c 16 16 ≠ controlCrc c) ∧
    (∃ (n : Nat) (c : Nat) (s : State),
      n < Config.lanes ∧ (s.lane n).train = .training ∧ s.portMode (n / 4) < 3 ∧ bitsOf c 16 16 = controlCrc c ∧
        (s.lane n).lastApplied = some (bitsOf c 12 4)) ∧
    (∃ (n : Nat) (c : Nat) (s : State),
      n < Config.lanes ∧ (s.lane n).train = .training ∧ s.portMode (n / 4) < 3 ∧ bitsOf c 16 16 = controlCrc c ∧
        (s.lane n).lastApplied ≠ some (bitsOf c 12 4) ∧ requestTaps (s.reg (laneReg n 4)) (bitsOf c 0 3) (bitsOf c 3 2) = none) ∧
    (∃ (n : Nat) (c : Nat) (w : Nat) (s : State),
      n < Config.lanes ∧ (s.lane n).train = .training ∧ s.portMode (n / 4) < 3 ∧ bitsOf c 16 16 = controlCrc c ∧
        (s.lane n).lastApplied ≠ some (bitsOf c 12 4) ∧ requestTaps (s.reg (laneReg n 4)) (bitsOf c 0 3) (bitsOf c 3 2) = some w) ∧
    (∃ (w : Nat) (tap : Nat) (r : Nat) (v : Nat),
      r ≠ 0 ∧ r ≠ 3 ∧ requestTaps w tap r = some v) ∧
    (∃ (n : Nat) (s : State),
      n < Config.lanes ∧ (s.lane n).train = .training) ∧
    (∃ (n : Nat) (s : State),
      n < Config.lanes ∧ (s.lane n).train = .failed) ∧
    (∃ (n : Nat) (s : State),
      n < Config.lanes ∧ (s.lane n).train ≠ .failed) ∧
    (∃ (n : Nat) (s : State),
      n < Config.lanes ∧ (s.lane n).train = .locked) ∧
    (∃ (n : Nat) (s : State),
      n < Config.lanes ∧ (s.lane n).train ≠ .locked) ∧
    (∃ (n : Nat) (v : Word),
      n < Config.lanes ∧ bitsOf v.toNat 28 4 = 0 ∧ bitsOf v.toNat 26 1 = 0) ∧
    (∃ (n : Nat) (v : Word) (p : Nat) (s : State),
      n < Config.lanes ∧ bitsOf v.toNat 28 4 ≠ 0 ∧ bitsOf v.toNat 26 1 = 0 ∧ s.portOfLane n = some p) ∧
    (∃ (n : Nat) (v : Word) (s : State),
      n < Config.lanes ∧ bitsOf v.toNat 28 4 = 0 ∧ bitsOf v.toNat 26 1 = 1 ∧ s.portOfLane n = none) ∧
    (∃ (n : Nat) (k : Nat) (s : State),
      n < Config.lanes ∧ k = s.field (laneReg n 8) 0 16 ∧ s.field (laneReg n 0) 28 2 = 1) ∧
    (∃ (n : Nat) (k : Nat) (s : State),
      n < Config.lanes ∧ k = s.field (laneReg n 8) 0 16 ∧ s.field (laneReg n 0) 28 2 = 2) :=
  ⟨⟨31, up, by decide +kernel⟩,
    ⟨31, { up with
      net := { up.net with
        lanes := [(31, { train := .signalWait })] } }, by decide +kernel⟩,
    ⟨31, 0, by decide +kernel⟩,
    ⟨31, { up with
      net := { up.net with
        lanes := [(31, { train := .locked })] } }, by decide +kernel⟩,
    ⟨31, up, by decide +kernel⟩,
    ⟨31, { up with
      net := { up.net with
        lanes := [(31, { train := .training })] }
      regs := [(portConfig 7, 0x30000000)] }, by decide +kernel⟩,
    ⟨31, 0, { up with
      net := { up.net with
        lanes := [(31, { train := .training })] } }, by decide +kernel⟩,
    ⟨31, controlCrc 0xF000 * 65536 + 0xF000, { up with
      net := { up.net with
        lanes := [(31, { train := .training, lastApplied := some 15 })] } }, by decide +kernel⟩,
    ⟨31, controlCrc 0xF00D * 65536 + 0xF00D, { up with
      net := { up.net with
        lanes := [(31, { train := .training, lastApplied := some 14 })] } }, by decide +kernel⟩,
    ⟨31, controlCrc 0xF018 * 65536 + 0xF018, _, { up with
      net := { up.net with
        lanes := [(31, { train := .training })] } }, by decide, by decide +kernel, by decide +kernel, by decide +kernel, by decide +kernel, rfl⟩,
    ⟨48 * 64, 4, 1, _, by decide, by decide, rfl⟩,
    ⟨31, { up with
      net := { up.net with
        lanes := [(31, { train := .training })] } }, by decide +kernel⟩,
    ⟨31, { up with
      net := { up.net with
        lanes := [(31, { train := .failed })] } }, by decide +kernel⟩,
    ⟨31, up, by decide +kernel⟩,
    ⟨31, { up with
      net := { up.net with
        lanes := [(31, { train := .locked })] } }, by decide +kernel⟩,
    ⟨31, up, by decide +kernel⟩,
    ⟨31, 0, by decide +kernel⟩,
    ⟨31, 0xF0000000, 15, { up with
      regs := [(portConfig 7, 0x20000000)] }, by decide +kernel⟩,
    ⟨31, 0x04000000, up, by decide +kernel⟩,
    ⟨31, 0xFFFF, { up with
      regs := [(laneReg 31 8, 0xFFFF), (laneReg 31 0, 0x10000000)] }, by decide +kernel⟩,
    ⟨31, 0xFFFF, { up with
      regs := [(laneReg 31 8, 0xFFFF), (laneReg 31 0, 0x20000000)] }, by decide +kernel⟩⟩

theorem witness_PortsTakeModesAndComeUp :
    (∃ (e : Entry) (s : State),
      Begins e 0x71 false s ∧ e.op 8 1 = 0 ∧ e.op 9 1 ≤ 7 ∧ e.op 10 1 ≤ 2 ∧ s.portMode (e.op 9 1) ≤ 2 ∧
        e.op 10 1 ≠ s.portMode (e.op 9 1)) ∧
    (∃ (e : Entry) (s : State),
      Begins e 0x71 false s ∧ e.op 8 1 = 0 ∧
        (7 < e.op 9 1 ∨ 4 < e.op 10 1 ∨ (e.op 10 1 = 4 ∧ e.op 9 1 % 2 = 1) ∨ s.portMode (e.op 9 1) = 5)) ∧
    (∃ (e : Entry) (s : State),
      Begins e 0x71 false s ∧ e.op 8 1 = 3 ∧ e.op 9 1 < 16 ∧ e.op 10 1 = 4 ∧ e.op 36 1 ≤ 32) ∧
    (∃ (e : Entry) (s : State),
      Begins e 0x71 false s ∧ e.op 8 1 = 3 ∧ e.op 9 1 < 16 ∧ e.op 10 1 = 6 ∧ e.op 36 1 ≤ 128) ∧
    (∃ (p : Nat),
      p < 16) ∧
    (∃ (p : Nat) (s : State),
      p < 16 ∧ (s.port p).up = false ∧ s.portLanes p ≠ [] ∧
        (∀ n ∈ s.portLanes p, (s.lane n).train = .locked ∧ s.laneBlocked n = false)) ∧
    (∃ (p : Nat) (s : State),
      p < 16 ∧ (s.port p).up = true ∧ (s.port p).attempts ≠ 0 ∧ (s.port p).preempt = false) ∧
    (∃ (p : Nat) (s : State),
      p < 16 ∧ (s.port p).up = true ∧ (s.port p).attempts ≠ 0 ∧ (s.port p).preempt = false ∧
        (s.port p).attempts < 3) ∧
    (∃ (p : Nat) (s : State),
      p < 16 ∧ (s.port p).up = true ∧ (s.port p).attempts ≠ 0 ∧ (s.port p).preempt = false ∧
        3 ≤ (s.port p).attempts) :=
  ⟨⟨ent 0x71 [(9, 1, 7), (10, 1, 2)], live (ent 0x71 [(9, 1, 7), (10, 1, 2)]), begins_of (by decide +kernel), by decide +kernel⟩,
    ⟨ent 0x71 [(9, 1, 8)], live (ent 0x71 [(9, 1, 8)]), begins_of (by decide +kernel), by decide +kernel⟩,
    ⟨ent 0x71 [(8, 1, 3), (9, 1, 15), (10, 1, 4), (36, 1, 32)], live (ent 0x71 [(8, 1, 3), (9, 1, 15), (10, 1, 4), (36, 1, 32)]), begins_of (by decide +kernel), by decide +kernel⟩,
    ⟨ent 0x71 [(8, 1, 3), (9, 1, 15), (10, 1, 6), (36, 1, 128)], live (ent 0x71 [(8, 1, 3), (9, 1, 15), (10, 1, 6), (36, 1, 128)]), begins_of (by decide +kernel), by decide +kernel⟩,
    ⟨15, by decide +kernel⟩,
    ⟨15, { up with
      regs := [(portConfig 7, 0x20000000)]
      net := { up.net with
        lanes := [(30, { train := .locked }), (31, { train := .locked })] } }, by decide +kernel⟩,
    ⟨15, { up with
      net := { up.net with
        ports := [(15, { up := true, attempts := 1 })] } }, by decide +kernel⟩,
    ⟨15, { up with
      net := { up.net with
        ports := [(15, { up := true, attempts := 2 })] } }, by decide +kernel⟩,
    ⟨15, { up with
      net := { up.net with
        ports := [(15, { up := true, attempts := 3 })] } }, by decide +kernel⟩⟩

theorem witness_FlowControlOfTheLosslessClasses :
    (∃ (p : Nat) (classes : Nat) (s : State),
      p < 16 ∧ Nat.testBit classes (s.field 0xB0008 29 3) = true) ∧
    (∃ (p : Nat) (classes : Nat) (s : State),
      p < 16 ∧ Nat.testBit classes (s.field 0xB0008 29 3) = false) ∧
    (∃ (p : Nat) (c : Nat),
      p < 16 ∧ c < 2) ∧
    (∃ (p : Nat) (c : Nat) (x : Sent) (s : State),
      p < 16 ∧ c < 2 ∧ (s.port p).waiting = [(c, x)]) ∧
    (∃ (p : Nat) (c : Nat) (s : State),
      Nat.testBit (s.port p).paused c = true) ∧
    (∃ (p : Nat) (c : Nat) (s : State),
      Nat.testBit (s.port p).paused c = false) ∧
    (∃ (p : Nat) (c : Nat) (s : State),
      p < 16 ∧ c < 2 ∧ s.pfcOn c = false) ∧
    (∃ (p : Nat) (c : Nat) (occ : Nat) (s : State),
      p < 16 ∧ c < 2 ∧ s.pfcOn c = true ∧ 1048576 < occ) ∧
    (∃ (p : Nat) (c : Nat) (occ : Nat) (s : State),
      p < 16 ∧ c < 2 ∧ s.pfcOn c = true ∧ occ < 524288 ∧ Nat.testBit (s.port p).xoff c = true) ∧
    (∃ (p : Nat),
      p < 16) :=
  ⟨⟨15, 255, up, by decide +kernel⟩,
    ⟨15, 0, up, by decide +kernel⟩,
    ⟨15, 1, by decide +kernel⟩,
    ⟨15, 1, .verify 15, { up with
      net := { up.net with
        ports := [(15, { paused := 2, waiting := [(1, .verify 15)] })] } }, by decide +kernel⟩,
    ⟨15, 1, { up with
      net := { up.net with
        ports := [(15, { paused := 2 })] } }, by decide +kernel⟩,
    ⟨15, 0, { up with
      net := { up.net with
        ports := [(15, { paused := 2 })] } }, by decide +kernel⟩,
    ⟨15, 1, { up with
      regs := [(0xB0008, 0)] }, by decide +kernel⟩,
    ⟨15, 1, 1048577, { up with
      regs := [(0xB0008, 3)] }, by decide +kernel⟩,
    ⟨15, 1, 524287, { up with
      regs := [(0xB0008, 3)]
      net := { up.net with
        ports := [(15, { xoff := 2 })] } }, by decide +kernel⟩,
    ⟨15, by decide +kernel⟩⟩

theorem witness_HostFramesUseTheirRings :
    (∃ (e : Entry) (s : State),
      Begins e 0x71 false s ∧ e.op 8 1 = 4 ∧ (1 < e.op 9 1 ∨ e.op 10 2 < 64 ∨ 4096 < e.op 10 2 ∨ e.op 16 8 % 4096 ≠ 0)) ∧
    (∃ (e : Entry) (s : State),
      Begins e 0x71 false s ∧ e.op 8 1 = 4 ∧ 64 ≤ e.op 10 2 ∧ e.op 10 2 ≤ 4096 ∧ e.op 16 8 % 4096 = 0 ∧
        e.op 9 1 = 0) ∧
    (∃ (e : Entry) (s : State),
      Begins e 0x71 false s ∧ e.op 8 1 = 4 ∧ 64 ≤ e.op 10 2 ∧ e.op 10 2 ≤ 4096 ∧ e.op 16 8 % 4096 = 0 ∧
        e.op 9 1 = 1) ∧
    (∃ (rx : Bool) (v : Nat) (s : State),
      (s.hostRing rx).count ≤ v % 4096) ∧
    (∃ (rx : Bool) (v : Nat) (s : State),
      v % 4096 < (s.hostRing rx).count ∧ s.mayRequest = true) ∧
    (∃ (rx : Bool) (v : Nat) (s : State),
      v % 4096 < (s.hostRing rx).count ∧ s.mayRequest = false) ∧
    (∃ (p : Nat) (frame : List Byte),
      p < 16 ∧ 9212 < frame.length) ∧
    (∃ (p : Nat) (frame : List Byte),
      p < 16 ∧ frame.length < 60) ∧
    (∃ (p : Nat) (frame : List Byte) (s : State),
      p < 16 ∧ frame.length ≤ 9212 ∧ s.consumes frame = true) ∧
    (∃ (p : Nat) (frame : List Byte) (s : State),
      p < 16 ∧ 60 ≤ frame.length ∧ frame.length ≤ 9212 ∧ s.consumes frame = false ∧ s.mayRequest = false) ∧
    (∃ (p : Nat) (frame : List Byte) (s : State),
      p < 16 ∧ 60 ≤ frame.length ∧ frame.length ≤ 9212 ∧ s.consumes frame = false ∧ s.mayRequest = true ∧
        s.net.rxRing.queue = []) ∧
    (∃ (p : Nat) (frame : List Byte) (d : List Byte) (ds : List (List Byte)) (s : State),
      p < 16 ∧ 60 ≤ frame.length ∧ frame.length ≤ 9212 ∧ s.consumes frame = false ∧ s.mayRequest = true ∧
        s.net.rxRing.queue = d :: ds ∧ descriptorOk d = true ∧ fieldAt d 8 2 < frame.length) ∧
    (∃ (p : Nat) (frame : List Byte) (d : List Byte) (ds : List (List Byte)) (s : State),
      p < 16 ∧ 60 ≤ frame.length ∧ frame.length ≤ 9212 ∧ s.consumes frame = false ∧ s.mayRequest = true ∧
        s.net.rxRing.queue = d :: ds ∧ descriptorOk d = true ∧ frame.length ≤ fieldAt d 8 2) ∧
    (∃ (s : State),
      s.mayRequest = false) ∧
    (∃ (s : State),
      s.net.txRing.queue = []) ∧
    (∃ (d : List Byte) (s : State),
      s.mayRequest = true ∧ s.net.txRing.queue = [d] ∧ descriptorOk d = false) ∧
    (∃ (d : List Byte) (ds : List (List Byte)) (port : Nat) (s : State),
      s.mayRequest = true ∧ s.net.txRing.queue = d :: ds ∧ descriptorOk d = true ∧ port = fieldAt d 10 1 % 16 ∧
        60 ≤ fieldAt d 8 2 ∧ fieldAt d 8 2 ≤ 9212) ∧
    (∃ (d : List Byte) (ds : List (List Byte)) (port : Nat) (s : State),
      s.mayRequest = true ∧ s.net.txRing.queue = d :: ds ∧ descriptorOk d = true ∧ port = fieldAt d 10 1 % 16 ∧
        fieldAt d 8 2 < 60) ∧
    (∃ (d : List Byte) (ds : List (List Byte)) (port : Nat) (s : State),
      s.mayRequest = true ∧ s.net.txRing.queue = d :: ds ∧ descriptorOk d = true ∧ port = fieldAt d 10 1 % 16 ∧
        9212 < fieldAt d 8 2) :=
  ⟨⟨ent 0x71 [(8, 1, 4), (10, 2, 63), (16, 8, 4096)], live (ent 0x71 [(8, 1, 4), (10, 2, 63), (16, 8, 4096)]), begins_of (by decide +kernel), by decide +kernel⟩,
    ⟨ent 0x71 [(8, 1, 4), (10, 2, 4096), (16, 8, 4096)], live (ent 0x71 [(8, 1, 4), (10, 2, 4096), (16, 8, 4096)]), begins_of (by decide +kernel), by decide +kernel⟩,
    ⟨ent 0x71 [(8, 1, 4), (9, 1, 1), (10, 2, 64), (16, 8, 4096)], live (ent 0x71 [(8, 1, 4), (9, 1, 1), (10, 2, 64), (16, 8, 4096)]), begins_of (by decide +kernel), by decide +kernel⟩,
    ⟨true, 64, { up with
      net := { up.net with
        rxRing := { count := 64 } } }, by decide +kernel⟩,
    ⟨false, 63, { up with
      net := { up.net with
        txRing := { count := 64 } } }, by decide +kernel⟩,
    ⟨true, 63, { up with
      net := { up.net with
        rxRing := { count := 64 } }
      pcie := { up.pcie with
        busMaster := false } }, by decide +kernel⟩,
    ⟨15, List.replicate 9213 0, by decide +kernel⟩,
    ⟨15, List.replicate 59 0, by decide +kernel⟩,
    ⟨15, patch (List.replicate 60 0) [(12, 2, 0x0888)], up, by decide +kernel⟩,
    ⟨15, List.replicate 60 0, { up with
      pcie := { up.pcie with
        busMaster := false } }, by decide +kernel⟩,
    ⟨15, List.replicate 9212 0, up, by decide +kernel⟩,
    ⟨15, List.replicate 9212 0, withCrc (patch (List.replicate 28 0) [(8, 2, 9211)]), [], { up with
      net := { up.net with
        rxRing := { queue := [withCrc (patch (List.replicate 28 0) [(8, 2, 9211)])] } } }, by decide +kernel⟩,
    ⟨15, List.replicate 9212 0, withCrc (patch (List.replicate 28 0) [(8, 2, 9212)]), [], { up with
      net := { up.net with
        rxRing := { queue := [withCrc (patch (List.replicate 28 0) [(8, 2, 9212)])] } } }, by decide +kernel⟩,
    ⟨{ up with
      pcie := { up.pcie with
        busMaster := false } }, by decide +kernel⟩,
    ⟨up, by decide +kernel⟩,
    ⟨List.replicate 31 0, { up with
      net := { up.net with
        txRing := { queue := [List.replicate 31 0] } } }, by decide +kernel⟩,
    ⟨withCrc (patch (List.replicate 28 0) [(8, 2, 9212)]), [], 0, { up with
      net := { up.net with
        txRing := { queue := [withCrc (patch (List.replicate 28 0) [(8, 2, 9212)])] } } }, by decide +kernel⟩,
    ⟨withCrc (patch (List.replicate 28 0) [(8, 2, 59)]), [], 0, { up with
      net := { up.net with
        txRing := { queue := [withCrc (patch (List.replicate 28 0) [(8, 2, 59)])] } } }, by decide +kernel⟩,
    ⟨withCrc (patch (List.replicate 28 0) [(8, 2, 9213)]), [], 0, { up with
      net := { up.net with
        txRing := { queue := [withCrc (patch (List.replicate 28 0) [(8, 2, 9213)])] } } }, by decide +kernel⟩⟩

theorem witness_QueuePairsServeAndRecover :
    (∃ (e : Entry) (s : State),
      Begins e 0x71 false s ∧ e.op 8 1 = 1 ∧ (4095 < e.op 10 2 ∨ 15 < e.op 12 1 ∨ 2 < e.op 39 1 ∨ 31 < e.op 43 1 ∨
        (e.op 13 1 ≠ 4 ∧ e.op 13 1 ≠ 6))) ∧
    (∃ (e : Entry) (s : State),
      Begins e 0x71 false s ∧ e.op 8 1 = 1 ∧ e.op 10 2 ≤ 4095 ∧ e.op 12 1 ≤ 15 ∧ e.op 39 1 ≤ 2 ∧ e.op 43 1 ≤ 31 ∧
        (e.op 13 1 = 4 ∨ e.op 13 1 = 6) ∧ (∀ x ∈ s.net.qps, x.1 = e.op 10 2 → x.2.error = true)) ∧
    (∃ (e : Entry) (s : State),
      Begins e 0x71 false s ∧ e.op 8 1 = 1 ∧ e.op 10 2 ≤ 4095 ∧ e.op 12 1 ≤ 15 ∧ e.op 39 1 ≤ 2 ∧ e.op 43 1 ≤ 31 ∧
        (e.op 13 1 = 4 ∨ e.op 13 1 = 6) ∧ (∃ x ∈ s.net.qps, x.1 = e.op 10 2 ∧ x.2.error = false)) ∧
    (∃ (e : Entry) (s : State),
      Begins e 0x71 false s ∧ e.op 8 1 = 2 ∧ 4095 < e.op 10 2) ∧
    (∃ (e : Entry) (s : State),
      Begins e 0x71 false s ∧ e.op 8 1 = 2 ∧ e.op 10 2 ≤ 4095) ∧
    (∃ (n : Nat) (port : Nat) (q : QueuePair) (s : State),
      port < 16 ∧ Map.get? s.net.qps n = some q ∧ q.error = false) ∧
    (∃ (n : Nat) (port : Nat) (q : QueuePair) (s : State),
      port < 16 ∧ Map.get? s.net.qps n = some q ∧ q.error = true) ∧
    (∃ (n : Nat) (port : Nat) (s : State),
      port < 16 ∧ Map.get? s.net.qps n = none) ∧
    (∃ (n : Nat) (psn : Nat) (addr : Nat) (len : Nat) (rkey : Nat) (q : QueuePair) (s : State),
      psn = q.recvPsn ∧ q.inbound = none ∧ s.readsOut n q < 16 ∧ rkey = q.rkey ∧ addr + len ≤ 2 ^ 32) ∧
    (∃ (n : Nat) (psn : Nat) (addr : Nat) (len : Nat) (rkey : Nat) (q : QueuePair) (s : State),
      psn = q.recvPsn ∧ q.inbound = none ∧ s.readsOut n q < 16 ∧ rkey ≠ q.rkey ∧ addr + len ≤ 2 ^ 32) ∧
    (∃ (n : Nat) (psn : Nat) (addr : Nat) (len : Nat) (rkey : Nat) (q : QueuePair) (s : State),
      psn = q.recvPsn ∧ q.inbound = none ∧ s.readsOut n q < 16 ∧ rkey = q.rkey ∧ 2 ^ 32 < addr + len) ∧
    (∃ (n : Nat) (psn : Nat) (q : QueuePair) (s : State),
      psn = q.recvPsn ∧ 16 ≤ s.readsOut n q) ∧
    (∃ (n : Nat) (psn : Nat) (addr : Nat) (data : List Byte) (q : QueuePair) (u : State) (s : State),
      Map.get? s.net.qps n = some q ∧ psn = q.recvPsn ∧ q.inbound = none ∧ u = s.ethIn q.port (3, some n) data ∧
        data.length ≤ q.mtu ∧ addr + data.length ≤ 2 ^ 32 ∧ Nat.testBit (s.port q.port).paused 1 = false) ∧
    (∃ (n : Nat) (psn : Nat) (addr : Nat) (len : Nat) (data : List Byte) (q : QueuePair) (u : State) (s : State),
      Map.get? s.net.qps n = some q ∧ psn = q.recvPsn ∧ q.inbound = none ∧ u = s.ethIn q.port (3, some n) data ∧
        data.length = q.mtu ∧ q.mtu < len ∧ addr + len ≤ 2 ^ 32) ∧
    (∃ (n : Nat) (psn : Nat) (addr : Nat) (rkey : Nat) (data : List Byte) (q : QueuePair) (u : State) (s : State),
      Map.get? s.net.qps n = some q ∧ psn = q.recvPsn ∧ q.inbound = none ∧ u = s.ethIn q.port (3, some n) data ∧
        data.length ≤ q.mtu ∧ (rkey ≠ q.rkey ∨ 2 ^ 32 < addr + data.length)) ∧
    (∃ (a : Nat) (x : Nat) (bs : List Byte),
      (x < a ∨ a + bs.length ≤ x)) ∧
    (∃ (a x n : Nat) (s : State),
      stagingAddr 0 ≤ x ∧ x < stagingAddr (2 ^ 32) ∧ a ≤ x ∧ x < a + n ∧ s.bar2Blocked x = false ∧ s.mapPlace x = none) ∧
    (∃ (addr : Nat) (q : QueuePair) (p : Nat × PacketPart × List Byte) (s : State),
      s.kv.checks (stagingAddr (addr + p.1 * q.mtu)) p.2.2.length = false) ∧
    (∃ (addr : Nat) (q : QueuePair) (p : Nat × PacketPart × List Byte) (s : State),
      s.kv.checks (stagingAddr (addr + p.1 * q.mtu)) p.2.2.length = true) ∧
    (∃ (psn : Nat) (data : List Byte) (q : QueuePair),
      psn = q.recvPsn ∧ q.inbound = none ∧ data.length ≤ 256) ∧
    (∃ (psn : Nat) (data : List Byte) (q : QueuePair),
      psn = q.recvPsn ∧ q.inbound = none ∧ 256 < data.length) ∧
    (∃ (psn : Nat) (q : QueuePair),
      psn ≠ q.recvPsn ∧ psnFrom psn q.recvPsn = true) ∧
    (∃ (n : Nat) (psn : Nat) (q : QueuePair) (again : List (Nat × Sent)) (s : State),
      Map.get? s.net.qps n = some q ∧ q.error = false ∧ again = q.unacked.filter (fun p => psnFrom p.1 psn) ∧ again = []) ∧
    (∃ (n : Nat) (psn : Nat) (q : QueuePair) (again : List (Nat × Sent)) (s : State),
      Map.get? s.net.qps n = some q ∧ q.error = false ∧ again = q.unacked.filter (fun p => psnFrom p.1 psn) ∧ again ≠ [] ∧ 7 ≤ q.retries) ∧
    (∃ (n : Nat) (psn : Nat) (q : QueuePair) (again : List (Nat × Sent)) (s : State),
      Map.get? s.net.qps n = some q ∧ q.error = false ∧ again = q.unacked.filter (fun p => psnFrom p.1 psn) ∧ again ≠ [] ∧ q.retries < 7) ∧
    (∃ (n : Nat) (q : QueuePair) (s : State),
      n < 4096 ∧ Map.get? s.net.qps n = some q ∧ q.error = true) ∧
    (∃ (n : Nat) (q : QueuePair) (s : State),
      n < 4096 ∧ Map.get? s.net.qps n = some q ∧ q.rate < s.portRate q.port) ∧
    (∃ (n : Nat) (q : QueuePair) (s : State),
      n < 4096 ∧ Map.get? s.net.qps n = some q ∧ s.portRate q.port ≤ q.rate) ∧
    (∃ (n : Nat) (s : State),
      n < 4096 ∧ Map.get? s.net.qps n = none) :=
  ⟨⟨ent 0x71 [(8, 1, 1), (10, 2, 4096), (12, 1, 15), (13, 1, 4), (39, 1, 2), (43, 1, 31)], live (ent 0x71 [(8, 1, 1), (10, 2, 4096), (12, 1, 15), (13, 1, 4), (39, 1, 2), (43, 1, 31)]), begins_of (by decide +kernel), by decide +kernel⟩,
    ⟨ent 0x71 [(8, 1, 1), (10, 2, 4095), (12, 1, 15), (13, 1, 6), (39, 1, 2), (43, 1, 31)], { live (ent 0x71 [(8, 1, 1), (10, 2, 4095), (12, 1, 15), (13, 1, 6), (39, 1, 2), (43, 1, 31)]) with
      net := { (live (ent 0x71 [(8, 1, 1), (10, 2, 4095), (12, 1, 15), (13, 1, 6), (39, 1, 2), (43, 1, 31)])).net with
        qps := [(4095, { qp0 with error := true })] } }, begins_of (by decide +kernel), by decide +kernel⟩,
    ⟨ent 0x71 [(8, 1, 1), (10, 2, 4095), (12, 1, 15), (13, 1, 4), (39, 1, 2), (43, 1, 31)], { live (ent 0x71 [(8, 1, 1), (10, 2, 4095), (12, 1, 15), (13, 1, 4), (39, 1, 2), (43, 1, 31)]) with
      net := { (live (ent 0x71 [(8, 1, 1), (10, 2, 4095), (12, 1, 15), (13, 1, 4), (39, 1, 2), (43, 1, 31)])).net with
        qps := [(4095, qp0)] } }, begins_of (by decide +kernel), by decide +kernel⟩,
    ⟨ent 0x71 [(8, 1, 2), (10, 2, 4096)], live (ent 0x71 [(8, 1, 2), (10, 2, 4096)]), begins_of (by decide +kernel), by decide +kernel⟩,
    ⟨ent 0x71 [(8, 1, 2), (10, 2, 4095)], live (ent 0x71 [(8, 1, 2), (10, 2, 4095)]), begins_of (by decide +kernel), by decide +kernel⟩,
    ⟨4095, 15, qp0, { up with
      net := { up.net with
        qps := [(4095, qp0)] } }, by decide +kernel⟩,
    ⟨4095, 15, { qp0 with error := true }, { up with
      net := { up.net with
        qps := [(4095, { qp0 with error := true })] } }, by decide +kernel⟩,
    ⟨4095, 15, up, by decide +kernel⟩,
    ⟨4095, 0, 2 ^ 32 - 1, 1, 5, qp0, up, by decide +kernel⟩,
    ⟨4095, 0, 0, 1, 6, qp0, up, by decide +kernel⟩,
    ⟨4095, 0, 2 ^ 32, 1, 5, qp0, up, by decide +kernel⟩,
    ⟨4095, 0, qp0, { up with
      net := { up.net with
        ports := [(0, { waiting := List.replicate 16 (1, .inClass 0 0 2 (.roceResponse 4095 0 .only [])) })] } }, by decide +kernel⟩,
    ⟨4095, 0, 2 ^ 32 - 2, [1, 2], qp0, _, { up with
      net := { up.net with
        qps := [(4095, qp0)] } }, rfl, rfl, rfl, rfl, by decide +kernel⟩,
    ⟨4095, 0, 2 ^ 32 - 3, 3, [1, 2], qp0, _, { up with
      net := { up.net with
        qps := [(4095, qp0)] } }, rfl, rfl, rfl, rfl, by decide +kernel⟩,
    ⟨4095, 0, 2 ^ 32 - 1, 5, [1, 2], qp0, _, { up with
      net := { up.net with
        qps := [(4095, qp0)] } }, rfl, rfl, rfl, rfl, by decide +kernel⟩,
    ⟨5, 7, [1, 2], by decide +kernel⟩,
    ⟨stagingAddr (2 ^ 32 - 1), stagingAddr (2 ^ 32 - 1), 1, up, by decide +kernel⟩,
    ⟨0, qp0, (1, .only, [1, 2]), { up with kv := { up.kv with unchecked := [stagingAddr 0 + qp0.mtu + 1] } }, by decide +kernel⟩,
    ⟨0, qp0, (1, .only, [1, 2]), { up with kv := { up.kv with unchecked := [stagingAddr 0 + qp0.mtu + 2] } }, by decide +kernel⟩,
    ⟨0, List.replicate 256 0, qp0, by decide +kernel⟩,
    ⟨0, List.replicate 257 0, qp0, by decide +kernel⟩,
    ⟨8388607, qp0, by decide +kernel⟩,
    ⟨4095, 0, qp0, _, { up with
      net := { up.net with
        qps := [(4095, qp0)] } }, rfl, rfl, rfl, by decide +kernel⟩,
    ⟨4095, 9, { qp0 with retries := 7, unacked := [(9, .verify 0)] }, _, { up with
      net := { up.net with
        qps := [(4095, { qp0 with retries := 7, unacked := [(9, .verify 0)] })] } }, rfl, rfl, rfl, by decide +kernel⟩,
    ⟨4095, 9, { qp0 with retries := 6, unacked := [(9, .verify 0)] }, _, { up with
      net := { up.net with
        qps := [(4095, { qp0 with retries := 6, unacked := [(9, .verify 0)] })] } }, rfl, rfl, rfl, by decide +kernel⟩,
    ⟨4095, { qp0 with error := true }, { up with
      net := { up.net with
        qps := [(4095, { qp0 with error := true })] } }, by decide +kernel⟩,
    ⟨4095, qp0, { up with
      net := { up.net with
        qps := [(4095, qp0)] }
      regs := [(portConfig 0, 0x10000000)] }, by decide +kernel⟩,
    ⟨4095, qp0, { up with
      net := { up.net with
        qps := [(4095, qp0)] } }, by decide +kernel⟩,
    ⟨4095, up, by decide +kernel⟩⟩

theorem witness_ChorusGroupsAndSteps :
    (∃ (e : Entry) (s : State),
      Begins e 0x70 true s ∧ e.op 8 1 < 2 ∧ 2 ≤ e.op 12 2 ∧ e.op 12 2 ≤ 1024 ∧ e.op 14 2 < e.op 12 2 ∧
        e.op 16 8 % 64 = 0 ∧ s.net.bound = some (e.op 8 1)) ∧
    (∃ (e : Entry) (bs : List Byte) (s : State),
      Begins e 0x70 true s ∧ e.op 8 1 < 2 ∧ 2 ≤ e.op 12 2 ∧ e.op 12 2 ≤ 1024 ∧ e.op 14 2 < e.op 12 2 ∧
        e.op 16 8 % 64 = 0 ∧ s.net.bound ≠ some (e.op 8 1) ∧
        (∀ i, i < e.op 12 2 → memberRecordOk (sliceBytes bs (32 * i) 32) = true)) ∧
    (∃ (index : Nat) (scene : Nat) (s : State),
      s.stepAt index scene = none) ∧
    (∃ (index : Nat) (scene : Nat) (s : State) (v : Nat),
      s.stepAt index scene = some v ∧ (s.advanceTo v).reached v = true) ∧
    (∃ (index : Nat) (scene : Nat) (s : State) (v : Nat),
      s.stepAt index scene = some v ∧ (s.advanceTo v).reached v = false) ∧
    (∃ (s : State),
      s.boundGroup = none) ∧
    (∃ (index : Nat) (scene : Nat) (b : Nat × ChorusGroup) (c : CueSheet) (p : StepSlot) (s : State),
      s.boundGroup = some b ∧ s.fabric.active = some c ∧ c.compiled.steps[index]? = some p ∧
        Map.get? s.net.early s.net.nextStep = none ∧ (index, scene) ∈ s.net.opened) ∧
    (∃ (index : Nat) (scene : Nat) (b : Nat × ChorusGroup) (c : CueSheet) (p : StepSlot) (s : State),
      s.boundGroup = some b ∧ s.fabric.active = some c ∧ c.compiled.steps[index]? = some p ∧
        Map.get? s.net.early s.net.nextStep = none ∧ (index, scene) ∉ s.net.opened) ∧
    (∃ (n : Nat) (i : Nat) (g : ChorusGroup) (x : Step) (s : State),
      s.boundGroup = some (i, g) ∧ s.liveStep? n = some x ∧
        (∀ r ∈ x.plan.expected g, r.2.2.1 < r.2.2.2 → r.2.2.2 ≤ r.2.2.1 + 8192 ∧ x.holds r = true)) ∧
    (∃ (n : Nat) (i : Nat) (g : ChorusGroup) (x : Step) (s : State) (r : Nat × Nat × Nat × Nat),
      s.boundGroup = some (i, g) ∧ s.liveStep? n = some x ∧ x.plan.expected g = [r] ∧ r.2.2.1 < r.2.2.2 ∧
        r.2.2.2 ≤ r.2.2.1 + 8192 ∧ x.holds r = false) ∧
    (∃ (n : Nat) (i : Nat) (g : ChorusGroup) (x : Step) (s : State),
      s.boundGroup = some (i, g) ∧ s.liveStep? n = some x) ∧
    (∃ (n : Nat) (i : Nat) (g : ChorusGroup) (x : Step) (s : State),
      s.boundGroup = some (i, g) ∧ s.liveStep? n = some x ∧
        (4 ≤ x.notices ∨ x.stalled = false ∨ (x.sent = true ∧ x.gathered = true))) ∧
    (∃ (n : Nat) (i : Nat) (g : ChorusGroup) (x : Step) (s : State),
      s.boundGroup = some (i, g) ∧ s.liveStep? n = some x ∧ x.notices < 4 ∧ x.stalled = true ∧
        (x.sent = false ∨ x.gathered = false)) ∧
    (∃ (n : Nat) (s : State),
      (s.boundGroup = none ∨ s.liveStep? n = none)) ∧
    (∃ (n : Nat) (x : Step) (s : State),
      s.liveStep? n = some x) ∧
    (∃ (n : Nat) (s : State),
      s.liveStep? n = none) :=
  ⟨⟨ent 0x70 [(8, 1, 1), (12, 2, 1024), (14, 2, 1023), (16, 8, 64)], { (live (ent 0x70 [(8, 1, 1), (12, 2, 1024), (14, 2, 1023), (16, 8, 64)])) with
      net := { (live (ent 0x70 [(8, 1, 1), (12, 2, 1024), (14, 2, 1023), (16, 8, 64)])).net with
        bound := some 1 } }, begins_of (by decide +kernel), by decide +kernel⟩,
    ⟨ent 0x70 [(8, 1, 1), (12, 2, 2), (14, 2, 1), (16, 8, 64)], patch (List.replicate 64 0) [(1, 1, 4), (32, 1, 15), (33, 1, 6)], live (ent 0x70 [(8, 1, 1), (12, 2, 2), (14, 2, 1), (16, 8, 64)]), begins_of (by decide +kernel), by decide +kernel⟩,
    ⟨1, 0, runs1, by decide +kernel⟩,
    ⟨0, 0, runs1, 0, by decide +kernel⟩,
    ⟨0, 0, { runs1 with
      pwr := { runs1.pwr with
        stageStopped := true } }, 0, by decide +kernel⟩,
    ⟨up, by decide +kernel⟩,
    ⟨0, 0, (1, { identity := 1, size := 2, own := 0, members := [] }), sheet1, step1, { runs1 with
      net := { runs1.net with
        bound := some 1, groups := [(1, { identity := 1, size := 2, own := 0, members := [] })], opened := [(0, 0)] } }, by decide +kernel⟩,
    ⟨0, 0, (1, { identity := 1, size := 2, own := 0, members := [] }), sheet1, step1, { runs1 with
      net := { runs1.net with
        bound := some 1, groups := [(1, { identity := 1, size := 2, own := 0, members := [] })] } }, by decide +kernel⟩,
    ⟨5, 1, { identity := 1, size := 2, own := 0, members := [] }, { number := 5, plan := { index := 0, collective := 5, bytes := 64, root := 1, peer := 0, format := 0, scene := 0, own := none }, base := 100, deadline := 100, frags := [{ op := 6, src := 1, offset := 0, data := List.replicate 64 1 }] }, { up with
      net := { up.net with
        bound := some 1, groups := [(1, { identity := 1, size := 2, own := 0, members := [] })], steps := [{ number := 5, plan := { index := 0, collective := 5, bytes := 64, root := 1, peer := 0, format := 0, scene := 0, own := none }, base := 100, deadline := 100, frags := [{ op := 6, src := 1, offset := 0, data := List.replicate 64 1 }] }] } }, by decide +kernel⟩,
    ⟨5, 1, { identity := 1, size := 2, own := 0, members := [] }, { number := 5, plan := { index := 0, collective := 5, bytes := 64, root := 1, peer := 0, format := 0, scene := 0, own := none }, base := 100, deadline := 100 }, { up with
      net := { up.net with
        bound := some 1, groups := [(1, { identity := 1, size := 2, own := 0, members := [] })], steps := [{ number := 5, plan := { index := 0, collective := 5, bytes := 64, root := 1, peer := 0, format := 0, scene := 0, own := none }, base := 100, deadline := 100 }] } }, (6, 1, 0, 64), by decide +kernel⟩,
    ⟨5, 1, { identity := 1, size := 2, own := 0, members := [] }, { number := 5, plan := { index := 0, collective := 5, bytes := 64, root := 1, peer := 0, format := 0, scene := 0, own := none }, base := 100, deadline := 100 }, { up with
      net := { up.net with
        bound := some 1, groups := [(1, { identity := 1, size := 2, own := 0, members := [] })], steps := [{ number := 5, plan := { index := 0, collective := 5, bytes := 64, root := 1, peer := 0, format := 0, scene := 0, own := none }, base := 100, deadline := 100 }] } }, by decide +kernel⟩,
    ⟨5, 1, { identity := 1, size := 2, own := 0, members := [] }, { number := 5, plan := { index := 0, collective := 5, bytes := 64, root := 1, peer := 0, format := 0, scene := 0, own := none }, base := 100, deadline := 100, notices := 4 }, { up with
      net := { up.net with
        bound := some 1, groups := [(1, { identity := 1, size := 2, own := 0, members := [] })], steps := [{ number := 5, plan := { index := 0, collective := 5, bytes := 64, root := 1, peer := 0, format := 0, scene := 0, own := none }, base := 100, deadline := 100, notices := 4 }] } }, by decide +kernel⟩,
    ⟨5, 1, { identity := 1, size := 2, own := 0, members := [] }, { number := 5, plan := { index := 0, collective := 5, bytes := 64, root := 1, peer := 0, format := 0, scene := 0, own := none }, base := 100, deadline := 100, stalled := true }, { up with
      net := { up.net with
        bound := some 1, groups := [(1, { identity := 1, size := 2, own := 0, members := [] })], steps := [{ number := 5, plan := { index := 0, collective := 5, bytes := 64, root := 1, peer := 0, format := 0, scene := 0, own := none }, base := 100, deadline := 100, stalled := true }] } }, by decide +kernel⟩,
    ⟨5, up, by decide +kernel⟩,
    ⟨5, { number := 5, plan := { index := 0, collective := 5, bytes := 64, root := 1, peer := 0, format := 0, scene := 0, own := none }, base := 100, deadline := 100 }, { up with
      net := { up.net with
        steps := [{ number := 5, plan := { index := 0, collective := 5, bytes := 64, root := 1, peer := 0, format := 0, scene := 0, own := none }, base := 100, deadline := 100 }] } }, by decide +kernel⟩,
    ⟨5, { up with
      net := { up.net with
        steps := [{ number := 5, plan := { index := 0, collective := 5, bytes := 64, root := 1, peer := 0, format := 0, scene := 0, own := none }, base := 100, deadline := 100, closed := true }], requested := [(5, 1, 0)] } }, by decide +kernel⟩⟩


theorem witness_ChorusFramesByTheirCounters :
    (∃ (ok : Bool) (bs : List Byte),
      (ok = false ∨ bs.length < 40 ∨ crcTrailed (bs.take 32) = false)) ∧
    (∃ (ce : Bool) (bs : List Byte) (s : State),
      40 ≤ bs.length ∧ crcTrailed (bs.take 32) = true ∧ (s.countCe ce).groupOf (readFrame bs) = none) ∧
    (∃ (ce : Bool) (bs : List Byte) (s : State) (i : Nat) (g : ChorusGroup),
      40 ≤ bs.length ∧ crcTrailed (bs.take 32) = true ∧ (s.countCe ce).groupOf (readFrame bs) = some (i, g)) ∧
    (∃ (f : ChorusFrame) (g : ChorusGroup),
      f.retransmit = false ∧ aliveRepeats (Map.get? g.recvAlive f.src) f.alive = true) ∧
    (∃ (f : ChorusFrame) (i : Nat) (g : ChorusGroup) (s : State),
      f.retransmit = false ∧ aliveRepeats (Map.get? g.recvAlive f.src) f.alive = false ∧ s.net.bound ≠ some i) ∧
    (∃ (f : ChorusFrame) (i : Nat) (g : ChorusGroup) (s : State),
      f.retransmit = false ∧ aliveRepeats (Map.get? g.recvAlive f.src) f.alive = false ∧ s.net.bound = some i) ∧
    (∃ (f : ChorusFrame) (g : ChorusGroup),
      f.digest = crc64 f.payload ∧ f.op = 0x07 ∧ g.own ≠ 0 ∧ f.src = 0 ∧ f.retransmit = false) ∧
    (∃ (f : ChorusFrame),
      f.digest = crc64 f.payload ∧ f.op = 0x10) ∧
    (∃ (f : ChorusFrame),
      f.digest = crc64 f.payload ∧ f.op = 0x12) ∧
    (∃ (f : ChorusFrame),
      f.digest = crc64 f.payload ∧ 1 ≤ f.op ∧ f.op ≤ 6) ∧
    (∃ (f : ChorusFrame),
      f.digest = crc64 f.payload ∧ (0x12 < f.op ∨ f.op = 0)) ∧
    (∃ (a : Nat) (l : Nat),
      a < 65536 ∧ l < 65536) :=
  ⟨⟨true, List.replicate 39 0, by decide +kernel⟩,
    ⟨false, withCrc (patch (List.replicate 28 0) [(2, 2, 1), (4, 2, 1)]) ++ List.replicate 8 0, up, by decide +kernel⟩,
    ⟨false, withCrc (patch (List.replicate 28 0) [(2, 2, 1), (4, 2, 1)]) ++ List.replicate 8 0, { up with
      net := { up.net with
        bound := some 1, groups := [(1, { identity := 1, size := 2, own := 0, members := [], recvAlive := [(1, 5)] })] } }, 1, { identity := 1, size := 2, own := 0, members := [], recvAlive := [(1, 5)] }, by decide +kernel⟩,
    ⟨{ op := 1, group := 1, src := 1, dst := 0, stepNo := 0, alive := 5, offset := 0, length := 0, last := false, retransmit := false, format := 0, extend := 0, payload := [], digest := 0 }, { identity := 1, size := 2, own := 0, members := [], recvAlive := [(1, 5)] }, by decide +kernel⟩,
    ⟨{ op := 1, group := 1, src := 1, dst := 0, stepNo := 0, alive := 6, offset := 0, length := 0, last := false, retransmit := false, format := 0, extend := 0, payload := [], digest := 0 }, 1, { identity := 1, size := 2, own := 0, members := [], recvAlive := [(1, 5)] }, up, by decide +kernel⟩,
    ⟨{ op := 1, group := 1, src := 1, dst := 0, stepNo := 0, alive := 6, offset := 0, length := 0, last := false, retransmit := false, format := 0, extend := 0, payload := [], digest := 0 }, 1, { identity := 1, size := 2, own := 0, members := [], recvAlive := [(1, 5)] }, { up with
      net := { up.net with
        bound := some 1, groups := [(1, { identity := 1, size := 2, own := 0, members := [], recvAlive := [(1, 5)] })] } }, by decide +kernel⟩,
    ⟨{ op := 7, group := 1, src := 0, dst := 0, stepNo := 0, alive := 0, offset := 0, length := 0, last := false, retransmit := false, format := 0, extend := 0, payload := [], digest := 0 }, { identity := 1, size := 2, own := 1, members := [] }, by decide +kernel⟩,
    ⟨{ op := 16, group := 1, src := 1, dst := 0, stepNo := 0, alive := 0, offset := 0, length := 0, last := false, retransmit := false, format := 0, extend := 0, payload := [], digest := 0 }, by decide +kernel⟩,
    ⟨{ op := 18, group := 1, src := 1, dst := 0, stepNo := 0, alive := 0, offset := 0, length := 0, last := false, retransmit := false, format := 0, extend := 0, payload := [], digest := 0 }, by decide +kernel⟩,
    ⟨{ op := 6, group := 1, src := 1, dst := 0, stepNo := 0, alive := 0, offset := 0, length := 0, last := false, retransmit := false, format := 0, extend := 0, payload := [], digest := 0 }, by decide +kernel⟩,
    ⟨{ op := 255, group := 1, src := 1, dst := 0, stepNo := 0, alive := 0, offset := 0, length := 0, last := false, retransmit := false, format := 0, extend := 0, payload := [], digest := 0 }, by decide +kernel⟩,
    ⟨65535, 65535, by decide +kernel⟩⟩

theorem witness_BallsByTheirCoordinates :
    (∃ (i : Nat) (j : Nat),
      ballPopulated i j = true) ∧
    (∃ (i : Nat) (j : Nat) (k : Nat) (l : Nat),
      ballPopulated i j = true ∧ ballPopulated k l = true ∧ ballIndex i j = ballIndex k l) ∧
    (∃ (n : Nat),
      1 ≤ n ∧ n ≤ 3120) ∧
    (∃ (p : Quadrant) (q : Quadrant) (i : Nat) (j : Nat) (k : Nat) (l : Nat),
      ballPopulated i j = true ∧ ballPopulated k l = true ∧ ballPosition p i j = ballPosition q k l) ∧
    (∃ (i : Nat) (j : Nat),
      ballPopulated i j = true) ∧
    (∃ (i : Nat) (j : Nat),
      ballPopulated i j = true ∧ 9 ≤ i ∧ 9 ≤ j ∧ (i + j) % 2 = 1) :=
  ⟨⟨40, 59, by decide +kernel⟩,
    ⟨40, 59, 40, 59, by decide +kernel⟩,
    ⟨3120, by decide +kernel⟩,
    ⟨.nw, .nw, 59, 40, 59, 40, by decide +kernel⟩,
    ⟨59, 40, by decide +kernel⟩,
    ⟨59, 40, by decide +kernel⟩⟩

theorem witness_LevelsConvertToTheirCounts :
    (∃ (n : Int) (v : Int),
      -64 ≤ n ∧ n ≤ 63 ∧ (2 * n - 1) * 268435456 ≤ v ∧ v < (2 * n + 1) * 268435456) ∧
    (∃ (n : Int) (v : Int),
      -127 ≤ n ∧ n ≤ 127 ∧ (2 * n - 1) * 134217728 ≤ v ∧ v < (2 * n + 1) * 134217728) ∧
    (∃ (n : Int) (v : Int),
      -32 ≤ n ∧ n ≤ 32 ∧ (2 * n - 1) * 268435456 ≤ v ∧ v < (2 * n + 1) * 268435456) ∧
    (∃ (g : Nat),
      g < 1024) ∧
    (∃ (v : Int) (w : Nat),
      w < 2 ^ 32 ∧ -2147483648 ≤ signedOf 32 w + v ∧ signedOf 32 w + v ≤ 2147483647) ∧
    (∃ (v : Int) (w : Nat),
      w < 2 ^ 32 ∧ 2147483647 < signedOf 32 w + v) ∧
    (∃ (v : Int) (w : Nat),
      w < 2 ^ 32 ∧ signedOf 32 w + v < -2147483648) :=
  ⟨⟨63, 33822867456, by decide +kernel⟩,
    ⟨127, 34091302912, by decide +kernel⟩,
    ⟨-32, -17448304640, by decide +kernel⟩,
    ⟨1023, by decide +kernel⟩,
    ⟨0, 4294967295, by decide +kernel⟩,
    ⟨2147483648, 0, by decide +kernel⟩,
    ⟨-2147483649, 0, by decide +kernel⟩⟩

end Sys2Proof.Tests
end

section
/-! SUPPORT. What the reset state holds and returns (R11). -/
namespace Sys2Proof.Machine

/-- Settles O6: the reset state lists nothing, so each structure is empty by its definition, and each word read is evaluated from the
Reset column of its row. -/
theorem resetState : Obligations.ResetState := by
  unfold Obligations.ResetState
  refine ⟨rfl, rfl, rfl, rfl, rfl, rfl, rfl, rfl, rfl, rfl, rfl, ?_⟩
  decide

end Sys2Proof.Machine
end

section
/-!
SUPPORT. Host accesses of the registers that are held as words (R9, R382): which accesses reach BAR0, what a word's write comes to at a
register without a rule of its own, what the bits of a row do, and what a read latches or clears.
-/
namespace Sys2Proof.Machine

theorem exec_registerWrite (o size : Nat) (v high : Word) (s : State) :
    exec (.registerWrite o v size high) s = execRegisterWrite o v size high s := rfl
theorem exec_rcRead (o size : Nat) (s : State) : exec (.rcRead o size) s = execRcRead o size s := rfl
theorem exec_shadowLoRead (o : Nat) (s : State) : exec (.shadowLoRead o) s = execShadowLoRead o s := rfl
theorem exec_prmSeqSelect (v : Word) (s : State) : exec (.prmSeqSelect v) s = execPrmSeqSelect v s := rfl

/-- An access of 4 bytes reaches BAR0 where it is aligned. -/
@[simp] theorem accessOk_word (o : Nat) (w : Bool) : accessOk o 4 w = decide (o % 4 = 0) := by
  by_cases h : o % 4 = 0
  · simp [accessOk, h]
  · simp [accessOk, h]

/-- An access that is unaligned, or of neither 4 nor 8 bytes, does not reach BAR0. -/
theorem accessOk_eq_false {o size : Nat} (w : Bool) (h : o % 4 ≠ 0 ∨ (size ≠ 4 ∧ size ≠ 8)) : accessOk o size w = false := by
  rcases h with h | ⟨h4, h8⟩
  · have h' : o % 8 ≠ 0 := by omega
    simp [accessOk, h, h']
  · simp [accessOk, h4, h8]

/-- An aligned access of 8 bytes in the MSI-X table reaches BAR0. -/
theorem accessOk_msix {o : Nat} (w : Bool) (h : o % 8 = 0) (lo : 0x1C000 ≤ o) (hi : o < 0x1C400) : accessOk o 8 w = true := by
  simp [accessOk, h, lo, hi]

/-- A write that does not reach BAR0 changes nothing. -/
theorem execRegisterWrite_dropped {o size : Nat} (v high : Word) (s : State) (h : accessOk o size true = false) :
    execRegisterWrite o v size high s = .next s := by
  simp [execRegisterWrite, h]

/-- A read that does not reach BAR0 returns zero. -/
theorem execRcRead_dropped {o size : Nat} (s : State) (h : accessOk o size false = false) :
    execRcRead o size s = .next (s.returnData 0) := by
  simp [execRcRead, h]

/-- An aligned write of 4 bytes writes its word. -/
theorem execRegisterWrite_word {o : Nat} (v high : Word) (s : State) (h : o % 4 = 0) :
    execRegisterWrite o v 4 high s = .next (s.writeWord o v.toNat) := by
  simp [execRegisterWrite, h]

/-- A write of 8 bytes that reaches BAR0 writes its two words, the lower one first. -/
theorem execRegisterWrite_pair {o : Nat} (v high : Word) (s : State) (h : accessOk o 8 true = true) :
    execRegisterWrite o v 8 high s = .next ((s.writeWord o v.toNat).writeWord (o + 4) high.toNat) := by
  simp [execRegisterWrite, h]

/-- Whether a write of a word at an offset follows the access types of its row alone: it lies in no tile window, MSI-X table, ring
pair, lane block, check-value unit or FWS block, and its write is no command of its own. -/
def plainWord (o : Nat) : Bool :=
  !ownRow o && (tileAt o).isNone && (chkAt o).isNone && decide (o / 65536 ≠ 0xD) && decide (o ≠ 0xB0008) &&
    !(decide (0x10000 ≤ o) && decide (o < 0x1C400)) && !(decide (0xB2000 ≤ o) && decide (o < 0xB2800))

/-- A write of a plain word is a write of its register. -/
theorem State.writeWord_of_plainWord {o : Nat} (s : State) (v : Nat) (h : plainWord o = true) :
    s.writeWord o v = s.writeReg o v := by
  simp only [plainWord, Bool.and_eq_true, Bool.not_eq_true', Option.isNone_iff_eq_none, decide_eq_true_eq,
    Bool.and_eq_false_iff, decide_eq_false_iff_not] at h
  obtain ⟨⟨⟨⟨⟨⟨own, tile⟩, chk⟩, fws⟩, net⟩, mbx⟩, lane⟩ := h
  have reach : s.reaches o = true := by simp [State.reaches, tile]
  have window : ¬(0xD8000 ≤ o ∧ o < 0xE0000) := by omega
  have ring : ¬(0x10000 ≤ o ∧ o < 0x10400 ∧ o % 0x40 < 0x18) := by omega
  have msix : ¬(0x1C000 ≤ o ∧ o < 0x1C400) := by omega
  have txeq : ¬(0xB2000 ≤ o ∧ o < 0xB2800 ∧ o % 0x40 = 4) := by omega
  simp [State.writeWord, own, reach, fws, window, net, ring, msix, chk, txeq]

/-- A write of a register goes by the row that its offset names. -/
theorem State.writeReg_of_row {o i j : Nat} {r : RegRow} (s : State) (v : Nat) (h : regRow? o = some (r, i, j)) :
    s.writeReg o v = s.setReg o (r.written (s.reg o) v) := by
  simp [State.writeReg, h]

/-- A register whose reset value is a word holds a word. -/
theorem State.reg_lt {o : Nat} (s : State) (h : regReset o < 2 ^ 32) : s.reg o < 2 ^ 32 := by
  unfold State.reg
  split
  · next w _ => exact w.isLt
  · exact h

@[simp] theorem clearBits_zero_right (v : Nat) : clearBits v 0 = v := by simp [clearBits]
@[simp] theorem clearBits_zero_left (m : Nat) : clearBits 0 m = 0 := by simp [clearBits]

/-- Clearing all 32 bits of a word leaves none. -/
theorem clearBits_ones {v : Nat} (h : v < 2 ^ 32) : clearBits v 0xFFFFFFFF = 0 := by
  have : v &&& 0xFFFFFFFF = v := by
    rw [show (0xFFFFFFFF : Nat) = 2 ^ 32 - 1 from rfl, Nat.and_two_pow_sub_one_eq_mod, Nat.mod_eq_of_lt h]
  simp [clearBits, this]

/-- No field is kept where each lies in its range. -/
theorem guards_foldl_of_ok {v : Nat} (gs : List (Nat × Nat × Nat × Nat)) (m : Nat) (h : ∀ g ∈ gs, guardOk v g = true) :
    gs.foldl (fun m g => if guardOk v g then m else m ||| fieldMask g) m = m := by
  induction gs generalizing m with
  | nil => rfl
  | cons g gs ih =>
    rw [List.foldl_cons, if_pos (h g List.mem_cons_self)]
    exact ih m (fun x hx => h x (List.mem_cons_of_mem _ hx))

/-- A register whose bits are all RW takes the word written, where every field of it lies in its range. -/
theorem RegRow.written_rw {r : RegRow} {old v : Nat} (rw : r.rw = 0xFFFFFFFF) (w1c : r.w1c = 0) (hold : old < 2 ^ 32)
    (hv : v < 2 ^ 32) (hg : ∀ g ∈ r.guards, guardOk v g = true) : r.written old v = v := by
  have hand : v &&& 0xFFFFFFFF = v := by
    rw [show (0xFFFFFFFF : Nat) = 2 ^ 32 - 1 from rfl, Nat.and_two_pow_sub_one_eq_mod, Nat.mod_eq_of_lt hv]
  simp [RegRow.written, guards_foldl_of_ok r.guards 0 hg, rw, w1c, clearBits_ones hold, hand]

/-- A register without RW bits loses the W1C bits where a 1 is written, and nothing else. -/
theorem RegRow.written_w1c {r : RegRow} (old v : Nat) (rw : r.rw = 0) :
    r.written old v = old - (old &&& (v &&& r.w1c)) := by
  simp [RegRow.written, rw, clearBits]

/-- Settles O17: each of the three registers is a plain word, so its write is what its row's bits make of it; an access that does not
reach BAR0 is dropped, and one of 8 bytes is two of 4. -/
theorem registerWriteByAccessType : Obligations.RegisterWriteByAccessType := by
  unfold Obligations.RegisterWriteByAccessType
  simp only [exec_registerWrite, exec_rcRead]
  refine ⟨fun v s => ?_, fun v s => ?_, fun v s lo hi => ?_, fun o size v high s h => ?_, fun o v high s h => ?_,
    fun k v high s h => ?_⟩
  · rw [execRegisterWrite_word v 0 s rfl, s.writeWord_of_plainWord _ (by decide),
      s.writeReg_of_row (i := 0) (j := 0) _ (by rfl), RegRow.written_rw rfl rfl (s.reg_lt (by decide)) v.isLt (by simp)]
  · rw [execRegisterWrite_word v 0 s rfl, s.writeWord_of_plainWord _ (by decide),
      s.writeReg_of_row (i := 0) (j := 0) _ (by rfl), RegRow.written_w1c _ _ rfl]
  · have hv := v.isLt
    rw [execRegisterWrite_word v 0 s rfl, s.writeWord_of_plainWord _ (by decide),
      s.writeReg_of_row (i := 0) (j := 0) _ (by rfl), RegRow.written_rw rfl rfl (s.reg_lt (by decide)) v.isLt]
    simp [guardOk, bitsOf, Nat.shiftRight_eq_div_pow]
    omega
  · exact ⟨execRegisterWrite_dropped v high s (accessOk_eq_false _ h), execRcRead_dropped s (accessOk_eq_false _ h)⟩
  · exact execRegisterWrite_word v high s h
  · rw [execRegisterWrite_pair v high s (accessOk_msix _ (by omega) (by omega) (by omega)),
      show 0x1C000 + 8 * k + 4 = 0x1C004 + 8 * k by omega]

/-- The reads of an offset outside the lane blocks check no pattern. -/
theorem State.countPattern_other {o : Nat} (s : State) (h : o < 0xB2000) : s.countPattern o = s := by
  have : ¬(0xB2000 ≤ o ∧ o < 0xB2800 ∧ o % 0x40 = 8 ∧
      (s.field (laneReg ((o - 0xB2000) / 0x40) 0) 28 2 = 1 ∨ s.field (laneReg ((o - 0xB2000) / 0x40) 0) 28 2 = 2)) := by omega
  simp only [State.countPattern, if_neg this]

/-- Below the tile windows an offset lies in none. -/
theorem tileAt_of_below {o : Nat} (h : o < 0x01000000) : tileAt o = none := if_neg (by omega)

/-- Below the tile windows a host access reaches its register. -/
theorem State.reaches_of_below {o : Nat} (s : State) (h : o < 0x01000000) : s.reaches o = true := by
  simp [State.reaches, tileAt_of_below h]

/-- A read of a word below the lane blocks returns it, and clears its read-to-clear bits as the same access. -/
theorem execRcRead_word {o : Nat} (s : State) (aligned : o % 4 = 0) (below : o < 0xB2000) :
    execRcRead o 4 s = .next
      ((if rcBits o = 0 then s else s.setReg o (clearBits (s.reg o) (rcBits o))).returnData (s.hostRead o)) := by
  have reach : s.reaches o = true := s.reaches_of_below (by omega)
  by_cases h : rcBits o = 0
  · simp [execRcRead, aligned, s.countPattern_other below, h]
  · simp [execRcRead, aligned, s.countPattern_other below, reach, h]

/-- A read of a LO word latches its HI word. -/
theorem execShadowLoRead_latches {o hi : Nat} (s : State) (h : s.liveHi o = some hi) :
    execShadowLoRead o s =
      .next ({ s with shadows := Map.put s.shadows (o + 4) (BitVec.ofNat 32 hi) }.returnData (s.hostRead o)) := by
  simp [execShadowLoRead, h]

/-- Settles O18: a read-to-clear read by its row's bits, a LO read by the HI word behind it, and PRM_SEQ_SELECT by the entry
that the last scene change left. -/
theorem readsClearLatchAndSelect : Obligations.ReadsClearLatchAndSelect := by
  unfold Obligations.ReadsClearLatchAndSelect
  simp only [exec_rcRead, exec_shadowLoRead, exec_prmSeqSelect]
  refine ⟨fun s => ?_, fun s => ?_, fun s => ?_, fun v s q h => ?_, fun v s h => ?_⟩
  · rw [execRcRead_word s rfl (by decide), if_neg (by decide)]
    rfl
  · rw [execRcRead_word s rfl (by decide), if_pos (by decide)]
    rfl
  · exact execShadowLoRead_latches s (hi := s.prm.scCount / 2 ^ 32 % 2 ^ 32) rfl
  · simp [execPrmSeqSelect, h]
  · simp [execPrmSeqSelect, h]

end Sys2Proof.Machine
end

section
/-!
SUPPORT. The resets that the package's power brings (R411, R424, R532, R533): what the array cells and the registers of a tile are after a
full reset, and what the ROM makes of a state when it passes.
-/
namespace Sys2Proof

/-- A value that passes a test is found where entries whose values fail it have gone and the values were changed. -/
theorem Map.get?_map_filter {α β : Type} (p : α → Bool) (f : α → β) {m : Map α} {i : Nat} {v : α} (h : Map.get? m i = some v)
    (hv : p v = true) : Map.get? ((m.filter (fun e => p e.2)).map (fun e => (e.1, f e.2))) i = some (f v) := by
  induction m with
  | nil => simp [Map.get?] at h
  | cons x m ih =>
    obtain ⟨k, w⟩ := x
    simp only [Map.get?] at h
    rw [List.filter_cons]
    by_cases hk : k = i
    · rw [if_pos hk, Option.some.injEq] at h
      simp [h, hv, Map.get?, hk]
    · rw [if_neg hk] at h
      split
      · simp [Map.get?, hk, ih h]
      · exact ih h

end Sys2Proof

namespace Sys2Proof.Machine

theorem exec_powerDown (s : State) : exec .powerDown s = execPowerDown s := rfl
theorem exec_railLoss (s : State) : exec .railLoss s = execRailLoss s := rfl
theorem exec_coldReset (selfTest identity : Bool) (b : List Byte) (s : State) :
    exec (.coldReset selfTest identity b) s = execColdReset selfTest identity b s := rfl

/-- A tile after every listed one was changed, where the change leaves a tile at its reset values as it is. -/
theorem State.tile_mapTiles (s : State) {f : Nat → Tile → Tile} {x : Nat} (h : f x {} = {}) :
    (s.mapTiles f).tile x = f x (s.tile x) := by
  unfold State.tile State.mapTiles Map.getD
  rw [Map.get?_mapVals]
  cases Map.get? s.tiles x with
  | none => exact h.symm
  | some y => rfl

/-- A full reset keeps the array cells of a tile. -/
theorem State.full_cells (s : State) (chip : Bool) (x : Nat) :
    ((s.full chip).tile x).cells = (s.tile x).cells ∨ (s.tile x).cells = [] := by
  by_cases programmed : (s.tile x).cells = []
  · exact .inr programmed
  · left
    unfold State.tile Map.getD at programmed ⊢
    cases h : Map.get? s.tiles x with
    | none => exact absurd (by rw [h]; rfl) programmed
    | some v =>
      have kept : Map.get? (s.full chip).tiles x = some { cells := v.cells } :=
        Map.get?_map_filter (fun y : Tile => !y.cells.isEmpty) (fun y : Tile => ({ cells := y.cells } : Tile)) h
          (by simpa [h] using programmed)
      rw [kept]
      rfl

/-- A register after a full reset: its word where the reset keeps it, else its reset value. -/
theorem State.full_reg (s : State) (chip : Bool) (o : Nat) :
    (s.full chip).reg o = if keptFull chip o = true then s.reg o else regReset o := by
  unfold State.reg State.full
  simp only [Map.get?_dropKeys]
  cases keptFull chip o <;> rfl

/-- Power-good comes back with no reset ball asserted: the full reset, and the ROM runs. -/
theorem execColdReset_released {s : State} (selfTest identity : Bool) (b : List Byte) (good : s.pwr.powerGood = false)
    (perst : s.pwr.perst = false) (sys : s.pwr.sysRst = false) :
    execColdReset selfTest identity b s =
      .next ({ s.full false with pwr := { (s.full false).pwr with powerGood := true, rails := true } }.rom selfTest identity b) := by
  have balls : ((s.full false).pwr.perst || (s.full false).pwr.sysRst) = false := by
    show (s.pwr.perst || s.pwr.sysRst) = false
    simp [perst, sys]
  simp [execColdReset, good, balls]

/-- Settles O26: the loss of power-good touches the stage clock and the programming attempts alone; rail loss and cold reset are
the full reset, after which a ROM that passes brings up only its own fields. -/
theorem powerLossAndColdReset : Obligations.PowerLossAndColdReset := by
  unfold Obligations.PowerLossAndColdReset
  simp only [exec_powerDown, exec_railLoss, exec_coldReset]
  refine ⟨fun s good => ?_, fun s => ?_, fun b s good perst sys => ?_⟩
  · refine ⟨_, if_neg (by simp [good]), rfl, rfl, rfl, rfl, fun x => ?_⟩
    rw [State.tile_mapTiles _ rfl]
    exact ⟨rfl, rfl⟩
  · exact ⟨_, rfl, rfl, rfl, rfl, rfl, rfl, rfl, rfl, s.full_cells false⟩
  · refine ⟨_, execColdReset_released true true b good perst sys, rfl, rfl, rfl, rfl, rfl, rfl, s.full_cells false, rfl, rfl,
      rfl, rfl, rfl, rfl, rfl, rfl, rfl, rfl, ?_, ?_, ?_⟩
    · exact (s.full_reg false 0xC).trans (if_neg (by decide))
    · exact (s.full_reg false 0x410).trans (if_neg (by decide))
    · exact (s.full_reg false (tileReg 7 0x124)).trans (if_pos (by decide))

end Sys2Proof.Machine
end

section
/-!
SUPPORT. Block resets (R57, R62, R151, R197, R370, R423, R424): what each kind does to its block, by one lemma per operation, and which of
them an asked-for reset comes to.
-/
namespace Sys2Proof.Machine

theorem exec_blockReset (k i : Nat) (s : State) : exec (.blockReset k i) s = execBlockReset k i s := rfl
theorem exec_blockResetEnd (k i : Nat) (ds : Map (List Nat)) (s : State) :
    exec (.blockResetEnd k i ds) s = execBlockResetEnd k i ds s := rfl

/-- A byte of a memory of which the cells have gone whose address fails a test. -/
theorem memRead_filter (m : List Host.Cell) (p : Nat → Bool) (a : Nat) :
    memRead (m.filter (fun e => p e.1)) a = if p a = true then memRead m a else 0 := by
  induction m with
  | nil => simp [memRead]
  | cons x m ih =>
    obtain ⟨k, v⟩ := x
    rw [List.filter_cons]
    by_cases hk : k = a
    · subst hk
      cases hp : p k <;> simp [memRead, ih, hp]
    · cases hp : p k <;> simp [memRead, ih, hk]

/-! ### The reset of a tile domain -/

@[simp] theorem State.clearRegs_tiles (s : State) (p : Nat → Bool) : (s.clearRegs p).tiles = s.tiles := rfl
@[simp] theorem State.clearRegs_net (s : State) (p : Nat → Bool) : (s.clearRegs p).net = s.net := rfl
@[simp] theorem State.clearRegs_integ (s : State) (p : Nat → Bool) : (s.clearRegs p).integ = s.integ := rfl

@[simp] theorem State.untaint_tiles (s : State) (m : Mvm) : (s.untaint m).tiles = s.tiles := by
  unfold State.untaint
  split
  · simp
  · rfl

@[simp] theorem State.settleCauses_tiles (s : State) : s.settleCauses.tiles = s.tiles := by
  simp [State.settleCauses]

@[simp] theorem State.streamDone_tiles (s : State) : s.streamDone.tiles = s.tiles := by
  simp [State.streamDone]

@[simp] theorem State.restream_tiles (s : State) (t : Nat) : (s.restream t).tiles = s.tiles := by
  unfold State.restream
  split <;> rfl

/-- The reset of a tile domain puts its own tile in place, and touches no other. -/
theorem State.resetTile_tiles (s : State) (kind t : Nat) :
    (s.resetTile kind t).tiles = Map.put s.tiles t ((s.tile t).blockReset kind) := by
  unfold State.resetTile
  simp only [State.syncMgmt_tiles, State.restream_tiles, State.streamDone_tiles, State.settleCauses_tiles, State.setTile]
  cases (s.tile t).mvm <;> simp only [State.clearRegs_tiles, State.untaint_tiles]

theorem State.tile_resetTile (s : State) (kind t u : Nat) :
    (s.resetTile kind t).tile u = if t = u then (s.tile t).blockReset kind else s.tile u := by
  rw [State.tile, State.resetTile_tiles]
  exact Map.getD_put _ _ _ _ _

/-- Folding over tiles, each once, an operation that changes its own tile alone. -/
theorem foldl_tile {f : State → Nat → State} {g : Tile → Tile}
    (hf : ∀ s t u, (f s t).tile u = if t = u then g (s.tile t) else s.tile u) {ts : List Nat} (distinct : ts.Nodup) (s : State)
    (u : Nat) : (ts.foldl f s).tile u = if u ∈ ts then g (s.tile u) else s.tile u := by
  induction ts generalizing s with
  | nil => simp
  | cons t ts ih =>
    obtain ⟨fresh, distinct⟩ := List.nodup_cons.1 distinct
    rw [List.foldl_cons, ih distinct, hf]
    by_cases h : t = u
    · subst h
      simp [fresh]
    · simp [h, Ne.symm h]

/-! ### Which block a reset covers, and what it does to each kind -/

/-- The tiles of a row's reset are those of the row. -/
theorem mem_resetTiles_row (r t : Nat) : t ∈ resetTiles 1 r ↔ rowOf t = r := by
  simp only [resetTiles, rowOf, Config.cols, List.mem_map, List.mem_range]
  constructor
  · rintro ⟨c, hc, rfl⟩
    omega
  · intro h
    exact ⟨t % 66, by omega, by omega⟩

/-- A row's reset names each tile once. -/
theorem nodup_resetTiles_row (r : Nat) : (resetTiles 1 r).Nodup :=
  List.Pairwise.map _ (fun _ _ distinct h => distinct (Nat.add_left_cancel h)) List.nodup_range

/-- The failure of the scenes in flight that a block reset interrupts leaves the tiles alone. -/
theorem State.tile_ite_failScenes (s : State) (c : Bool) (p : Nat → Bool) (source u : Nat) :
    (if c = true then s.failScenes p source else s).tile u = s.tile u :=
  State.tile_congr (by simp) u

/-- The block reset of a tile resets its domain, and no other. -/
theorem State.tile_blockReset_tile (s : State) (t u : Nat) :
    (s.blockReset 0 t).tile u = if t = u then (s.tile t).blockReset 1 else s.tile u := by
  unfold State.blockReset
  simp only [resetTiles, List.foldl_cons, List.foldl_nil]
  rw [if_neg (by decide), State.tile_resetTile]
  simp only [State.tile_ite_failScenes]

/-- The block reset of a row resets its tiles and then their routers. -/
theorem State.blockReset_row_tiles (s : State) (r : Nat) :
    (s.blockReset 1 r).tiles =
      ((resetTiles 1 r).foldl (fun s t => s.modTile t (fun x => { x with router := x.router.rowReset }))
        ((resetTiles 1 r).foldl (fun s t => s.resetTile 2 t)
          (if s.interrupts 1 (resetTiles 1 r) = true then s.failScenes (fun _ => true) 512 else s))).tiles := by
  unfold State.blockReset
  simp only [if_true, State.syncMgmt_tiles]

/-- After the block reset of a row each of its tiles is reset with its router, and every other tile is as it was. -/
theorem State.tile_blockReset_row (s : State) (r u : Nat) :
    (s.blockReset 1 r).tile u =
      if rowOf u = r then { (s.tile u).blockReset 2 with router := (s.tile u).router.rowReset } else s.tile u := by
  rw [State.tile_congr (s.blockReset_row_tiles r), foldl_tile (fun s t u => State.tile_modTile s t u _) (nodup_resetTiles_row r),
    foldl_tile (g := fun x => x.blockReset 2) (fun s t u => State.tile_resetTile s 2 t u) (nodup_resetTiles_row r)]
  simp only [State.tile_ite_failScenes, mem_resetTiles_row]
  split <;> rfl

/-- The block reset of a row clears its fault. -/
theorem State.rowFaults_blockReset_row (s : State) (r : Nat) : r ∉ (s.blockReset 1 r).fabric.rowFaults := by
  unfold State.blockReset
  simp [State.syncMgmt, without]

/-- A reset without tiles interrupts no scene. -/
theorem State.interrupts_no_tile (s : State) {k : Nat} (h : k ≠ 1) : s.interrupts k [] = false := by
  simp [State.interrupts, h]

theorem State.blockReset_portDie (s : State) (d : Nat) : s.blockReset 2 d = s.resetPortDie d := by
  simp [State.blockReset, resetTiles, s.interrupts_no_tile (k := 2) (by decide)]

theorem State.blockReset_stack (s : State) (k : Nat) : s.blockReset 3 k = s.resetStack k := by
  simp [State.blockReset, resetTiles, s.interrupts_no_tile (k := 3) (by decide)]

/-- A port die's reset takes its ports and lanes. -/
theorem State.port_resetPortDie (s : State) {d p : Nat} (h : p / 8 = d) : (s.resetPortDie d).port p = {} := by
  simp [State.resetPortDie, State.port, Map.getD, Map.get?_dropKeys, h]

theorem State.lane_resetPortDie (s : State) {d n : Nat} (h : n / 16 = d) : (s.resetPortDie d).lane n = {} := by
  simp [State.resetPortDie, State.lane, Map.getD, Map.get?_dropKeys, h]

/-- A port die's reset takes the queue pairs of its ports. -/
theorem State.qps_resetPortDie (s : State) (d : Nat) : ∀ q ∈ (s.resetPortDie d).net.qps, q.2.port / 8 ≠ d := by
  intro q hq
  simp only [State.resetPortDie, State.clearRegs_net, List.mem_filter] at hq
  simpa using hq.2

/-- A port that is down raises nothing as its die is reset. -/
theorem State.portDown_of_down {s : State} {p : Nat} (h : (s.port p).up = false) : s.portDown p = s := by
  simp [State.portDown, h]

/-- A port die whose ports are down is reset without a raise. -/
theorem State.integ_resetPortDie {s : State} {d : Nat} (down : ∀ p, p / 8 = d → (s.port p).up = false) :
    (s.resetPortDie d).integ = s.integ := by
  have quiet : (List.range 8).foldl (fun s p => s.portDown (8 * d + p)) s = s :=
    List.foldlRecOn (motive := fun t => t = s) _ _ rfl fun t ht p hp => by
      have := List.mem_range.1 hp
      rw [ht, State.portDown_of_down (down _ (by omega))]
  unfold State.resetPortDie
  rw [quiet]
  rfl

@[simp] theorem State.loseCopies_integ (s : State) : s.loseCopies.integ = s.integ := by
  unfold State.loseCopies
  split <;> rfl

@[simp] theorem State.loseCopies_fabric (s : State) : s.loseCopies.fabric = s.fabric := by
  unfold State.loseCopies
  split <;> rfl

/-- With no cue sheet active a stack's reset raises nothing. -/
theorem State.integ_resetStack {s : State} (k : Nat) (idle : s.fabric.active = none) : (s.resetStack k).integ = s.integ := by
  simp [State.resetStack, idle]

/-- A stack's reset takes the bytes of its frames and annexes. -/
theorem State.hbm_resetStack (s : State) (k : Nat) :
    (s.resetStack k).kv.hbm = s.kv.hbm.filter (fun e => decide (stackOf e.1 ≠ k)) := by
  unfold State.resetStack
  dsimp only
  split <;> simp

/-! ### The window of a tile under reset -/

/-- A tile's word is read through its window. -/
theorem State.hostRead_tileReg (s : State) {t off : Nat} (ht : t < Config.tiles) (hoff : off < 0x400) (aligned : off % 4 = 0) :
    s.hostRead (tileReg t off) = s.tileRead t off % 2 ^ 32 := by
  have place : tileAt (tileReg t off) = some (t, off) := by
    unfold tileAt tileReg
    rw [if_pos (by omega)]
    congr 2 <;> omega
  have word : tileReg t off % 4 = 0 := by
    unfold tileReg
    omega
  simp [State.hostRead, State.wordRead, place, word]

/-- While a block reset of a tile lasts its window is closed below the router registers. -/
theorem State.windowOpen_inReset {s : State} {t off : Nat} (h : (s.tile t).inReset ≠ 0) (hoff : off < 0x180) :
    s.windowOpen t off = false := by
  unfold State.windowOpen
  split
  · next q => exact absurd q h
  · rw [decide_eq_false (Nat.not_le.2 hoff), Bool.false_and]
  · rfl

/-- The words below the router registers of a tile in reset read all ones. -/
theorem State.hostRead_inReset {s : State} {t off : Nat} (ht : t < Config.tiles) (h : (s.tile t).inReset ≠ 0) (hoff : off < 0x180)
    (aligned : off % 4 = 0) : s.hostRead (tileReg t off) = 0xFFFFFFFF := by
  rw [State.hostRead_tileReg s ht (by omega) aligned]
  simp [State.tileRead, State.windowOpen_inReset h hoff]

/-- A tile whose block reset has begun is in reset. -/
theorem Tile.inReset_blockReset (x : Tile) {k : Nat} (h : k ≠ 0) : (x.blockReset k).inReset ≠ 0 := by
  unfold Tile.blockReset
  dsimp only
  split
  · decide
  · exact h

/-- No slot of the accumulator file is open after the block reset of its tile. -/
theorem Tile.groups_blockReset (x : Tile) (k : Nat) : ∀ e ∈ (x.blockReset k).groups, e.2.isOpen = false := by
  intro e he
  obtain ⟨g, -, rfl⟩ := List.mem_map.1 he
  rfl

/-! ### The events of a block reset -/

/-- The state in which an asked-for block reset runs: it is asked for no longer. -/
def State.forgetReset (s : State) (b : Nat × Nat) : State :=
  { s with integ := { s.integ with blockResets := s.integ.blockResets.filter (fun x => x ≠ b) } }

theorem State.forgetReset_asked (s : State) (b : Nat × Nat) : b ∉ (s.forgetReset b).integ.blockResets := by
  simp [State.forgetReset]

/-- A powered device takes a block reset that was asked for. -/
theorem execBlockReset_asked {s : State} {k i : Nat} (unit : blockWf k i = true) (good : s.pwr.powerGood = true)
    (on : s.pwr.allStopped = false) (asked : (k, i) ∈ s.integ.blockResets) :
    execBlockReset k i s = .next ((s.forgetReset (k, i)).blockReset k i) := by
  have found : s.integ.blockResets.any (fun b => b == (k, i)) = true := List.any_eq_true.2 ⟨_, asked, beq_self_eq_true _⟩
  simp [execBlockReset, unit, State.powered, good, on, found, State.forgetReset]

/-- A block reset that nothing asked for changes nothing. -/
theorem execBlockReset_unasked {s : State} {k i : Nat} (unit : blockWf k i = true) (unasked : (k, i) ∉ s.integ.blockResets) :
    execBlockReset k i s = .next s := by
  have absent : s.integ.blockResets.any (fun b => b == (k, i)) = false :=
    List.any_eq_false.2 fun b hb q => unasked (beq_iff_eq.1 q ▸ hb)
  simp [execBlockReset, unit, absent]

/-- The end of a block reset, while firmware runs, opens the tiles that are in it, and changes nothing where none is. -/
theorem execBlockResetEnd_running {s : State} {k i : Nat} (ds : Map (List Nat)) {ts : List Nat} (unit : blockWf k i = true)
    (fw : s.firmwareRuns = true) (hts : (resetTiles k i).filter (fun t => (s.tile t).inReset == k + 1) = ts) :
    execBlockResetEnd k i ds s =
      .next (if ts = [] then s else (ts.foldl (fun s t => s.endTileReset t ds) s).proceed) := by
  simp only [execBlockResetEnd, unit, hts, fw]
  cases ts <;> rfl

/-- Settles O25: an asked-for reset runs on the state that forgets it; each kind's own lemma then says what it takes of its block. -/
theorem blockResetsTakeTheirBlock : Obligations.BlockResetsTakeTheirBlock := by
  unfold Obligations.BlockResetsTakeTheirBlock
  simp only [exec_blockReset, exec_blockResetEnd]
  refine ⟨fun d s hd good on asked => ?_, fun k s hk good on asked _ => ?_, fun t s ht good on asked => ?_,
    fun r s hr good on asked => ?_, fun k i s unit unasked => execBlockReset_unasked unit unasked,
    fun t ds s ht fw inReset => ?_, fun k i ds ts s unit fw hts => ?_⟩
  · refine ⟨_, execBlockReset_asked (decide_eq_true hd) good on asked, ?_⟩
    rw [State.blockReset_portDie]
    refine ⟨fun p hp => State.port_resetPortDie _ hp, fun n hn => State.lane_resetPortDie _ hn, State.qps_resetPortDie _ d,
      fun down => ?_⟩
    rw [State.integ_resetPortDie (s := s.forgetReset (2, d)) down]
    exact s.forgetReset_asked (2, d)
  · refine ⟨_, execBlockReset_asked (decide_eq_true hk) good on asked, ?_⟩
    rw [State.blockReset_stack]
    refine ⟨fun idle => ?_, fun a => ?_⟩
    · rw [State.integ_resetStack (s := s.forgetReset (3, k)) k idle]
      exact s.forgetReset_asked (3, k)
    · rw [State.hbm_resetStack, memRead_filter _ (fun a => decide (stackOf a ≠ k))]
      by_cases h : stackOf a = k
      · simp [h]
      · simp [h, State.forgetReset]
  · refine ⟨_, execBlockReset_asked (decide_eq_true ht) good on asked, ?_⟩
    have reset : (((s.forgetReset (0, t)).blockReset 0 t).tile t) = (s.tile t).blockReset 1 := by
      rw [State.tile_blockReset_tile, if_pos rfl]
      rfl
    rw [reset]
    refine ⟨rfl, rfl, rfl, rfl, rfl, rfl, rfl, Tile.groups_blockReset _ _, fun off hoff aligned => ?_⟩
    exact State.hostRead_inReset ht (by rw [reset]; exact Tile.inReset_blockReset _ (by decide)) hoff aligned
  · refine ⟨_, execBlockReset_asked (decide_eq_true hr) good on asked, State.rowFaults_blockReset_row _ r, fun t ht => ?_,
      fun t ht => ?_⟩
    · rw [State.tile_blockReset_row, if_pos ht]
      exact ⟨rfl, rfl, rfl, rfl, rfl⟩
    · rw [State.tile_blockReset_row, if_neg ht]
      rfl
  · exact execBlockResetEnd_running (ts := [t]) ds (decide_eq_true ht) fw (by simp [resetTiles, inReset])
  · rw [execBlockResetEnd_running ds unit fw hts.symm]
    exact ⟨fun h => by rw [if_neg h], fun h => by rw [if_pos h]⟩

end Sys2Proof.Machine
end

section
/-!
SUPPORT. Footlights (R52, R53, R54, R57, R68): what enabling them, a call, their timers and FL_HOLD_FORCE do to a tile.
-/
namespace Sys2Proof.Machine

theorem exec_footlightCall (k : FlCall) (s : State) : exec (.footlightCall k) s = execFootlightCall k s := rfl
theorem exec_flSettled (t : Nat) (s : State) : exec (.flSettled t) s = execFlSettled t s := rfl
theorem exec_flPowerdown (t : Nat) (s : State) : exec (.flPowerdown t) s = execFlPowerdown t s := rfl
theorem exec_flHoldForce (t : Nat) (v : Word) (s : State) : exec (.flHoldForce t v) s = execFlHoldForce t v s := rfl

/-- Enabling turns OFF to SETTLING and leaves any other state (R52). -/
@[simp] theorem Footlight.enable_state (f : Footlight) : f.enable.state = if f.state = .off then .settling else f.state := by
  unfold Footlight.enable
  split <;> rfl

@[simp] theorem Footlight.enable_holds (f : Footlight) : f.enable.holds = f.holds := by
  unfold Footlight.enable
  split <;> rfl

/-! ### Calls -/

/-- A call changes the footlights of the tile that serves its position, and no other tile (R53, R57). -/
theorem State.tile_footlightCall_other (s : State) (k : FlCall) {x : Nat} (h : x ≠ s.servingTile k.tile) :
    (s.footlightCall k).tile x = s.tile x := by
  rw [State.footlightCall, State.tile_modTile, if_neg h.symm]

/-- A call enables the footlights, arms its own hold and starts their idle time anew (R53, R54, R57). -/
theorem State.fl_footlightCall (s : State) (k : FlCall) :
    ((s.footlightCall k).tile (s.servingTile k.tile)).fl = { (s.tile (s.servingTile k.tile)).fl.enable with
      holds := (s.tile (s.servingTile k.tile)).fl.holds.filter (fun u => decide (s.fabric.counter ≤ u) && u != k.until_) ++ [k.until_]
      untilCall := false, idle := 0 } := by
  rw [State.footlightCall, State.tile_modTile_same]

/-- A call that the active cue sheet does not hold changes nothing. -/
theorem execFootlightCall_absent {k : FlCall} {c : CueSheet} {s : State} (unit : k.tile < Config.tiles)
    (active : s.fabric.active = some c) (absent : k ∉ c.calls) : execFootlightCall k s = .next s := by
  simp [execFootlightCall, unit, active, absent]

/-- A call of the active cue sheet acts where the schedule reaches its cycle, which it brings up where it can. -/
theorem execFootlightCall_listed {k : FlCall} {c : CueSheet} {s : State} (unit : k.tile < Config.tiles)
    (active : s.fabric.active = some c) (listed : k ∈ c.calls) : execFootlightCall k s =
      .next (if (s.advanceTo k.act).reached k.act then (s.advanceTo k.act).footlightCall k else s.advanceTo k.act) := by
  simp [execFootlightCall, unit, active, listed]

/-! ### The settle timer -/

/-- The settle timer makes settling footlights READY (R52). -/
theorem execFlSettled_settling {t : Nat} {s : State} (unit : t < Config.tiles) (settling : (s.tile t).fl.state = .settling) :
    execFlSettled t s = .next (s.setTile t { s.tile t with fl := { (s.tile t).fl with state := .ready, settle := 0 } }) := by
  simp [execFlSettled, unit, State.modTile, settling]

/-- Footlights that do not settle stay as they are. -/
theorem execFlSettled_other {t : Nat} {s : State} (unit : t < Config.tiles) (other : (s.tile t).fl.state ≠ .settling) :
    execFlSettled t s = .next (s.setTile t (s.tile t)) := by
  simp [execFlSettled, unit, State.modTile, other]

/-! ### Power-down -/

/-- Footlights that are off or held do not power down (R54). -/
theorem execFlPowerdown_kept {t : Nat} {s : State} (unit : t < Config.tiles)
    (kept : (s.tile t).fl.state = .off ∨ s.flHeld t = true) : execFlPowerdown t s = .next s := by
  simp [execFlPowerdown, unit, kept]

/-- Footlights that are on and not held power down in the cycle in which their idle counter reaches 300,000 (R54). -/
theorem execFlPowerdown_idle {t : Nat} {u s : State} (unit : t < Config.tiles) (on : (s.tile t).fl.state ≠ .off)
    (free : s.flHeld t = false) (due : u = s.advanceTo (s.fabric.counter + (300000 - (s.tile t).fl.idle))) :
    execFlPowerdown t s = .next (if (u.tile t).fl.idle < 300000 ∨ u.flHeld t = true then u else u.powerDownFl t) := by
  subst due
  simp [execFlPowerdown, unit, on, free]

/-- The state in which the footlights of a tile have been turned off, which ARR_EVENT and a counter note (R54). -/
def State.flTurnedOff (s : State) (t : Nat) : State :=
  ((s.modTile t (fun x => { x with fl := { x.fl with state := .off, settle := 0, idle := 300000, holds := [] } })).orReg
    (tileReg t 0x08) 0x8).count 43 1

theorem State.tile_flTurnedOff (s : State) (t u : Nat) : (s.flTurnedOff t).tile u =
    if t = u then { s.tile t with fl := { (s.tile t).fl with state := .off, settle := 0, idle := 300000, holds := [] } }
    else s.tile u := by
  rw [State.flTurnedOff, State.tile_congr (State.count_tiles ..), State.tile_congr (State.orReg_tiles ..), State.tile_modTile]

/-- Turning the footlights off sets bit 3 of ARR_EVENT (R54). -/
theorem State.testBit_flTurnedOff (s : State) (t : Nat) : Nat.testBit ((s.flTurnedOff t).reg (tileReg t 0x08)) 3 = true := by
  rw [State.flTurnedOff, State.reg_congr (State.count_regs ..), State.orReg, State.reg_setReg_same, Nat.testBit_mod_two_pow,
    Nat.testBit_or]
  simp [Nat.testBit]

/-- Without an MVM on the tile a power-down turns the footlights off and does nothing else (R54, R56). -/
theorem State.powerDownFl_free {t : Nat} {s : State} (free : (s.tile t).mvm = none) : s.powerDownFl t = s.flTurnedOff t := by
  have still : ((s.flTurnedOff t).tile t).mvm = none := by
    rw [State.tile_flTurnedOff, if_pos rfl]
    exact free
  unfold State.powerDownFl
  dsimp only
  split
  · next m found => exact absurd (found.symm.trans still) (Option.some_ne_none m)
  · rfl

/-! ### FL_HOLD_FORCE -/

/-- A write of FL_CONFIG that does not reach the tile's window changes nothing (R62). -/
theorem execFlHoldForce_closed {t : Nat} {s : State} (v : Word) (unit : t < Config.tiles) (closed : s.windowOpen t 0x10 = false) :
    execFlHoldForce t v s = .next s := by
  simp [execFlHoldForce, unit, closed]

/-- FL_HOLD_FORCE 1 enables the footlights and starts their idle time anew (R68). -/
theorem execFlHoldForce_one {t : Nat} {v : Word} {s : State} (unit : t < Config.tiles) (reach : s.windowOpen t 0x10 = true)
    (one : v.toNat % 2 = 1) : execFlHoldForce t v s =
      .next ((s.setReg (tileReg t 0x10) 1).modTile t (fun x => { x with fl := { x.fl.enable with idle := 0 } })) := by
  simp [execFlHoldForce, unit, reach, one]

/-- FL_HOLD_FORCE 0 clears its own bit alone (R68). -/
theorem execFlHoldForce_zero {t : Nat} {v : Word} {s : State} (unit : t < Config.tiles) (reach : s.windowOpen t 0x10 = true)
    (zero : v.toNat % 2 = 0) : execFlHoldForce t v s = .next (s.setReg (tileReg t 0x10) 0) := by
  simp [execFlHoldForce, unit, reach, zero]

/-- Settles O45: each event by its own lemmas, a call and a power-down in the state that the schedule has brought up. -/
theorem footlightsByTimersAndHolds : Obligations.FootlightsByTimersAndHolds := by
  unfold Obligations.FootlightsByTimersAndHolds
  simp only [exec_footlightCall, exec_flSettled, exec_flPowerdown, exec_flHoldForce]
  refine ⟨fun k s unit idle => by simp [execFootlightCall, unit, idle],
    fun k c s unit active => ⟨execFootlightCall_absent unit active, fun listed reached => ?_, fun listed waits => ?_⟩,
    fun k s => ?_, fun t s unit => ⟨execFlSettled_settling unit, fun other => ?_⟩,
    fun t u s unit on free due => ⟨fun passed unheld => ?_, fun kept => ?_⟩, fun t s free => ?_,
    fun t s unit kept => execFlPowerdown_kept unit kept, fun t v s unit closed => execFlHoldForce_closed v unit closed,
    fun t v s unit reach one => ⟨_, execFlHoldForce_one unit reach one, ?_⟩,
    fun t v s unit reach zero => execFlHoldForce_zero unit reach zero⟩
  · rw [execFootlightCall_listed unit active listed, if_pos reached]
  · rw [execFootlightCall_listed unit active listed, if_neg (by simp [waits])]
  · rw [State.fl_footlightCall]
    exact ⟨rfl, rfl, by simp, Footlight.enable_state _, fun x h => s.tile_footlightCall_other k h, rfl, rfl⟩
  · refine ⟨_, execFlSettled_other unit other, fun y => ?_⟩
    rw [State.tile_setTile]
    split
    · next same => rw [same]
    · rfl
  · rw [execFlPowerdown_idle unit on free due, if_neg (by simp [passed, unheld])]
  · rw [execFlPowerdown_idle unit on free due, if_pos kept]
  · rw [State.powerDownFl_free free]
    refine ⟨?_, s.testBit_flTurnedOff t, fun y other => ?_, by simp [State.flTurnedOff]⟩
    · rw [State.tile_flTurnedOff, if_pos rfl]
    · rw [State.tile_flTurnedOff, if_neg other.symm]
  · have same : (s.setReg (tileReg t 0x10) 1).tile t = s.tile t := rfl
    simp [State.reg_congr (State.modTile_regs ..), same]

end Sys2Proof.Machine
end

section
/-!
SUPPORT. MVMs (R34, R35, R49, R75 to R81, R126, R144): where a slot's MVM begins, what a converted group does to its MVM, and how the
output register is emptied.
-/
namespace Sys2Proof.Machine

theorem exec_phaseWindow (t : Nat) (start : Option MvmRef) (input : PhaseIn) (s : State) :
    exec (.phaseWindow t start input) s = execPhaseWindow t start input s := rfl
theorem exec_mvmDelivery (t : Nat) (s : State) : exec (.mvmDelivery t) s = execMvmDelivery t s := rfl

/-! ### The windows of a tile -/

/-- Without an active cue sheet a phase window does nothing. -/
theorem execPhaseWindow_inactive {t : Nat} {s : State} (start : Option MvmRef) (input : PhaseIn) (unit : t < Config.tiles)
    (inactive : s.fabric.active = none) : execPhaseWindow t start input s = .next s := by
  simp [execPhaseWindow, unit, inactive]

section
variable {t : Nat} {c : CueSheet} {s : State} (input : PhaseIn) (unit : t < Config.tiles) (active : s.fabric.active = some c)
include unit active

/-- A phase window that names a slot and a scene begins the MVM of that slot. -/
theorem execPhaseWindow_slot (i scene : Nat) :
    execPhaseWindow t (some (.slot i scene)) input s = .next (s.startSlot c t i scene input) := by
  simp [execPhaseWindow, unit, active]

theorem execPhaseWindow_excess : execPhaseWindow t (some .excess) input s = .next (s.startExcess c t input) := by
  simp [execPhaseWindow, unit, active]

/-- A phase window that begins no MVM goes on with the one in progress. -/
theorem execPhaseWindow_next {m : Mvm} (running : (s.tile t).mvm = some m) :
    execPhaseWindow t none input s = .next (s.nextWindow t m input) := by
  simp [execPhaseWindow, unit, active, running]

theorem execPhaseWindow_free (free : (s.tile t).mvm = none) : execPhaseWindow t none input s = .next s := by
  simp [execPhaseWindow, unit, active, free]

end

/-! ### The beginning of a slot's MVM -/

/-- The conditions under which a slot's MVM begins, in the state `u` that the schedule has brought up to the slot (R25, R34, R188). -/
structure SlotOpens (u : State) (slot : MvmSlot) (t scene at_ row : Nat) : Prop where
  serves : u.servingTile slot.tile = t
  reached : u.reached at_ = true
  free : u.mayStart t slot.array = true
  uses : u.usesArray t slot.array scene row = true

section
variable {c : CueSheet} {t index scene at_ row : Nat} {slot : MvmSlot} {s : State} (input : PhaseIn)
  (listed : c.compiled.mvms[index]? = some slot) (placed : s.sectionAt slot.sec scene slot.start = some at_)
  (served : (s.advanceTo at_).slotRow slot scene = some row) (opens : SlotOpens (s.advanceTo at_) slot t scene at_ row)
include listed placed served opens

/-- A slot whose vector is sound begins its MVM (R34, R35). -/
theorem State.startSlot_sound (sound : ((s.advanceTo at_).tile t).badWord ((s.advanceTo at_).vectorSpans slot row scene) = none) :
    s.startSlot c t index scene input = (s.advanceTo at_).beginMvm t
      { (s.advanceTo at_).openMvm c t at_ slot row scene with slot := index, row := row } input := by
  obtain ⟨serves, reached, free, uses⟩ := opens
  simp [State.startSlot, listed, placed, served, serves, reached, free, uses, sound]

/-- A slot of whose vector a word reads uncorrectable begins none, and fails its scene (R144). -/
theorem State.startSlot_bad {w : Nat}
    (bad : ((s.advanceTo at_).tile t).badWord ((s.advanceTo at_).vectorSpans slot row scene) = some w) :
    s.startSlot c t index scene input = (s.advanceTo at_).sramUe t w [scene] := by
  obtain ⟨serves, reached, free, uses⟩ := opens
  simp [State.startSlot, listed, placed, served, serves, reached, free, uses, bad]

end

/-! ### What a converted group does to its MVM -/

section
variable {t lo rows plane group window : Nat} {base : Bool} {m : Mvm} {input : PhaseIn} {vs counts : List Int} {s : State}
  (levels : vs = (s.tile t).converted m.performance m.start.array input.levels)
  (counted : counts = vs.map (fun v => countOf m.performance (codeOf m.performance v)))
include levels counted

/-- A group that passes adds its counts at the significance of its bit-plane (R35). -/
theorem resolve_pass (pass : convert (s.tile t) m lo rows plane input.storeUe vs counts = .pass) :
    (s.resolve t m lo rows plane group window base input).2 =
      some { m with acc := addCounts m.acc (m.start.significance plane) counts } := by
  subst levels counted
  simp [State.resolve, pass]

/-- The 129th encore that an MVM would need ends it (R81; log 136). -/
theorem resolve_exhausted (mismatch : convert (s.tile t) m lo rows plane input.storeUe vs counts = .mismatch)
    (spent : 128 ≤ m.encores) : (s.resolve t m lo rows plane group window base input).2 = none := by
  subst levels counted
  simp [State.resolve, mismatch, spent]

/-- A group that fails its check, and is no last rung of the ladder, is converted again in halves (R77 to R80). -/
theorem resolve_encore (mismatch : convert (s.tile t) m lo rows plane input.storeUe vs counts = .mismatch)
    (left : m.encores < 128) (divides : m.performance = true ∨ rows ≠ 8) :
    (s.resolve t m lo rows plane group window base input).2 = some (m.encore lo rows plane group (64 * window + 140)) := by
  subst levels counted
  have ladder : ¬(m.performance = false ∧ rows = 8) := by
    rintro ⟨notPerformance, eight⟩
    rcases divides with performance | other
    · exact Bool.false_ne_true (notPerformance.symm.trans performance)
    · exact other eight
  simp [State.resolve, mismatch, Nat.not_le.2 left, ladder]

end

/-! ### Delivery -/

/-- The earlier of two results that wait, the one that waits longer where their delivery slots are the same (R49). -/
def earlierOut (best : Option OutReg) (o : OutReg) : Option OutReg :=
  match best with
  | some b => if o.deliver < b.deliver then some o else some b
  | none => some o

theorem Tile.nextOut_eq (x : Tile) : x.nextOut = x.outs.foldl earlierOut none := rfl

/-- Of results one of which is at hand, the fold finds one of them that no other one precedes. -/
theorem foldl_earlierOut {b o : OutReg} {outs : List OutReg} (h : outs.foldl earlierOut (some b) = some o) :
    o ∈ b :: outs ∧ ∀ p ∈ b :: outs, o.deliver ≤ p.deliver := by
  induction outs generalizing b with
  | nil =>
    obtain rfl : b = o := Option.some.inj h
    simp
  | cons q outs ih =>
    rw [List.foldl_cons, earlierOut] at h
    split at h
    · next earlier =>
      obtain ⟨found, least⟩ := ih h
      have atQ := least q List.mem_cons_self
      refine ⟨List.mem_cons_of_mem _ found, List.forall_mem_cons.2 ⟨by omega, least⟩⟩
    · next later =>
      obtain ⟨found, least⟩ := ih h
      obtain ⟨atB, atRest⟩ := List.forall_mem_cons.1 least
      refine ⟨?_, List.forall_mem_cons.2 ⟨atB, List.forall_mem_cons.2 ⟨by omega, atRest⟩⟩⟩
      rcases List.mem_cons.1 found with rfl | rest
      · exact List.mem_cons_self
      · exact List.mem_cons_of_mem _ (List.mem_cons_of_mem _ rest)

/-- The results that are delivered next are in the output register, and none there are due earlier (R49). -/
theorem Tile.nextOut_least {x : Tile} {o : OutReg} (h : x.nextOut = some o) : o ∈ x.outs ∧ ∀ p ∈ x.outs, o.deliver ≤ p.deliver := by
  rw [Tile.nextOut_eq] at h
  cases outs : x.outs with
  | nil => simp [outs] at h
  | cons b rest => exact foldl_earlierOut (by rwa [outs] at h)

/-- With an empty output register nothing is delivered. -/
theorem execMvmDelivery_empty {t : Nat} {s : State} (unit : t < Config.tiles) (empty : (s.tile t).outs = []) :
    execMvmDelivery t s = .next s := by
  have nothing : (s.tile t).nextOut = none := by rw [Tile.nextOut_eq, empty]; rfl
  simp [execMvmDelivery, unit, nothing]

/-- The earliest results, and what is due with them, are delivered where the schedule reaches their slot (R49, R126). -/
theorem execMvmDelivery_next {t : Nat} {o : OutReg} {s : State} (unit : t < Config.tiles) (next : (s.tile t).nextOut = some o) :
    execMvmDelivery t s = .next (if (s.advanceTo o.deliver).reached o.deliver then (s.advanceTo o.deliver).deliverDue t
      else s.advanceTo o.deliver) := by
  simp only [execMvmDelivery, if_neg (Nat.not_le.2 unit), next]
  split <;> rfl

/-- A delivery takes the results from the output register and sends one contribution to the lanes of their section and scene (R49, R126). -/
theorem State.deliverOut_arrives (s : State) (t : Nat) (o : OutReg) : ∃ a : Arrival,
    s.deliverOut t o = (s.modTile t (fun x => { x with outs := x.outs.erase o })).arrive t a ∧
      a.sec = o.sec ∧ a.scene = o.scene ∧ a.fp = false ∧ a.producer = .array :=
  ⟨_, rfl, rfl, rfl, rfl, rfl⟩

/-- A contribution that reaches a tile is the last of those that wait there (R127). -/
theorem State.tile_arrive (s : State) (t u : Nat) (a : Arrival) :
    (s.arrive t a).tile u = if t = u then { s.tile t with arrivals := (s.tile t).arrivals ++ [a] } else s.tile u :=
  State.tile_modTile ..

/-- Settles O46: a slot by what stands in the state that the schedule has brought up, a group by what its conversion comes to, and a
delivery by the earliest results in the output register. -/
theorem phasesAddAndResultsAreDelivered : Obligations.PhasesAddAndResultsAreDelivered := by
  unfold Obligations.PhasesAddAndResultsAreDelivered
  simp only [exec_phaseWindow, exec_mvmDelivery]
  refine ⟨fun t start input s unit inactive => execPhaseWindow_inactive start input unit inactive,
    fun t c input s unit active => ⟨execPhaseWindow_slot input unit active, execPhaseWindow_excess input unit active,
      fun m => execPhaseWindow_next input unit active, execPhaseWindow_free input unit active⟩,
    fun c t index scene at_ row slot input s listed placed served serves reached free uses => ?_,
    fun t lo rows plane group window base m input vs counts s levels counted =>
      ⟨resolve_pass levels counted, resolve_exhausted levels counted, resolve_encore levels counted⟩,
    fun t s unit empty => execMvmDelivery_empty unit empty, fun t o s unit next => execMvmDelivery_next unit next,
    fun x o next => Tile.nextOut_least next, fun t s => rfl, fun t o s => ?_⟩
  · have opens : SlotOpens (s.advanceTo at_) slot t scene at_ row := ⟨serves, reached, free, uses⟩
    exact ⟨State.startSlot_sound input listed placed served opens, fun w => State.startSlot_bad input listed placed served opens⟩
  · obtain ⟨a, delivered, arrival⟩ := s.deliverOut_arrives t o
    rw [delivered]
    refine ⟨?_, ⟨a, ?_, arrival⟩, fun x other => ?_, ?_⟩
    · rw [State.tile_arrive, if_pos rfl, State.tile_modTile_same]
    · rw [State.tile_arrive, if_pos rfl, State.tile_modTile_same]
    · rw [State.tile_arrive, if_neg other.symm, State.tile_modTile, if_neg other.symm]
    · rw [State.arrive_kv, State.modTile_kv]

end Sys2Proof.Machine
end

section
/-!
SUPPORT. Conversion in numbers (R38, R39, R40, R90, R92, R122): which code a level gives, how trims move it, and how two's-complement
words of any width are read.
-/
namespace Sys2Proof

/-- A word of `w` bits lies between −2^(w − 1) and 2^(w − 1) − 1. -/
theorem signedOf_bounds (w u : Nat) : -((2 ^ w : Nat) : Int) ≤ 2 * signedOf w u ∧ 2 * signedOf w u < ((2 ^ w : Nat) : Int) := by
  have h : u % 2 ^ w < 2 ^ w := Nat.mod_lt _ (Nat.two_pow_pos w)
  unfold signedOf
  dsimp only
  generalize 2 ^ w = m at h ⊢
  split <;> omega

/-- A word and the value that it is read as agree modulo 2^w. -/
theorem signedOf_emod (w u : Nat) : signedOf w u % ((2 ^ w : Nat) : Int) = (u : Int) % ((2 ^ w : Nat) : Int) := by
  unfold signedOf
  dsimp only
  split <;> simp

/-- A value that a field of `w` bits can hold is read back from its bits. -/
theorem signedOf_unsignedOf {w : Nat} {v : Int} (lo : -((2 ^ w : Nat) : Int) ≤ 2 * v) (hi : 2 * v < ((2 ^ w : Nat) : Int)) :
    signedOf w (unsignedOf w v) = v := by
  have pos : 0 < 2 ^ w := Nat.two_pow_pos w
  unfold signedOf unsignedOf
  dsimp only
  generalize 2 ^ w = m at lo hi pos ⊢
  have below := Int.emod_lt_of_pos v (b := m) (by omega)
  have bits : (v % (m : Int)).toNat % m = (v % (m : Int)).toNat := Nat.mod_eq_of_lt (by omega)
  rw [bits]
  rcases Int.lt_or_le v 0 with negative | nonnegative
  · have value : v % (m : Int) = v + m := by rw [← Int.add_emod_right, Int.emod_eq_of_lt (by omega) (by omega)]
    rw [if_neg (by omega)]
    omega
  · have value : v % (m : Int) = v := Int.emod_eq_of_lt nonnegative (by omega)
    rw [if_pos (by omega)]
    omega

/-- A value within its bounds is held as it is. -/
theorem clampInt_of_mem {lo hi v : Int} (above : lo ≤ v) (below : v ≤ hi) : clampInt lo hi v = v := by
  rw [clampInt, if_neg (by omega), if_neg (by omega)]

end Sys2Proof

namespace Sys2Proof.Machine

/-- In exact resolution a level within half a count of count n gives one of the two codes of n (R38). -/
theorem codeOf_exact_near {n v : Int} (bottom : -64 ≤ n) (top : n ≤ 63) (lo : (2 * n - 1) * 268435456 ≤ v)
    (hi : v < (2 * n + 1) * 268435456) : (codeOf false v : Int) = 128 + 2 * n ∨ (codeOf false v : Int) = 129 + 2 * n := by
  have place : (v + 34628173824).fdiv 268435456 = (v + 34628173824) / 268435456 := Int.fdiv_eq_ediv_of_nonneg _ (by decide)
  simp only [codeOf, place, Bool.false_eq_true, if_false]
  rw [clampInt_of_mem (by omega) (by omega)]
  omega

/-- In performance resolution a level within half a count of count n gives code 128 + n (R40). -/
theorem codeOf_performance_near {n v : Int} (bottom : -127 ≤ n) (top : n ≤ 127) (lo : (2 * n - 1) * 134217728 ≤ v)
    (hi : v < (2 * n + 1) * 134217728) : (codeOf true v : Int) = 128 + n := by
  have place : (v + 34493956096).fdiv 268435456 = (v + 34493956096) / 268435456 := Int.fdiv_eq_ediv_of_nonneg _ (by decide)
  simp only [codeOf, place, if_true]
  rw [clampInt_of_mem (by omega) (by omega)]
  omega

theorem codeOf_lt (p : Bool) (v : Int) : codeOf p v < 256 := by
  unfold codeOf clampInt
  split <;> split <;> omega

/-- The two codes of a count in exact resolution (R38). -/
theorem countOf_exact {code : Nat} {n : Int} (h : (code : Int) = 128 + 2 * n ∨ (code : Int) = 129 + 2 * n) :
    countOf false code = n := by
  have half : ((code : Int) - 128).fdiv 2 = ((code : Int) - 128) / 2 := Int.fdiv_eq_ediv_of_nonneg _ (by decide)
  simp only [countOf, half, Bool.false_eq_true, if_false]
  omega

/-- In exact resolution a level is flagged by its code (R39). -/
theorem flaggedLevel_exact (v : Int) : flaggedLevel false v = true ↔ codeOf false v < 64 ∨ 193 < codeOf false v := by
  simp [flaggedLevel]

/-- A trim pair whose OFFSET is 0 scales a level by its GAIN alone (R92). -/
theorem trimmedLevel_gain {g : Nat} (v : Int) (h : g < 1024) : trimmedLevel (65536 * g) v = v * (3584 + (g : Int)) := by
  have gain : bitsOf (65536 * g) 16 10 = g := by
    rw [bitsOf, Nat.shiftRight_eq_div_pow]
    omega
  have offset : bitsOf (65536 * g) 0 8 = 0 := by
    rw [bitsOf, Nat.shiftRight_zero]
    omega
  simp [trimmedLevel, gain, offset, signedOf]

/-- An addition to an INT32 lane that fits is exact (R122). -/
theorem addInt_fits {v : Int} {w : Nat} (lo : -2147483648 ≤ signedOf 32 w + v) (hi : signedOf 32 w + v ≤ 2147483647) :
    signedOf 32 (addInt v w).word = signedOf 32 w + v ∧ (addInt v w).sat = false := by
  simp only [addInt, clampInt_of_mem lo hi]
  exact ⟨signedOf_unsignedOf (by omega) (by omega), by simp⟩

/-- An addition beyond the range of INT32 saturates at the limit that it passed (R122). -/
theorem addInt_above {v : Int} {w : Nat} (h : 2147483647 < signedOf 32 w + v) :
    (addInt v w).word = 0x7FFFFFFF ∧ (addInt v w).sat = true := by
  have limit : clampInt (-2147483648) 2147483647 (signedOf 32 w + v) = 2147483647 := by
    rw [clampInt, if_neg (by omega), if_pos h]
  simp only [addInt, limit]
  exact ⟨by decide, decide_eq_true (by omega)⟩

theorem addInt_below {v : Int} {w : Nat} (h : signedOf 32 w + v < -2147483648) :
    (addInt v w).word = 0x80000000 ∧ (addInt v w).sat = true := by
  have limit : clampInt (-2147483648) 2147483647 (signedOf 32 w + v) = -2147483648 := by
    rw [clampInt, if_pos h]
  simp only [addInt, limit]
  exact ⟨by decide, decide_eq_true (by omega)⟩

/-- The residual of a group is a word of 11 bits: the sum of its counts against the stored sum, modulo 2,048 (R90). -/
theorem residualOf_spec (counts : List Int) (r : Nat) : -1024 ≤ residualOf counts r ∧ residualOf counts r ≤ 1023 ∧
    (residualOf counts r - (counts.foldl (· + ·) 0 - (r : Int))) % 2048 = 0 := by
  unfold residualOf
  generalize counts.foldl (· + ·) 0 - (r : Int) = d
  have bounds := signedOf_bounds 11 (d % 2048).toNat
  have congruent := signedOf_emod 11 (d % 2048).toNat
  omega

/-- Settles O60: a count by the code of a level near it, in either resolution; a lane and a residual by the two's-complement word that
each of them is. -/
theorem levelsConvertToTheirCounts : Obligations.LevelsConvertToTheirCounts := by
  unfold Obligations.LevelsConvertToTheirCounts
  refine ⟨fun n v bottom top lo hi => countOf_exact (codeOf_exact_near bottom top lo hi), fun n v bottom top lo hi => ?_, codeOf_lt,
    flaggedLevel_exact, fun n v bottom top lo hi => ?_, fun k v => ?_, fun g v h => trimmedLevel_gain v h,
    fun v w _ => ⟨addInt_fits, addInt_above, addInt_below⟩, residualOf_spec⟩
  · have code := codeOf_performance_near bottom top lo hi
    simp only [countOf, if_true]
    omega
  · have code := codeOf_exact_near (by omega) (by omega) lo hi
    rw [← Bool.not_eq_true, flaggedLevel_exact]
    omega
  · have atReset : trimOf [] k = 65536 * 512 := by simp [trimOf, Map.get?]
    rw [atReset, trimmedLevel_gain v (by decide)]
    omega

end Sys2Proof.Machine
end

section
/-!
SUPPORT. Fields of register words and the registers of a tile (R7, R9, R10, R61): which bits of a word a host write takes, what the
device leaves of a word of which it sets the lowest field, and by which row a tile's register is written.
-/
namespace Sys2Proof

theorem testBit_bitsOf (v lo len i : Nat) : (bitsOf v lo len).testBit i = (decide (i < len) && v.testBit (lo + i)) := by
  rw [bitsOf, Nat.testBit_mod_two_pow, Nat.testBit_shiftRight]

/-- Numbers that agree in the bits of a field hold the same value there. -/
theorem bitsOf_congr {v w lo len : Nat} (h : ∀ i < len, v.testBit (lo + i) = w.testBit (lo + i)) :
    bitsOf v lo len = bitsOf w lo len := by
  apply Nat.eq_of_testBit_eq
  intro i
  rw [testBit_bitsOf, testBit_bitsOf]
  by_cases inside : i < len
  · rw [h i inside]
  · rw [decide_eq_false inside, Bool.false_and, Bool.false_and]

/-- A field of a word is the same in the number that the word was cut from. -/
theorem bitsOf_mod_word (v : Nat) {lo len : Nat} (h : lo + len ≤ 32) : bitsOf (v % 2 ^ 32) lo len = bitsOf v lo len :=
  bitsOf_congr fun i inside => by
    rw [Nat.testBit_mod_two_pow, decide_eq_true (show lo + i < 32 by omega), Bool.true_and]

/-- Putting a value into the lowest field of a number keeps the bits above it. -/
theorem putBits_low (v len x : Nat) : putBits v 0 len x = 2 ^ len * (v / 2 ^ len) + x % 2 ^ len := by
  have parts := Nat.div_add_mod v (2 ^ len)
  simp only [putBits, bitsOf, Nat.shiftRight_zero, Nat.shiftLeft_zero]
  omega

theorem bitsOf_putBits_low (v len x : Nat) : bitsOf (putBits v 0 len x) 0 len = x % 2 ^ len := by
  rw [putBits_low, bitsOf, Nat.shiftRight_zero, Nat.mul_add_mod, Nat.mod_mod]

theorem bitsOf_putBits_above (v len x n : Nat) : bitsOf (putBits v 0 len x) len n = bitsOf v len n := by
  have below : x % 2 ^ len < 2 ^ len := Nat.mod_lt _ (Nat.two_pow_pos len)
  rw [putBits_low, bitsOf, bitsOf, Nat.shiftRight_eq_div_pow, Nat.shiftRight_eq_div_pow, Nat.mul_add_div (Nat.two_pow_pos len),
    Nat.div_eq_of_lt below, Nat.add_zero]

end Sys2Proof

namespace Sys2Proof.Machine

/-- Clearing the bits of a mask commutes with halving: the lowest bit of `v &&& m` is set only where that of `v` is. -/
theorem clearBits_div_two (v m : Nat) : clearBits v m / 2 = clearBits (v / 2) (m / 2) := by
  have lowest : (v &&& m) % 2 = 1 → v % 2 = 1 := fun h => by
    have both := Nat.testBit_and v m 0
    rw [Nat.testBit_zero, decide_eq_true h] at both
    simpa using (Bool.and_eq_true_iff.1 both.symm).1
  unfold clearBits
  rw [← Nat.and_div_two]
  omega

theorem testBit_clearBits (v m i : Nat) : (clearBits v m).testBit i = (v.testBit i && !m.testBit i) := by
  induction i generalizing v m with
  | zero =>
    have both := Nat.testBit_and v m 0
    have fits := Nat.and_le_left (n := v) (m := m)
    simp only [clearBits, Nat.testBit_zero] at both ⊢
    grind
  | succ i ih => rw [Nat.testBit_succ, clearBits_div_two, ih, Nat.testBit_succ, Nat.testBit_succ]

/-- The bits that a host write of `v` to a register takes: its RW bits outside the fields whose value is out of range (R9, R10). -/
def RegRow.taken (r : RegRow) (v : Nat) : Nat :=
  clearBits r.rw (r.guards.foldl (fun m g => if guardOk v g then m else m ||| fieldMask g) 0)

/-- A register with a single guarded field takes its RW bits, that field where its value is in range. -/
theorem RegRow.taken_guard {r : RegRow} {g : Nat × Nat × Nat × Nat} (v : Nat) (h : r.guards = [g]) :
    r.taken v = if guardOk v g = true then r.rw else clearBits r.rw (fieldMask g) := by
  rw [RegRow.taken, h, List.foldl_cons, List.foldl_nil]
  split
  · exact clearBits_zero_right r.rw
  · rw [Nat.zero_or]

/-- A register without W1C bits holds after a write the bits that the write takes, and its own elsewhere. -/
theorem RegRow.testBit_written {r : RegRow} (old v i : Nat) (w1c : r.w1c = 0) :
    (r.written old v).testBit i = if (r.taken v).testBit i = true then v.testBit i else old.testBit i := by
  have word : r.written old v = clearBits old (r.taken v) ||| (v &&& r.taken v) := by
    simp [RegRow.written, RegRow.taken, w1c]
  rw [word, Nat.testBit_or, Nat.testBit_and, testBit_clearBits]
  cases (r.taken v).testBit i <;> simp

/-- A field that a write takes as a whole. -/
theorem RegRow.bitsOf_written_taken {r : RegRow} (old : Nat) {v lo len : Nat} (w1c : r.w1c = 0)
    (h : ∀ i < len, (r.taken v).testBit (lo + i) = true) : bitsOf (r.written old v) lo len = bitsOf v lo len :=
  bitsOf_congr fun i inside => by rw [RegRow.testBit_written old v _ w1c, if_pos (h i inside)]

/-- A field of which a write takes no bit. -/
theorem RegRow.bitsOf_written_kept {r : RegRow} (old : Nat) {v lo len : Nat} (w1c : r.w1c = 0)
    (h : ∀ i < len, (r.taken v).testBit (lo + i) = false) : bitsOf (r.written old v) lo len = bitsOf old lo len :=
  bitsOf_congr fun i inside => by rw [RegRow.testBit_written old v _ w1c, h i inside, if_neg Bool.false_ne_true]

/-- A guarded field takes a value in its range, and keeps its own else. -/
theorem RegRow.bitsOf_written_guarded {r : RegRow} {lo len least most : Nat} (old v : Nat) (w1c : r.w1c = 0)
    (guard : r.guards = [(lo, len, least, most)]) (writable : ∀ i < len, r.rw.testBit (lo + i) = true) :
    bitsOf (r.written old v) lo len =
      if least ≤ bitsOf v lo len ∧ bitsOf v lo len ≤ most then bitsOf v lo len else bitsOf old lo len := by
  have range : guardOk v (lo, len, least, most) = true ↔ least ≤ bitsOf v lo len ∧ bitsOf v lo len ≤ most := by
    simp [guardOk]
  have taken := RegRow.taken_guard v guard
  by_cases ok : guardOk v (lo, len, least, most) = true
  · rw [if_pos ok] at taken
    rw [if_pos (range.1 ok), RegRow.bitsOf_written_taken old w1c fun i inside => by rw [taken, writable i inside]]
  · rw [if_neg ok] at taken
    rw [if_neg (fun q => ok (range.2 q)), RegRow.bitsOf_written_kept old w1c fun i inside => ?_]
    rw [taken, testBit_clearBits, fieldMask, Nat.testBit_shiftLeft, Nat.testBit_two_pow_sub_one]
    simp [inside]

/-- Outside the guarded field a write takes the RW bits, whatever is written beside them. -/
theorem RegRow.testBit_taken_unguarded {r : RegRow} {g : Nat × Nat × Nat × Nat} (v : Nat) {i : Nat} (guard : r.guards = [g])
    (outside : (fieldMask g).testBit i = false) : (r.taken v).testBit i = r.rw.testBit i := by
  rw [RegRow.taken_guard v guard]
  split
  · rfl
  · rw [testBit_clearBits, outside, Bool.not_false, Bool.and_true]

/-- An RW field outside the guarded one takes what is written. -/
theorem RegRow.bitsOf_written_unguarded {r : RegRow} {g : Nat × Nat × Nat × Nat} {lo len : Nat} (old v : Nat) (w1c : r.w1c = 0)
    (guard : r.guards = [g]) (h : ∀ i < len, (fieldMask g).testBit (lo + i) = false ∧ r.rw.testBit (lo + i) = true) :
    bitsOf (r.written old v) lo len = bitsOf v lo len :=
  RegRow.bitsOf_written_taken old w1c fun i inside => by
    rw [RegRow.testBit_taken_unguarded v guard (h i inside).1, (h i inside).2]

/-- Reserved bits outside the guarded field stay as they are. -/
theorem RegRow.bitsOf_written_reserved {r : RegRow} {g : Nat × Nat × Nat × Nat} {lo len : Nat} (old v : Nat) (w1c : r.w1c = 0)
    (guard : r.guards = [g]) (h : ∀ i < len, (fieldMask g).testBit (lo + i) = false ∧ r.rw.testBit (lo + i) = false) :
    bitsOf (r.written old v) lo len = bitsOf old lo len :=
  RegRow.bitsOf_written_kept old w1c fun i inside => by
    rw [RegRow.testBit_taken_unguarded v guard (h i inside).1, (h i inside).2]

/-- The field of a register that the device has set. -/
theorem State.field_setField_low (s : State) (o v : Nat) {len : Nat} (h : len ≤ 32) :
    (s.setField o 0 len v).field o 0 len = v % 2 ^ len := by
  rw [State.field, State.setField, State.reg_setReg_same, bitsOf_mod_word _ (by omega), bitsOf_putBits_low]

/-- The bits above the field of a register that the device has set. -/
theorem State.field_setField_above (s : State) (o v : Nat) {len n : Nat} (h : len + n ≤ 32) :
    (s.setField o 0 len v).field o len n = s.field o len n := by
  rw [State.field, State.setField, State.reg_setReg_same, bitsOf_mod_word _ h, bitsOf_putBits_above, State.field]

/-- A register that no row of FLT_POLICY covers resets by the row that its offset names. -/
theorem regReset_of_row {o i j : Nat} {r : RegRow} (above : 0x00021800 ≤ o) (h : regRow? o = some (r, i, j)) :
    regReset o = r.reset + i * r.r1 + j * r.r2 := by
  rw [regReset, if_neg (by omega), h]

/-- The word of a row of tile registers that an offset in a tile's window names, if it does (R61). -/
def RegRow.tileWord? (r : RegRow) (off : Nat) : Option Nat :=
  let b := r.base - 0x01000000
  if b ≤ off ∧ (off - b) % 4 = 0 ∧ (off - b) / 4 < r.n2 then some ((off - b) / 4) else none

/-- Whether a row lists words of every tile's window (R61). -/
def RegRow.inTiles (r : RegRow) : Bool :=
  decide (r.s1 = 0x400 ∧ r.s2 = 4 ∧ r.n1 = Config.tiles ∧ 0x01000000 ≤ r.base ∧ r.base - 0x01000000 + 4 * r.n2 ≤ 0x400)

/-- A row of tile registers names the same word in each tile. -/
theorem RegRow.index?_tileReg {r : RegRow} {t off : Nat} (row : r.inTiles = true) (ht : t < Config.tiles) (hoff : off < 0x400) :
    r.index? (tileReg t off) = (r.tileWord? off).map (fun j => (t, j)) := by
  obtain ⟨stride, word, count, base, fits⟩ := of_decide_eq_true row
  obtain ⟨b, place⟩ := Nat.exists_eq_add_of_le base
  rw [place, Nat.add_sub_cancel_left] at fits
  unfold RegRow.index? RegRow.tileWord? tileReg
  simp only [stride, word, count, place, Nat.add_sub_cancel_left]
  by_cases above : b ≤ off
  · have d : 0x01000000 + t * 0x400 + off - (0x01000000 + b) = t * 0x400 + (off - b) := by omega
    have group : (t * 0x400 + (off - b)) / 0x400 = t := by omega
    have rest : (t * 0x400 + (off - b)) % 0x400 = off - b := by omega
    simp only [d, group, rest, if_neg (show ¬0x01000000 + t * 0x400 + off < 0x01000000 + b by omega), ht, above, true_and,
      if_neg (show ¬(0x400 = 0) by decide)]
    split <;> rfl
  · rw [if_neg (show ¬(b ≤ off ∧ _) from fun q => above q.1), Option.map_none]
    split
    · rfl
    · refine if_neg fun q => ?_
      rw [if_neg (show ¬(0x400 = 0) by decide), if_neg (show ¬(0x400 = 0) by decide)] at q
      omega

/-- A search finds the same by tests that agree on the list. -/
theorem findSome?_congr_mem {α β : Type} {f g : α → Option β} {xs : List α} (h : ∀ x ∈ xs, f x = g x) :
    xs.findSome? f = xs.findSome? g := by
  induction xs with
  | nil => rfl
  | cons x xs ih =>
    obtain ⟨first, rest⟩ := List.forall_mem_cons.1 h
    rw [List.findSome?_cons, List.findSome?_cons, first, ih rest]

/-- The row of a tile's register is found by its offset in the window alone (R61, R381). -/
theorem regRow?_tileReg {t off : Nat} (ht : t < Config.tiles) (hoff : off < 0x400) : regRow? (tileReg t off) =
    (tilRows.findSome? (fun r => (r.tileWord? off).map (fun j => (r, j)))).map (fun p => (p.1, t, p.2)) := by
  have rows : rowsOf (tileReg t off) = tilRows := if_pos (by unfold tileReg; omega)
  have listed : ∀ r ∈ tilRows, r.inTiles = true := by decide
  rw [regRow?, rows, List.map_findSome?]
  refine findSome?_congr_mem fun r mem => ?_
  rw [RegRow.index?_tileReg (listed r mem) ht hoff, Function.comp_apply, Option.map_map, Option.map_map]
  rfl

/-- A tile's register lies in the window of its tile. -/
theorem tileAt_tileReg {t off : Nat} (ht : t < Config.tiles) (hoff : off < 0x400) : tileAt (tileReg t off) = some (t, off) := by
  unfold tileAt tileReg
  rw [if_pos (by omega)]
  congr 2 <;> omega

/-- A host write of a tile's register in an open window writes it, where it is no command of its own. -/
theorem State.writeWord_tileReg {t off : Nat} {s : State} (v : Nat) (ht : t < Config.tiles) (hoff : off < 0x400)
    (plain : has [0x10, 0x11C] off = false) (opened : s.windowOpen t off = true) :
    s.writeWord (tileReg t off) v = s.writeReg (tileReg t off) v := by
  have place := tileAt_tileReg ht hoff
  have own : ownRow (tileReg t off) = false := by simp only [ownRow, place, plain]
  have reach : s.reaches (tileReg t off) = true := by simp only [State.reaches, place, opened]
  have high : 0x01000000 ≤ tileReg t off := by unfold tileReg; omega
  have noUnit : chkAt (tileReg t off) = none := if_neg (by omega)
  generalize tileReg t off = o at *
  unfold State.writeWord
  rw [own, reach, noUnit, if_neg (by simp; omega), if_neg (by omega), if_neg (by omega), if_neg (by omega), if_neg (by omega),
    if_neg (by simp), if_neg (by omega)]

/-- A tile outside reset has its whole window open (R62). -/
theorem State.windowOpen_of_free {s : State} {t : Nat} (off : Nat) (free : (s.tile t).inReset = 0) : s.windowOpen t off = true := by
  simp only [State.windowOpen, free]

end Sys2Proof.Machine
end

section
/-!
SUPPORT. CAL_INDEX and CAL_DATA (R96, R113, R114): what their accesses return, install and step.
-/
namespace Sys2Proof.Machine

theorem exec_calDataRead (t : Nat) (s : State) : exec (.calDataRead t) s = execCalDataRead t s := rfl
theorem exec_calDataWrite (t : Nat) (v : Word) (s : State) : exec (.calDataWrite t v) s = execCalDataWrite t v s := rfl

/-- The row of CAL_INDEX (R113). -/
def calIndexRow : RegRow := { base := 0x01000118, s1 := 0x400, n1 := 10560, rw := 0x00007FFF, guards := [(0, 11, 0, 1039)] }

theorem regRow?_calIndex {t : Nat} (ht : t < Config.tiles) : regRow? (tileReg t 0x118) = some (calIndexRow, t, 0) :=
  regRow?_tileReg ht (by decide)

/-- A host write of CAL_INDEX writes its register by its row. -/
theorem execRegisterWrite_calIndex {t : Nat} {s : State} (v : Word) (ht : t < Config.tiles) (free : (s.tile t).inReset = 0) :
    execRegisterWrite (tileReg t 0x118) v 4 0 s =
      .next (s.setReg (tileReg t 0x118) (calIndexRow.written (s.reg (tileReg t 0x118)) v.toNat)) := by
  rw [execRegisterWrite_word v 0 s (by unfold tileReg; omega),
    State.writeWord_tileReg _ ht (by decide) (by decide) (State.windowOpen_of_free _ free),
    s.writeReg_of_row _ (regRow?_calIndex ht)]

/-- An access of CAL_DATA takes COLUMN one on, from 1,039 back to 0 (R113). -/
theorem State.column_calNext (s : State) (t : Nat) : (s.calNext t).field (tileReg t 0x118) 0 11 =
    if 1039 ≤ s.field (tileReg t 0x118) 0 11 then 0 else s.field (tileReg t 0x118) 0 11 + 1 := by
  rw [State.calNext, State.field_setField_low _ _ _ (by decide)]
  split
  · rfl
  · exact Nat.mod_eq_of_lt (by omega)

/-- An access of CAL_DATA leaves the other bits of CAL_INDEX (R113). -/
theorem State.rest_calNext (s : State) (t : Nat) : (s.calNext t).field (tileReg t 0x118) 11 21 = s.field (tileReg t 0x118) 11 21 :=
  State.field_setField_above _ _ _ (by decide)

section
variable {t : Nat} {s : State} (ht : t < Config.tiles) (opened : s.windowOpen t 0x11C = true)
include ht opened

/-- A read of CAL_DATA returns the selected trim pair and steps CAL_INDEX (R113, R114). -/
theorem execCalDataRead_open : execCalDataRead t s = .next (({ s with outside := { s.outside with
    readData := (s.tile t).installedTrim (trimKey (s.calSelect t).1 (s.calSelect t).2.1 (s.calSelect t).2.2) } }).calNext t) := by
  simp [execCalDataRead, ht, opened]

/-- A write of CAL_DATA to an array that is not under calibration installs the pair for the array's next MVM (R96, R114). -/
theorem execCalDataWrite_installs (v : Word)
    (free : ∀ r, (s.tile t).calRun = some r → r.arrays.head? ≠ some (s.calSelect t).2.1) :
    execCalDataWrite t v s = .next ((s.setTile t { s.tile t with
      newTrims := Map.put (s.tile t).newTrims (trimKey (s.calSelect t).1 (s.calSelect t).2.1 (s.calSelect t).2.2)
        (v &&& 0x03FF00FF) }).calNext t) := by
  cases run : (s.tile t).calRun with
  | none => simp [execCalDataWrite, ht, opened, run, State.modTile]
  | some r => simp [execCalDataWrite, ht, opened, run, free r run, State.modTile]

/-- A write of CAL_DATA to the array under calibration is discarded, and steps CAL_INDEX all the same (R114). -/
theorem execCalDataWrite_discards (v : Word) {r : CalRunState} (run : (s.tile t).calRun = some r)
    (busy : r.arrays.head? = some (s.calSelect t).2.1) : execCalDataWrite t v s = .next (s.calNext t) := by
  simp [execCalDataWrite, ht, opened, run, busy]

/-- Whether or not it installs its pair, a write of CAL_DATA is a step of CAL_INDEX in a state with the same registers. -/
theorem execCalDataWrite_steps (v : Word) : ∃ y : State, y.regs = s.regs ∧ execCalDataWrite t v s = .next (y.calNext t) := by
  by_cases busy : ∃ r, (s.tile t).calRun = some r ∧ r.arrays.head? = some (s.calSelect t).2.1
  · obtain ⟨r, run, busy⟩ := busy
    exact ⟨s, rfl, execCalDataWrite_discards ht opened v run busy⟩
  · exact ⟨s.setTile t _, rfl, execCalDataWrite_installs ht opened v fun r run q => busy ⟨r, run, q⟩⟩

end

/-- Settles O15: CAL_DATA by its access rules, of which each ends with one step of CAL_INDEX, and a write of CAL_INDEX by the fields of
its row. -/
theorem calIndexSelectsAndSteps : Obligations.CalIndexSelectsAndSteps := by
  unfold Obligations.CalIndexSelectsAndSteps
  simp only [exec_calDataRead, exec_calDataWrite, exec_registerWrite]
  refine ⟨fun t v s ht opened => ?_, fun t v s ht free => ?_, fun t ht => ?_, fun t s => rfl,
    fun t s ht opened => execCalDataRead_open ht opened, fun t v s ht opened idle => ?_,
    fun t v s r ht opened run busy => execCalDataWrite_discards ht opened v run busy⟩
  · obtain ⟨y, same, write⟩ := execCalDataWrite_steps ht opened v
    refine ⟨_, _, execCalDataRead_open ht opened, write, ?_⟩
    rintro x (rfl | rfl)
    · exact ⟨State.column_calNext _ t, State.rest_calNext _ t⟩
    · rw [← State.reg_congr same]
      exact ⟨State.column_calNext y t, State.rest_calNext y t⟩
  · refine ⟨_, execRegisterWrite_calIndex v ht free, ?_⟩
    rw [State.reg_setReg_same, bitsOf_mod_word _ (by decide), bitsOf_mod_word _ (by decide), bitsOf_mod_word _ (by decide),
      bitsOf_mod_word _ (by decide)]
    refine ⟨RegRow.bitsOf_written_reserved _ _ rfl rfl (by decide), RegRow.bitsOf_written_unguarded _ _ rfl rfl (by decide),
      RegRow.bitsOf_written_unguarded _ _ rfl rfl (by decide), ?_⟩
    rw [RegRow.bitsOf_written_guarded (r := calIndexRow) _ _ rfl rfl (by decide)]
    simp only [Nat.zero_le, true_and]
  · exact regReset_of_row (by unfold tileReg; omega) (regRow?_calIndex ht)
  · exact execCalDataWrite_installs ht opened v fun r run => absurd (idle.symm.trans run) (by simp)

end Sys2Proof.Machine
end

section
/-!
SUPPORT. Calibration runs (R94, R97, R98, R99, R117): how they are asked for, what their start takes, and which slots they are given.
-/
namespace Sys2Proof.Machine

theorem exec_calRun (e : Entry) (s : State) : exec (.calRun e) s = execCalRun e s := rfl
theorem exec_autoEn (v : Word) (s : State) : exec (.autoEn v) s = execAutoEn v s := rfl
theorem exec_calTrigger (h : Nat) (s : State) : exec (.calTrigger h) s = execCalTrigger h s := rfl
theorem exec_calSlot (t : Nat) (ws : List CalWindow) (s : State) : exec (.calSlot t ws) s = execCalSlot t ws s := rfl

/-! ### CAL_RUN -/

theorem tileRangeOk_iff (e : Entry) :
    tileRangeOk e = true ↔ e.op 8 2 < Config.tiles ∧ 1 ≤ e.op 10 2 ∧ e.op 8 2 + e.op 10 2 ≤ Config.tiles := by
  simp [tileRangeOk, and_assoc]

/-- CAL_RUN queues a run of each tile of a range that lies in the device (R97, R396). -/
theorem execCalRun_ok {e : Entry} {s : State} (h : Begins e 0x40 false s) (range : tileRangeOk e = true) :
    execCalRun e s = .next (((List.range (e.op 10 2)).foldl (fun s i => s.queueRun (e.op 8 2 + i)) (s.begun e)).complete e .ok
      (leBytes 4 (e.op 10 2))) := by
  rw [execCalRun, runCmd_begins _ h (by decide), runBody_done (if_pos range)]

/-- CAL_RUN of any other range is INVALID (R396). -/
theorem execCalRun_invalid {e : Entry} {s : State} (h : Begins e 0x40 false s) (range : tileRangeOk e = false) :
    execCalRun e s = .next ((s.begun e).complete e .invalid []) := by
  rw [execCalRun, runCmd_begins _ h (by decide), runBody_done (if_neg (by simp [range]))]

/-! ### AUTO_EN and the triggers -/

/-- The row of CAL_CONFIG (R117). -/
def calConfigRow : RegRow := { base := 0x00000200, rw := 0x0001001F, reset := 0x00010006, guards := [(0, 5, 1, 20)] }

/-- A host write of CAL_CONFIG sets the register by its row. -/
theorem State.writeReg_calConfig (s : State) (v : Nat) :
    s.writeReg 0x200 v = s.setReg 0x200 (calConfigRow.written (s.reg 0x200) v) :=
  s.writeReg_of_row v (i := 0) (j := 0) (by rfl)

/-- A write of CAL_CONFIG sets the register and then, with AUTO_EN 1, tests the triggers of both halves (R97, R117). -/
theorem execAutoEn_eq (v : Word) (s : State) : execAutoEn v s =
    .next (if (s.writeReg 0x200 v.toNat).field 0x200 16 1 = 1 then
      (List.range 2).foldl (fun s h => if s.triggerDue h then s.queueHalf h else s) (s.writeReg 0x200 v.toNat)
      else s.writeReg 0x200 v.toNat) := by
  have row : s.setReg 0x200 (({ base := 0x200, rw := 0x0001001F, guards := [(0, 5, 1, 20)] } : RegRow).written (s.reg 0x200) v.toNat) =
      s.writeReg 0x200 v.toNat := (s.writeReg_calConfig v.toNat).symm
  unfold execAutoEn
  simp only [row]
  split <;> rfl

/-- AUTO_EN takes what is written. -/
theorem State.autoEn_writeReg (s : State) (v : Nat) : (s.writeReg 0x200 v).field 0x200 16 1 = bitsOf v 16 1 := by
  rw [s.writeReg_calConfig, State.field, State.reg_setReg_same, bitsOf_mod_word _ (by decide),
    RegRow.bitsOf_written_unguarded _ _ rfl rfl (by decide)]

/-- TEMP_STEP takes a value from 1 to 20, and keeps its own else. -/
theorem State.tempStep_writeReg (s : State) (v : Nat) : (s.writeReg 0x200 v).field 0x200 0 5 =
    if 1 ≤ bitsOf v 0 5 ∧ bitsOf v 0 5 ≤ 20 then bitsOf v 0 5 else s.field 0x200 0 5 := by
  rw [s.writeReg_calConfig, State.field, State.reg_setReg_same, bitsOf_mod_word _ (by decide),
    RegRow.bitsOf_written_guarded (r := calConfigRow) _ _ rfl rfl (by decide)]
  rfl

/-- A trigger is due where the mean has moved by TEMP_STEP, or 24 h have passed since the half's last run (R97). -/
theorem State.triggerDue_iff (s : State) (h : Nat) : s.triggerDue h = true ↔
    48 * 8 * s.field 0x200 0 5 ≤ (s.halfSum h - Map.getD s.calReference h 0).natAbs ∨
      86400000000 ≤ s.integ.clock - Map.getD s.calStart h 0 := by
  rw [State.triggerDue, State.meanMoved, Bool.or_eq_true, decide_eq_true_eq, decide_eq_true_eq]
  rfl

/-- A trigger queues its half where AUTO_EN is 1 and it is due, and does nothing else (R97). -/
theorem execCalTrigger_eq {h : Nat} (s : State) (half : h < 2) : execCalTrigger h s =
    .next (if s.field 0x200 16 1 = 1 ∧ s.triggerDue h = true then s.queueHalf h else s) := by
  simp only [execCalTrigger, if_neg (Nat.not_le.2 half), Bool.and_eq_true, decide_eq_true_eq]
  split <;> rfl

/-! ### The start of a run -/

/-- The run that a slot starts: the half's reference temperature and time are those of its start (R97). -/
theorem State.startRun_slot (s : State) (t : Nat) {arrays : List Nat} (nonempty : arrays ≠ []) : s.startRun t arrays false =
    ({ s with calStart := Map.put s.calStart (halfOf t) s.integ.clock
              calReference := Map.put s.calReference (halfOf t) (s.halfSum (halfOf t)) }).modTile t (fun x => { x with
      calQueued := false, calRun := some { arrays := arrays, direct := false } }) := by
  simp [State.startRun, nonempty, State.directLights]

theorem State.tile_startRun_slot (s : State) (t x : Nat) {arrays : List Nat} (nonempty : arrays ≠ []) :
    (s.startRun t arrays false).tile x =
      if t = x then { s.tile t with calQueued := false, calRun := some { arrays := arrays, direct := false } } else s.tile x := by
  rw [State.startRun_slot s t nonempty, State.tile_modTile]
  rfl

/-- A tile without an array to calibrate starts no run (log 138). -/
theorem State.startRun_nil (s : State) (t : Nat) (direct : Bool) :
    s.startRun t [] direct = s.modTile t (fun x => { x with calQueued := false }) := rfl

/-! ### Slots -/

/-- A tile's next slot is the one that has begun last, which lasts, where its run was there at its beginning, and else the one that
begins next (R98; log 139). -/
theorem nextSlot_spec {period : Nat} (counter offset start : Nat) (pos : 0 < period) :
    (∃ k, nextSlot counter period offset start = offset + k * period) ∧
      (counter < nextSlot counter period offset start ∨ (start ≤ nextSlot counter period offset start ∧
        nextSlot counter period offset start ≤ counter ∧ counter < nextSlot counter period offset start + 4096)) := by
  unfold nextSlot
  split
  · exact ⟨⟨0, by omega⟩, .inl (by omega)⟩
  · next begun =>
    have parts := Nat.div_add_mod' (counter - offset) period
    have below := Nat.mod_lt (counter - offset) pos
    dsimp only
    split
    · exact ⟨⟨(counter - offset) / period, by omega⟩, .inr (by omega)⟩
    · exact ⟨⟨(counter - offset) / period + 1, by rw [Nat.succ_mul]; omega⟩, .inl (by omega)⟩

section
variable {t : Nat} (at_ : Nat) (ws : List CalWindow) {s : State}

/-- A slot does not touch a direct run (R99). -/
theorem State.runSlot_direct {r : CalRunState} (run : (s.tile t).calRun = some r) (direct : r.direct = true) :
    s.runSlot t at_ ws = s := by
  simp [State.runSlot, run, direct]

/-- A run in slots takes up to 64 windows in the slot, and its next slot begins later (R94, R98). -/
theorem State.runSlot_slots {r : CalRunState} (run : (s.tile t).calRun = some r) (slots : r.direct = false) : s.runSlot t at_ ws =
    (ws.take 64).foldl (fun s w => s.calWindow t w) (s.modTile t (fun x => { x with calFrom := at_ + 1 })) := by
  simp [State.runSlot, run, slots]

/-- A slot without a run, in progress or queued, stays idle (R98). -/
theorem State.runSlot_idle (idle : (s.tile t).calRun = none) (unasked : (s.tile t).calQueued = false) : s.runSlot t at_ ws = s := by
  simp [State.runSlot, idle, unasked]

/-- A queued run starts over the tile's arrays that hold weights, and goes on as one in progress (R94, R98). -/
theorem State.runSlot_queued (idle : (s.tile t).calRun = none) (queued : (s.tile t).calQueued = true) :
    s.runSlot t at_ ws = (s.startRun t (s.calArrays t) false).runSlot t at_ ws := by
  have started : ((s.startRun t (s.calArrays t) false).tile t).calQueued = false := by
    by_cases nothing : s.calArrays t = []
    · rw [nothing, State.startRun_nil, State.tile_modTile_same]
    · rw [State.tile_startRun_slot s t t nothing, if_pos rfl]
  simp [State.runSlot, idle, queued, started]

end

section
variable {t : Nat} (ws : List CalWindow) {s : State} (unit : t < Config.tiles)
include unit

/-- A tile that serves no position has no slot. -/
theorem execCalSlot_unplaced (unplaced : s.positionOf t = none) : execCalSlot t ws s = .next s := by
  rw [execCalSlot, if_neg (Nat.not_le.2 unit), unplaced, Option.filter_none]
  cases s.fabric.active <;> rfl

/-- The tile that serves a position takes the position's next slot, where the schedule reaches it (R98). -/
theorem execCalSlot_placed {home offset : Nat} {c : CueSheet} (active : s.fabric.active = some c)
    (placed : s.positionOf t = some home) (serves : s.servingTile home = t)
    (listed : Map.get? c.compiled.calOffsets home = some offset) {at_ : Nat}
    (next : at_ = nextSlot s.fabric.counter c.calPeriod offset (s.tile t).calFrom) : execCalSlot t ws s =
      .next (if (s.advanceTo at_).reached at_ then (s.advanceTo at_).runSlot t at_ ws else s.advanceTo at_) := by
  have position : (s.positionOf t).filter (fun h => s.servingTile h == t) = some home := by simp [placed, serves]
  subst next
  simp only [execCalSlot, if_neg (Nat.not_le.2 unit), active, position, listed]

end

/-- Settles O43: each way to ask for a run, the start of one, and a slot by what the tile holds when it comes. -/
theorem calibrationRunsAreQueued : Obligations.CalibrationRunsAreQueued := by
  unfold Obligations.CalibrationRunsAreQueued
  simp only [exec_calRun, exec_autoEn, exec_calTrigger, exec_calSlot]
  refine ⟨fun e s h first nonempty last => execCalRun_ok h ((tileRangeOk_iff e).2 ⟨first, nonempty, last⟩), fun e s h outside => ?_,
    fun v u s written => ?_, fun h s half => ?_, fun t arrays s nonempty => ?_,
    fun t home offset at_ ws c u s unit active placed serves listed next up => ?_, fun t at_ ws s => ?_,
    fun counter period offset start at_ pos next => ?_, fun t ws s unit => execCalSlot_unplaced ws unit⟩
  · refine execCalRun_invalid h (Bool.eq_false_iff.2 fun ok => ?_)
    obtain ⟨-, nonempty, last⟩ := (tileRangeOk_iff e).1 ok
    omega
  · subst written
    rw [execAutoEn_eq]
    refine ⟨fun off => by rw [if_neg (by omega)], fun on => by rw [if_pos on], State.autoEn_writeReg s _,
      State.tempStep_writeReg s _⟩
  · rw [execCalTrigger_eq s half]
    refine ⟨fun off => by rw [if_neg (by omega)], fun on due => by rw [if_pos ⟨on, due⟩],
      fun notDue => by rw [if_neg (by simp [notDue])], fun day => (s.triggerDue_iff h).2 (.inr day),
      fun moved => (s.triggerDue_iff h).2 (.inl moved)⟩
  · rw [State.tile_startRun_slot s t t nonempty, if_pos rfl]
    refine ⟨rfl, rfl, ?_, ?_, fun x other => ?_, State.startRun_kv s t arrays false⟩
    · rw [State.startRun_slot s t nonempty]
      exact (Map.getD_put _ _ _ _ _).trans (if_pos rfl)
    · rw [State.startRun_slot s t nonempty]
      exact (Map.getD_put _ _ _ _ _).trans (if_pos rfl)
    · rw [State.tile_startRun_slot s t x nonempty, if_neg other.symm]
  · subst up
    rw [execCalSlot_placed ws unit active placed serves listed next]
    exact ⟨fun reached => by rw [if_pos reached], fun waits => by rw [if_neg (by simp [waits])]⟩
  · refine ⟨fun r run direct => State.runSlot_direct at_ ws run direct, fun r run slots => State.runSlot_slots at_ ws run slots,
      fun idle queued nonempty => ?_, fun idle queued nothing => ?_, fun idle unasked => State.runSlot_idle at_ ws idle unasked⟩
    · rw [State.runSlot_queued at_ ws idle queued]
      exact State.runSlot_slots at_ ws (r := { arrays := s.calArrays t, direct := false })
        (by rw [State.tile_startRun_slot s t t nonempty, if_pos rfl]) rfl
    · rw [State.runSlot_queued at_ ws idle queued, nothing, State.startRun_nil]
      exact State.runSlot_idle at_ ws (by rw [State.tile_modTile_same]; exact idle) (by rw [State.tile_modTile_same])
  · subst next
    exact nextSlot_spec counter offset start pos

end Sys2Proof.Machine
end

section
/-!
SUPPORT. The close of an accumulator group, the SRAM scrubber and the monitor (R90, R126, R128, R144, R146): at which cycle a close begins,
what an access of the scrubber does, and what the end of a window stores.
-/
namespace Sys2Proof.Machine

theorem exec_groupClose (t slot : Nat) (s : State) : exec (.groupClose t slot) s = execGroupClose t slot s := rfl
theorem exec_sramScrubAccess (t ecc : Nat) (s : State) : exec (.sramScrubAccess t ecc) s = execSramScrubAccess t ecc s := rfl
theorem exec_statWindowEnd (t : Nat) (s : State) : exec (.statWindowEnd t) s = execStatWindowEnd t s := rfl

/-! ### The close of a group -/

/-- The closes of a group slot that still lie ahead, or in the present cycle. -/
def State.closesAhead (s : State) (c : CueSheet) (t slot : Nat) : List Nat :=
  (s.closeTimes c t slot).filter (fun v => decide (s.fabric.counter ≤ v))

theorem State.mem_closesAhead {s : State} {c : CueSheet} {t slot v : Nat} :
    v ∈ s.closesAhead c t slot ↔ v ∈ s.closeTimes c t slot ∧ s.fabric.counter ≤ v := by
  rw [State.closesAhead, List.mem_filter, decide_eq_true_eq]

section
variable {t : Nat} (slot : Nat) {s : State} (unit : t < Config.tiles)
include unit

/-- Without an active cue sheet no group closes. -/
theorem execGroupClose_inactive (inactive : s.fabric.active = none) : execGroupClose t slot s = .next s := by
  simp [execGroupClose, unit, inactive]

/-- With no close ahead the event does nothing. -/
theorem execGroupClose_none {c : CueSheet} (active : s.fabric.active = some c) (nothing : s.closesAhead c t slot = []) :
    execGroupClose t slot s = .next s := by
  unfold State.closesAhead at nothing
  simp [execGroupClose, unit, active, nothing]

/-- The first close ahead begins where the schedule reaches its cycle (R128). -/
theorem execGroupClose_first {c : CueSheet} {v : Nat} (active : s.fabric.active = some c)
    (first : (s.closesAhead c t slot).min? = some v) : execGroupClose t slot s =
      .next (if (s.advanceTo v).reached v then (s.advanceTo v).beginClose t slot else s.advanceTo v) := by
  cases ahead : s.closesAhead c t slot with
  | nil => simp [ahead] at first
  | cons w ws =>
    rw [ahead, List.min?_cons', Option.some.injEq] at first
    unfold State.closesAhead at ahead
    simp only [execGroupClose, if_neg (Nat.not_le.2 unit), active, ahead, first]

end

/-- The close of an open group that does not drain yet: it drains from its first lanes on, and its lanes stay (R128). -/
theorem State.beginClose_open {s : State} {t slot : Nat} {g : AccGroup} (found : Map.get? (s.tile t).groups slot = some g)
    (opened : g.isOpen = true) (still : g.draining = none) : (s.beginClose t slot).tile t =
      { s.tile t with groups := Map.put (s.tile t).groups slot { g with draining := some 0 } } := by
  rw [State.beginClose, State.tile_modTile_same]
  simp only [found, opened, still, Option.isNone_none, Bool.and_self, if_true]

theorem State.tile_beginClose_other (s : State) (t slot : Nat) {x : Nat} (other : x ≠ t) :
    (s.beginClose t slot).tile x = s.tile x := by
  rw [State.beginClose, State.tile_modTile, if_neg other.symm]

/-! ### The scrubber -/

theorem has_iff (xs : List Nat) (x : Nat) : has xs x = true ↔ x ∈ xs := by simp [has]

/-- The conditions under which the scrubber reads a word: it is enabled, no hold stands and the word's bank is free (R145, R146). -/
structure ScrubReads (s : State) (t : Nat) : Prop where
  enabled : Nat.testBit (s.reg (tileReg t 0x16C)) 31 = true
  free : s.held = false
  bank : sramBank (16 * (s.tile t).scrubAt) ∉ s.banksUsed t

/-- The scrubber reads its next word where its conditions hold. -/
theorem execSramScrubAccess_reads {t : Nat} {s : State} (ecc : Nat) (unit : t < Config.tiles) (reads : ScrubReads s t) :
    execSramScrubAccess t ecc s = .next (s.scrubWord t ecc) := by
  have bank : has (s.banksUsed t) (sramBank (16 * (s.tile t).scrubAt)) = false :=
    Bool.eq_false_iff.2 fun q => reads.bank ((has_iff _ _).1 q)
  simp [execSramScrubAccess, unit, reads.enabled, reads.free, bank]

/-- The scrubber does nothing while it is disabled, in a hold, or while its bank is in use (R145, R146). -/
theorem execSramScrubAccess_waits {t : Nat} {s : State} (ecc : Nat) (unit : t < Config.tiles)
    (waits : Nat.testBit (s.reg (tileReg t 0x16C)) 31 = false ∨ s.held = true ∨
      sramBank (16 * (s.tile t).scrubAt) ∈ s.banksUsed t) : execSramScrubAccess t ecc s = .next s := by
  have stopped : (!Nat.testBit (s.reg (tileReg t 0x16C)) 31 || s.held ||
      has (s.banksUsed t) (sramBank (16 * (s.tile t).scrubAt))) = true := by
    rwa [Bool.or_eq_true, Bool.or_eq_true, or_assoc, Bool.not_eq_true', has_iff]
  rw [execSramScrubAccess, if_neg (Nat.not_le.2 unit), if_pos stopped]

/-- What the scrubber finds in a word: an uncorrectable one reads so again until it is written (R144). -/
def State.scrubFinds (s : State) (t word ecc : Nat) : State :=
  if word ∈ (s.tile t).badWords ∨ 1 < ecc then s.sramUe t word s.flight else if ecc = 1 then s.sramCe t word else s

/-- An access before the last word of the SRAM steps the scrubber and takes what it finds. -/
theorem State.scrubWord_steps {t : Nat} {s : State} (ecc : Nat) (more : (s.tile t).scrubAt + 1 < 12288) : s.scrubWord t ecc =
    (s.modTile t (fun x => { x with scrubAt := (s.tile t).scrubAt + 1 })).scrubFinds t (s.tile t).scrubAt ecc := by
  have last : (s.tile t).scrubAt + 1 ≠ 12288 := by omega
  simp [State.scrubWord, State.scrubFinds, last, has_iff]

/-- An access to the last word counts the pass, and the scrubber starts again at the first (R144, R145). -/
theorem State.scrubWord_wraps {t : Nat} {s : State} (ecc : Nat) (last : (s.tile t).scrubAt + 1 = 12288) : s.scrubWord t ecc =
    ((s.modTile t (fun x => { x with scrubAt := 0 })).setField (tileReg t 0x16C) 0 16
      (min 0xFFFF (s.field (tileReg t 0x16C) 0 16 + 1))).scrubFinds t (s.tile t).scrubAt ecc := by
  have same : (s.modTile t (fun x => { x with scrubAt := 0 })).field (tileReg t 0x16C) 0 16 = s.field (tileReg t 0x16C) 0 16 :=
    rfl
  simp [State.scrubWord, State.scrubFinds, last, has_iff, satAdd, same]

section
variable {s : State} {t word ecc : Nat}

theorem State.scrubFinds_sound (good : word ∉ (s.tile t).badWords) : s.scrubFinds t word 0 = s := by
  simp [State.scrubFinds, good]

theorem State.scrubFinds_corrected (good : word ∉ (s.tile t).badWords) : s.scrubFinds t word 1 = s.sramCe t word := by
  simp [State.scrubFinds, good]

theorem State.scrubFinds_uncorrectable (bad : 2 ≤ ecc ∨ word ∈ (s.tile t).badWords) :
    s.scrubFinds t word ecc = s.sramUe t word s.flight :=
  if_pos bad.symm

end

/-! ### The monitor -/

/-- Without an ended window there is nothing to test. -/
theorem execStatWindowEnd_none {t : Nat} {s : State} (unit : t < Config.tiles) (nothing : (s.tile t).statEnded = []) :
    execStatWindowEnd t s = .next s := by
  simp [execStatWindowEnd, unit, nothing]

/-- The oldest window that has ended leaves the list and is tested (R90, R91). -/
theorem execStatWindowEnd_oldest {t : Nat} {w : Int × Nat × Nat} {rest : List (Int × Nat × Nat)} {s : State}
    (unit : t < Config.tiles) (ended : (s.tile t).statEnded = w :: rest) :
    execStatWindowEnd t s = .next ((s.setTile t { s.tile t with statEnded := rest }).endStatWindow t w) := by
  simp [execStatWindowEnd, unit, ended, State.modTile]

/-- A window without a deviation stores an estimate of 0 and raises nothing (R90, R91). -/
theorem State.endStatWindow_zero (s : State) (t a : Nat) :
    s.endStatWindow t (0, 0, a) = (s.setField (tileReg t 0x120) 0 16 0).orReg (tileReg t 0x120) 0 := by
  have root : Nat.sqrt (0 / 64) = 0 := by decide
  unfold State.endStatWindow
  simp only [root, Nat.mul_zero, Nat.zero_mul, Nat.not_lt_zero, Int.natAbs_zero, ne_eq, not_true_eq_false, decide_false, Bool.false_and,
    Bool.or_self, Bool.false_eq_true, if_false, Nat.add_zero, Nat.min_zero]

/-- Settles O47: a close by the first one ahead, an access of the scrubber by the word that it finds, and the end of a window by the oldest
that has ended. -/
theorem groupsScrubberAndMonitor : Obligations.GroupsScrubberAndMonitor := by
  unfold Obligations.GroupsScrubberAndMonitor
  simp only [exec_groupClose, exec_sramScrubAccess, exec_statWindowEnd]
  refine ⟨fun t slot s unit inactive => execGroupClose_inactive slot unit inactive,
    fun t slot c s unit active => ⟨fun passed => ?_, fun v listed ahead least => ?_⟩,
    fun t slot g s found opened still => ?_, fun t u s unit enabled free bank more stepped => ?_,
    fun t s unit enabled free bank good last => ?_, fun t ecc s unit waits => execSramScrubAccess_waits ecc unit waits,
    fun t s unit nothing => execStatWindowEnd_none unit nothing, fun t w rest s unit ended => execStatWindowEnd_oldest unit ended,
    fun t a s => ?_⟩
  · refine execGroupClose_none slot unit active (List.eq_nil_iff_forall_not_mem.2 fun v mem => ?_)
    obtain ⟨listed, ahead⟩ := State.mem_closesAhead.1 mem
    exact absurd (passed v listed) (Nat.not_lt.2 ahead)
  · have first : v ∈ s.closesAhead c t slot := State.mem_closesAhead.2 ⟨listed, ahead⟩
    refine execGroupClose_first slot unit active (List.min?_eq_some_iff.2 ⟨first, fun w mem => ?_⟩)
    obtain ⟨listed, ahead⟩ := State.mem_closesAhead.1 mem
    exact least w listed ahead
  · rw [State.beginClose_open found opened still]
    exact ⟨Map.get?_put_same _ _ _, rfl, fun x other => s.tile_beginClose_other t slot other⟩
  · have reads : ScrubReads s t := ⟨enabled, free, bank⟩
    have words : (u.tile t).badWords = (s.tile t).badWords := by rw [stepped, State.tile_modTile_same]
    refine ⟨fun good => ?_, fun ecc bad => ?_⟩
    · rw [← words] at good
      rw [execSramScrubAccess_reads 0 unit reads, execSramScrubAccess_reads 1 unit reads, State.scrubWord_steps 0 more,
        State.scrubWord_steps 1 more, ← stepped, State.scrubFinds_sound good, State.scrubFinds_corrected good]
      exact ⟨rfl, rfl⟩
    · rw [← words] at bad
      rw [execSramScrubAccess_reads ecc unit reads, State.scrubWord_steps ecc more, ← stepped, State.scrubFinds_uncorrectable bad]
  · have reads : ScrubReads s t := ⟨enabled, free, bank⟩
    refine ⟨_, execSramScrubAccess_reads 0 unit reads, ?_⟩
    rw [State.scrubWord_wraps 0 last,
      State.scrubFinds_sound (by rwa [State.tile_congr (State.setField_tiles ..), State.tile_modTile_same])]
    refine ⟨?_, ?_, ?_⟩
    · rw [State.tile_congr (State.setField_tiles ..), State.tile_modTile_same]
    · rw [State.field_setField_low _ _ _ (by decide)]
      exact Nat.mod_eq_of_lt (by omega)
    · rw [State.setField_kv, State.modTile_kv]
  · rw [State.endStatWindow_zero]
    refine ⟨?_, fun x => State.tile_congr (by simp) x, by simp⟩
    rw [State.field, State.orReg, State.reg_setReg_same, Nat.or_zero, bitsOf_mod_word _ (by decide)]
    exact State.field_setField_low s (tileReg t 0x120) 0 (by decide)

end Sys2Proof.Machine
end

section
/-!
SUPPORT. A stage cycle on an empty queue (R26, R158, R177): the cause that it drops by itself.
-/
namespace Sys2Proof.Machine

/-- A device with a running stage clock, as reset leaves it otherwise, where cause EXPERT is raised and no excess row waits (R26). -/
def expertRaised : State :=
  { State.reset with
    fabric := { State.reset.fabric with causes := 2 ^ 7 }
    pwr := { State.reset.pwr with stageStopped := false } }

/-- The cycle's engines find no excess row that waits or runs, so EXPERT drops before the causes are moved on (R26, R177). -/
theorem expertRaised_stageCycle : expertRaised.stageCycle.fabric.history1 = 0 := by decide

/-- Refutes O2: with no cue sheet and no tile at work a stage cycle does not move every raised cause on. Cause EXPERT has no excess row
left to wait for and drops within the cycle, so none reaches the place where the statement expects it. -/
theorem not_idleStepIsOneStageCycle : ¬ Obligations.IdleStepIsOneStageCycle := by
  unfold Obligations.IdleStepIsOneStageCycle
  intro h
  obtain ⟨-, -, -, moves⟩ := h expertRaised rfl
  obtain ⟨-, moved, -⟩ := moves rfl rfl rfl rfl rfl
  rw [expertRaised_stageCycle] at moved
  exact absurd moved (by decide)

end Sys2Proof.Machine
end

section
/-!
SUPPORT. The state in which a mailbox command begins (R390): its entry has left the staging area of its ring, and nothing that the rules
of a command ask of the device has changed.
-/
namespace Sys2Proof.Machine

@[simp] theorem State.begun_fabric (s : State) (e : Entry) : (s.begun e).fabric = s.fabric := rfl
@[simp] theorem State.begun_kv (s : State) (e : Entry) : (s.begun e).kv = s.kv := rfl
@[simp] theorem State.begun_nextJob (s : State) (e : Entry) : (s.begun e).mbx.nextJob = s.mbx.nextJob := rfl
@[simp] theorem State.begun_tile (s : State) (e : Entry) (t : Nat) : (s.begun e).tile t = s.tile t := rfl
@[simp] theorem State.begun_rehearsing (s : State) (e : Entry) (t : Nat) : (s.begun e).rehearsing t = s.rehearsing t := rfl
@[simp] theorem State.begun_fenceBusy (s : State) (e : Entry) (t : Nat) : (s.begun e).fenceBusy t = s.fenceBusy t := rfl
@[simp] theorem State.begun_positionOf (s : State) (e : Entry) (t : Nat) : (s.begun e).positionOf t = s.positionOf t := rfl
@[simp] theorem State.begun_servingTile (s : State) (e : Entry) (t : Nat) : (s.begun e).servingTile t = s.servingTile t := rfl
@[simp] theorem State.begun_chooseUnderstudy (s : State) (e : Entry) (t : Nat) :
    (s.begun e).chooseUnderstudy t = s.chooseUnderstudy t := rfl
@[simp] theorem State.begun_ldr (s : State) (e : Entry) : (s.begun e).ldr = s.ldr := rfl
@[simp] theorem State.begun_recasting (s : State) (e : Entry) : (s.begun e).recasting = s.recasting := rfl
@[simp] theorem State.begun_hasJob (s : State) (e : Entry) (p : JobKind → Bool) : (s.begun e).hasJob p = s.hasJob p := rfl
@[simp] theorem State.begun_arraysValid (s : State) (e : Entry) (c : CueSheet) : (s.begun e).arraysValid c = s.arraysValid c := rfl
@[simp] theorem State.begun_groupFor (s : State) (e : Entry) (c : CueSheet) : (s.begun e).groupFor c = s.groupFor c := rfl

end Sys2Proof.Machine
end

section
/-!
SUPPORT. Cue sheets (R169, R170, R203, R425): what CUESHEET_LOAD does with the sheet that its transfer brings, and when CUESHEET_ACTIVATE
takes effect.
-/
namespace Sys2Proof.Machine

theorem exec_cuesheetLoad (e : Entry) (x : Option SheetIn) (s : State) :
    exec (.cuesheetLoad e x) s = execCuesheetLoad e x s := rfl
theorem exec_cuesheetActivate (e : Entry) (s : State) : exec (.cuesheetActivate e) s = execCuesheetActivate e s := rfl

/-! ### CUESHEET_LOAD -/

/-- What CUESHEET_LOAD does with a sheet by the first check of R169 that fails, of code and tile: that check ends it; a sheet that
none fails refills a lost store or becomes the loaded one (R169, R170, R425). -/
def State.takeSheet (s : State) (c : CueSheet) : Option (Nat × Nat) → State × Option (Status × List Byte)
  | some (code, tile) => done (s.setCheck code tile) .invalid (leBytes 1 code ++ leBytes 1 0 ++ leBytes 2 tile)
  | none =>
    if s.fabric.storeLost && (s.fabric.active.map (fun a => a.digest == c.digest)).getD false then
      done { s.setReg 0x41C 0 with fabric := { s.fabric with storeLost := false } } .ok []
    else done ((s.setReg 0x41C 0).storeSheet c) .ok []

/-- The data of a transfer whose pair is usable and that is answered: from host memory, or read by RDMA READ (R351, R395). -/
theorem withTransfer_some {α : Type} {e : Entry} {at_ len : Nat} (x : α) {s : State}
    (k : State → α → State × Option (Status × List Byte))
    (usable : e.op (at_ + 12) 2 = 0xFFFF ∨ s.qpUsable (e.op (at_ + 12) 2) = true) : withTransfer e at_ len (some x) s k =
    k (if e.op (at_ + 12) 2 = 0xFFFF then s else s.remoteRead (e.op (at_ + 12) 2) (e.op at_ 8) (e.op (at_ + 8) 4) len true) x := by
  unfold withTransfer withBuffer
  split
  · rfl
  · next remote =>
    rw [usable.resolve_left remote]
    rfl

/-- CUESHEET_LOAD takes the sheet that its transfer brings, under the compiled form that its digest has (R17, R169). -/
theorem execCuesheetLoad_takes {e : Entry} {x : SheetIn} {c : CueSheet} {s u : State} (h : Begins e 0x20 (e.op 20 2 == 0xFFFF) s)
    (free : s.recasting = false) (ok : transferOk e 8 20 = true) (usable : e.op 20 2 = 0xFFFF ∨ s.qpUsable (e.op 20 2) = true)
    (transferred : u = if e.op 20 2 = 0xFFFF then s.begun e
      else (s.begun e).remoteRead (e.op 20 2) (e.op 8 8) (e.op 16 4) (e.op 24 8) true)
    (sheet : c = u.compiledAs (readSheet x)) : execCuesheetLoad e (some x) s =
      .next (runBody e (fun v => v.takeSheet c (sheetCheck c (e.op 24 8))) (u.noteForm c)) := by
  subst sheet
  rw [execCuesheetLoad, runCmd_begins _ h (by decide)]
  unfold runBody
  simp only [State.begun_recasting, free, ok, Bool.false_eq_true, Bool.not_true, if_false, Option.map_some]
  rw [withTransfer_some (at_ := 8) (s := s.begun e) (readSheet x) _ usable, ← transferred]
  rfl

/-- A sheet that no check of R169 fails refills the lost store of the active cue sheet, or becomes the loaded one (R169, R170, R425). -/
theorem State.takeSheet_none (v : State) (c : CueSheet) : v.takeSheet c none =
    done (if v.fabric.storeLost = true ∧ (v.fabric.active.map (fun a => a.digest == c.digest)).getD false = true then
        { v.setReg 0x41C 0 with fabric := { v.fabric with storeLost := false } }
      else (v.setReg 0x41C 0).storeSheet c) .ok [] := by
  simp only [State.takeSheet, Bool.and_eq_true]
  split <;> rfl

/-! ### CUESHEET_ACTIVATE -/

section
variable {e : Entry} {s : State} (h : Begins e 0x21 false s)
include h

/-- Before the boot check and during a recast no cue sheet is activated (R306, R308, R318). -/
theorem execCuesheetActivate_busy (busy : s.ldr.bootVerified = false ∨ s.recasting = true) :
    execCuesheetActivate e s = .next ((s.begun e).complete e .busy []) := by
  have refuses : (!(s.begun e).ldr.bootVerified || (s.begun e).recasting) = true := by simpa using busy
  rw [execCuesheetActivate, runCmd_begins _ h (by decide), runBody_done (if_pos refuses)]

variable (verified : s.ldr.bootVerified = true) (free : s.recasting = false)
include verified free

/-- Without a loaded cue sheet there is none to activate, or the one that was loaded waits for its activation (R170). -/
theorem execCuesheetActivate_none (unloaded : s.fabric.loaded = none) : execCuesheetActivate e s =
    .next ((s.begun e).complete e (if s.fabric.activating.isSome then .busy else .invalid) []) := by
  rw [execCuesheetActivate, runCmd_begins _ h (by decide), runBody_done]
  simp [verified, free, unloaded]
  rfl

/-- A loaded cue sheet that nothing refuses is activated: at once where no scene is in flight (R170). -/
theorem execCuesheetActivate_takes {c : CueSheet} (loaded : s.fabric.loaded = some c)
    (first : s.hasJob (fun k => k == .activate) = false) (resident : (c.identity, c.epoch) ∈ s.ldr.resident)
    (valid : s.arraysValid c = true) (group : Nat.testBit c.flags 2 = false ∨ (s.groupFor c).isSome = true) {t : State}
    (waits : t = { (s.begun e).addJob e.ring e.tag .activate with
      fabric := { s.fabric with loaded := none, activating := some c } }) :
    execCuesheetActivate e s = .next (if s.prm.scenes = [] then t.activate c else t) := by
  have accepted : (!s.ldr.resident.any (fun r => r == (c.identity, c.epoch)) || !s.arraysValid c ||
      (Nat.testBit c.flags 2 && (s.groupFor c).isNone)) = false := by
    have held : s.ldr.resident.any (fun r => r == (c.identity, c.epoch)) = true :=
      List.any_eq_true.2 ⟨_, resident, beq_self_eq_true _⟩
    rcases group with single | matched
    · simp [held, valid, single]
    · simp [held, valid, Option.isNone_eq_false_iff.2 matched]
  rw [execCuesheetActivate, runCmd_begins _ h (by decide), runBody_later (t := if s.prm.scenes = [] then t.activate c else t)]
  subst waits
  simp only [State.begun_ldr, State.begun_recasting, State.begun_fabric, State.begun_hasJob, State.begun_arraysValid,
    State.begun_groupFor, verified, free, loaded, first, accepted, Bool.not_true, Bool.or_self, Bool.false_eq_true, if_false,
    List.isEmpty_iff]
  rfl

end

/-- Settles O37: a load by the sheet that its transfer brings and the first check that fails, an activation by the row of R170. -/
theorem cueSheetsLoadAndActivate : Obligations.CueSheetsLoadAndActivate := by
  unfold Obligations.CueSheetsLoadAndActivate
  simp only [exec_cuesheetLoad, exec_cuesheetActivate]
  refine ⟨fun e x c u v s h free ok usable transferred sheet noted => ?_, fun code tile s => rfl,
    fun e c s h loaded verified free first resident valid group => ?_,
    fun e s h => ⟨execCuesheetActivate_busy h, execCuesheetActivate_none h⟩⟩
  · rw [execCuesheetLoad_takes h free ok usable transferred sheet, ← noted]
    cases sheetCheck c (e.op 24 8) with
    | none =>
      rw [runBody_done (State.takeSheet_none v c)]
      exact congrArg Host.Outcome.next (apply_ite (fun w : State => w.complete e .ok []) ..)
    | some failure => exact congrArg Host.Outcome.next (runBody_done rfl)
  · rw [execCuesheetActivate_takes h verified free loaded first resident valid group rfl]
    exact ⟨fun empty => by rw [if_pos empty], fun flight => by rw [if_neg flight]⟩

end Sys2Proof.Machine
end

section
/-!
SUPPORT. Fences, restores and streamed positions (R183 to R194): the row of R186 or R191 by which each of the commands ends.
-/
namespace Sys2Proof.Machine

theorem exec_tileFence (e : Entry) (s : State) : exec (.tileFence e) s = execTileFence e s := rfl
theorem exec_tileRestore (e : Entry) (s : State) : exec (.tileRestore e) s = execTileRestore e s := rfl
theorem exec_understudyPrepared (t : Nat) (s : State) : exec (.understudyPrepared t) s = execUnderstudyPrepared t s := rfl
theorem exec_understudyArraysReady (row : Nat) (east : Bool) (s : State) :
    exec (.understudyArraysReady row east) s = execUnderstudyArraysReady row east s := rfl

/-! ### TILE_FENCE -/

section
variable {e : Entry} {s : State} (h : Begins e 0x50 false s) (tile : e.op 8 2 < Config.tiles) (kind : e.op 16 1 < 2)
include h tile kind

/-- A fence under another epoch than FAB_FENCE_EPOCH is rejected (R186, R194). -/
theorem execTileFence_stale (stale : e.op 12 4 ≠ s.fabric.epoch) :
    execTileFence e s = .next ((s.begun e).complete e .staleEpoch []) := by
  rw [execTileFence, runCmd_begins _ h (by decide)]
  simp [runBody, done, Nat.not_le.2 tile, Nat.not_le.2 kind, stale]

variable (epoch : e.op 12 4 = s.fabric.epoch)
include epoch

/-- A fence of a tile of which a fence or restore is in progress is BUSY (R186). -/
theorem execTileFence_busy (busy : s.fenceBusy (e.op 8 2) = true) :
    execTileFence e s = .next ((s.begun e).complete e .busy []) := by
  rw [execTileFence, runCmd_begins _ h (by decide)]
  simp [runBody, done, Nat.not_le.2 tile, Nat.not_le.2 kind, epoch, busy]

variable (idle : s.fenceBusy (e.op 8 2) = false) (serving : (s.tile (e.op 8 2)).router.fenced = false)
  (fit : s.rehearsing (e.op 8 2) = false) (store : s.fabric.storeLost = false)
include idle serving fit store

/-- An understudy that serves no position is fenced at once (R186). -/
theorem execTileFence_idle (unplaced : s.positionOf (e.op 8 2) = none) : execTileFence e s =
    .next (((s.begun e).fenceTile (e.op 8 2) true).complete e .ok ((s.begun e).fenceResult 0xFFFF)) := by
  rw [execTileFence, runCmd_begins _ h (by decide)]
  simp [runBody, done, Nat.not_le.2 tile, Nat.not_le.2 kind, epoch, idle, serving, fit, store, unplaced]

variable {home : Nat} (placed : s.positionOf (e.op 8 2) = some home)
include placed

/-- Without a free understudy the fence of a tile that serves a position ends with NO_SPACE (R183, R186). -/
theorem execTileFence_exhausted (exhausted : s.chooseUnderstudy home = none) :
    execTileFence e s = .next ((s.begun e).complete e .noSpace []) := by
  rw [execTileFence, runCmd_begins _ h (by decide)]
  simp [runBody, done, Nat.not_le.2 tile, Nat.not_le.2 kind, epoch, idle, serving, fit, store, placed, exhausted]

/-- The fence of a tile that serves a position plans a cut-over to the understudy that R183 names (R186, R187). -/
theorem execTileFence_plans {u : Nat} (chosen : s.chooseUnderstudy home = some u) : execTileFence e s =
    .next { (s.begun e).addJob e.ring e.tag (.fence (e.op 8 2)) with fabric := { s.fabric with
      cutovers := s.fabric.cutovers ++ [{
        home := home, under := u, restore := false, copy := !isUnderstudy (e.op 8 2) && e.op 16 1 == 0
        bypass := (s.tile home).router.faulty, auto := false, prepared := false, job := some s.mbx.nextJob
        expect := some s.fabric.epoch, mark := some (e.op 8 2) }] } } := by
  rw [execTileFence, runCmd_begins _ h (by decide)]
  simp [runBody, later, Nat.not_le.2 tile, Nat.not_le.2 kind, epoch, idle, serving, fit, store, placed, chosen]

end

/-! ### TILE_RESTORE -/

section
variable {e : Entry} {s : State} (h : Begins e 0x51 false s) (tile : e.op 8 2 < Config.tiles)
  (fenced : (s.tile (e.op 8 2)).router.fenced = true) (epoch : e.op 12 4 = s.fabric.epoch)
  (idle : s.fenceBusy (e.op 8 2) = false) (fit : s.rehearsing (e.op 8 2) = false)
include h tile fenced epoch idle fit

/-- A fenced understudy is free again at once (R191). -/
theorem execTileRestore_understudy (understudy : isUnderstudy (e.op 8 2) = true) : execTileRestore e s =
    .next (((s.begun e).fenceTile (e.op 8 2) false).complete e .ok (leBytes 4 0 ++ leBytes 4 s.fabric.epoch)) := by
  rw [execTileRestore, runCmd_begins _ h (by decide)]
  simp [runBody, done, Nat.not_le.2 tile, fenced, epoch, idle, fit, understudy]

/-- The restore of a home tile enables its footlights and plans the cut-over back to it (R191). -/
theorem execTileRestore_plans (home : isUnderstudy (e.op 8 2) = false) (sound : (s.tile (e.op 8 2)).router.faulty = false) :
    execTileRestore e s = .next { ((s.begun e).addJob e.ring e.tag (.restore (e.op 8 2))).enableFl (e.op 8 2) with
      fabric := { s.fabric with
        cutovers := s.fabric.cutovers ++ [{
          home := e.op 8 2, under := s.servingTile (e.op 8 2), restore := true, copy := true, bypass := false, auto := false
          prepared := true, job := some s.mbx.nextJob, expect := some s.fabric.epoch }] } } := by
  rw [execTileRestore, runCmd_begins _ h (by decide)]
  simp [runBody, later, Nat.not_le.2 tile, fenced, epoch, idle, fit, home, sound]

end

/-! ### The events of firmware's preparation -/

/-- The cut-overs to an understudy that firmware has prepared may take effect (R187). -/
theorem execUnderstudyPrepared_unit {t : Nat} {s : State} (unit : t < Config.tiles) :
    execUnderstudyPrepared t s = .next { s with fabric := { s.fabric with
      cutovers := s.fabric.cutovers.map (fun c => if c.under = t && !c.restore then { c with prepared := true } else c) } } :=
  if_neg (Nat.not_le.2 unit)

section
variable {row : Nat} {east : Bool} {x : Subst} {c : CueSheet} {s : State} (unit : row < Config.rows)
  (active : s.fabric.active = some c) (serves : s.servesAs (row * Config.cols + (if east then 65 else 0)) = some x)
include unit active serves

/-- A position stays on the streamed tier until all of its arrays serve (R188, R189). -/
theorem execUnderstudyArraysReady_waits (waits : s.allServe c x.home (row * Config.cols + (if east then 65 else 0)) = false) :
    execUnderstudyArraysReady row east s = .next s := by
  simp [execUnderstudyArraysReady, Nat.not_le.2 unit, active, serves, waits]

/-- Once all arrays of a streamed position serve, its STREAMED bit clears (R189). -/
theorem execUnderstudyArraysReady_serves (streamed : x.streamed = true)
    (ready : s.allServe c x.home (row * Config.cols + (if east then 65 else 0)) = true) : execUnderstudyArraysReady row east s =
    .next ({ s with fabric := { s.fabric with substs := s.fabric.substs.map (fun (y : Subst) =>
      if y.under = row * Config.cols + (if east then 65 else 0) then { y with streamed := false } else y) } }.syncMgmt
        [row * Config.cols + (if east then 65 else 0)]) := by
  simp [execUnderstudyArraysReady, Nat.not_le.2 unit, active, serves, streamed, ready]

end

/-- Settles O38: a fence and a restore by the row of their tables that applies, each event by its own lemma. -/
theorem fencesAndRestoresPlanCutovers : Obligations.FencesAndRestoresPlanCutovers := by
  unfold Obligations.FencesAndRestoresPlanCutovers
  simp only [exec_tileFence, exec_tileRestore, exec_understudyPrepared, exec_understudyArraysReady]
  refine ⟨fun e s h tile kind => ⟨execTileFence_stale h tile kind, execTileFence_busy h tile kind,
      fun epoch idle serving fit store => ⟨execTileFence_idle h tile kind epoch idle serving fit store,
        fun home placed => ⟨execTileFence_exhausted h tile kind epoch idle serving fit store placed,
          fun u => execTileFence_plans h tile kind epoch idle serving fit store placed⟩⟩⟩,
    fun e s h tile fenced epoch idle fit => ⟨execTileRestore_understudy h tile fenced epoch idle fit, fun home sound => ?_⟩,
    fun t s unit => execUnderstudyPrepared_unit unit,
    fun row east x c s unit active serves streamed => ⟨execUnderstudyArraysReady_waits unit active serves, fun ready => ?_⟩⟩
  · exact ⟨_, execTileRestore_plans h tile fenced epoch idle fit home sound, rfl, rfl, by simp⟩
  · exact ⟨_, execUnderstudyArraysReady_serves unit active serves streamed ready, rfl, rfl, rfl, rfl⟩

end Sys2Proof.Machine
end

section
/-!
SUPPORT. Scenes (R252 to R257, R265, R266, R357): the scene that SCENE_FORM starts, when a scene changes, and what the start of a section
does to the routers and the phase.
-/
namespace Sys2Proof.Machine

theorem exec_sceneForm (s : State) : exec .sceneForm s = execSceneForm s := rfl
theorem exec_sceneChange (s : State) : exec .sceneChange s = execSceneChange s := rfl
theorem exec_emptySceneChange (s : State) : exec .emptySceneChange s = execEmptySceneChange s := rfl
theorem exec_sectionStart (index scene : Nat) (errors : List SecError) (s : State) :
    exec (.sectionStart index scene errors) s = execSectionStart index scene errors s := rfl

/-- A counter value that does not lie ahead brings up no cycle (R158). -/
theorem State.advanceTo_of_le {s : State} {n : Nat} (passed : n ≤ s.fabric.counter) : s.advanceTo n = s := by
  unfold State.advanceTo
  split
  · rw [Nat.sub_eq_zero_of_le passed]
    rfl
  · rfl

/-! ### SCENE_FORM -/

/-- While FATAL_STOP is set or 16 scenes are in flight no scene may be formed (R252, R484). -/
theorem State.mayForm_eq_false {s : State} (stopped : s.integ.fatalStop = true ∨ 16 ≤ s.prm.scenes.length) : s.mayForm = false := by
  rcases stopped with fatal | full
  · simp [State.mayForm, fatal]
  · simp [State.mayForm, Nat.not_lt.2 full]

section
variable {c : CueSheet} {s : State} (active : s.fabric.active = some c)
include active

/-- Where no scene may be formed SCENE_FORM does nothing. -/
theorem execSceneForm_refused (refused : s.mayForm = false) : execSceneForm s = .next s := by
  simp [execSceneForm, active, refused]

/-- A member other than member 0 of a group starts the scene that it was sent (R357). -/
theorem execSceneForm_follower (may : s.mayForm = true) (follower : s.follower = true) : execSceneForm s = .next (s.startSent c) := by
  simp [execSceneForm, active, may, follower]

variable {big : Variant} (may : s.mayForm = true) (leads : s.follower = false) (largest : c.variants.getLast? = some big)
include may leads largest

/-- Without a work item no scene starts (R253). -/
theorem execSceneForm_empty (empty : (s.chooseFor c big).chosen = []) : execSceneForm s = .next (s.chooseFor c big).st := by
  simp [execSceneForm, active, may, leads, largest, empty]

/-- The chosen items start a scene of the least variant that holds them, after its descriptor has gone out (R253, R254, R256, R357). -/
theorem execSceneForm_starts {f : Forming} {n : Nat} {v : Variant} (chosen : f = s.chooseFor c big) (items : f.chosen ≠ [])
    (variant : variantFor c.variants f.positions f.chosen.length = some (n, v)) : execSceneForm s =
    .next (((f.st.advanceTo f.st.nextStart).sendScene { variant := n, members := f.chosen, positions := f.positions }).startScene (n, v)
      f.st.nextStart f.chosen f.positions) := by
  subst chosen
  simp [execSceneForm, active, may, leads, largest, items, variant]

end

/-! ### Scene changes -/

section
variable {sc : Scene} {rest : List Scene} {c : CueSheet} {v : Variant} {s u : State} (oldest : s.prm.scenes = sc :: rest)
  (active : s.fabric.active = some c) (variant : c.variants[sc.variant]? = some v) (advanced : u = s.advanceTo (sc.start + v.length))
include oldest active variant advanced

/-- The oldest scene ends once the counter has reached its end (R256, R265). -/
theorem execSceneChange_ends {x : Scene} {tail : List Scene} (ended : sc.start + v.length ≤ u.fabric.counter)
    (now : u.prm.scenes = x :: tail) : execSceneChange s = .next (u.endScene x) := by
  subst advanced
  simp [execSceneChange, oldest, active, variant, Nat.not_lt.2 ended, now]

/-- Before its end the oldest scene stays (R256). -/
theorem execSceneChange_waits (early : u.fabric.counter < sc.start + v.length) : execSceneChange s = .next u := by
  subst advanced
  simp [execSceneChange, oldest, active, variant, early]

end

/-- With no scene in flight and no FATAL stop, an empty scene change runs its steps where something waits for them (R266, R484). -/
theorem execEmptySceneChange_eq {s : State} (idle : s.prm.scenes = []) (runs : s.integ.fatalStop = false) :
    execEmptySceneChange s = .next (if s.emptyDue = true then (s.changeSteps none).afterChange else s) := by
  cases due : s.emptyDue <;> simp [execEmptySceneChange, idle, runs, due]

/-! ### SECTION_START -/

/-- A section that does not run yet begins where the schedule has reached its start (R162, R255). -/
theorem execSectionStart_eq {index scene : Nat} {sc : Scene} {x : Section} {s u : State} (errors : List SecError)
    (held : s.sectionOf index scene = some (sc, x)) (advanced : u = s.advanceTo (sc.start + x.start))
    (fresh : u.fabric.running.any (fun r => r.index == index && r.scene == scene) = false) :
    execSectionStart index scene errors s = .next (if u.reached (sc.start + x.start) = true then
      errors.foldl (State.sectionError scene) (u.beginSection index scene (sc.start + x.start) x.tag) else u) := by
  subst advanced
  cases reached : (s.advanceTo (sc.start + x.start)).reached (sc.start + x.start) <;>
    simp only [execSectionStart, held, fresh, reached] <;> rfl

/-- The fabric takes the tag of a section that begins, and keeps the rest (R162, R445). -/
theorem State.takePhase_fabric (s : State) (tag : Nat) : (s.takePhase tag).fabric = { s.fabric with phaseTag := tag } := by
  simp only [State.takePhase]
  split <;> rfl

/-- A section that begins runs from then on under its tag (R162, R255). -/
theorem State.beginSection_fabric (s : State) (index scene start tag : Nat) : (s.beginSection index scene start tag).fabric =
    { s.fabric with
      running := s.fabric.running ++ [{ index := index, scene := scene, start := start }], phaseTag := tag } := by
  rw [State.beginSection, State.takePhase_fabric]
  rfl

/-- A section that begins starts the router of each tile that is listed, and changes nothing else of the tiles (R162). -/
theorem State.tile_beginSection (s : State) (index scene start tag t : Nat) :
    (s.beginSection index scene start tag).tile t = s.tile t ∨
      (s.beginSection index scene start tag).tile t = { s.tile t with router := (s.tile t).router.startSection index } := by
  have tiles : (s.beginSection index scene start tag).tiles =
      Map.mapVals s.tiles (fun _ x => { x with router := x.router.startSection index }) := State.takePhase_tiles ..
  unfold State.tile Map.getD
  rw [tiles, Map.get?_mapVals]
  cases Map.get? s.tiles t with
  | none => exact .inl rfl
  | some x => exact .inr rfl

/-- Settles O42: a scene by what keeps it from starting or by the items chosen for it, a change and a section by whether the counter has
reached their cycle. -/
theorem scenesFormAndChange : Obligations.ScenesFormAndChange := by
  unfold Obligations.ScenesFormAndChange
  simp only [exec_sceneForm, exec_sceneChange, exec_emptySceneChange, exec_sectionStart]
  refine ⟨fun c big f s active may leads largest chosen => ⟨fun empty => ?_,
      fun n v items variant => execSceneForm_starts active may leads largest chosen items variant⟩,
    fun c s => execSceneForm_follower, fun c s active stopped => execSceneForm_refused active (State.mayForm_eq_false stopped),
    fun sc x rest tail c v u s oldest active variant advanced => ⟨execSceneChange_ends oldest active variant advanced,
      execSceneChange_waits oldest active variant advanced⟩,
    fun n s => State.advanceTo_of_le, fun s idle runs => ?_, fun i id sc x errors u s held advanced fresh => ?_,
    fun i id at_ tag s => ?_⟩
  · subst chosen
    exact execSceneForm_empty active may leads largest empty
  · rw [execEmptySceneChange_eq idle runs]
    exact ⟨fun due => by rw [if_pos due], fun nothing => by rw [nothing, if_neg Bool.false_ne_true]⟩
  · rw [execSectionStart_eq errors held advanced fresh]
    exact ⟨fun reached => by rw [if_pos reached], fun waits => by rw [waits, if_neg Bool.false_ne_true]⟩
  · rw [State.beginSection_fabric]
    exact ⟨rfl, rfl, s.tile_beginSection i id at_ tag, State.takePhase_kv .., State.takePhase_prm ..⟩

end Sys2Proof.Machine
end

section
/-!
SUPPORT. The wings (R157, R171 to R174, R473, R476): source transfers and their alive counters, the lines that become ready, the tests of
the hold causes, the outbound store, and the step descriptors that complete.
-/
namespace Sys2Proof.Machine

theorem exec_wingSourceIssue (r line target at_ : Nat) (s : State) :
    exec (.wingSourceIssue r line target at_) s = execWingSourceIssue r line target at_ s := rfl
theorem exec_wingLineReady (r line : Nat) (data : List Byte) (s : State) :
    exec (.wingLineReady r line data) s = execWingLineReady r line data s := rfl
theorem exec_wingReadyTest (r at_ : Nat) (s : State) : exec (.wingReadyTest r at_) s = execWingReadyTest r at_ s := rfl
theorem exec_wingOutboundDrain (r : Nat) (s : State) : exec (.wingOutboundDrain r) s = execWingOutboundDrain r s := rfl
theorem exec_wingStall (r : Nat) (s : State) : exec (.wingStall r) s = execWingStall r s := rfl
theorem exec_stepDescriptorCompletion (r target alive line : Nat) (s : State) :
    exec (.stepDescriptorCompletion r target alive line) s = execStepDescriptorCompletion r target alive line s := rfl

/-! ### The wings of the state -/

/-- The wing just changed. -/
@[simp] theorem State.wing_modWing_same (s : State) (r : Nat) (f : Wing → Wing) :
    Map.getD (s.modWing r f).fabric.wings r {} = f (Map.getD s.fabric.wings r {}) := by
  rw [State.modWing, Map.getD_put, if_pos rfl]

@[simp] theorem State.modWing_tiles (s : State) (r : Nat) (f : Wing → Wing) : (s.modWing r f).tiles = s.tiles := rfl
@[simp] theorem State.modWing_kv (s : State) (r : Nat) (f : Wing → Wing) : (s.modWing r f).kv = s.kv := rfl
@[simp] theorem State.modWing_regs (s : State) (r : Nat) (f : Wing → Wing) : (s.modWing r f).regs = s.regs := rfl
@[simp] theorem State.modWing_causes (s : State) (r : Nat) (f : Wing → Wing) : (s.modWing r f).fabric.causes = s.fabric.causes := rfl
@[simp] theorem State.dropCause_wings (s : State) (bit : Nat) : (s.dropCause bit).fabric.wings = s.fabric.wings := rfl
@[simp] theorem State.raiseCause_causes (s : State) (bit : Nat) : (s.raiseCause bit).fabric.causes = s.fabric.causes ||| 2 ^ bit := rfl

/-! ### Source transfers -/

section
variable {r target : Nat} (line : Nat) {at_ : Nat} {s : State} (wing : r < 320) (unit : target < 15)
include wing unit

/-- Without an active cue sheet no source transfer is issued. -/
theorem execWingSourceIssue_inactive (inactive : s.fabric.active = none) : execWingSourceIssue r line target at_ s = .next s := by
  simp [execWingSourceIssue, stepTargets, Nat.not_le.2 wing, Nat.not_le.2 unit, inactive]

variable {c : CueSheet} (active : s.fabric.active = some c) {u : State} (advanced : u = s.advanceTo (at_ - c.lookahead))
include active advanced

/-- No source transfer goes before its value T − L, or behind one of a greater T (R172). -/
theorem execWingSourceIssue_early
    (early : u.fabric.counter + c.lookahead < at_ ∨ at_ < (Map.getD u.fabric.wings r {}).issued) :
    execWingSourceIssue r line target at_ s = .next u := by
  subst advanced
  simp [execWingSourceIssue, stepTargets, Nat.not_le.2 wing, Nat.not_le.2 unit, active, early]

/-- A source transfer within the lookahead is the wing's last, under the target's next alive counter (R172, R476). -/
theorem execWingSourceIssue_due (near : at_ ≤ u.fabric.counter + c.lookahead) (rising : (Map.getD u.fabric.wings r {}).issued ≤ at_) :
    execWingSourceIssue r line target at_ s =
      .next { u.modWing r (fun w => { w with issued := at_ }) with
        fabric := { (u.modWing r (fun w => { w with issued := at_ })).fabric with
          stepIssued := Map.put u.fabric.stepIssued (stepKey r target)
            ((Map.getD u.fabric.stepIssued (stepKey r target) 0 + 1) % 65536) } } := by
  subst advanced
  simp only [execWingSourceIssue, stepTargets, active]
  simp [Nat.not_le.2 wing, Nat.not_le.2 unit, Nat.not_lt.2 near, Nat.not_lt.2 rising]
  rfl

end

/-! ### Lines that become ready -/

theorem mem_insertNat {x y : Nat} {xs : List Nat} : y ∈ insertNat x xs ↔ y = x ∨ y ∈ xs := by
  induction xs with
  | nil => simp [insertNat]
  | cons z xs ih =>
    unfold insertNat
    split
    · simp
    · split
      · next same => simp [same]
      · simp only [List.mem_cons, ih]
        exact or_left_comm

/-- A line that becomes ready is awaited no more (R171, R173). -/
theorem State.wing_lineReady (s : State) (r line : Nat) : Map.getD (s.lineReady r line).fabric.wings r {} =
    { Map.getD s.fabric.wings r {} with
      ready := insertNat line (Map.getD s.fabric.wings r {}).ready
      awaited := without (Map.getD s.fabric.wings r {}).awaited line
      inCause := (Map.getD s.fabric.wings r {}).inCause && !(without (Map.getD s.fabric.wings r {}).awaited line).isEmpty } := by
  unfold State.lineReady
  dsimp only
  split <;> simp

@[simp] theorem State.lineReady_tiles (s : State) (r line : Nat) : (s.lineReady r line).tiles = s.tiles := by
  unfold State.lineReady
  dsimp only
  split <;> rfl

@[simp] theorem State.lineReady_kv (s : State) (r line : Nat) : (s.lineReady r line).kv = s.kv := by
  unfold State.lineReady
  dsimp only
  split <;> rfl

/-- A line that belongs to no check block is ready once its data are in it (R171). -/
theorem State.lineArrives_single {c : CueSheet} {r line : Nat} (s : State) (data : List Byte)
    (single : c.compiled.blocks.find? (fun b => b.rowEnd == r && (has b.lines line || b.trailer == line)) = none) :
    s.lineArrives c r line data = (s.fillLine r line data).lineReady r line := by
  simp only [State.lineArrives, single]

section
variable {r line : Nat} (data : List Byte) {s : State} (wing : r < 320) (unit : line < 4096)
include wing unit

/-- Without an active cue sheet no line has a transfer. -/
theorem execWingLineReady_inactive (inactive : s.fabric.active = none) : execWingLineReady r line data s = .next s := by
  simp [execWingLineReady, Nat.not_le.2 wing, Nat.not_le.2 unit, inactive]

variable {c : CueSheet} (active : s.fabric.active = some c)
include active

/-- A line without a use to come has no transfer (R171). -/
theorem execWingLineReady_unused (unused : s.nextUse r [line] = none) : execWingLineReady r line data s = .next s := by
  simp [execWingLineReady, Nat.not_le.2 wing, Nat.not_le.2 unit, active, unused]

/-- What the source of a line's next use brings: data of HBM, of the endpoint, or of the collective step that holds them (R171, R359). -/
def State.fetchLine (s : State) (c : CueSheet) (r line : Nat) (data : List Byte) (scene : Nat) : LineEnd → State
  | .hbm a => s.lineArrives c r line (memReadList s.kv.hbm a 64)
  | .outside => s.lineArrives c r line data
  | .chorus index offset =>
    match s.chorusLine [scene] index offset with
    | some bs => s.lineArrives c r line bs
    | none => s

/-- A line with a use to come is filled from the source of that use (R171). -/
theorem execWingLineReady_used {l : WingLine} {scene : Nat} (used : s.nextUse r [line] = some (l, scene)) :
    execWingLineReady r line data s = .next (s.fetchLine c r line data scene l.other) := by
  simp only [execWingLineReady, Nat.not_le.2 unit, active, used]
  cases l.other with
  | hbm a => simp [State.fetchLine, Nat.not_le.2 wing]
  | outside => simp [State.fetchLine, Nat.not_le.2 wing]
  | chorus index offset =>
    cases held : s.chorusLine [scene] index offset with
    | none => simp [State.fetchLine, Nat.not_le.2 wing, held]
    | some bs => simp [State.fetchLine, Nat.not_le.2 wing, held]

end

/-! ### The tests of the hold causes -/

/-- The inbound lines that the schedule emits at T and that are not ready (R173). -/
def State.wingMissing (s : State) (r at_ : Nat) : List WingLine :=
  (s.wingDue r at_).filter (fun l => l.inbound && !has (Map.getD s.fabric.wings r {}).ready l.line)

/-- Whether the store has no room for the lines that the schedule fills at T (R173). -/
def State.wingFull (s : State) (r at_ : Nat) : Bool :=
  let fills := ((s.wingDue r at_).filter (fun l => !l.inbound)).length
  decide (0 < fills) && decide (4096 < (Map.getD s.fabric.wings r {}).used + fills)

/-- A test raises WING_IN where a line is missing and WING_OUT where the store is full, and drops no cause (R173). -/
theorem State.causes_wingTest (s : State) (r at_ : Nat) : (s.wingTest r at_).fabric.causes =
    (s.fabric.causes ||| (if s.wingMissing r at_ = [] then 0 else 2 ^ 0)) ||| (if s.wingFull r at_ = true then 2 ^ 1 else 0) := by
  have tested : s.wingTest r at_ =
      let w := if ((s.wingMissing r at_).map (fun l => l.line)).isEmpty then s
        else (s.modWing r (fun w => { w with
          awaited := ((s.wingMissing r at_).map (fun l => l.line)).foldl (fun xs l => insertNat l xs) w.awaited
          inCause := true })).raiseCause 0
      if s.wingFull r at_ then (w.modWing r (fun w => { w with outCause := true })).raiseCause 1 else w := rfl
  rw [tested]
  by_cases missing : s.wingMissing r at_ = [] <;> by_cases full : s.wingFull r at_ = true <;> simp [missing, full]

/-- A line that is not ready at its test raises WING_IN (R173). -/
theorem State.wingTest_raises_in {s : State} {r at_ : Nat} {l : WingLine} (due : l ∈ s.wingDue r at_) (inbound : l.inbound = true)
    (late : l.line ∉ (Map.getD s.fabric.wings r {}).ready) : Nat.testBit (s.wingTest r at_).fabric.causes 0 = true := by
  have unready : has (Map.getD s.fabric.wings r {}).ready l.line = false := Bool.eq_false_iff.2 (mt (has_iff ..).1 late)
  have missing : s.wingMissing r at_ ≠ [] := List.ne_nil_of_mem (a := l) (by simp [State.wingMissing, due, inbound, unready])
  simp [State.causes_wingTest, missing]

/-- An outbound store without room for the lines that fill it raises WING_OUT (R173). -/
theorem State.wingTest_raises_out {s : State} {r at_ : Nat} (full : s.wingFull r at_ = true) :
    Nat.testBit (s.wingTest r at_).fabric.causes 1 = true := by
  rw [State.causes_wingTest, if_pos full, Nat.testBit_or, Nat.testBit_two_pow_self, Bool.or_true]

/-- A test acts where the schedule has reached T − 8 and not passed T (R173). -/
theorem execWingReadyTest_eq {r : Nat} (at_ : Nat) (s : State) (wing : r < 320) : execWingReadyTest r at_ s =
    .next (if (s.advanceTo (at_ - 8)).reached (at_ - 8) = true ∧ (s.advanceTo (at_ - 8)).fabric.counter ≤ at_ then
      (s.advanceTo (at_ - 8)).wingTest r at_ else s.advanceTo (at_ - 8)) := by
  simp [execWingReadyTest, Nat.not_le.2 wing]

/-- A wing cause that stays raised for WING_TIMEOUT raises WING_STALL for the scenes in flight (R174). -/
theorem execWingStall_eq {r : Nat} (s : State) (wing : r < 320) : execWingStall r s =
    .next (if (Map.getD s.fabric.wings r {}).inCause = true ∨ (Map.getD s.fabric.wings r {}).outCause = true then
      (s.setReg 0x418 (2 ^ 31 + r)).raise srcWingStall 3 r s.flight else s) := by
  simp only [execWingStall, if_neg (Nat.not_le.2 wing), Bool.or_eq_true]
  split <;> rfl

/-! ### The outbound store -/

/-- The oldest line of an outbound store goes to its destination (R173). -/
def State.drainOldest (s : State) : List OutLine → State
  | { dest := .hbm a, data := data, .. } :: _ => { s with kv := { s.kv with hbm := memWriteList s.kv.hbm a data } }
  | { dest := .chorus index offset, scene := scene, data := data, .. } :: _ => s.chorusPut scene index offset data
  | _ => s

/-- A drain makes room in the store, and WING_OUT drops once no wing waits for room (R173). -/
theorem execWingOutboundDrain_eq {r : Nat} {s u v : State} (wing : r < 320)
    (drained : u = s.drainOldest (Map.getD s.fabric.wings r {}).outbound)
    (stored : v = u.modWing r (fun w => { w with outbound := w.outbound.drop 1, outCause := false })) :
    execWingOutboundDrain r s = .next (if v.fabric.wings.any (fun e => e.2.outCause) then v else v.dropCause 1) := by
  subst stored drained
  rw [execWingOutboundDrain, if_neg (Nat.not_le.2 wing)]
  rfl

/-! ### Step descriptors -/

/-- A change of the registers leaves the scene that consumes a line next. -/
theorem State.lineScene_orReg (s : State) (o mask r : Nat) (lines : List Nat) : (s.orReg o mask).lineScene r lines = s.lineScene r lines :=
  rfl

section
variable {r target line : Nat} {s : State} (wing : r < 320) (unit : target < 15) (place : line < 4096) {alive : Nat} {u : State}
  (counted : u = { s with fabric := { s.fabric with
    stepExpected := Map.put s.fabric.stepExpected (stepKey r target) ((alive + 1) % 65536) } })
include wing unit place counted

/-- A completion with the counter expected is taken (R476). -/
theorem execStepDescriptorCompletion_expected (expected : alive = Map.getD s.fabric.stepExpected (stepKey r target) 0) :
    execStepDescriptorCompletion r target alive line s = .next u := by
  subst counted
  simp [execStepDescriptorCompletion, stepTargets, Nat.not_le.2 wing, Nat.not_le.2 unit, Nat.not_le.2 place, expected]

/-- A completion with another counter raises STEP_ALIVE and releases its line as zeros (R473, R476). -/
theorem execStepDescriptorCompletion_other (other : alive ≠ Map.getD s.fabric.stepExpected (stepKey r target) 0) :
    execStepDescriptorCompletion r target alive line s =
      .next (((u.orReg 0x30800 0x2).raise srcStepAlive 3 r (u.lineScene r [line])).releaseZero r [line]) := by
  subst counted
  simp [execStepDescriptorCompletion, stepTargets, Nat.not_le.2 wing, Nat.not_le.2 unit, Nat.not_le.2 place, other]

end

/-- Settles O48: each event by its own lemmas, in the state that the schedule has brought up where it has a cycle. -/
theorem wingsAwaitTheirLines : Obligations.WingsAwaitTheirLines := by
  unfold Obligations.WingsAwaitTheirLines
  simp only [exec_wingSourceIssue, exec_wingLineReady, exec_wingReadyTest, exec_wingOutboundDrain, exec_wingStall,
    exec_stepDescriptorCompletion]
  refine ⟨fun r line target at_ s wing unit => execWingSourceIssue_inactive line wing unit,
    fun r line target at_ c u s wing unit active advanced =>
      ⟨execWingSourceIssue_early line wing unit active advanced, fun near rising => ?_⟩,
    fun r line data s wing unit => execWingLineReady_inactive data wing unit,
    fun r line data c s wing unit active => ⟨execWingLineReady_unused data wing unit active, fun l scene used => ?_⟩,
    fun r line data c s single => ?_, fun r at_ s wing => ?_,
    fun r at_ l s => State.wingTest_raises_in, fun r at_ s fills crowded =>
      State.wingTest_raises_out (Bool.and_eq_true_iff.2 ⟨decide_eq_true fills, decide_eq_true crowded⟩),
    fun r u v s wing drained stored => execWingOutboundDrain_eq wing drained stored, fun r s wing => ?_,
    fun r target alive line u s wing unit place counted => ⟨execStepDescriptorCompletion_expected wing unit place counted,
      fun other => execStepDescriptorCompletion_other wing unit place counted other⟩⟩
  · refine ⟨_, execWingSourceIssue_due line wing unit active advanced near rising, ?_, ?_, rfl, rfl, rfl⟩
    · exact congrArg Wing.issued (u.wing_modWing_same r (fun w => { w with issued := at_ }))
    · rw [Map.getD_put, if_pos rfl]
  · rw [execWingLineReady_used data wing unit active used]
    generalize l.other = source
    cases source <;> rfl
  · rw [State.lineArrives_single s data single, State.wing_lineReady]
    exact ⟨mem_insertNat.2 (.inl rfl), by simp [without], by simp [State.fillLine], by simp [State.fillLine]⟩
  · rw [execWingReadyTest_eq at_ s wing]
    refine ⟨fun reached ahead => by rw [if_pos ⟨reached, ahead⟩], fun missed => ?_⟩
    rw [if_neg]
    rintro ⟨reached, ahead⟩
    rcases missed with held | passed
    · rw [held] at reached
      cases reached
    · exact absurd ahead (Nat.not_le.2 passed)
  · rw [execWingStall_eq s wing]
    exact ⟨fun raised => by rw [if_pos raised], fun noIn noOut => by simp [noIn, noOut]⟩

end Sys2Proof.Machine
end

section
/-!
SUPPORT. What an outcome answers: a property of its next state, where it has one, with the rules for the shapes that the
meanings of the commands are made of.
-/
namespace Sys2Proof.Machine

/-- The next state of an outcome, where it has one, has a property. -/
def Answers (P : State → Prop) (o : Host.Outcome State Fault Refusal) : Prop := ∀ t, o = .next t → P t

@[simp] theorem answers_next (P : State → Prop) (t : State) : Answers P (.next t) ↔ P t :=
  ⟨fun h => h t rfl, fun h u q => by cases q; exact h⟩

@[simp] theorem answers_fault (P : State → Prop) (r : Fault) : Answers P (.fault r) := fun _ q => by cases q

@[simp] theorem answers_ite (P : State → Prop) (c : Prop) [Decidable c] (a b : Host.Outcome State Fault Refusal) :
    Answers P (if c then a else b) ↔ if c then Answers P a else Answers P b := by
  split <;> rfl

/-- A command of a unit that is absent answers nothing; the property is then that of the command for a unit that there is. -/
theorem answers_present {P : State → Prop} {c : Prop} [Decidable c] {r : Fault} {o : Host.Outcome State Fault Refusal}
    (present : Answers P o) : Answers P (if c then .fault r else o) := by
  split
  · exact answers_fault P r
  · exact present

/-- Where a command leaves the state, or does as another outcome says. -/
theorem answers_unless {P : State → Prop} {c : Prop} [Decidable c] {s : State} {o : Host.Outcome State Fault Refusal}
    (left : P s) (taken : Answers P o) : Answers P (if c then .next s else o) := by
  split
  · exact (answers_next ..).2 left
  · exact taken

/-- A mailbox command answers the state as it is, the completion of a failing check, or the state that its own rules leave. -/
theorem answers_runCmd {P : State → Prop} {e : Entry} {op : Nat} {pcie : Bool} {body : Body} {s : State} (waits : P s)
    (rejected : ∀ t, mbxBegin e s = .rejected t → P t) (runs : ∀ u, mbxBegin e s = .runs u → P (runBody e body u)) :
    Answers P (runCmd e op pcie body s) := fun t ht => by
  rcases runCmd_cases ht with rfl | r | ⟨u, r, rfl⟩
  · exact waits
  · exact rejected t r
  · exact runs u r

end Sys2Proof.Machine
end

section
/-!
SUPPORT. The canonical form of HBM through a mailbox command: the checks of its entry (R390) leave HBM alone, and so do the
ways in which its rules may end. What a command does between is its own.
-/
namespace Sys2Proof.Machine

@[simp] theorem Kv.hbm_ite (c : Prop) [Decidable c] (a b : Kv) : (if c then a else b).hbm = if c then a.hbm else b.hbm := by
  split <;> rfl

@[simp] theorem memWf_ite (c : Prop) [Decidable c] (m n : List Host.Cell) :
    memWf (if c then m else n) = if c then memWf m else memWf n := by
  split <;> rfl

/-- HBM of the state that the checks of an entry leave, whether one fails or the command begins. -/
def Begin.KeepsHbm (s : State) : Begin → Prop
  | .waits => True
  | .rejected t => t.kv.hbm = s.kv.hbm
  | .runs t => t.kv.hbm = s.kv.hbm

theorem mbxBegin_keepsHbm (e : Entry) (s : State) : (mbxBegin e s).KeepsHbm s := by
  unfold mbxBegin
  dsimp only
  repeat' split
  all_goals simp [Begin.KeepsHbm]

/-- The state that the rules of a mailbox command leave holds HBM in its canonical form. -/
def ResultHbmOk (r : State × Option (Status × List Byte)) : Prop := r.1.HbmOk

@[simp] theorem resultHbmOk_done (s : State) (st : Status) (res : List Byte) :
    ResultHbmOk (done s st res) ↔ memWf s.kv.hbm = true := ⟨id, id⟩
@[simp] theorem resultHbmOk_later (s : State) : ResultHbmOk (later s) ↔ memWf s.kv.hbm = true := ⟨id, id⟩

@[simp] theorem resultHbmOk_ite (c : Prop) [Decidable c] (a b : State × Option (Status × List Byte)) :
    ResultHbmOk (if c then a else b) ↔ if c then ResultHbmOk a else ResultHbmOk b := by
  split <;> rfl

/-- Either branch of a choice in a command's rules. -/
theorem resultHbmOk_branch {c : Prop} [Decidable c] {a b : State × Option (Status × List Byte)} (ha : ResultHbmOk a)
    (hb : ResultHbmOk b) : ResultHbmOk (if c then a else b) := by
  split
  · exact ha
  · exact hb

/-- A mailbox command keeps the canonical form where its own rules do. -/
theorem runCmd_hbmOk {e : Entry} {op : Nat} {pcie : Bool} {body : Body} {s : State} (h : s.HbmOk)
    (keeps : ∀ u : State, u.HbmOk → ResultHbmOk (body u)) : Answers State.HbmOk (runCmd e op pcie body s) := by
  have begins := mbxBegin_keepsHbm e s
  refine answers_runCmd h (fun t r => ?_) fun u r => ?_
  · rw [r] at begins
    exact hbmOk_of_eq begins h
  · rw [r] at begins
    exact runBody_hbmWf e body u (keeps u (hbmOk_of_eq begins h))

/-- A link command keeps the canonical form where its own rules do. -/
theorem linkCmd_hbmOk {e : Entry} {sub : Nat} {body : Body} {s : State} (h : s.HbmOk)
    (keeps : ∀ u : State, u.HbmOk → ResultHbmOk (body u)) : Answers State.HbmOk (linkCmd e sub body s) :=
  answers_unless h (runCmd_hbmOk h keeps)

section
variable {s : State} (h : s.HbmOk)
include h

theorem withDma_hbmOk {α : Type} {x : Option α} {k : α → State × Option (Status × List Byte)}
    (keeps : ∀ v, ResultHbmOk (k v)) : ResultHbmOk (withDma x s k) := by
  unfold withDma
  split
  · exact keeps _
  · simpa using h

theorem withBuffer_hbmOk {α : Type} {qp addr rkey len : Nat} {x : Option α}
    {k : State → α → State × Option (Status × List Byte)} (keeps : ∀ (u : State) v, u.HbmOk → ResultHbmOk (k u v)) : ResultHbmOk (withBuffer qp addr rkey len x s k) := by
  unfold withBuffer
  have read : (s.remoteRead qp addr rkey len x.isSome).HbmOk := hbmOk_of_eq (State.remoteRead_hbm ..) h
  split
  · exact withDma_hbmOk h fun v => keeps s v h
  · split
    · exact h
    · dsimp only
      split
      · exact keeps _ _ read
      · exact read

theorem withTransfer_hbmOk {α : Type} {e : Entry} {at_ len : Nat} {x : Option α}
    {k : State → α → State × Option (Status × List Byte)} (keeps : ∀ (u : State) v, u.HbmOk → ResultHbmOk (k u v)) : ResultHbmOk (withTransfer e at_ len x s k) :=
  withBuffer_hbmOk h keeps

theorem withTokens_hbmOk {qp addr rkey n : Nat} {tokens : List Nat} {k : State → State × Option (Status × List Byte)}
    (keeps : ∀ u : State, u.HbmOk → ResultHbmOk (k u)) : ResultHbmOk (withTokens qp addr rkey n tokens s k) := by
  unfold withTokens
  split
  · exact keeps s h
  · exact withBuffer_hbmOk h fun u _ hu => keeps u hu

theorem seqCommand_hbmOk {e : Entry} {k : Seq → State × Option (Status × List Byte)} (keeps : ∀ q, ResultHbmOk (k q)) :
    ResultHbmOk (seqCommand e s k) := by
  unfold seqCommand
  split
  · exact h
  · split
    · split
      · exact keeps _
      · exact h
    · exact h

theorem tuneChecks_hbmOk {e : Entry} {mv : Nat} {go : State × Option (Status × List Byte)} (keeps : ResultHbmOk go) :
    ResultHbmOk (tuneChecks e s mv go) := by
  simp [tuneChecks, h, keeps]

end

end Sys2Proof.Machine
end

section
/-!
SUPPORT. The canonical form of HBM through the mailbox commands, by their own rules.
-/
namespace Sys2Proof.Machine

section
variable {s : State} {e : Entry} (h : s.HbmOk)
include h

/-! ### Mailbox, power, links and faults: no rule of theirs writes HBM -/

theorem execEcho_hbmOk : Answers State.HbmOk (execEcho e s) := runCmd_hbmOk h fun _ hu => hu

theorem execQueryInfo_hbmOk : Answers State.HbmOk (execQueryInfo e s) := runCmd_hbmOk h fun u hu => by simp [hu]

theorem execUnsupportedOpcode_hbmOk : Answers State.HbmOk (execUnsupportedOpcode e s) := by
  unfold execUnsupportedOpcode
  have begins := mbxBegin_keepsHbm e s
  refine answers_present ?_
  split
  · next t r =>
    rw [r] at begins
    exact (answers_next ..).2 (hbmOk_of_eq begins h)
  · exact (answers_next ..).2 h

theorem execCapSet_hbmOk : Answers State.HbmOk (execCapSet e s) := runCmd_hbmOk h fun u hu => by simp [hu]
theorem execThermalSet_hbmOk : Answers State.HbmOk (execThermalSet e s) := runCmd_hbmOk h fun u hu => by simp [hu]

theorem execUnitTuneTrim_hbmOk : Answers State.HbmOk (execUnitTuneTrim e s) :=
  answers_unless h (runCmd_hbmOk h fun u hu => resultHbmOk_branch hu (tuneChecks_hbmOk hu (by simp [hu])))

theorem execUnitTuneStep_hbmOk : Answers State.HbmOk (execUnitTuneStep e s) :=
  answers_unless h (runCmd_hbmOk h fun u hu => resultHbmOk_branch hu (tuneChecks_hbmOk hu (by simp [hu])))

theorem execPlaybill_hbmOk : Answers State.HbmOk (execPlaybill e s) := runCmd_hbmOk h fun u hu => by simp [hu]

theorem execPatternInstall_hbmOk {pack : Dma} : Answers State.HbmOk (execPatternInstall e pack s) :=
  runCmd_hbmOk h fun u hu => resultHbmOk_branch hu (withDma_hbmOk hu fun p => by simp [hu])

theorem execCounterSnapshot_hbmOk : Answers State.HbmOk (execCounterSnapshot e s) := runCmd_hbmOk h fun u hu => by simp [hu]

theorem execLedgerRead_hbmOk : Answers State.HbmOk (execLedgerRead e s) := runCmd_hbmOk h fun u hu => by simp [hu]

theorem execFaultPolicySet_hbmOk : Answers State.HbmOk (execFaultPolicySet e s) := runCmd_hbmOk h fun u hu => by simp [hu]

theorem execPortMode_hbmOk : Answers State.HbmOk (execPortMode e s) :=
  answers_unless h (runCmd_hbmOk h fun u hu => by simp [hu])

theorem execPortAddr_hbmOk : Answers State.HbmOk (execPortAddr e s) := linkCmd_hbmOk h fun u hu => by simp [hu]
theorem execHostRing_hbmOk : Answers State.HbmOk (execHostRing e s) := linkCmd_hbmOk h fun u hu => by simp [hu]
theorem execQpEstablish_hbmOk : Answers State.HbmOk (execQpEstablish e s) := linkCmd_hbmOk h fun u hu => by simp [hu]
theorem execQpDestroy_hbmOk : Answers State.HbmOk (execQpDestroy e s) := linkCmd_hbmOk h fun u hu => by simp [hu]

theorem execChorusGroupSet_hbmOk {records : Dma} : Answers State.HbmOk (execChorusGroupSet e records s) :=
  runCmd_hbmOk h fun u hu => resultHbmOk_branch hu (resultHbmOk_branch hu (withDma_hbmOk hu fun p => by simp [hu]))

/-! ### Calibration and the tiles -/

theorem execCalRun_hbmOk : Answers State.HbmOk (execCalRun e s) := runCmd_hbmOk h fun u hu => by simp [hu]
theorem execCalExport_hbmOk : Answers State.HbmOk (execCalExport e s) := runCmd_hbmOk h fun u hu => by simp [hu]

omit h in
theorem importRecord_hbm (a : Importing) (t : Nat) (r : List Byte) : (importRecord a t r).1.kv.hbm = a.1.kv.hbm := by
  unfold importRecord
  split
  · rfl
  · exact State.installRecord_hbm ..

theorem execCalImport_hbmOk {records : Dma} : Answers State.HbmOk (execCalImport e records s) :=
  runCmd_hbmOk h fun u hu => by
    refine resultHbmOk_branch (withDma_hbmOk hu fun bs => ?_) hu
    have imported : ((List.range (e.op 10 2)).foldl (fun (a : Importing) i =>
        importRecord a (e.op 8 2 + i) (sliceBytes bs (calRecordBytes * i) calRecordBytes)) (u, 0, none)).1.kv.hbm = u.kv.hbm :=
      foldlPair_hbm _ (fun _ _ => importRecord_hbm ..) _ _
    dsimp only
    split <;> simp [imported, hu]

theorem execTileFence_hbmOk : Answers State.HbmOk (execTileFence e s) := runCmd_hbmOk h fun u hu => by
  dsimp only
  repeat' split
  all_goals simp [hu]

theorem execTileRestore_hbmOk : Answers State.HbmOk (execTileRestore e s) := runCmd_hbmOk h fun u hu => by simp [hu]

theorem execRehearse_hbmOk : Answers State.HbmOk (execRehearse e s) :=
  answers_unless h (runCmd_hbmOk h fun u hu => by
    dsimp only
    cases u.rehearsalRefused (e.op 8 2) <;> simp [hu])

theorem execRehearseRotation_hbmOk : Answers State.HbmOk (execRehearseRotation e s) :=
  answers_unless h (runCmd_hbmOk h fun u hu => by simp [hu])

/-! ### Cue sheets -/

theorem execCuesheetLoad_hbmOk {sheet : Option SheetIn} : Answers State.HbmOk (execCuesheetLoad e sheet s) :=
  runCmd_hbmOk h fun u hu => by
    refine resultHbmOk_branch hu (resultHbmOk_branch hu (withTransfer_hbmOk hu fun v x hv => ?_))
    dsimp only
    split <;> simp [hv]

theorem execCuesheetActivate_hbmOk : Answers State.HbmOk (execCuesheetActivate e s) := runCmd_hbmOk h fun u hu => by
  refine resultHbmOk_branch hu ?_
  split <;> simp [hu]

/-! ### Productions: PRODUCTION_OPEN zeroes the frames of a copy, and its segments are stored in them -/

theorem execProductionOpen_hbmOk {m : Option ManifestIn} : Answers State.HbmOk (execProductionOpen e m s) :=
  runCmd_hbmOk h fun u hu => by
    refine resultHbmOk_branch hu (resultHbmOk_branch hu (withTransfer_hbmOk hu fun v x hv => ?_))
    refine resultHbmOk_branch hv (resultHbmOk_branch hv ?_)
    split
    · exact hv
    · next taken =>
      have zeroed := State.takeCopyFrames_hbmWf taken hv
      exact zeroed

/-- The segments that arrive are stored in the frames of the copy, or zeroed where a check fails (R295, R296). -/
theorem fetchRange_hbmOk (remote : Bool) (arrived : Option (List SegArrival)) : ResultHbmOk (fetchRange e remote arrived s) := by
  have stored : ∀ (u : State) (xs : List SegArrival), u.HbmOk → (xs.foldl FetchRun.take { state := u }).state.HbmOk :=
    fun u xs hu => foldl_keeps (fun r : FetchRun => r.state.HbmOk) FetchRun.take (fun r x hr => FetchRun.take_hbmWf r x hr) xs _ hu
  unfold fetchRange
  dsimp only
  split
  · refine resultHbmOk_branch h (resultHbmOk_branch h ?_)
    split
    · refine withTransfer_hbmOk h fun u xs hu => ?_
      split <;> simp [stored u _ hu]
    · refine withDma_hbmOk h fun xs => ?_
      dsimp only
      split <;> simp [stored s _ h]
  · exact h

theorem execProductionFetch_hbmOk {arrived : Option (List SegArrival)} : Answers State.HbmOk (execProductionFetch e arrived s) :=
  runCmd_hbmOk h fun _ hu => fetchRange_hbmOk hu true arrived
theorem execProductionPush_hbmOk {arrived : Option (List SegArrival)} : Answers State.HbmOk (execProductionPush e arrived s) :=
  runCmd_hbmOk h fun _ hu => fetchRange_hbmOk hu false arrived

theorem execKeyUnwrap_hbmOk {rec : Dma} : Answers State.HbmOk (execKeyUnwrap e rec s) := runCmd_hbmOk h fun u hu => by
  split
  · exact hu
  · refine resultHbmOk_branch hu (resultHbmOk_branch hu (withDma_hbmOk hu fun b => ?_))
    have read : (u.dmaRead e.tag b).HbmOk := hbmOk_of_eq (State.dmaRead_hbm ..) hu
    refine resultHbmOk_branch read ?_
    cases Fuses.unwrap _ _ _ with
    | none => exact read
    | some key => exact hbmOk_of_eq (State.record_hbm ..) read

theorem execProductionSeal_hbmOk : Answers State.HbmOk (execProductionSeal e s) := runCmd_hbmOk h fun u hu => by
  dsimp only
  repeat' split
  all_goals simp [hu]

theorem execRecastRolling_hbmOk : Answers State.HbmOk (execRecastRolling e s) := runCmd_hbmOk h fun u hu => by
  dsimp only
  repeat' split
  all_goals simp [hu]

theorem State.abortOpen_hbmOk (c : Copy) : ResultHbmOk (s.abortOpen c) := by
  unfold State.abortOpen
  split <;> simp [h]

theorem execRecastAbort_hbmOk : Answers State.HbmOk (execRecastAbort e s) := runCmd_hbmOk h fun u hu => by
  dsimp only
  split
  · exact hu
  · split <;> simp [hu]
  · exact State.abortOpen_hbmOk hu _
  · exact hu

/-! ### Sequences and the directory of shared blocks -/

theorem execPrefixPin_hbmOk : Answers State.HbmOk (execPrefixPin e s) := runCmd_hbmOk h fun u hu => by
  have looked : (u.lookupEntry (e.op 8 8, e.op 16 8)).2.HbmOk := hbmOk_of_eq (State.lookupEntry_hbm ..) hu
  dsimp only
  split
  · next q => rwa [q] at looked
  · next q =>
    rw [q] at looked
    simp [looked]

theorem execPrefixUnpin_hbmOk : Answers State.HbmOk (execPrefixUnpin e s) := runCmd_hbmOk h fun u hu => by
  have looked : (u.lookupEntry (e.op 8 8, e.op 16 8)).2.HbmOk := hbmOk_of_eq (State.lookupEntry_hbm ..) hu
  dsimp only
  split
  · next q => rwa [q] at looked
  · next q =>
    rw [q] at looked
    simp [looked]

theorem execSeqAdmit_hbmOk {rec : Dma} {tokens : List Nat} : Answers State.HbmOk (execSeqAdmit e rec tokens s) :=
  runCmd_hbmOk h fun u hu => by
    refine resultHbmOk_branch hu (resultHbmOk_branch hu (resultHbmOk_branch hu (withDma_hbmOk hu fun r => ?_)))
    have read : (u.dmaRead e.tag (sliceBytes r 0 128)).HbmOk := hbmOk_of_eq (State.dmaRead_hbm ..) hu
    refine resultHbmOk_branch read (resultHbmOk_branch read ?_)
    split
    · exact read
    · exact withTokens_hbmOk read fun v hv => State.accept_hbmWf v _ hv

theorem execSeqAppend_hbmOk {tokens : List Nat} : Answers State.HbmOk (execSeqAppend e tokens s) :=
  runCmd_hbmOk h fun u hu => seqCommand_hbmOk hu fun q => by
    cases q.state with
    | idle => exact resultHbmOk_branch hu (withTokens_hbmOk hu fun v hv => State.accept_hbmWf v _ hv)
    | _ => exact hu

theorem execSeqCancel_hbmOk : Answers State.HbmOk (execSeqCancel e s) := runCmd_hbmOk h fun u hu => seqCommand_hbmOk hu fun q => by
  cases q.state with
  | queued | prefill | decode | idle => exact State.accept_hbmWf u _ hu
  | _ => exact hu

theorem execSeqPause_hbmOk : Answers State.HbmOk (execSeqPause e s) := runCmd_hbmOk h fun u hu => seqCommand_hbmOk hu fun q => by
  cases q.state with
  | prefill | decode | idle => simp [State.HbmOk, hu]
  | _ => exact hu

theorem execSeqEvict_hbmOk : Answers State.HbmOk (execSeqEvict e s) := runCmd_hbmOk h fun u hu => seqCommand_hbmOk hu fun q => by
  cases q.state with
  | paused => exact State.accept_hbmWf _ _ (hbmOk_of_eq (by simp) hu)
  | _ => exact hu

theorem State.resumeImage_hbmOk (image : Option Image) : ResultHbmOk (s.resumeImage e image) := by
  unfold State.resumeImage
  refine resultHbmOk_branch h (resultHbmOk_branch h (resultHbmOk_branch h (withTransfer_hbmOk h fun u im hu => ?_)))
  refine resultHbmOk_branch hu ?_
  split
  · exact hu
  · split
    · exact hu
    · exact State.accept_hbmWf u _ hu

theorem execSeqResume_hbmOk {image : Option Image} : Answers State.HbmOk (execSeqResume e image s) :=
  runCmd_hbmOk h fun u hu => by
    refine resultHbmOk_branch (State.resumeImage_hbmOk hu image) (seqCommand_hbmOk hu fun q => ?_)
    cases q.state with
    | paused =>
      refine resultHbmOk_branch hu (withBuffer_hbmOk hu fun v im hv => ?_)
      split
      · exact hv
      · exact State.accept_hbmWf v _ hv
    | _ => exact hu

end

end Sys2Proof.Machine
end

section
/-!
SUPPORT. The events that leave HBM alone, each by its own branches. What the shared operations leave alone is in Laws/Hbm.lean.
-/
namespace Sys2Proof.Machine

/-- A state that holds HBM as another one does. -/
@[simp] def State.LeavesHbm (s t : State) : Prop := t.kv.hbm = s.kv.hbm

/-- What leaves HBM alone keeps its canonical form. -/
theorem Answers.hbmOk {s : State} {o : Host.Outcome State Fault Refusal} (same : Answers s.LeavesHbm o) (h : s.HbmOk) :
    Answers State.HbmOk o :=
  fun t ht => hbmOk_of_eq (same t ht) h

section
variable {s : State}

/-! ### Rings and completions (R386 to R392) -/

theorem execRingEnable_hbm {ring : Nat} {value : Word} : Answers s.LeavesHbm (execRingEnable ring value s) := by
  simp [execRingEnable]

theorem execRingDisable_hbm {ring : Nat} {value : Word} : Answers s.LeavesHbm (execRingDisable ring value s) := by
  simp [execRingDisable]

theorem execMbxSqTail_hbm {ring : Nat} {value : Word} {fetched : List Entry} :
    Answers s.LeavesHbm (execMbxSqTail ring value fetched s) := by
  simp [execMbxSqTail]

theorem execMbxCqHead_hbm {ring : Nat} {value : Word} : Answers s.LeavesHbm (execMbxCqHead ring value s) := by
  simp [execMbxCqHead]

theorem execCompletionPost_hbm {ring : Nat} : Answers s.LeavesHbm (execCompletionPost ring s) := by
  unfold execCompletionPost
  refine answers_present ?_
  dsimp only
  split <;> simp

theorem execCoalTimer_hbm {ring : Nat} : Answers s.LeavesHbm (execCoalTimer ring s) := by simp [execCoalTimer]

theorem execDmaCompletion_hbm {ring tag : Nat} {poisoned : Bool} :
    Answers s.LeavesHbm (execDmaCompletion ring tag poisoned s) := by
  simp [execDmaCompletion]

/-! ### Calibration and footlights -/

theorem execCalDataWrite_hbm {tile : Nat} {value : Word} : Answers s.LeavesHbm (execCalDataWrite tile value s) := by
  simp [execCalDataWrite]

theorem execCalDataRead_hbm {tile : Nat} : Answers s.LeavesHbm (execCalDataRead tile s) := by simp [execCalDataRead]

theorem execAutoEn_hbm {value : Word} : Answers s.LeavesHbm (execAutoEn value s) := by simp [execAutoEn]

theorem execCalTrigger_hbm {half : Nat} : Answers s.LeavesHbm (execCalTrigger half s) := by simp [execCalTrigger]

theorem execFlHoldForce_hbm {tile : Nat} {value : Word} : Answers s.LeavesHbm (execFlHoldForce tile value s) := by
  simp [execFlHoldForce]

/-! ### The scrubber -/

theorem execSramScrubAccess_hbm {tile ecc : Nat} : Answers s.LeavesHbm (execSramScrubAccess tile ecc s) := by
  simp [execSramScrubAccess]

/-! ### Power and steps -/

theorem execControlInterval_hbm {onDie : Nat} : Answers s.LeavesHbm (execControlInterval onDie s) := by simp [execControlInterval]

theorem execRampStep_hbm {idle : Bool} : Answers s.LeavesHbm (execRampStep idle s) := by simp [execRampStep]

theorem execStepChangeProceed_hbm {expired : Bool} : Answers s.LeavesHbm (execStepChangeProceed expired s) := by
  unfold execStepChangeProceed
  split <;> simp

theorem execRegulatorReached_hbm : Answers s.LeavesHbm (execRegulatorReached s) := by
  unfold execRegulatorReached
  split <;> simp

theorem execAvsFault_hbm {rail : Nat} : Answers s.LeavesHbm (execAvsFault rail s) := by
  unfold execAvsFault
  split
  · simp
  · split
    · simp
    · dsimp only
      split <;> simp

theorem execAvsTelemetry_hbm {milliwatts : List Nat} : Answers s.LeavesHbm (execAvsTelemetry milliwatts s) := by
  simp [execAvsTelemetry]

theorem execAgeColumnCrossing_hbm {hours : Nat} : Answers s.LeavesHbm (execAgeColumnCrossing hours s) := by
  simp [execAgeColumnCrossing]

theorem execDroop_hbm {row : Nat} : Answers s.LeavesHbm (execDroop row s) := by
  unfold execDroop
  refine answers_present ?_
  split
  · simp
  · dsimp only
    split <;> simp

theorem execDroopRecovery_hbm : Answers s.LeavesHbm (execDroopRecovery s) := by simp [execDroopRecovery]

theorem execPllUnlock_hbm : Answers s.LeavesHbm (execPllUnlock s) := by simp [execPllUnlock]

/-! ### Housekeeping and temperatures -/

theorem execHkmPass_hbm {half : Nat} {codes : List Nat} : Answers s.LeavesHbm (execHkmPass half codes s) := by
  unfold execHkmPass
  refine answers_present ?_
  split
  · simp
  · dsimp only
    split <;> simp

theorem execHbmSensorRead_hbm {temps : List Int} : Answers s.LeavesHbm (execHbmSensorRead temps s) := by
  unfold execHbmSensorRead
  split
  · simp
  · dsimp only
    split <;> simp

theorem execThrottleLimitStep_hbm : Answers s.LeavesHbm (execThrottleLimitStep s) := by
  unfold execThrottleLimitStep
  split <;> simp

theorem execThermtripTimeout_hbm : Answers s.LeavesHbm (execThermtripTimeout s) := by simp [execThermtripTimeout]

theorem execInjectedSequence_hbm {half : Nat} {codes : List Nat} : Answers s.LeavesHbm (execInjectedSequence half codes s) := by
  simp [execInjectedSequence]

theorem execSwTrigger_hbm {half : Nat} {value : Word} : Answers s.LeavesHbm (execSwTrigger half value s) := by
  unfold execSwTrigger
  dsimp only
  cases regRow? (hkmReg half 0) <;> simp

theorem execCoolantLoss_hbm : Answers s.LeavesHbm (execCoolantLoss s) := by simp [execCoolantLoss]

theorem execCoolantOkRestored_hbm : Answers s.LeavesHbm (execCoolantOkRestored s) := by simp [execCoolantOkRestored]

/-! ### Boot -/

theorem execFwsLength_hbm {value : Word} : Answers s.LeavesHbm (execFwsLength value s) := by simp [execFwsLength]

theorem execFwsPiece_hbm {value : Word} : Answers s.LeavesHbm (execFwsPiece value s) := by simp [execFwsPiece]

theorem execFwsPieceCopied_hbm : Answers s.LeavesHbm (execFwsPieceCopied s) := by simp [execFwsPieceCopied]

theorem execFirmwareVerified_hbm : Answers s.LeavesHbm (execFirmwareVerified s) := by
  unfold execFirmwareVerified
  split
  · simp
  · dsimp only
    split <;> simp

theorem execMbxReady_hbm : Answers s.LeavesHbm (execMbxReady s) := by simp [execMbxReady]

theorem execPatternWriteDone_hbm {ok : Bool} : Answers s.LeavesHbm (execPatternWriteDone ok s) := by
  unfold execPatternWriteDone
  split <;> simp

/-! ### Wings -/

theorem execWingLineReady_hbm {rowEnd line : Nat} {data : List Byte} :
    Answers s.LeavesHbm (execWingLineReady rowEnd line data s) := by
  unfold execWingLineReady
  refine answers_present ?_
  split
  · simp
  · split
    · simp
    · split
      · simp
      · simp
      · split <;> simp

theorem execWingStall_hbm {rowEnd : Nat} : Answers s.LeavesHbm (execWingStall rowEnd s) := by simp [execWingStall]

theorem execStepDescriptorCompletion_hbm {rowEnd target alive line : Nat} :
    Answers s.LeavesHbm (execStepDescriptorCompletion rowEnd target alive line s) := by
  simp [execStepDescriptorCompletion]

/-! ### Chorus -/

theorem execChorusFrame_hbm {ce fcsOk : Bool} {bytes : List Byte} : Answers s.LeavesHbm (execChorusFrame ce fcsOk bytes s) := by
  unfold execChorusFrame
  split
  · simp
  · dsimp only
    split <;> simp

theorem execChorusRetxTimer_hbm {stepNo : Nat} : Answers s.LeavesHbm (execChorusRetxTimer stepNo s) := by
  unfold execChorusRetxTimer
  split <;> simp

theorem execChorusDeadline_hbm {stepNo : Nat} : Answers s.LeavesHbm (execChorusDeadline stepNo s) := by
  unfold execChorusDeadline
  split <;> simp

theorem execLateNotice_hbm {stepNo : Nat} : Answers s.LeavesHbm (execLateNotice stepNo s) := by
  unfold execLateNotice
  split <;> simp

theorem execChorusFrameRelease_hbm {stepNo : Nat} : Answers s.LeavesHbm (execChorusFrameRelease stepNo s) := by
  simp [execChorusFrameRelease]

/-! ### Counters -/

theorem execCntClear_hbm {value : Word} : Answers s.LeavesHbm (execCntClear value s) := by simp [execCntClear]

theorem execCntBwCfg_hbm {window : Nat} {value : Word} : Answers s.LeavesHbm (execCntBwCfg window value s) := by
  unfold execCntBwCfg
  dsimp only
  cases regRow? (bwReg window 0) <;> simp

theorem execBwWindowEnd_hbm {window bytesA bytesB : Nat} : Answers s.LeavesHbm (execBwWindowEnd window bytesA bytesB s) := by
  simp [execBwWindowEnd]

theorem execCounterSaturated_hbm {index : Nat} : Answers s.LeavesHbm (execCounterSaturated index s) := by
  simp [execCounterSaturated]

/-! ### Understudies -/

theorem execUnderstudyPrepared_hbm {tile : Nat} : Answers s.LeavesHbm (execUnderstudyPrepared tile s) := by
  simp [execUnderstudyPrepared]

theorem execUnderstudyArraysReady_hbm {row : Nat} {east : Bool} : Answers s.LeavesHbm (execUnderstudyArraysReady row east s) := by
  unfold execUnderstudyArraysReady
  refine answers_present ?_
  dsimp only
  split <;> simp

/-! ### Lanes and ports -/

theorem execLaneSignalDetect_hbm {lane : Nat} : Answers s.LeavesHbm (execLaneSignalDetect lane s) := by
  unfold execLaneSignalDetect
  refine answers_present ?_
  split <;> simp

theorem execTrainingFrame_hbm {lane control : Nat} {ready : Bool} {snr : Nat} :
    Answers s.LeavesHbm (execTrainingFrame lane control ready snr s) := by
  simp [execTrainingFrame]

theorem execTrainingTimeout_hbm {lane : Nat} : Answers s.LeavesHbm (execTrainingTimeout lane s) := by simp [execTrainingTimeout]

theorem execTrainingRetry_hbm {lane : Nat} : Answers s.LeavesHbm (execTrainingRetry lane s) := by simp [execTrainingRetry]

theorem execLaneLockLoss_hbm {lane : Nat} : Answers s.LeavesHbm (execLaneLockLoss lane s) := by simp [execLaneLockLoss]

theorem execLaneCtrl_hbm {lane : Nat} {value : Word} : Answers s.LeavesHbm (execLaneCtrl lane value s) := by simp [execLaneCtrl]

theorem execPcsAlignment_hbm {port : Nat} {locked : Bool} : Answers s.LeavesHbm (execPcsAlignment port locked s) := by
  simp [execPcsAlignment]

theorem execPreemptVerify_hbm {port : Nat} {responded : Bool} : Answers s.LeavesHbm (execPreemptVerify port responded s) := by
  simp [execPreemptVerify]

theorem execPfcFrame_hbm {port classes quanta : Nat} : Answers s.LeavesHbm (execPfcFrame port classes quanta s) := by
  simp [execPfcFrame]

theorem execPfcPauseExpiry_hbm {port cls : Nat} : Answers s.LeavesHbm (execPfcPauseExpiry port cls s) := by
  simp [execPfcPauseExpiry]

theorem execPfcXoffRepeat_hbm {port cls occupancy : Nat} : Answers s.LeavesHbm (execPfcXoffRepeat port cls occupancy s) := by
  simp [execPfcXoffRepeat]

theorem execPauseFrame_hbm {port : Nat} : Answers s.LeavesHbm (execPauseFrame port s) := by simp [execPauseFrame]

theorem execPtpStepHi_hbm {value : Word} : Answers s.LeavesHbm (execPtpStepHi value s) := by simp [execPtpStepHi]

/-! ### Host frames -/

theorem execNetHostTxTail_hbm {value : Word} {descriptors : List (List Byte)} :
    Answers s.LeavesHbm (execNetHostTxTail value descriptors s) := by
  simp [execNetHostTxTail]

theorem execNetHostRxTail_hbm {value : Word} {descriptors : List (List Byte)} :
    Answers s.LeavesHbm (execNetHostRxTail value descriptors s) := by
  simp [execNetHostRxTail]

theorem execHostFrameReceive_hbm {port : Nat} {frame : List Byte} : Answers s.LeavesHbm (execHostFrameReceive port frame s) := by
  simp [execHostFrameReceive]

theorem execHostFrameTransmitted_hbm {frame : List Byte} : Answers s.LeavesHbm (execHostFrameTransmitted frame s) := by
  unfold execHostFrameTransmitted
  split
  · simp
  · dsimp only
    split <;> simp

/-! ### The loader -/

theorem execCalRunComplete_hbm {tile : Nat} {windows : List CalWindow} :
    Answers s.LeavesHbm (execCalRunComplete tile windows s) := by
  unfold execCalRunComplete
  refine answers_present ?_
  split
  · simp
  · split <;> simp

theorem execDrainTimeout_hbm : Answers s.LeavesHbm (execDrainTimeout s) := by
  unfold execDrainTimeout
  split <;> simp

theorem execDrainComplete_hbm : Answers s.LeavesHbm (execDrainComplete s) := by
  unfold execDrainComplete
  split <;> simp

theorem execWearUpdate_hbm : Answers s.LeavesHbm (execWearUpdate s) := by
  unfold execWearUpdate
  extract_lets set date _ aged arrays touched tiles dated lives first
  have same : dated.kv.hbm = s.kv.hbm := by
    refine (foldl_hbm _ (fun u t => ?_) _ _).trans (by simp [touched, aged])
    split <;> simp
  clear_value first dated
  cases first <;> simp [same]

theorem execArrayProgrammed_hbm {tile array : Nat} {verified : Bool} {readbacks : List Nat} :
    Answers s.LeavesHbm (execArrayProgrammed tile array verified readbacks s) := by
  unfold execArrayProgrammed
  refine answers_present ?_
  split
  · simp
  · dsimp only
    split
    · simp
    · split <;> simp

theorem execBootVerify_hbm {digests : Map (List Nat)} : Answers s.LeavesHbm (execBootVerify digests s) := by simp [execBootVerify]

/-! ### Rehearsals, faults and the sideband -/

theorem execRotationStep_hbm : Answers s.LeavesHbm (execRotationStep s) := by
  unfold execRotationStep
  split
  · simp
  · split <;> simp

theorem execRehearsalDone_hbm {found first set : Nat} {digests : Map (List Nat)} :
    Answers s.LeavesHbm (execRehearsalDone found first set digests s) := by
  unfold execRehearsalDone
  split <;> simp

theorem execFaultQuiet_hbm {source : Nat} : Answers s.LeavesHbm (execFaultQuiet source s) := by simp [execFaultQuiet]

theorem execFwWatchdog_hbm : Answers s.LeavesHbm (execFwWatchdog s) := by simp [execFwWatchdog]

theorem execMgmtRefresh_hbm : Answers s.LeavesHbm (execMgmtRefresh s) := by simp [execMgmtRefresh]

theorem execPldmSensorRefresh_hbm : Answers s.LeavesHbm (execPldmSensorRefresh s) := by simp [execPldmSensorRefresh]

theorem execSmbusMessage_hbm {address : Nat} {request : SmbusRequest} :
    Answers s.LeavesHbm (execSmbusMessage address request s) := by
  unfold execSmbusMessage
  split
  · simp
  · cases request <;> simp

/-! ### Host accesses of BAR0 -/

theorem execShadowLoRead_hbm {offset : Nat} : Answers s.LeavesHbm (execShadowLoRead offset s) := by
  unfold execShadowLoRead
  split <;> simp

theorem execRcRead_hbm {offset size : Nat} : Answers s.LeavesHbm (execRcRead offset size s) := by simp [execRcRead]

theorem execChkRunWrite_hbm {offset : Nat} {value : Word} : Answers s.LeavesHbm (execChkRunWrite offset value s) := by
  unfold execChkRunWrite
  split <;> simp

theorem execChkModeWrite_hbm {engine : Nat} {value : Word} : Answers s.LeavesHbm (execChkModeWrite engine value s) := by
  simp [execChkModeWrite]

theorem execRegisterWrite_hbm {offset : Nat} {value : Word} {size : Nat} {high : Word} :
    Answers s.LeavesHbm (execRegisterWrite offset value size high s) := by
  simp [execRegisterWrite]

/-! ### The PCIe function -/

theorem execPcieConfigWrite_hbm {write : CfgWrite} : Answers s.LeavesHbm (execPcieConfigWrite write s) := by
  simp [execPcieConfigWrite]

theorem execPcieLinkError_hbm {bit : Nat} : Answers s.LeavesHbm (execPcieLinkError bit s) := by simp [execPcieLinkError]

/-! ### Sequences -/

theorem execPauseCopyDone_hbm {entry : Nat} : Answers s.LeavesHbm (execPauseCopyDone entry s) := by
  unfold execPauseCopyDone
  refine answers_present ?_
  split
  · simp
  · simp [apply_ite Prod.snd, State.checkPages_hbm]

theorem execGreenRoomExpiry_hbm {entry : Nat} : Answers s.LeavesHbm (execGreenRoomExpiry entry s) := by
  unfold execGreenRoomExpiry
  refine answers_present ?_
  split <;> simp

theorem execPrmSeqSelect_hbm {value : Word} : Answers s.LeavesHbm (execPrmSeqSelect value s) := by simp [execPrmSeqSelect]

/-! ### Function resets and power -/

theorem execPerstNDeassert_hbm {sysRst selfTestOk identityOk : Bool} {boot : List Byte} :
    Answers s.LeavesHbm (execPerstNDeassert sysRst selfTestOk identityOk boot s) := by
  simp [execPerstNDeassert]

theorem execHotReset_hbm : Answers s.LeavesHbm (execHotReset s) := by simp [execHotReset]

theorem execFlr_hbm : Answers s.LeavesHbm (execFlr s) := by simp [execFlr]

theorem execBlockResetEnd_hbm {kind index : Nat} {digests : Map (List Nat)} :
    Answers s.LeavesHbm (execBlockResetEnd kind index digests s) := by
  simp [execBlockResetEnd]

theorem execPowerDown_hbm : Answers s.LeavesHbm (execPowerDown s) := by simp [execPowerDown]

/-! ### Queue pairs -/

theorem execRoceAckTimeout_hbm {qp : Nat} : Answers s.LeavesHbm (execRoceAckTimeout qp s) := by
  unfold execRoceAckTimeout
  refine answers_present ?_
  split <;> simp

theorem execRoceRateIncrease_hbm {qp : Nat} : Answers s.LeavesHbm (execRoceRateIncrease qp s) := by
  unfold execRoceRateIncrease
  refine answers_present ?_
  split <;> simp

/-! ### Tiles -/

theorem execFlSettled_hbm {tile : Nat} : Answers s.LeavesHbm (execFlSettled tile s) := by simp [execFlSettled]

theorem execStatWindowEnd_hbm {tile : Nat} : Answers s.LeavesHbm (execStatWindowEnd tile s) := by
  unfold execStatWindowEnd
  refine answers_present ?_
  split <;> simp

end

end Sys2Proof.Machine
end

section
/-!
SUPPORT. The events that may write HBM: those that bring the schedule up to their cycle (log 28), whose wings and KV writes
store on the way, the scene change, the formation of a scene, which takes frames, accesses through BAR2, RDMA packets and the
resets.
-/
namespace Sys2Proof.Machine

section
variable {s : State} (h : s.HbmOk)
include h

/-! ### Events of the schedule -/

/-- An event that the schedule places brings the counter up to its cycle, and takes place where the cycle is reached. -/
theorem State.advanceTo_answers {at_ : Nat} {c : Bool} {f : State → State} (same : ∀ u, (f u).kv.hbm = u.kv.hbm) :
    Answers State.HbmOk (.next (if c then f (s.advanceTo at_) else s.advanceTo at_)) := by
  have up : (s.advanceTo at_).HbmOk := State.advanceTo_hbmWf _ _ h
  refine (answers_next ..).2 ?_
  split
  · exact hbmOk_of_eq (same _) up
  · exact up

omit h in
/-- A cycle of a bubble block is a stage cycle, or one that is left empty. -/
theorem Blocked.cycle_hbmOk {b : Blocked} (hb : b.state.HbmOk) (t j : Nat) : (b.cycle t j).state.HbmOk := by
  have run : b.state.stageCycle.HbmOk := State.stageCycle_hbmWf _ hb
  unfold Blocked.cycle
  extract_lets f held past u
  split
  · exact hbmOk_of_eq (State.bubble_hbm _) run
  · exact run

theorem execBubbleBlock_hbmOk : Answers State.HbmOk (execBubbleBlock s) := by
  unfold execBubbleBlock
  refine answers_unless h ((answers_next ..).2 ?_)
  refine foldl_keeps (fun b : Blocked => b.state.HbmOk) _ (fun b j hb => b.cycle_hbmOk hb _ j) _ _ (hbmOk_of_eq ?_ h)
  split <;> simp

omit h in
/-- The step change at its switch: the cycles before it and those after it (R445). -/
theorem State.switched_hbmOk {u : State} (hu : u.HbmOk) : (((u.runCycles 2).dropCause 2).runCycles 2).HbmOk :=
  State.runCycles_hbmWf _ _ (hbmOk_of_eq (State.dropCause_hbm ..) (State.runCycles_hbmWf _ _ hu))

theorem execStepSwitch_hbmOk : Answers State.HbmOk (execStepSwitch s) := by
  unfold execStepSwitch
  split
  · next target job _ =>
    refine answers_unless h ?_
    have before := State.runSwitch_hbmWf s h
    generalize s.runSwitch = ran at before ⊢
    extract_lets old _ _ switched noted tuned ledger
    have after : switched.HbmOk := State.switched_hbmOk (u := { ran with pwr := { ran.pwr with step := target } }) before
    have same : ledger.HbmOk := hbmOk_of_eq (by simp [ledger, tuned, noted]) after
    clear_value ledger
    simp [State.HbmOk, same]
  · exact (answers_next ..).2 h

theorem execSectionStart_hbmOk {index scene : Nat} {errors : List SecError} :
    Answers State.HbmOk (execSectionStart index scene errors s) := by
  unfold execSectionStart
  split
  · exact (answers_next ..).2 h
  · next sc x _ =>
    have up : (s.advanceTo (sc.start + x.start)).HbmOk := State.advanceTo_hbmWf _ _ h
    have begun := hbmOk_of_eq (State.beginSection_hbm (s.advanceTo (sc.start + x.start)) index scene (sc.start + x.start) x.tag) up
    refine answers_unless up ((answers_next ..).2 ?_)
    exact foldl_keeps State.HbmOk _ (fun u e hu => State.sectionError_hbmWf scene u e hu) _ _ begun

theorem execWingSourceIssue_hbmOk {rowEnd line target at_ : Nat} :
    Answers State.HbmOk (execWingSourceIssue rowEnd line target at_ s) := by
  unfold execWingSourceIssue
  refine answers_present ?_
  split <;> simp [State.HbmOk, h]

theorem execWingReadyTest_hbmOk {rowEnd at_ : Nat} : Answers State.HbmOk (execWingReadyTest rowEnd at_ s) :=
  answers_present (State.advanceTo_answers h fun _ => State.wingTest_hbm ..)

theorem execWingOutboundDrain_hbmOk {rowEnd : Nat} : Answers State.HbmOk (execWingOutboundDrain rowEnd s) := by
  unfold execWingOutboundDrain
  refine answers_present ?_
  extract_lets w _ stored moved
  have same : moved.HbmOk := by
    refine hbmOk_of_eq (State.modWing_hbm ..) ?_
    simp only [stored]
    split
    · exact memWf_memWriteList _ _ h
    · exact hbmOk_of_eq (State.chorusPut_hbm ..) h
    · exact h
  clear_value moved
  simp [State.HbmOk, same]

theorem execChorusStepOpen_hbmOk {index scene : Nat} : Answers State.HbmOk (execChorusStepOpen index scene s) := by
  unfold execChorusStepOpen
  split
  · exact (answers_next ..).2 h
  · exact State.advanceTo_answers h fun _ => State.openStep_hbm ..

theorem execMvmDelivery_hbmOk {tile : Nat} : Answers State.HbmOk (execMvmDelivery tile s) := by
  unfold execMvmDelivery
  refine answers_present ?_
  split <;> simp [State.HbmOk, h]

theorem execGroupClose_hbmOk {tile slot : Nat} : Answers State.HbmOk (execGroupClose tile slot s) := by
  unfold execGroupClose
  refine answers_present ?_
  split
  · exact (answers_next ..).2 h
  · split
    · exact (answers_next ..).2 h
    · exact State.advanceTo_answers h fun _ => State.beginClose_hbm ..

theorem execFootlightCall_hbmOk {call : FlCall} : Answers State.HbmOk (execFootlightCall call s) := by
  unfold execFootlightCall
  refine answers_present ?_
  split
  · exact (answers_next ..).2 h
  · split
    · exact State.advanceTo_answers h fun _ => State.footlightCall_hbm ..
    · exact (answers_next ..).2 h

theorem execFlPowerdown_hbmOk {tile : Nat} : Answers State.HbmOk (execFlPowerdown tile s) := by
  unfold execFlPowerdown
  refine answers_present ?_
  simp [State.HbmOk, h]

theorem execCalSlot_hbmOk {tile : Nat} {windows : List CalWindow} : Answers State.HbmOk (execCalSlot tile windows s) := by
  unfold execCalSlot
  refine answers_present ?_
  split
  · split
    · exact (answers_next ..).2 h
    · exact State.advanceTo_answers h fun _ => State.runSlot_hbm ..
  · exact (answers_next ..).2 h

theorem execPhaseWindow_hbmOk {tile : Nat} {start : Option MvmRef} {input : PhaseIn} :
    Answers State.HbmOk (execPhaseWindow tile start input s) := by
  unfold execPhaseWindow
  refine answers_present ?_
  split
  · exact (answers_next ..).2 h
  · split
    · exact (answers_next ..).2 (State.startSlot_hbmWf _ _ _ _ _ _ h)
    · exact (answers_next ..).2 (hbmOk_of_eq (State.startExcess_hbm ..) h)
    · split
      · exact (answers_next ..).2 (State.nextWindow_hbmWf _ _ _ _ h)
      · exact (answers_next ..).2 h

/-! ### Scenes -/

theorem execSceneChange_hbmOk : Answers State.HbmOk (execSceneChange s) := by
  unfold execSceneChange
  split
  · refine answers_unless (State.advanceTo_hbmWf _ _ h) ?_
    split
    · exact (answers_next ..).2 (State.endScene_hbmWf _ _ (State.advanceTo_hbmWf _ _ h))
    · exact (answers_next ..).2 (State.advanceTo_hbmWf _ _ h)
  · exact (answers_next ..).2 h

theorem execEmptySceneChange_hbmOk : Answers State.HbmOk (execEmptySceneChange s) := by
  simp [execEmptySceneChange, State.HbmOk, h]

omit h in
/-- A work item that is offered takes its frames, or notes that it waits for them. -/
theorem Forming.offer_hbmOk {f : Forming} (hf : f.st.HbmOk) (limit cap share : Nat) (m : Member) (pos : Nat) :
    (f.offer limit cap share m pos).st.HbmOk := by
  unfold Forming.offer
  split
  · exact hf
  · have reserved : (if f.st.waits m.entry pos m.nodes then (false, f.st) else f.st.reserve m.entry pos m.nodes).2.HbmOk := by
      split
      · exact hf
      · exact State.reserve_hbmWf _ _ _ _ hf
    split
    · next q =>
      rw [q] at reserved
      exact hbmOk_of_eq (State.modSeq_hbm ..) reserved
    · next q =>
      rw [q] at reserved
      exact hbmOk_of_eq (by simp) reserved

theorem State.choose_hbmOk (limit cap : Nat) : (s.choose limit cap).st.HbmOk := by
  unfold State.choose
  refine foldl_keeps (fun f : Forming => f.st.HbmOk) _ (fun f x hf => Forming.offer_hbmOk hf ..) _ _ ?_
  exact foldl_keeps (fun f : Forming => f.st.HbmOk) _ (fun f x hf => Forming.offer_hbmOk hf ..) _ _ (State.serveWaiting_hbmWf s h)

theorem State.chooseFor_hbmOk (c : CueSheet) (big : Variant) : (s.chooseFor c big).st.HbmOk := by
  unfold State.chooseFor
  dsimp only
  split
  · exact State.choose_hbmOk h _ _
  · exact State.choose_hbmOk h _ _

theorem execSceneForm_hbmOk : Answers State.HbmOk (execSceneForm s) := by
  unfold execSceneForm
  split
  · exact (answers_next ..).2 h
  · next c _ =>
    refine answers_unless h (answers_unless (State.startSent_hbmWf _ _ h) ?_)
    split
    · exact (answers_next ..).2 h
    · next big _ =>
      have chosen := State.chooseFor_hbmOk h c big
      refine answers_unless chosen ?_
      split
      · exact (answers_next ..).2 chosen
      · have up := State.advanceTo_hbmWf _ (s.chooseFor c big).st.nextStart chosen
        exact (answers_next ..).2 (hbmOk_of_eq (by rw [State.startScene_hbm, State.sendScene_hbm]) up)

theorem execResumeComplete_hbmOk {entry : Nat} : Answers State.HbmOk (execResumeComplete entry s) := by
  unfold execResumeComplete
  refine answers_present ?_
  split
  · exact (answers_next ..).2 h
  · next q _ =>
    have ready : (if q.starved then s.resumeFrames entry else (true, s)).2.HbmOk := by
      split
      · exact State.resumeFrames_hbmWf _ _ h
      · exact h
    have placed := foldl_keeps State.HbmOk (fun u p => u.placeRecord entry p) (fun u p hu => State.placeRecord_hbmWf _ _ _ hu)
      q.fetched _ ready
    refine answers_unless h (answers_unless h ?_)
    generalize (if q.starved then s.resumeFrames entry else (true, s)) = r at ready placed ⊢
    refine answers_unless ready ?_
    dsimp only
    split
    · simp [State.HbmOk, ready]
    · split <;> simp [State.HbmOk, placed]

/-! ### BAR2, RDMA and the resets -/

theorem execBar2Access_hbmOk {offset length : Nat} {write : Option (List Byte)} :
    Answers State.HbmOk (execBar2Access offset write length s) := by
  unfold execBar2Access
  extract_lets n a hit u r
  have same : u.HbmOk := by
    refine hbmOk_of_eq ?_ h
    simp only [u]
    split <;> simp
  refine answers_unless h ?_
  split
  · exact (answers_next ..).2 (State.bar2Write_hbmWf _ _ _ same)
  · exact (answers_next ..).2 (hbmOk_of_eq (by rw [State.returnData_hbm, State.bar2Read_hbm]) same)

theorem execRocePacket_hbmOk {qp port : Nat} {ce : Bool} {packet : RocePacket} {frame : List Byte} :
    Answers State.HbmOk (execRocePacket qp port ce packet frame s) := by
  unfold execRocePacket
  refine answers_present ?_
  split <;> simp [State.HbmOk, h]

theorem execColdReset_hbmOk {selfTestOk identityOk : Bool} {boot : List Byte} :
    Answers State.HbmOk (execColdReset selfTestOk identityOk boot s) := by
  have emptied := State.full_hbmWf s false
  refine answers_unless h ?_
  simp [State.HbmOk, emptied]

theorem execFundamentalReset_hbmOk {sysRst : Bool} : Answers State.HbmOk (execFundamentalReset sysRst s) :=
  answers_unless h ((answers_next ..).2 (State.full_hbmWf _ false))

theorem execChipReset_hbmOk {selfTestOk identityOk : Bool} {boot : List Byte} :
    Answers State.HbmOk (execChipReset selfTestOk identityOk boot s) := by
  simp [execChipReset, State.HbmOk, h]

theorem execGlbResetChip_hbmOk {value : Word} {selfTestOk identityOk : Bool} {boot : List Byte} :
    Answers State.HbmOk (execGlbResetChip value selfTestOk identityOk boot s) := by
  simp [execGlbResetChip, State.HbmOk, h]

theorem execBlockReset_hbmOk {kind index : Nat} : Answers State.HbmOk (execBlockReset kind index s) := by
  simp [execBlockReset, State.HbmOk, h]

theorem execGlbResetBlock_hbmOk {value : Word} : Answers State.HbmOk (execGlbResetBlock value s) := by
  simp [execGlbResetBlock, State.HbmOk, h]

omit h in
theorem execRailLoss_hbmOk : Answers State.HbmOk (execRailLoss s) := (answers_next ..).2 (State.full_hbmWf s false)

end

end Sys2Proof.Machine
end

section
/-!
SUPPORT. The canonical form of HBM through a step (R214, R234): through the command that waits, by its own lemma, or through the stage
cycle that runs where none waits.
-/
namespace Sys2Proof.Machine

/-- Every command keeps the canonical form of HBM. -/
theorem exec_hbmOk {s : State} (c : Instr) (h : s.HbmOk) : Answers State.HbmOk (exec c s) := by
  unfold exec
  cases c with
  | echo => exact execEcho_hbmOk h
  | queryInfo => exact execQueryInfo_hbmOk h
  | playbill => exact execPlaybill_hbmOk h
  | productionOpen => exact execProductionOpen_hbmOk h
  | productionFetch => exact execProductionFetch_hbmOk h
  | productionPush => exact execProductionPush_hbmOk h
  | productionSeal => exact execProductionSeal_hbmOk h
  | recastRolling => exact execRecastRolling_hbmOk h
  | recastAbort => exact execRecastAbort_hbmOk h
  | keyUnwrap => exact execKeyUnwrap_hbmOk h
  | cuesheetLoad => exact execCuesheetLoad_hbmOk h
  | cuesheetActivate => exact execCuesheetActivate_hbmOk h
  | seqAdmit => exact execSeqAdmit_hbmOk h
  | seqAppend => exact execSeqAppend_hbmOk h
  | seqCancel => exact execSeqCancel_hbmOk h
  | seqPause => exact execSeqPause_hbmOk h
  | seqResume => exact execSeqResume_hbmOk h
  | seqEvict => exact execSeqEvict_hbmOk h
  | prefixPin => exact execPrefixPin_hbmOk h
  | prefixUnpin => exact execPrefixUnpin_hbmOk h
  | calRun => exact execCalRun_hbmOk h
  | calExport => exact execCalExport_hbmOk h
  | calImport => exact execCalImport_hbmOk h
  | tileFence => exact execTileFence_hbmOk h
  | tileRestore => exact execTileRestore_hbmOk h
  | rehearse => exact execRehearse_hbmOk h
  | rehearseRotation => exact execRehearseRotation_hbmOk h
  | patternInstall => exact execPatternInstall_hbmOk h
  | unitTuneTrim => exact execUnitTuneTrim_hbmOk h
  | unitTuneStep => exact execUnitTuneStep_hbmOk h
  | capSet => exact execCapSet_hbmOk h
  | thermalSet => exact execThermalSet_hbmOk h
  | chorusGroupSet => exact execChorusGroupSet_hbmOk h
  | portMode => exact execPortMode_hbmOk h
  | qpEstablish => exact execQpEstablish_hbmOk h
  | qpDestroy => exact execQpDestroy_hbmOk h
  | portAddr => exact execPortAddr_hbmOk h
  | hostRing => exact execHostRing_hbmOk h
  | counterSnapshot => exact execCounterSnapshot_hbmOk h
  | ledgerRead => exact execLedgerRead_hbmOk h
  | faultPolicySet => exact execFaultPolicySet_hbmOk h
  | unsupportedOpcode => exact execUnsupportedOpcode_hbmOk h
  | mbxSqTail => exact execMbxSqTail_hbm.hbmOk h
  | mbxCqHead => exact execMbxCqHead_hbm.hbmOk h
  | ringEnable => exact execRingEnable_hbm.hbmOk h
  | ringDisable => exact execRingDisable_hbm.hbmOk h
  | flHoldForce => exact execFlHoldForce_hbm.hbmOk h
  | calDataWrite => exact execCalDataWrite_hbm.hbmOk h
  | calDataRead => exact execCalDataRead_hbm.hbmOk h
  | autoEn => exact execAutoEn_hbm.hbmOk h
  | shadowLoRead => exact execShadowLoRead_hbm.hbmOk h
  | rcRead => exact execRcRead_hbm.hbmOk h
  | prmSeqSelect => exact execPrmSeqSelect_hbm.hbmOk h
  | ptpStepHi => exact execPtpStepHi_hbm.hbmOk h
  | glbResetChip => exact execGlbResetChip_hbmOk h
  | glbResetBlock => exact execGlbResetBlock_hbmOk h
  | fwsLength => exact execFwsLength_hbm.hbmOk h
  | fwsPiece => exact execFwsPiece_hbm.hbmOk h
  | swTrigger => exact execSwTrigger_hbm.hbmOk h
  | cntClear => exact execCntClear_hbm.hbmOk h
  | cntBwCfg => exact execCntBwCfg_hbm.hbmOk h
  | chkRunWrite => exact execChkRunWrite_hbm.hbmOk h
  | chkModeWrite => exact execChkModeWrite_hbm.hbmOk h
  | netHostTxTail => exact execNetHostTxTail_hbm.hbmOk h
  | netHostRxTail => exact execNetHostRxTail_hbm.hbmOk h
  | laneCtrl => exact execLaneCtrl_hbm.hbmOk h
  | registerWrite => exact execRegisterWrite_hbm.hbmOk h
  | bar2Access => exact execBar2Access_hbmOk h
  | coldReset => exact execColdReset_hbmOk h
  | fundamentalReset => exact execFundamentalReset_hbmOk h
  | hotReset => exact execHotReset_hbm.hbmOk h
  | flr => exact execFlr_hbm.hbmOk h
  | chipReset => exact execChipReset_hbmOk h
  | blockReset => exact execBlockReset_hbmOk h
  | blockResetEnd => exact execBlockResetEnd_hbm.hbmOk h
  | powerDown => exact execPowerDown_hbm.hbmOk h
  | railLoss => exact execRailLoss_hbmOk
  | coolantLoss => exact execCoolantLoss_hbm.hbmOk h
  | pllUnlock => exact execPllUnlock_hbm.hbmOk h
  | droop => exact execDroop_hbm.hbmOk h
  | droopRecovery => exact execDroopRecovery_hbm.hbmOk h
  | hkmPass => exact execHkmPass_hbm.hbmOk h
  | hbmSensorRead => exact execHbmSensorRead_hbm.hbmOk h
  | throttleLimitStep => exact execThrottleLimitStep_hbm.hbmOk h
  | thermtripTimeout => exact execThermtripTimeout_hbm.hbmOk h
  | injectedSequence => exact execInjectedSequence_hbm.hbmOk h
  | controlInterval => exact execControlInterval_hbm.hbmOk h
  | bubbleBlock => exact execBubbleBlock_hbmOk h
  | rampStep => exact execRampStep_hbm.hbmOk h
  | avsTelemetry => exact execAvsTelemetry_hbm.hbmOk h
  | avsFault => exact execAvsFault_hbm.hbmOk h
  | ageColumnCrossing => exact execAgeColumnCrossing_hbm.hbmOk h
  | stepChangeProceed => exact execStepChangeProceed_hbm.hbmOk h
  | regulatorReached => exact execRegulatorReached_hbm.hbmOk h
  | stepSwitch => exact execStepSwitch_hbmOk h
  | sectionStart => exact execSectionStart_hbmOk h
  | phaseWindow => exact execPhaseWindow_hbmOk h
  | mvmDelivery => exact execMvmDelivery_hbmOk h
  | groupClose => exact execGroupClose_hbmOk h
  | footlightCall => exact execFootlightCall_hbmOk h
  | flSettled => exact execFlSettled_hbm.hbmOk h
  | flPowerdown => exact execFlPowerdown_hbmOk h
  | statWindowEnd => exact execStatWindowEnd_hbm.hbmOk h
  | calTrigger => exact execCalTrigger_hbm.hbmOk h
  | calSlot => exact execCalSlot_hbmOk h
  | calRunComplete => exact execCalRunComplete_hbm.hbmOk h
  | wingSourceIssue => exact execWingSourceIssue_hbmOk h
  | wingLineReady => exact execWingLineReady_hbm.hbmOk h
  | wingReadyTest => exact execWingReadyTest_hbmOk h
  | wingStall => exact execWingStall_hbm.hbmOk h
  | stepDescriptorCompletion => exact execStepDescriptorCompletion_hbm.hbmOk h
  | sceneForm => exact execSceneForm_hbmOk h
  | sceneChange => exact execSceneChange_hbmOk h
  | emptySceneChange => exact execEmptySceneChange_hbmOk h
  | understudyPrepared => exact execUnderstudyPrepared_hbm.hbmOk h
  | understudyArraysReady => exact execUnderstudyArraysReady_hbm.hbmOk h
  | faultQuiet => exact execFaultQuiet_hbm.hbmOk h
  | fwWatchdog => exact execFwWatchdog_hbm.hbmOk h
  | arrayProgrammed => exact execArrayProgrammed_hbm.hbmOk h
  | drainTimeout => exact execDrainTimeout_hbm.hbmOk h
  | drainComplete => exact execDrainComplete_hbm.hbmOk h
  | bootVerify => exact execBootVerify_hbm.hbmOk h
  | wearUpdate => exact execWearUpdate_hbm.hbmOk h
  | pauseCopyDone => exact execPauseCopyDone_hbm.hbmOk h
  | resumeComplete => exact execResumeComplete_hbmOk h
  | greenRoomExpiry => exact execGreenRoomExpiry_hbm.hbmOk h
  | fwsPieceCopied => exact execFwsPieceCopied_hbm.hbmOk h
  | firmwareVerified => exact execFirmwareVerified_hbm.hbmOk h
  | mbxReady => exact execMbxReady_hbm.hbmOk h
  | laneSignalDetect => exact execLaneSignalDetect_hbm.hbmOk h
  | trainingFrame => exact execTrainingFrame_hbm.hbmOk h
  | trainingTimeout => exact execTrainingTimeout_hbm.hbmOk h
  | trainingRetry => exact execTrainingRetry_hbm.hbmOk h
  | laneLockLoss => exact execLaneLockLoss_hbm.hbmOk h
  | chorusFrame => exact execChorusFrame_hbm.hbmOk h
  | rocePacket => exact execRocePacket_hbmOk h
  | pfcFrame => exact execPfcFrame_hbm.hbmOk h
  | pauseFrame => exact execPauseFrame_hbm.hbmOk h
  | hostFrameReceive => exact execHostFrameReceive_hbm.hbmOk h
  | pfcXoffRepeat => exact execPfcXoffRepeat_hbm.hbmOk h
  | preemptVerify => exact execPreemptVerify_hbm.hbmOk h
  | roceAckTimeout => exact execRoceAckTimeout_hbm.hbmOk h
  | roceRateIncrease => exact execRoceRateIncrease_hbm.hbmOk h
  | chorusStepOpen => exact execChorusStepOpen_hbmOk h
  | chorusRetxTimer => exact execChorusRetxTimer_hbm.hbmOk h
  | chorusDeadline => exact execChorusDeadline_hbm.hbmOk h
  | lateNotice => exact execLateNotice_hbm.hbmOk h
  | chorusFrameRelease => exact execChorusFrameRelease_hbm.hbmOk h
  | smbusMessage => exact execSmbusMessage_hbm.hbmOk h
  | pldmSensorRefresh => exact execPldmSensorRefresh_hbm.hbmOk h
  | dmaCompletion => exact execDmaCompletion_hbm.hbmOk h
  | completionPost => exact execCompletionPost_hbm.hbmOk h
  | coalTimer => exact execCoalTimer_hbm.hbmOk h
  | bwWindowEnd => exact execBwWindowEnd_hbm.hbmOk h
  | rehearsalDone => exact execRehearsalDone_hbm.hbmOk h
  | rotationStep => exact execRotationStep_hbm.hbmOk h
  | patternWriteDone => exact execPatternWriteDone_hbm.hbmOk h
  | mgmtRefresh => exact execMgmtRefresh_hbm.hbmOk h
  | pcsAlignment => exact execPcsAlignment_hbm.hbmOk h
  | pfcPauseExpiry => exact execPfcPauseExpiry_hbm.hbmOk h
  | coolantOkRestored => exact execCoolantOkRestored_hbm.hbmOk h
  | perstNDeassert => exact execPerstNDeassert_hbm.hbmOk h
  | pcieConfigWrite => exact execPcieConfigWrite_hbm.hbmOk h
  | pcieLinkError => exact execPcieLinkError_hbm.hbmOk h
  | sramScrubAccess => exact execSramScrubAccess_hbm.hbmOk h
  | wingOutboundDrain => exact execWingOutboundDrain_hbmOk h
  | counterSaturated => exact execCounterSaturated_hbm.hbmOk h
  | hostFrameTransmitted => exact execHostFrameTransmitted_hbm.hbmOk h

/-- Settles O4: the step is the front command on the state whose queue it has left, or a stage cycle, and each keeps the form. -/
theorem stepKeepsHbmCanonical : Obligations.StepKeepsHbmCanonical := by
  unfold Obligations.StepKeepsHbmCanonical
  intro s t h taken
  unfold step at taken
  split at taken
  · cases taken
    exact State.stageCycle_hbmWf s h
  · next c rest _ => exact exec_hbmOk (s := { s with pending := rest }) c h t taken

end Sys2Proof.Machine
end

section
/-!
SUPPORT. The count of scene changes through a failing directory entry (R236): the raise, the scenes and sequences that it ends and the
eviction of the entry with its descendants leave SC_COUNT and every tile as they were.
-/
namespace Sys2Proof.Machine

/-- A fold whose every step leaves SC_COUNT alone leaves it alone. -/
theorem foldl_scCount {α : Type} (f : State → α → State) (h : ∀ s x, (f s x).prm.scCount = s.prm.scCount) (xs : List α)
    (s : State) : (xs.foldl f s).prm.scCount = s.prm.scCount :=
  List.foldlRecOn xs f (motive := fun t => t.prm.scCount = s.prm.scCount) rfl fun t ht x _ => (h t x).trans ht

@[simp] theorem State.modSeq_scCount (s : State) (e : Nat) (f : Seq → Seq) : (s.modSeq e f).prm.scCount = s.prm.scCount := by
  unfold State.modSeq
  split <;> rfl

@[simp] theorem State.dropRefs_scCount (s : State) (e : Nat) : (s.dropRefs e).prm.scCount = s.prm.scCount := by
  unfold State.dropRefs
  split
  · rw [State.modSeq_scCount]
    exact foldl_scCount _ (fun u i => by rw [State.modDir_prm]) _ _
  · rfl

@[simp] theorem State.freeSeqFrames_scCount (s : State) (e : Nat) : (s.freeSeqFrames e).prm.scCount = s.prm.scCount := by
  simp [State.freeSeqFrames]

@[simp] theorem State.releaseSeq_scCount (s : State) (e : Nat) : (s.releaseSeq e).prm.scCount = s.prm.scCount := by
  simp [State.releaseSeq]

@[simp] theorem State.failSeq_scCount (s : State) (e : Nat) (st : Status) : (s.failSeq e st).prm.scCount = s.prm.scCount := by
  simp [State.failSeq]

@[simp] theorem State.failScenes_scCount (s : State) (p : Nat → Bool) (source : Nat) :
    (s.failScenes p source).prm.scCount = s.prm.scCount := by
  simp [State.failScenes]

@[simp] theorem State.fatalStop_scCount (s : State) (src kind idx : Nat) :
    (s.fatalStop src kind idx).prm.scCount = s.prm.scCount := by
  unfold State.fatalStop
  dsimp only
  split
  · simp
  · simp [foldl_scCount]

@[simp] theorem State.raiseBase_scCount (s : State) (src kind idx : Nat) (scenes : List Nat) :
    (s.raiseBase src kind idx scenes).prm.scCount = s.prm.scCount := by
  unfold State.raiseBase
  dsimp only
  repeat' split
  all_goals simp

@[simp] theorem State.ledgerSettle_scCount (s : State) : s.ledgerSettle.prm.scCount = s.prm.scCount := by
  simp [State.ledgerSettle, foldl_scCount]

@[simp] theorem State.dropPages_prm (s : State) (fs : List Nat) : (s.dropPages fs).prm = s.prm := by
  simp [State.dropPages]

@[simp] theorem State.dropPages_tiles (s : State) (fs : List Nat) : (s.dropPages fs).tiles = s.tiles := by
  simp [State.dropPages]

@[simp] theorem State.evictEntry_scCount (s : State) (i : Nat) : (s.evictEntry i).prm.scCount = s.prm.scCount := by
  unfold State.evictEntry
  split
  · split <;> simp
  · rfl

@[simp] theorem State.evictEntry_tiles (s : State) (i : Nat) : (s.evictEntry i).tiles = s.tiles := by
  unfold State.evictEntry
  split
  · split <;> simp
  · rfl

@[simp] theorem State.evictTree_scCount (s : State) (is : List Nat) : (s.evictTree is).prm.scCount = s.prm.scCount :=
  foldl_scCount _ (fun _ _ => State.evictEntry_scCount ..) _ _

/-- A page check is raised at a stack: it is no router fault, degrades no tile and is no suspicion event (R190, R495). -/
theorem State.raise_kvPageCheck (s : State) (stack : Nat) (scenes : List Nat) :
    s.raise srcKvPageCheck 7 stack scenes = (s.raiseBase srcKvPageCheck 7 stack scenes).ledgerSettle := by
  simp [State.raise, srcKvPageCheck, srcRouterFault, isSuspicion]

/-- A directory entry that fails its ENTRY_CRC is evicted with its descendants; no scene change is counted and no tile changes. -/
theorem State.kvCheckFail_entry (s : State) (i : Nat) :
    (s.kvCheckFail i 3 []).prm.scCount = s.prm.scCount ∧ (s.kvCheckFail i 3 []).tiles = s.tiles := by
  simp [State.kvCheckFail, State.raise_kvPageCheck, State.evictTree, foldl_scCount]

/-- Entries that are about to be used, and pass their ENTRY_CRC, are left as they are (R236). -/
theorem State.checkEntries_sound {s : State} {is : List Nat} (sound : ∀ j ∈ is, s.entrySound j = true) : s.checkEntries is = s := by
  unfold State.checkEntries
  induction is with
  | nil => rfl
  | cons i is ih =>
    obtain ⟨first, rest⟩ := List.forall_mem_cons.1 sound
    have kept : ((Map.get? s.kv.dir i).map (fun d => d.valid && !d.sound)).getD false = false := by
      unfold State.entrySound at first
      cases held : Map.get? s.kv.dir i with
      | none => rfl
      | some d =>
        have passes : d.sound = true := by simpa [held] using first
        simp [passes]
    rw [List.foldl_cons, kept, if_neg Bool.false_ne_true]
    exact ih rest

@[simp] theorem State.checkEntries_scCount (s : State) (is : List Nat) : (s.checkEntries is).prm.scCount = s.prm.scCount :=
  foldl_scCount _ (fun u i => by split <;> simp [State.kvCheckFail_entry]) _ _

@[simp] theorem State.checkEntries_tiles (s : State) (is : List Nat) : (s.checkEntries is).tiles = s.tiles :=
  foldl_tiles _ (fun u i => by split <;> simp [State.kvCheckFail_entry]) _ _

@[simp] theorem State.modDir_frames (s : State) (i : Nat) (f : DirEntry → DirEntry) : (s.modDir i f).kv.frames = s.kv.frames := by
  unfold State.modDir
  split
  · split <;> rfl
  · rfl

end Sys2Proof.Machine
end

section
/-!
SUPPORT. PREFIX_PIN and PREFIX_UNPIN (R227, R236): the lookup of the entry, and what each does with the entries of its chain once their
ENTRY_CRC has been checked.
-/
namespace Sys2Proof.Machine

theorem exec_prefixPin (e : Entry) (s : State) : exec (.prefixPin e) s = execPrefixPin e s := rfl
theorem exec_prefixUnpin (e : Entry) (s : State) : exec (.prefixUnpin e) s = execPrefixUnpin e s := rfl

@[simp] theorem State.begun_pinChain (s : State) (e : Entry) (i : Nat) : (s.begun e).pinChain i = s.pinChain i := rfl
@[simp] theorem State.begun_scCount (s : State) (e : Entry) : (s.begun e).prm.scCount = s.prm.scCount := rfl
@[simp] theorem State.begun_tiles (s : State) (e : Entry) : (s.begun e).tiles = s.tiles := rfl

/-- The pin count of a slot of the directory; a slot that holds no entry has none. -/
def State.pinsAt (s : State) (j : Nat) : Nat := ((Map.get? s.kv.dir j).map (fun d => d.pins)).getD 0

/-- A change of every entry of a chain. -/
def State.modChain (s : State) (js : List Nat) (f : DirEntry → DirEntry) : State := js.foldl (fun s j => s.modDir j f) s

@[simp] theorem State.modChain_hbm (s : State) (js : List Nat) (f : DirEntry → DirEntry) : (s.modChain js f).kv.hbm = s.kv.hbm := by
  simp [State.modChain]

@[simp] theorem State.modChain_prm (s : State) (js : List Nat) (f : DirEntry → DirEntry) : (s.modChain js f).prm = s.prm := by
  simp [State.modChain]

@[simp] theorem State.modChain_tiles (s : State) (js : List Nat) (f : DirEntry → DirEntry) : (s.modChain js f).tiles = s.tiles := by
  simp [State.modChain]

@[simp] theorem State.modChain_frames (s : State) (js : List Nat) (f : DirEntry → DirEntry) :
    (s.modChain js f).kv.frames = s.kv.frames :=
  List.foldlRecOn js _ (motive := fun t : State => t.kv.frames = s.kv.frames) rfl fun t ht j _ => (t.modDir_frames j f).trans ht

/-! ### The lookup -/

section
variable {s : State} {h : Nat × Nat} {i : Nat}

theorem State.lookupEntry_absent (absent : s.findEntry h = none) : s.lookupEntry h = (none, s) := by
  simp [State.lookupEntry, absent]

theorem State.lookupEntry_sound (found : s.findEntry h = some i) (sound : s.entrySound i = true) :
    s.lookupEntry h = (some i, s) := by
  simp [State.lookupEntry, found, sound]

theorem State.lookupEntry_unsound (found : s.findEntry h = some i) (unsound : s.entrySound i = false) :
    s.lookupEntry h = (none, s.kvCheckFail i 3 []) := by
  simp [State.lookupEntry, found, unsound]

end

/-! ### PREFIX_PIN -/

section
variable {e : Entry} {s v : State} (begins : Begins e 0x36 false s)
include begins

theorem execPrefixPin_missed (missed : (s.begun e).lookupEntry (e.op 8 8, e.op 16 8) = (none, v)) :
    execPrefixPin e s = .next (v.complete e .invalid []) := by
  refine (runCmd_begins _ begins rfl).trans (congrArg _ (runBody_done ?_))
  dsimp only
  rw [missed]

variable {i : Nat} {u : State} (found : (s.begun e).lookupEntry (e.op 8 8, e.op 16 8) = (some i, v))
  (checked : u = v.checkEntries (v.pinChain i))
include found checked

theorem execPrefixPin_evicted (gone : u.entryValid i = false) : execPrefixPin e s = .next (u.complete e .invalid []) := by
  subst checked
  refine (runCmd_begins _ begins rfl).trans (congrArg _ (runBody_done ?_))
  dsimp only
  rw [found]
  dsimp only
  rw [gone]
  rfl

variable (valid : u.entryValid i = true)
include valid

theorem execPrefixPin_full (full : ∃ j ∈ v.pinChain i, u.pinsAt j = 65535) :
    execPrefixPin e s = .next (u.complete e .noSpace []) := by
  have any : (v.pinChain i).any (fun j => u.pinsAt j == 65535) = true := by simpa using full
  subst checked
  refine (runCmd_begins _ begins rfl).trans (congrArg _ (runBody_done ?_))
  dsimp only
  rw [found]
  dsimp only
  rw [valid]
  exact if_pos any

theorem execPrefixPin_counts (room : ∀ j ∈ v.pinChain i, u.pinsAt j ≠ 65535) {t : State}
    (counted : t = (u.modChain (v.pinChain i) (fun d => { d with pins := d.pins + 1 })).modDir i
      (fun d => { d with lastUse := u.prm.scCount })) : execPrefixPin e s = .next (t.complete e .ok (t.pinResult i)) := by
  have none : ¬(v.pinChain i).any (fun j => u.pinsAt j == 65535) = true := by simpa using room
  rw [← u.modChain_prm (v.pinChain i) (fun d => { d with pins := d.pins + 1 })] at counted
  subst checked counted
  refine (runCmd_begins _ begins rfl).trans (congrArg _ (runBody_done ?_))
  dsimp only
  rw [found]
  dsimp only
  rw [valid]
  exact if_neg none

end

/-! ### PREFIX_UNPIN -/

section
variable {e : Entry} {s v : State} (begins : Begins e 0x37 false s)
include begins

theorem execPrefixUnpin_missed (missed : (s.begun e).lookupEntry (e.op 8 8, e.op 16 8) = (none, v)) :
    execPrefixUnpin e s = .next (v.complete e .invalid []) := by
  refine (runCmd_begins _ begins rfl).trans (congrArg _ (runBody_done ?_))
  dsimp only
  rw [missed]

variable {i : Nat} {u : State} (found : (s.begun e).lookupEntry (e.op 8 8, e.op 16 8) = (some i, v))
  (checked : u = v.checkEntries (v.pinChain i))
include found checked

theorem execPrefixUnpin_evicted (gone : u.entryValid i = false) : execPrefixUnpin e s = .next (u.complete e .invalid []) := by
  subst checked
  refine (runCmd_begins _ begins rfl).trans (congrArg _ (runBody_done ?_))
  dsimp only
  rw [found]
  dsimp only
  rw [gone]
  rfl

theorem execPrefixUnpin_unpinned (zero : u.pinsAt i = 0) : execPrefixUnpin e s = .next (u.complete e .invalid []) := by
  cases valid : u.entryValid i with
  | false => exact execPrefixUnpin_evicted begins found checked valid
  | true =>
    subst checked
    refine (runCmd_begins _ begins rfl).trans (congrArg _ (runBody_done ?_))
    dsimp only
    rw [found]
    dsimp only
    rw [valid]
    exact if_pos zero

theorem execPrefixUnpin_counts (valid : u.entryValid i = true) (pinned : u.pinsAt i ≠ 0) {t : State}
    (counted : t = u.modChain (u.pinChain i) (fun d => { d with pins := d.pins - 1 })) :
    execPrefixUnpin e s = .next (t.complete e .ok (t.pinResult i)) := by
  subst checked counted
  refine (runCmd_begins _ begins rfl).trans (congrArg _ (runBody_done ?_))
  dsimp only
  rw [found]
  dsimp only
  rw [valid]
  exact if_neg pinned

end

/-- Settles O40: the lookup decides whether the entry is used, the check of its chain whether it is left, and the counts of the chain
whether they change. -/
theorem prefixPinsCountAlongTheChain : Obligations.PrefixPinsCountAlongTheChain := by
  unfold Obligations.PrefixPinsCountAlongTheChain
  simp only [exec_prefixPin, exec_prefixUnpin]
  refine ⟨fun e i u s begins found sound checked => ?_, fun e i u s begins found sound checked => ?_,
    fun e s begins absent => execPrefixPin_missed begins (State.lookupEntry_absent absent),
    fun e s begins absent => execPrefixUnpin_missed begins (State.lookupEntry_absent absent),
    fun e i s begins found unsound => execPrefixPin_missed begins (State.lookupEntry_unsound found unsound),
    fun e i s begins found unsound => execPrefixUnpin_missed begins (State.lookupEntry_unsound found unsound)⟩
  · have used : (s.begun e).lookupEntry (e.op 8 8, e.op 16 8) = (some i, s.begun e) := State.lookupEntry_sound found sound
    have clock : u.prm.scCount = s.prm.scCount := by rw [checked, State.checkEntries_scCount, State.begun_scCount]
    have tiles : u.tiles = s.tiles := by rw [checked, State.checkEntries_tiles, State.begun_tiles]
    refine ⟨fun all => checked.trans (State.checkEntries_sound all), execPrefixPin_evicted begins used checked,
      fun valid full => execPrefixPin_full begins used checked valid full, fun valid room => ⟨_, rfl, ?_, ?_, ?_, ?_, ?_⟩⟩
    · exact execPrefixPin_counts begins used checked valid room (by rw [clock]; rfl)
    · exact (State.modDir_hbm ..).trans (u.modChain_hbm ..)
    · exact (State.modDir_frames ..).trans (u.modChain_frames ..)
    · exact (State.modDir_prm ..).trans (u.modChain_prm ..)
    · exact ((State.modDir_tiles ..).trans (u.modChain_tiles ..)).trans tiles
  · have used : (s.begun e).lookupEntry (e.op 8 8, e.op 16 8) = (some i, s.begun e) := State.lookupEntry_sound found sound
    have tiles : u.tiles = s.tiles := by rw [checked, State.checkEntries_tiles, State.begun_tiles]
    exact ⟨execPrefixUnpin_evicted begins used checked, execPrefixUnpin_unpinned begins used checked, fun valid pinned =>
      ⟨_, rfl, execPrefixUnpin_counts begins used checked valid pinned rfl, u.modChain_hbm .., u.modChain_frames ..,
        u.modChain_prm .., (u.modChain_tiles ..).trans tiles⟩⟩

end Sys2Proof.Machine
end

section
/-!
SUPPORT. What a sequence command leaves of the network (R358): the directory's checks, the allocator, the lookup and the return from
the green room write no field of it, so the member's own index in its group is the same after a command as before.
-/
namespace Sys2Proof.Machine

/-! ### The directory and its checks -/

@[simp] theorem State.dropPages_net (s : State) (fs : List Nat) : (s.dropPages fs).net = s.net := by
  simp [State.dropPages]

@[simp] theorem State.evictEntry_net (s : State) (i : Nat) : (s.evictEntry i).net = s.net := by
  unfold State.evictEntry
  split
  · split <;> simp
  · rfl

@[simp] theorem State.evictTree_net (s : State) (is : List Nat) : (s.evictTree is).net = s.net :=
  foldl_net _ (fun _ _ => State.evictEntry_net ..) _ _

@[simp] theorem State.kvCheckFail_net (s : State) (index kind : Nat) (scenes : List Nat) :
    (s.kvCheckFail index kind scenes).net = s.net := by
  unfold State.kvCheckFail
  simp [State.raise_kvPageCheck]

@[simp] theorem State.checkEntries_net (s : State) (is : List Nat) : (s.checkEntries is).net = s.net := by
  simp [State.checkEntries]

@[simp] theorem State.checkPages_net (s : State) (fs : List Nat) : (s.checkPages fs).2.net = s.net := by
  unfold State.checkPages
  split <;> simp

@[simp] theorem State.lookupEntry_net (s : State) (h : Nat × Nat) : (s.lookupEntry h).2.net = s.net := by
  unfold State.lookupEntry
  split
  · rfl
  · split <;> simp

/-! ### The allocator -/

theorem State.releaseOne_net {s s' : State} (h : s.releaseOne = some s') : s'.net = s.net := by
  unfold State.releaseOne at h
  split at h
  · cases h
    simp
  · obtain ⟨i, -, rfl⟩ := Option.map_eq_some_iff.1 h
    simp

@[simp] theorem State.makeRoom_net (fuel want : Nat) (s : State) : (State.makeRoom fuel want s).net = s.net := by
  induction fuel generalizing s with
  | zero => rfl
  | succ fuel ih =>
    unfold State.makeRoom
    split
    · rfl
    · split
      · next released => rw [ih, State.releaseOne_net released]
      · rfl

@[simp] theorem State.roomFor_net (s : State) : s.roomFor.net = s.net := by
  simp [State.roomFor]

@[simp] theorem State.takeFrames_net (s : State) (ds : List Frame) : (s.takeFrames ds).2.net = s.net := by
  simp [State.takeFrames]

@[simp] theorem State.mapSlots_net (s : State) (e : Nat) (xs : List (Nat × Nat × Nat)) (fs : List Nat) :
    (s.mapSlots e xs fs).net = s.net := by
  simp [State.mapSlots]

@[simp] theorem chained_net (fs : List Nat) (s : State) : (chained fs s).net = s.net := by
  simp [chained]

@[simp] theorem State.takeMap_net (s : State) (e : Nat) : (s.takeMap e).net = s.net := by
  unfold State.takeMap
  split
  · rfl
  · simp

@[simp] theorem State.reserveSlots_net (s : State) (e : Nat) (slots : List (Nat × Nat × Nat)) (draws : Bool) :
    (s.reserveSlots e slots draws).2.net = s.net := by
  unfold State.reserveSlots
  simp [apply_ite Prod.snd]

@[simp] theorem State.reserveRings_net (s : State) (e : Nat) : (s.reserveRings e).2.net = s.net := by
  unfold State.reserveRings
  dsimp only
  split <;> simp

/-! ### The lookup -/

@[simp] theorem State.matched_net (s : State) (hashes : List (Nat × Nat)) : (s.matched hashes).2.net = s.net := by
  unfold State.matched
  refine List.foldlRecOn (motive := fun (a : List (Nat × Nat) × Bool × State) => a.2.2.net = s.net) _ _ rfl fun a kept n _ => ?_
  split
  · exact kept
  · have looked := (a.2.2.lookupEntry_net (hashes.getD n (0, 0))).trans kept
    split <;> next found => rwa [found] at looked

@[simp] theorem State.copyWindow_net (s : State) (e n : Nat) (frames : List Nat) : (s.copyWindow e n frames).net = s.net := by
  unfold State.copyWindow
  refine foldl_net _ (fun u p => ?_) _ _
  dsimp only
  split <;> simp

@[simp] theorem State.takeHit_net (s : State) (e n : Nat) (hits : List (Nat × Nat)) : (s.takeHit e n hits).net = s.net := by
  simp [State.takeHit]

@[simp] theorem State.lookup_net (s : State) (e blocks : Nat) : (s.lookup e blocks).net = s.net := by
  unfold State.lookup
  split
  · rfl
  · dsimp only
    split
    · rfl
    · split <;> simp

/-! ### The commands -/

@[simp] theorem State.resumeFrames_net (s : State) (e : Nat) : (s.resumeFrames e).2.net = s.net := by
  unfold State.resumeFrames
  cases s.seq? e with
  | none => rfl
  | some q =>
    have reserved := ((s.setSeq e { q with hitDepth := 0, starved := false }).lookup e q.hitDepth).reserveSlots_net e
      (q.fetched.map (fun p => p.1)) true
    dsimp only
    split
    · next taken =>
      rw [taken] at reserved
      simpa using reserved
    · simp

@[simp] theorem State.beginResume_net (s : State) (e : Nat) (q : Seq) (im : Image) : (s.beginResume e q im).net = s.net := by
  simp [State.beginResume]

@[simp] theorem State.resumeSeq_net (s : State) (i : Nat) (ring : Option Nat) (im : Image) : (s.resumeSeq i ring im).net = s.net := by
  unfold State.resumeSeq
  split <;> simp

@[simp] theorem State.enterSeq_net (s : State) (i tag : Nat) (b : List Byte) (tokens : List Nat) :
    (s.enterSeq i tag b tokens).net = s.net := by
  simp [State.enterSeq]

@[simp] theorem State.vacate_net (s : State) (i : Nat) : (s.vacate i).net = s.net := by
  simp [State.vacate]

@[simp] theorem State.carryOut_net (s : State) (r : Relay) : (s.carryOut r).net = s.net := by
  cases r <;> simp [State.carryOut]

/-- What a command does leaves the member's own index in its group (R356, R358). -/
theorem State.carryOut_ownIndex (s : State) (r : Relay) : (s.carryOut r).ownIndex = s.ownIndex := by
  simp [State.ownIndex]

end Sys2Proof.Machine
end

section
/-!
SUPPORT. The sequence commands (R248, R249, R268 to R273): which sequence a command names, what an accepted command does, and what each
command accepts by the state of its entry.
-/
namespace Sys2Proof.Machine

theorem exec_seqAdmit (e : Entry) (r : Dma) (toks : List Nat) (s : State) :
    exec (.seqAdmit e r toks) s = execSeqAdmit e r toks s := rfl
theorem exec_seqAppend (e : Entry) (toks : List Nat) (s : State) : exec (.seqAppend e toks) s = execSeqAppend e toks s := rfl
theorem exec_seqCancel (e : Entry) (s : State) : exec (.seqCancel e) s = execSeqCancel e s := rfl
theorem exec_seqPause (e : Entry) (s : State) : exec (.seqPause e) s = execSeqPause e s := rfl
theorem exec_seqResume (e : Entry) (im : Option Image) (s : State) : exec (.seqResume e im) s = execSeqResume e im s := rfl
theorem exec_seqEvict (e : Entry) (s : State) : exec (.seqEvict e) s = execSeqEvict e s := rfl

@[simp] theorem State.begun_net (s : State) (e : Entry) : (s.begun e).net = s.net := rfl
@[simp] theorem State.begun_seq? (s : State) (e : Entry) (i : Nat) : (s.begun e).seq? i = s.seq? i := rfl
@[simp] theorem State.begun_follower (s : State) (e : Entry) : (s.begun e).follower = s.follower := rfl
@[simp] theorem State.begun_model (s : State) (e : Entry) : (s.begun e).model = s.model := rfl
@[simp] theorem State.begun_freeEntry (s : State) (e : Entry) : (s.begun e).freeEntry = s.freeEntry := rfl
@[simp] theorem State.begun_qpUsable (s : State) (e : Entry) (qp : Nat) : (s.begun e).qpUsable qp = s.qpUsable qp := rfl
@[simp] theorem State.begun_imageStatus (s : State) (e : Entry) (im : Image) (deadline : Nat) :
    (s.begun e).imageStatus im deadline = s.imageStatus im deadline := rfl

@[simp] theorem State.dmaRead_model (s : State) (tag : Nat) (bs : List Byte) : (s.dmaRead tag bs).model = s.model := by
  simp [State.model]

@[simp] theorem State.dmaRead_freeEntry (s : State) (tag : Nat) (bs : List Byte) : (s.dmaRead tag bs).freeEntry = s.freeEntry := by
  simp [State.freeEntry]

/-! ### What an accepted command does -/

/-- Member 0 of a group keeps an accepted command for its next SCENE step (R358). -/
theorem State.accept_eq (s : State) (r : Relay) : s.accept r =
    if s.ownIndex = some 0 then { s.carryOut r with net := { s.net with relays := s.net.relays ++ [r] } } else s.carryOut r := by
  simp only [State.accept, State.carryOut_ownIndex, State.carryOut_net]

theorem State.modSeq_some {s : State} {i : Nat} {q : Seq} (held : s.seq? i = some q) (f : Seq → Seq) :
    s.modSeq i f = s.setSeq i (f q) := by
  simp [State.modSeq, held]

theorem State.vacate_some {s : State} {i : Nat} {q : Seq} (held : s.seq? i = some q) : s.vacate i = s.releaseSeq i := by
  simp [State.vacate, held]

theorem State.vacate_none {s : State} {i : Nat} (free : s.seq? i = none) : s.vacate i = s := by
  simp [State.vacate, free]

theorem State.carryOut_enter {s : State} {i : Nat} (free : s.seq? i = none) (tag : Nat) (b : List Byte) (toks : List Nat) :
    s.carryOut (.enter i tag b toks) = s.enterSeq i tag b toks := by
  rw [State.carryOut, State.vacate_none free]

theorem State.carryOut_resume_some {s : State} {i : Nat} (free : s.seq? i = none) (r : Nat) (im : Image) :
    s.carryOut (.resume i (some r) im) = s.resumeSeq i (some r) im := by
  simp [State.carryOut, State.vacate_none free]

theorem State.carryOut_resume_none {s : State} {i : Nat} {q : Seq} (held : s.seq? i = some q) (im : Image) :
    s.carryOut (.resume i none im) = s.beginResume i q im := by
  simp [State.carryOut, State.resumeSeq, held]

/-! ### The sequence that a command names -/

theorem seqCommand_held {e : Entry} {q : Seq} {s : State} (leads : s.follower = false) (held : s.seq? e.seqIndex = some q)
    (tagged : q.tag = e.seqTag) (k : Seq → State × Option (Status × List Byte)) : seqCommand e s k = k q := by
  simp [seqCommand, leads, held, tagged]

/-- A command on a FREE entry is INVALID, at a member other than member 0 as at any other device (R268, R358). -/
theorem seqCommand_free {e : Entry} {s : State} (free : s.seq? e.seqIndex = none) (k : Seq → State × Option (Status × List Byte)) :
    seqCommand e s k = done s .invalid [] := by
  simp [seqCommand, free]

/-! ### Tokens and images from a buffer -/

theorem withTokens_local {qp : Nat} (here : qp = 0xFFFF) (addr rkey n : Nat) (toks : List Nat) (s : State)
    (k : State → State × Option (Status × List Byte)) : withTokens qp addr rkey n toks s k = k s :=
  if_pos here

theorem withTokens_unusable {qp : Nat} {s : State} (remote : qp ≠ 0xFFFF) (broken : s.qpUsable qp = false) (addr rkey n : Nat)
    (toks : List Nat) (k : State → State × Option (Status × List Byte)) :
    withTokens qp addr rkey n toks s k = done s .timeout [] := by
  simp [withTokens, withBuffer, remote, broken]

theorem withTokens_remote {qp : Nat} {s : State} (remote : qp ≠ 0xFFFF) (usable : s.qpUsable qp = true) (addr rkey n : Nat)
    (toks : List Nat) (k : State → State × Option (Status × List Byte)) :
    withTokens qp addr rkey n toks s k = k (s.remoteRead qp addr rkey (4 * n) true) := by
  simp [withTokens, withBuffer, remote, usable]

theorem withBuffer_local {α : Type} {qp : Nat} (here : qp = 0xFFFF) (addr rkey len : Nat) (x : α) (s : State)
    (k : State → α → State × Option (Status × List Byte)) : withBuffer qp addr rkey len (some x) s k = k s x :=
  if_pos here

/-! ### SEQ_ADMIT -/

theorem execSeqAdmit_accepts {e : Entry} {r : List Byte} {i : Nat} {s : State} (begins : Begins e 0x30 true s)
    (leads : s.follower = false) (serving : s.fabric.active.isSome = true) (aligned : e.op 8 8 % 64 = 0)
    (sound : fieldAt (sliceBytes r 0 128) 124 4 = crc32c ((sliceBytes r 0 128).take 124))
    (valid : admitOk s.model (sliceBytes r 0 128) = true) (free : s.freeEntry = some i)
    (here : fieldAt (sliceBytes r 0 128) 12 2 = 0xFFFF) (toks : List Nat) : execSeqAdmit e (some r) toks s =
      .next ((((s.begun e).dmaRead e.tag (sliceBytes r 0 128)).accept (.enter i e.tag (sliceBytes r 0 128) toks)).complete e .ok
        (leBytes 2 i)) := by
  have active : s.fabric.active.isNone = false := by simpa using serving
  refine (runCmd_begins _ begins rfl).trans (congrArg _ (runBody_done ?_))
  simp only [State.begun_follower, State.begun_fabric, State.dmaRead_model, State.begun_model, State.dmaRead_freeEntry,
    State.begun_freeEntry, leads, active, bufferOk, aligned, withDma, sound, valid, free, decide_true, Bool.not_true, ne_eq,
    not_true_eq_false, Bool.false_eq_true, if_false]
  exact withTokens_local here ..

/-! ### SEQ_CANCEL, SEQ_PAUSE, SEQ_EVICT and SEQ_APPEND -/

theorem execSeqCancel_free {e : Entry} {s : State} (begins : Begins e 0x32 false s) (free : s.seq? e.seqIndex = none) :
    execSeqCancel e s = .next ((s.begun e).complete e .invalid []) :=
  (runCmd_begins _ begins rfl).trans (congrArg _ (runBody_done (seqCommand_free (s := s.begun e) free _)))

section
variable {e : Entry} {q : Seq} {s : State} (leads : s.follower = false) (held : s.seq? e.seqIndex = some q)
  (tagged : q.tag = e.seqTag)
include leads held tagged

theorem execSeqCancel_accepts (begins : Begins e 0x32 false s)
    (live : q.state = .queued ∨ q.state = .prefill ∨ q.state = .decode ∨ q.state = .idle) :
    execSeqCancel e s = .next (((s.begun e).accept (.cancel e.seqIndex)).complete e .ok []) := by
  refine (runCmd_begins _ begins rfl).trans (congrArg _ (runBody_done ?_))
  refine (seqCommand_held (s := s.begun e) leads held tagged _).trans ?_
  rcases live with state | state | state | state <;> simp only [state]

theorem execSeqPause_accepts (begins : Begins e 0x33 false s)
    (live : q.state = .prefill ∨ q.state = .decode ∨ q.state = .idle) (kept : q.cancelPend = false) (first : q.pausePend = false)
    (least : 1 ≤ e.op 40 4) (most : e.op 40 4 ≤ 86400) (source : sourceOk (e.op 16 8) (e.op 28 2) = true)
    (clock : s.net.ptpSet = true) : execSeqPause e s = .next (((s.begun e).accept
      (.pause e.seqIndex (e.op 16 8, e.op 32 8, e.op 28 2, e.op 40 4) (e.op 24 4))).complete e .ok []) := by
  have ttl : (decide (e.op 40 4 = 0) || decide (86400 < e.op 40 4) || !sourceOk (e.op 16 8) (e.op 28 2)) = false := by
    simp only [source, Bool.not_true, Bool.or_false, Bool.or_eq_false_iff, decide_eq_false_iff_not]
    omega
  refine (runCmd_begins _ begins rfl).trans (congrArg _ (runBody_done ?_))
  refine (seqCommand_held (s := s.begun e) leads held tagged _).trans ?_
  rcases live with state | state | state <;>
    simp only [state, kept, first, ttl, clock, State.begun_net, Bool.or_self, Bool.not_true, Bool.false_eq_true, if_false]

/-- The command completes before the record that it causes (R393). -/
theorem execSeqEvict_accepts (begins : Begins e 0x35 false s) (paused : q.state = .paused) : execSeqEvict e s =
    .next ((((s.begun e).complete e .ok []).seqRecord e.seqIndex 7 .ok 0 true 0 0 []).accept (.evict e.seqIndex)) := by
  refine (runCmd_begins _ begins rfl).trans (congrArg _ (runBody_later ?_))
  refine (seqCommand_held (s := s.begun e) leads held tagged _).trans ?_
  simp only [paused]

/-- What the operands of a SEQ_APPEND of an IDLE sequence ask for (R273). -/
def appendOf (e : Entry) (toks : List Nat) : Append where
  tokens := readTokens (e.op 32 4) toks
  maxNew := e.op 36 4
  stops := [e.op 40 4, e.op 44 4, e.op 48 4]
  source := e.op 16 8
  qp := e.op 28 2
  key := e.op 24 4

/-- An append whose operands pass reads its tokens and is accepted for its sequence (R268, R273). -/
theorem execSeqAppend_reads (begins : Begins e 0x31 false s) (idle : q.state = .idle) (tokens : 1 ≤ e.op 32 4)
    (room : q.append.foldl (fun k a => k + a.tokens.length) q.tokenLen + e.op 32 4 ≤ 4194305) (most : e.op 36 4 ≤ 4194304)
    (stops : ([e.op 40 4, e.op 44 4, e.op 48 4].all (stopOk s.model)) = true)
    (source : sourceOk (e.op 16 8) (e.op 28 2) = true) (toks : List Nat) {st : Status} {t : State}
    (read : withTokens (e.op 28 2) (e.op 16 8) (e.op 24 4) (e.op 32 4) toks (s.begun e)
      (fun u => done (u.accept (.append e.seqIndex (appendOf e toks))) .ok []) = done t st []) :
    execSeqAppend e toks s = .next (t.complete e st []) := by
  refine (runCmd_begins _ begins rfl).trans (congrArg _ (runBody_done ?_))
  refine (seqCommand_held (s := s.begun e) leads held tagged _).trans ?_
  simp only [idle]
  refine (if_neg ?_).trans read
  simp only [State.begun_model, stops, source, Bool.not_true, Bool.or_false, Bool.or_eq_true, decide_eq_true_eq]
  omega

end

/-! ### SEQ_RESUME -/

theorem execSeqResume_entry {e : Entry} {q : Seq} {im : Image} {s : State} (begins : Begins e 0x34 (s.resumeLocal e) s)
    (leads : s.follower = false) (held : s.seq? e.seqIndex = some q) (tagged : q.tag = e.seqTag) (named : e.op 8 2 ≠ 0xFFFF)
    (paused : q.state = .paused) (due : s.net.ptpNs ≤ q.deadline) (here : q.pauseTo.2.2.1 = 0xFFFF)
    (passes : s.imageStatus im q.deadline = none) : execSeqResume e (some im) s =
      .next (((s.begun e).accept (.resume e.seqIndex none im)).complete e .ok (leBytes 2 e.seqIndex)) := by
  refine (runCmd_begins _ begins rfl).trans (congrArg _ (runBody_done ?_))
  refine (if_neg named).trans ((seqCommand_held (s := s.begun e) leads held tagged _).trans ?_)
  simp only [paused, State.begun_net, Nat.not_lt.2 due, if_false]
  refine (withBuffer_local here ..).trans ?_
  simp only [State.begun_imageStatus, passes]

theorem execSeqResume_image {e : Entry} {im : Image} {i : Nat} {s : State} (begins : Begins e 0x34 (s.resumeLocal e) s)
    (fresh : e.op 8 2 = 0xFFFF) (leads : s.follower = false) (clock : s.net.ptpSet = true) (ring : e.op 40 1 ≤ 15)
    (source : sourceOk (e.op 16 8) (e.op 28 2) = true) (here : e.op 28 2 = 0xFFFF)
    (whole : imageLength (imagePageCount im) ≤ e.op 32 8) (passes : s.imageStatus im (fieldAt im.header 84 8) = none)
    (free : s.freeEntry = some i) : execSeqResume e (some im) s =
      .next (((s.begun e).accept (.resume i (some (e.op 40 1)) im)).complete e .ok (leBytes 2 i)) := by
  have operands : (decide (15 < e.op 40 1) || !sourceOk (e.op 16 8) (e.op 28 2)) = false := by
    simpa [source] using ring
  refine (runCmd_begins _ begins rfl).trans (congrArg _ (runBody_done ?_))
  refine (if_pos fresh).trans ?_
  simp only [State.resumeImage, State.begun_follower, State.begun_net, leads, clock, operands, Bool.not_true, Bool.false_eq_true,
    if_false]
  refine (withBuffer_local here ..).trans ?_
  simp only [Nat.not_lt.2 whole, State.begun_imageStatus, passes, State.begun_freeEntry, free, if_false]

/-- Settles O39: each command by the state of its entry, and what an accepted one does to it. -/
theorem sequenceCommandsByState : Obligations.SequenceCommandsByState := by
  unfold Obligations.SequenceCommandsByState
  simp only [exec_seqAdmit, exec_seqAppend, exec_seqCancel, exec_seqPause, exec_seqResume, exec_seqEvict]
  refine ⟨fun e r toks i s begins leads serving aligned sound valid free here =>
      execSeqAdmit_accepts begins leads serving aligned sound valid free here toks,
    fun i tag b toks s free => State.carryOut_enter free tag b toks, fun r s => ⟨fun other => ?_, fun zero => ⟨_, rfl, ?_⟩⟩,
    fun i q a dest key s held => ⟨State.modSeq_some held _, State.modSeq_some held _, State.modSeq_some held _,
      State.vacate_some held, State.carryOut_resume_none held⟩,
    fun e q s leads held tagged => ⟨execSeqCancel_accepts leads held tagged, execSeqPause_accepts leads held tagged,
      fun toks begins idle tokens room most stops source => ?_, execSeqEvict_accepts leads held tagged,
      fun im begins => execSeqResume_entry begins leads held tagged⟩,
    fun e im i s begins => execSeqResume_image begins,
    fun i r im s free => State.carryOut_resume_some free r im, fun e s => execSeqCancel_free⟩
  · rw [State.accept_eq, if_neg other]
  · rw [State.accept_eq, if_pos zero, State.carryOut_net]
  · have reads {st : Status} {t : State} := execSeqAppend_reads leads held tagged begins idle tokens room most stops source toks
      (st := st) (t := t)
    exact ⟨fun here => reads (withTokens_local here ..),
      fun remote broken => reads (withTokens_unusable (s := s.begun e) remote broken ..),
      fun remote usable => reads (withTokens_remote (s := s.begun e) remote usable ..)⟩

end Sys2Proof.Machine
end

section
/-!
SUPPORT. BAR2 and the page frame table (R217, R378): a descriptor that BAR2 reads back from an image of another length
than its 32 bytes.
-/
namespace Sys2Proof.Machine

/-- A device whose HBM is laid out, where the descriptor of frame 0 keeps no byte as its image (R217, R378). -/
def emptyDescriptor : State :=
  { State.reset with kv := { State.reset.kv with laidOut := true, frames := [(0, { raw := some [] })] } }

theorem emptyDescriptor_write :
    exec (.bar2Access 0 (some [1]) 0) emptyDescriptor = .next (emptyDescriptor.bar2Write 0 [1]) := rfl

/-- The image has no first byte that the write could set, so the read finds none there. -/
theorem emptyDescriptor_readBack :
    ((emptyDescriptor.bar2Write 0 [1]).bar2Read 0 1).2 = [0] := by decide

/-- Refutes O19: a byte that goes to a page descriptor is read back from the descriptor's image, and the statement asks nothing of the
images that a state holds. A descriptor has 32 bytes (R217), but the state may hold any list as one; where the image of frame 0 is
empty, a 1 written to its first byte is read as 0. -/
theorem not_bar2WritesReadsAndBlocks : ¬ Obligations.Bar2WritesReadsAndBlocks := by
  unfold Obligations.Bar2WritesReadsAndBlocks
  rintro ⟨stores, -⟩
  obtain ⟨t, u, written, read, back, -⟩ := stores 0 [1] emptyDescriptor (by decide) rfl (by decide)
  rw [emptyDescriptor_write] at written
  cases written
  have found : u.outside.readData = leNat ((emptyDescriptor.bar2Write 0 [1]).bar2Read 0 1).2 := by
    cases read
    rfl
  rw [found, emptyDescriptor_readBack] at back
  exact absurd back (by decide)

end Sys2Proof.Machine
end

section
/-!
SUPPORT. Taking a production in (R292, R295, R296, R313): PRODUCTION_OPEN, the segments of a range as they arrive, KEY_UNWRAP and
RECAST_ABORT.
-/
namespace Sys2Proof.Machine

@[simp] theorem State.begun_boot (s : State) (e : Entry) : (s.begun e).boot = s.boot := rfl

/-! ### PRODUCTION_OPEN -/

/-- The data of an answered transfer that an entry names at its byte 8, in the state `v` that the transfer leaves (R351, R395). -/
theorem withTransfer_brings {α : Type} {e : Entry} {len : Nat} {x : α} {s v : State}
    {k : State → α → State × Option (Status × List Byte)} (usable : e.op 20 2 = 0xFFFF ∨ s.qpUsable (e.op 20 2) = true)
    (transferred : v = if e.op 20 2 = 0xFFFF then s else s.remoteRead (e.op 20 2) (e.op 8 8) (e.op 16 4) len true) :
    withTransfer e 8 len (some x) s k = k v x :=
  transferred ▸ withTransfer_some (at_ := 8) x k usable

/-- The loader opens with a copy of a manifest in the frames that it has taken (R295). -/
def State.openCopy (s : State) (m : Manifest) (frames : List Nat) : State :=
  { s with ldr := { s.ldr with
    state := .opened, current := some { man := m, frames := frames, accepted := [], keys := [] }
    envelopes := Map.put s.ldr.envelopes m.identity m.model } }

/-- An idle loader opens a well-formed manifest of an epoch that is free, by its signature and its publisher's key, once the frames of
the copy can be taken (R290, R291, R295). -/
theorem execProductionOpen_opens {e : Entry} {x : ManifestIn} {m : Manifest} {fs : List Nat} {u v s : State}
    (begins : Begins e 0x10 (e.op 20 2 == 0xFFFF) s) (idle : s.ldr.state = .idle) (verified : s.ldr.bootVerified = true)
    (ok : transferOk e 8 20 = true) (usable : e.op 20 2 = 0xFFFF ∨ s.qpUsable (e.op 20 2) = true)
    (transferred : v = if e.op 20 2 = 0xFFFF then s.begun e
      else (s.begun e).remoteRead (e.op 20 2) (e.op 8 8) (e.op 16 4) (e.op 24 4) true)
    (manifest : m = v.envelopeOf (readManifest x)) (wf : m.wf (e.op 24 4) = true)
    (fresh : v.epochClash m.epoch m.identity = false) (frames : v.takeCopyFrames m.copyFrames = some (fs, u)) :
    execProductionOpen e (some x) s = .next (
      if manifestSigned x.bytes = true ∧ has ((v.boot.config.map (fun c => c.publisherKeys)).getD []) m.keyDigest = true then
        (u.openCopy m fs).complete e .ok (leBytes 4 fs.length ++ leBytes 4 m.epoch)
      else v.complete e .badSignature []) := by
  have ready : ¬(decide ((s.begun e).ldr.state ≠ .idle) || !(s.begun e).ldr.bootVerified) = true := by
    simp [idle, verified]
  have placed : ¬(!transferOk e 8 20) = true := by simp [ok]
  have sound : ¬(!m.wf (e.op 24 4) || v.epochClash m.epoch m.identity) = true := by simp [wf, fresh]
  by_cases signed : manifestSigned x.bytes = true ∧
      has ((v.boot.config.map (fun c => c.publisherKeys)).getD []) m.keyDigest = true
  · have passes : ¬(!manifestSigned x.bytes || !has ((v.boot.config.map (fun c => c.publisherKeys)).getD []) m.keyDigest) = true := by
      simp [signed]
    rw [if_pos signed]
    subst manifest
    refine (runCmd_begins _ begins rfl).trans (congrArg _ (runBody_done ((if_neg ready).trans ((if_neg placed).trans
      ((withTransfer_brings (s := s.begun e) usable transferred).trans ((if_neg sound).trans ((if_neg passes).trans ?_)))))))
    rw [frames]
    rfl
  · have refuses : (!manifestSigned x.bytes || !has ((v.boot.config.map (fun c => c.publisherKeys)).getD []) m.keyDigest) = true := by
      rw [← Bool.not_and, Bool.not_eq_true', ← Bool.not_eq_true, Bool.and_eq_true]
      exact signed
    rw [if_neg signed]
    subst manifest
    exact (runCmd_begins _ begins rfl).trans (congrArg _ (runBody_done ((if_neg ready).trans ((if_neg placed).trans
      ((withTransfer_brings (s := s.begun e) usable transferred).trans ((if_neg sound).trans (if_pos refuses)))))))
/-! ### The segments of a range -/

/-- Status with which a range of segments completes: that of the first that failed (R296). -/
def FetchRun.status (r : FetchRun) : Status := (r.failed.map (fun f => f.2)).getD .ok

/-- Result of a range of segments: how many were accepted, and the first that failed (R296). -/
def FetchRun.result (r : FetchRun) : List Byte := leBytes 2 r.accepted ++ leBytes 2 ((r.failed.map (fun f => f.1)).getD 0xFFFF)

/-- Bytes that the segments of an entry's range have as stored (R296). -/
def Copy.rangeBytes (c : Copy) (e : Entry) : Nat :=
  ((List.range (e.op 26 2)).map (fun i => ((c.man.segments[e.op 24 2 + i]?).map (fun x => x.stored)).getD 0)).sum

/-- The state after a range: where every segment is accepted the copy is complete and the loader goes on (R296). -/
def FetchRun.settled (r : FetchRun) : State :=
  if (r.state.ldr.current.map (fun c => decide (c.accepted.length = c.man.segments.length))).getD false then
    r.state.copyComplete.proceed else r.state

section
variable {e : Entry} {c : Copy} {wanted : List Nat} {s v : State} (opened : s.ldr.state = .opened)
  (current : s.ldr.current = some c) (some_ : 1 ≤ e.op 26 2) (range : e.op 24 2 + e.op 26 2 ≤ c.man.segments.length)
  (missing : wanted = ((List.range (e.op 26 2)).map (e.op 24 2 + ·)).filter (fun g => !has c.accepted g))
  (keys : ∀ g ∈ wanted,
    ((c.man.segments[g]?).map (fun x => x.encrypted && (Map.get? c.keys x.keySlot).isNone)).getD false = false)
  (xs : List SegArrival) {r : FetchRun}
  (taken : r = (xs.filter (fun x => has wanted x.seg)).foldl FetchRun.take { state := v })
include opened current some_ range missing keys taken

/-- A range of an open copy, whose encrypted segments have their keys, takes what arrives of its missing segments (R296). -/
theorem fetchRange_takes {remote : Bool} (place : if remote then e.op 20 2 ≠ 0xFFFF ∧ s.qpUsable (e.op 20 2) = true ∧
      v = s.remoteRead (e.op 20 2) (e.op 8 8) (e.op 16 4) (c.rangeBytes e) true
    else e.op 8 8 % 64 = 0 ∧ v = s) : fetchRange e remote (some xs) s = done r.settled r.status r.result := by
  have operands : ¬(decide (e.op 26 2 = 0) || decide (c.man.segments.length < e.op 24 2 + e.op 26 2) ||
      (remote && e.op 20 2 == 0xFFFF) || (!remote && !bufferOk (e.op 8 8))) = true := by
    have inside : e.op 26 2 ≠ 0 ∧ ¬c.man.segments.length < e.op 24 2 + e.op 26 2 := ⟨by omega, by omega⟩
    cases remote <;> simp_all [bufferOk]
  have keyed : ¬(wanted.any fun g =>
      ((c.man.segments[g]?).map (fun x => x.encrypted && (Map.get? c.keys x.keySlot).isNone)).getD false) = true := by
    simpa using keys
  have brings : (if remote then withTransfer e 8 (c.rangeBytes e) (some xs) s else fun k => withDma (some xs) s (k s)) =
      fun k => k v xs := by
    cases remote with
    | true =>
      obtain ⟨pair, usable, transferred⟩ := place
      exact funext fun k => withTransfer_brings (.inr usable) (transferred.trans (if_neg pair).symm)
    | false =>
      obtain ⟨-, rfl⟩ := place
      rfl
  unfold fetchRange
  simp only [opened, current, ← missing]
  refine (if_neg operands).trans ((if_neg keyed).trans ((congrFun brings _).trans ?_))
  simp only [← taken]
  unfold FetchRun.status FetchRun.result
  cases r.failed <;> rfl

theorem execProductionFetch_takes (begins : Begins e 0x11 false s) (pair : e.op 20 2 ≠ 0xFFFF) (usable : s.qpUsable (e.op 20 2) = true)
    (transferred : v = (s.begun e).remoteRead (e.op 20 2) (e.op 8 8) (e.op 16 4) (c.rangeBytes e) true) :
    execProductionFetch e (some xs) s = .next (r.settled.complete e r.status r.result) :=
  (runCmd_begins _ begins rfl).trans (congrArg _ (runBody_done
    (fetchRange_takes (s := s.begun e) opened current some_ range missing keys xs taken ⟨pair, usable, transferred⟩)))

theorem execProductionPush_takes (begins : Begins e 0x12 true s) (aligned : e.op 8 8 % 64 = 0) (transferred : v = s.begun e) :
    execProductionPush e (some xs) s = .next (r.settled.complete e r.status r.result) :=
  (runCmd_begins _ begins rfl).trans (congrArg _ (runBody_done
    (fetchRange_takes (s := s.begun e) opened current some_ range missing keys xs taken ⟨aligned, transferred⟩)))

end

/-! ### One segment -/

@[simp] theorem State.storeSegment_ldr (s : State) (c : Copy) (seg : Nat) (gs : List (List Byte)) :
    (s.storeSegment c seg gs).ldr = s.ldr := by
  simp [State.storeSegment, State.hbmWrite]

@[simp] theorem State.storeSegment_fabric (s : State) (c : Copy) (seg : Nat) (gs : List (List Byte)) :
    (s.storeSegment c seg gs).fabric = s.fabric := by
  simp [State.storeSegment, State.hbmWrite]

@[simp] theorem State.storeSegment_tiles (s : State) (c : Copy) (seg : Nat) (gs : List (List Byte)) :
    (s.storeSegment c seg gs).tiles = s.tiles := by
  simp [State.storeSegment, State.hbmWrite]

@[simp] theorem State.storeSegment_prm (s : State) (c : Copy) (seg : Nat) (gs : List (List Byte)) :
    (s.storeSegment c seg gs).prm = s.prm := by
  simp [State.storeSegment, State.hbmWrite]

/-- A segment that is not accepted leaves events, and at most zeroed frames: no other unit sees it (R286, R293). -/
theorem State.segmentFails_frame (s : State) (c : Copy) (seg : Nat) (a : Arrived) :
    (s.segmentFails c seg a).ldr = s.ldr ∧ (s.segmentFails c seg a).fabric = s.fabric ∧
      (s.segmentFails c seg a).tiles = s.tiles ∧ (s.segmentFails c seg a).prm = s.prm := by
  unfold State.segmentFails
  cases a.tag <;> simp [State.zeroSegment, State.setFail]

section
variable {r : FetchRun} {c : Copy} {x : SegArrival} (current : r.state.ldr.current = some c) (missing : has c.accepted x.seg = false)
include current missing

theorem FetchRun.take_accepts (accepts : (checkArrival c.man x (c.opened x).1 (c.opened x).2).accepted = true) :
    (r.take x).accepted = r.accepted + 1 ∧ (r.take x).failed = r.failed ∧
      (r.take x).state.ldr.current = some { c with accepted := insertNat x.seg c.accepted } ∧
      (r.take x).state.fabric = r.state.fabric ∧ (r.take x).state.tiles = r.state.tiles ∧ (r.take x).state.prm = r.state.prm := by
  simp [FetchRun.take, current, missing, accepts]

theorem FetchRun.take_refuses (refuses : (checkArrival c.man x (c.opened x).1 (c.opened x).2).accepted = false) :
    (r.take x).accepted = r.accepted ∧
      (r.take x).failed = some (r.failed.getD (x.seg,
        if (checkArrival c.man x (c.opened x).1 (c.opened x).2).group then .crcFail else .badSignature)) ∧
      (r.take x).state.ldr.current = some c ∧ (r.take x).state.fabric = r.state.fabric ∧
      (r.take x).state.tiles = r.state.tiles ∧ (r.take x).state.prm = r.state.prm := by
  simp [FetchRun.take, current, missing, refuses, State.segmentFails_frame]

end

/-! ### KEY_UNWRAP -/

theorem execKeyUnwrap_unwraps {e : Entry} {c : Copy} {b : List Byte} {s : State} (begins : Begins e 0x16 true s)
    (current : s.ldr.current = some c) (unsealed : s.ldr.state ≠ .sealing) (aligned : e.op 8 8 % 64 = 0) (slot : fieldAt b 0 1 < 16)
    (low : fieldAt b 1 3 = 0) (high : fieldAt b 100 28 = 0) (free : Map.get? c.keys (fieldAt b 0 1) = none) :
    (∀ key, s.boot.fuses.unwrap c.man.identity b = some key → execKeyUnwrap e (some b) s =
      .next (({ (s.begun e).dmaRead e.tag b with ldr := { s.ldr with
        current := some { c with keys := Map.put c.keys (fieldAt b 0 1) key } } }.record 0x05 c.man.identity).complete e .ok [])) ∧
    (s.boot.fuses.unwrap c.man.identity b = none →
      execKeyUnwrap e (some b) s = .next (((s.begun e).dmaRead e.tag b).complete e .badSignature [])) := by
  have wf : ¬(16 ≤ fieldAt b 0 1 ∨ fieldAt b 1 3 ≠ 0 ∨ fieldAt b 100 28 ≠ 0 ∨
      (Map.get? c.keys (fieldAt b 0 1)).isSome = true) := by
    simp [Nat.not_le.2 slot, low, high, free]
  refine ⟨fun key unwrapped => (runCmd_begins _ begins rfl).trans (congrArg _ (runBody_done ?_)),
    fun refused => (runCmd_begins _ begins rfl).trans (congrArg _ (runBody_done ?_))⟩
  all_goals
    simp only [State.begun_ldr, current, unsealed, bufferOk, aligned, withDma, State.dmaRead_boot, State.dmaRead_ldr, State.begun_boot, wf,
      decide_true, Bool.not_true, Bool.false_eq_true, if_false]
  · simp only [unwrapped]
  · simp only [refused]

/-! ### RECAST_ABORT -/

section
variable {e : Entry} {s : State} (begins : Begins e 0x15 false s)
include begins

theorem execRecastAbort_sealing (sealing : s.ldr.sealRun.isSome = true) :
    execRecastAbort e s = .next ((s.begun e).complete e .busy []) := by
  obtain ⟨run, sealing⟩ := Option.isSome_iff_exists.1 sealing
  refine (runCmd_begins _ begins rfl).trans (congrArg _ (runBody_done ?_))
  simp only [State.begun_ldr, sealing]

variable (unsealed : s.ldr.sealRun = none)
include unsealed

theorem execRecastAbort_turns {r : Recast} {o : Copy} (rolling : s.ldr.recast = some r) (old : s.ldr.old = some o) :
    execRecastAbort e s = .next ({ s.begun e with ldr := { s.ldr with
      recast := some (r.turn o), serving := some o, old := some r.copy } }.complete e .ok []) := by
  refine (runCmd_begins _ begins rfl).trans (congrArg _ (runBody_done ?_))
  simp only [State.begun_ldr, unsealed, rolling, old]

theorem execRecastAbort_single {r : Recast} (rolling : s.ldr.recast = some r) (single : s.ldr.old = none) :
    execRecastAbort e s = .next ((s.begun e).complete e .invalid []) := by
  refine (runCmd_begins _ begins rfl).trans (congrArg _ (runBody_done ?_))
  simp only [State.begun_ldr, unsealed, rolling, single]

variable (still : s.ldr.recast = none)
include still

theorem execRecastAbort_frees {c : Copy} (current : s.ldr.current = some c) (whole : s.ldr.refill = []) :
    execRecastAbort e s = .next ({ (s.begun e).freeCopy c with ldr := { ((s.begun e).freeCopy c).ldr with
      state := .idle, current := none } }.complete e .ok []) := by
  refine (runCmd_begins _ begins rfl).trans (congrArg _ (runBody_done ?_))
  simp only [State.begun_ldr, unsealed, still, current, State.abortOpen, whole, List.reverse_nil]

theorem execRecastAbort_empty (empty : s.ldr.current = none) :
    execRecastAbort e s = .next ((s.begun e).complete e .invalid []) := by
  refine (runCmd_begins _ begins rfl).trans (congrArg _ (runBody_done ?_))
  simp only [State.begun_ldr, unsealed, still, empty]

end

/-- Settles O33: each command by the row of its table that applies, and a range by what each of its segments adds. -/
theorem productionCommandsTakeACopyIn : Obligations.ProductionCommandsTakeACopyIn := by
  unfold Obligations.ProductionCommandsTakeACopyIn
  refine ⟨fun e x m fs u v s begins idle verified ok usable transferred manifest wf fresh frames =>
      execProductionOpen_opens begins idle verified ok usable transferred manifest wf fresh frames,
    fun e c wanted xs r u v s opened current some_ range missing keys taken settled => ⟨fun begins transferred aligned => ?_,
      fun begins transferred pair usable => ?_⟩,
    fun r c x current missing => ⟨FetchRun.take_accepts current missing, FetchRun.take_refuses current missing⟩,
    fun e c b s begins current unsealed aligned slot low high free => ?_,
    fun e s begins => ⟨execRecastAbort_sealing begins, fun unsealed r rolling =>
        ⟨fun o => execRecastAbort_turns begins unsealed rolling,
        execRecastAbort_single begins unsealed rolling⟩,
      fun unsealed still c => execRecastAbort_frees begins unsealed still,
      execRecastAbort_empty begins⟩⟩
  · subst settled
    refine (execProductionPush_takes opened current some_ range missing keys xs taken begins aligned transferred).trans ?_
    unfold FetchRun.status FetchRun.result
    cases r.failed <;> rfl
  · subst settled
    refine (execProductionFetch_takes opened current some_ range missing keys xs taken begins pair usable transferred).trans ?_
    unfold FetchRun.status FetchRun.result
    cases r.failed <;> rfl
  · obtain ⟨unwraps, refuses⟩ := execKeyUnwrap_unwraps begins current unsealed aligned slot low high free
    cases opened : s.boot.fuses.unwrap c.man.identity b with
    | some key => exact unwraps key opened
    | none => exact refuses opened

end Sys2Proof.Machine
end

section
/-!
SUPPORT. Seals, drains and rolling recasts (R306 to R309): what PRODUCTION_SEAL does with a STAGED production by the check that fails
first, when RECAST_ROLLING goes into service, and what ends a drain.
-/
namespace Sys2Proof.Machine

/-! ### PRODUCTION_SEAL -/

section
variable {e : Entry} {c : Copy} {sheet : CueSheet} {s : State} (begins : Begins e 0x13 false s)
  (verified : s.ldr.bootVerified = true) (timeout : e.op 8 4 ≤ 600000) (staged : s.ldr.state = .staged)
  (current : s.ldr.current = some c) (loaded : s.fabric.loaded = some sheet) (identity : sheet.identity = c.man.identity)
  (epoch : sheet.epoch = c.man.epoch) (still : s.ldr.recast = none) (single : s.ldr.old = none)
include begins verified timeout staged current loaded identity epoch still single

theorem execProductionSeal_fails {code i : Nat} (fails : (s.begun e).sealFail c sheet = some (code, i)) :
    execProductionSeal e s =
      .next ((((s.begun e).orReg 0xC0804 (code == 1).toNat).setFail code i).complete e .invalid []) := by
  refine (runCmd_begins _ begins rfl).trans (congrArg _ (runBody_done ?_))
  simp only [State.begun_ldr, State.begun_fabric, verified, Nat.not_lt.2 timeout, staged, current, loaded, identity, epoch, still,
    single, fails, Bool.not_true, Bool.false_eq_true, if_false, ne_eq, not_true_eq_false, or_self, Option.isSome_none, Bool.or_self]

/-- A seal whose checks pass becomes a command in progress: it drains where a cue sheet is active, and else starts to program
(R306, R307). -/
theorem execProductionSeal_passes (passes : (s.begun e).sealFail c sheet = none) {full : Bool} {u : State}
    (served : full = s.fabric.active.isSome)
    (accepted : u = { (s.begun e).addJob e.ring e.tag .production with ldr := { s.ldr with
      state := .sealing
      sealRun := some { copy := c, sheet := sheet, job := s.mbx.nextJob, drainMs := e.op 8 4, draining := full, full := full
                        left := [] } } }) :
    execProductionSeal e s = .next (if full then { u with prm := { s.prm with pointerDue := some c.man.epoch } }
      else u.startProgramming) := by
  refine (runCmd_begins _ begins rfl).trans (congrArg _ (runBody_later ?_))
  subst served accepted
  simp only [State.begun_ldr, State.begun_fabric, State.begun_nextJob, State.addJob_fabric, State.addJob_ldr, verified,
    Nat.not_lt.2 timeout, staged, current, loaded, identity, epoch, still, single, passes, Bool.not_true, Bool.false_eq_true,
    if_false, ne_eq, not_true_eq_false, or_self, Option.isSome_none, Bool.or_self]
  cases s.fabric.active with
  | none => rfl
  | some a => rfl

end

/-! ### RECAST_ROLLING -/

/-- Whether the arrays that a cue sheet places of a layer hold a copy's epoch (R309). -/
def State.layerHolds (s : State) (c : Copy) (sheet : CueSheet) (l : Nat) : Bool :=
  (sheet.placements.filter (inLayer c.man l)).all (fun p => s.holdsEpoch (s.servingTile p.tile) p.array c.man.epoch)

/-- The rolling recast of a production that goes into service with no cue sheet active: the layers whose arrays hold its epoch are
finished (R309). -/
def State.newRecast (s : State) (c : Copy) (sheet : CueSheet) : Recast :=
  { copy := c.keyless, started := true, todo := (arrayLayers c.man sheet).filter (fun l => !s.layerHolds c sheet l)
    finished := (arrayLayers c.man sheet).filter (s.layerHolds c sheet) }

section
variable {e : Entry} {s : State} (begins : Begins e 0x14 false s) (verified : s.ldr.bootVerified = true)
  (budget : e.op 8 4 ≤ 294912)
include begins verified budget

theorem execRecastRolling_busy
    (busy : s.ldr.state = .sealing ∨ (s.ldr.state = .staged ∧ (s.recasting = true ∨ s.ldr.old.isSome = true))) :
    execRecastRolling e s = .next ((s.begun e).complete e .busy []) := by
  have refuses : s.ldr.state = .sealing ∨ (s.ldr.state = .staged ∧ (s.recasting || s.ldr.old.isSome) = true) := by
    simpa only [Bool.or_eq_true] using busy
  refine (runCmd_begins _ begins rfl).trans (congrArg _ (runBody_done ?_))
  simp only [State.begun_ldr, State.begun_recasting, verified, Nat.not_lt.2 budget, refuses, Bool.not_true, Bool.false_eq_true,
    if_false, if_true]

variable {c : Copy} {sheet : CueSheet} (staged : s.ldr.state = .staged) (current : s.ldr.current = some c)
  (loaded : s.fabric.loaded = some sheet) (identity : sheet.identity = c.man.identity) (epoch : sheet.epoch = c.man.epoch)
  (plain : c.man.tromal = false) (forward : ∀ p ∈ sheet.placements, p.reversed = false) (still : s.recasting = false)
  (single : s.ldr.old = none)
include staged current loaded identity epoch plain forward still single

theorem execRecastRolling_inactive (inactive : s.fabric.active = none) {u : State}
    (served : u = ((s.begun e).acceptRolling c (e.op 8 4) (s.newRecast c sheet) none).refillSums sheet) :
    execRecastRolling e s =
      .next (({ u with fabric := { u.fabric with loaded := none } }.activate sheet).complete e .ok []) := by
  have straight : sheet.placements.any (fun p => p.reversed) = false := by simpa using forward
  refine (runCmd_begins _ begins rfl).trans (congrArg _ (runBody_done ?_))
  subst served
  simp only [State.begun_ldr, State.begun_recasting, State.begun_fabric, verified, Nat.not_lt.2 budget, staged, current, loaded,
    identity, epoch, plain, straight, still, single, inactive, Bool.not_true, Bool.false_eq_true, if_false, ne_eq,
    not_true_eq_false, or_self, Option.isSome_none, Bool.or_self, reduceCtorEq, and_false, Option.map_none, Option.getD_none]
  rfl

theorem execRecastRolling_active {a : CueSheet} (active : s.fabric.active = some a) (body : sameBody sheet a = true)
    (shape : ∀ o, s.ldr.serving = some o → shapeFail o.man c.man = none) :
    execRecastRolling e s = .next (((s.begun e).acceptRolling c (e.op 8 4)
      { copy := c.keyless, todo := arrayLayers c.man sheet } s.ldr.serving).complete e .ok []) := by
  have straight : sheet.placements.any (fun p => p.reversed) = false := by simpa using forward
  refine (runCmd_begins _ begins rfl).trans (congrArg _ (runBody_done ?_))
  simp only [State.begun_ldr, State.begun_recasting, State.begun_fabric, verified, Nat.not_lt.2 budget, staged, current, loaded,
    identity, epoch, plain, straight, still, single, active, body, Bool.not_true, Bool.false_eq_true, if_false, ne_eq,
    not_true_eq_false, or_self, Option.isSome_none, Bool.or_self, reduceCtorEq, and_false, Option.map_some, Option.getD_some]
  cases serving : s.ldr.serving with
  | none => rfl
  | some o => simp only [shape o serving]

end

/-! ### The drain -/

/-- A sequence after the drain timeout of a seal into an epoch: one of another epoch that is not PAUSED is cancelled (R307). -/
def Seq.drained (epoch : Nat) (q : Seq) : Seq :=
  if q.epoch ≠ epoch ∧ q.state ≠ .paused then { q with cancelPend := true, pausePend := false } else q

theorem execDrainTimeout_none {s : State} (unsealed : s.ldr.sealRun = none) : execDrainTimeout s = .next s := by
  simp only [execDrainTimeout, unsealed]

theorem execDrainComplete_none {s : State} (unsealed : s.ldr.sealRun = none) : execDrainComplete s = .next s := by
  simp only [execDrainComplete, unsealed]

section
variable {r : SealRun} {s : State} (run : s.ldr.sealRun = some r) (draining : r.draining = true) (switched : s.prm.pointerDue = none)
include run draining switched

theorem execDrainTimeout_cancels : execDrainTimeout s = .next ({ s with prm := { s.prm with
    seqs := Map.mapVals s.prm.seqs (fun _ q => q.drained r.copy.man.epoch) } }.orReg 0xC0804 0x80) := by
  simp only [execDrainTimeout, run, draining, switched, Option.isNone_none, Bool.and_self, if_true]
  rfl

theorem execDrainComplete_programs (empty : s.prm.scenes = [])
    (drained : s.prm.seqs.all (fun x => decide (x.2.epoch = r.copy.man.epoch) || decide (x.2.state = .paused)) = true) :
    execDrainComplete s = .next s.deactivate.startProgramming := by
  have gone : s.prm.seqs.any (fun x => x.2.epoch != r.copy.man.epoch && x.2.state != .paused) = false := by
    refine List.any_eq_false.2 fun x held => ?_
    have settled := List.all_eq_true.1 drained x held
    rw [Bool.or_eq_true, decide_eq_true_eq, decide_eq_true_eq] at settled
    rcases settled with old | paused
    · simp only [old, bne_self_eq_false, Bool.false_and, Bool.false_eq_true, not_false_eq_true]
    · simp only [paused, bne_self_eq_false, Bool.and_false, Bool.false_eq_true, not_false_eq_true]
  simp only [execDrainComplete, run, draining, switched, empty, gone, Option.isNone_none, List.isEmpty_nil, Bool.not_false,
    Bool.and_self, if_true]

end

/-- Settles O34: a seal and a rolling recast by the row that applies, a drain by the seal that waits for it. -/
theorem sealDrainsAndRollingRecastServes : Obligations.SealDrainsAndRollingRecastServes := by
  unfold Obligations.SealDrainsAndRollingRecastServes
  refine ⟨fun e c sheet full u s begins verified timeout staged current loaded identity epoch still single passes served accepted => ?_,
    fun e c sheet code i s begins verified timeout staged current loaded identity epoch still single =>
      execProductionSeal_fails begins verified timeout staged current loaded identity epoch still single,
    fun e c sheet s begins verified budget staged current loaded identity epoch plain forward still single =>
      ⟨fun inactive => ⟨_, execRecastRolling_inactive begins verified budget staged current loaded identity epoch plain forward still
          single inactive rfl, rfl, rfl, rfl, rfl⟩,
        fun a => execRecastRolling_active begins verified budget staged current loaded identity epoch plain forward still single⟩,
    fun r s run draining switched => ⟨⟨_, execDrainTimeout_cancels run draining switched, fun i => Map.get?_mapVals ..⟩,
      execDrainComplete_programs run draining switched⟩,
    fun e s => execRecastRolling_busy, fun s unsealed => ⟨execDrainTimeout_none unsealed, execDrainComplete_none unsealed⟩⟩
  · have run := execProductionSeal_passes begins verified timeout staged current loaded identity epoch still single passes served accepted
    exact ⟨fun drains => run.trans (by rw [if_pos drains]), fun programs => run.trans (by rw [programs]; rfl)⟩

end Sys2Proof.Machine
end

section
/-!
SUPPORT. Arrays after programming and at boot (R302, R305, R317, R318), and their wear records (R325): what becomes of an array by its
readback, and what the boot check and an update of the wear records leave as they were.
-/
namespace Sys2Proof.Machine

/-! ### A programmed array -/

section
variable {t a : Nat} {ok : Bool} {reads : List Nat} {s : State} (tile : t < Config.tiles) (array : a < 8)
include tile array

theorem execArrayProgrammed_other (other : (s.tile t).programming ≠ some a) : execArrayProgrammed t a ok reads s = .next s := by
  have unit : ¬(decide (Config.tiles ≤ t) || decide (8 ≤ a)) = true := by simp [tile, array]
  exact (if_neg unit).trans (if_pos other)

variable {p : Placement} {c : Copy} {x : Tensor} {u v : State} (programming : (s.tile t).programming = some a)
  (idle : u = s.modTile t (fun x => { x with programming := none })) (target : u.target t a = some (p, c))
  (tensor : c.man.tensors[p.tensor]? = some x)
include programming idle target tensor

/-- An array whose readback agrees with its journal becomes valid and holds its new contents (R302, R304, R317). -/
theorem execArrayProgrammed_verified
    (agrees : (reads.take 2).any (fun d => d == ((u.gov t a).map (fun g => g.digest)).getD 0) = true)
    (written : v = (u.tally true).journalWrite t a (fun g => { g with inProgress := false, valid := true })) :
    execArrayProgrammed t a true reads s = .next ((((((v.fillArray t c x p).setValid t a true).leaveLeft t a).modTile t
      (fun y => { y with runDue := true })).wearTouch t a).proceed) := by
  have unit : ¬(decide (Config.tiles ≤ t) || decide (8 ≤ a)) = true := by simp [tile, array]
  refine (if_neg unit).trans ((if_neg (fun other => other programming)).trans ?_)
  subst idle written
  simp only [target, tensor, agrees, Bool.and_self, if_true]

/-- An array that does not verify is left as `failArray` leaves it (R305, R317). -/
theorem execArrayProgrammed_fails
    (differs : ok = false ∨ (reads.take 2).any (fun d => d == ((u.gov t a).map (fun g => g.digest)).getD 0) = false) :
    execArrayProgrammed t a ok reads s = .next ((((u.tally true).failArray t a id).wearTouch t a).proceed) := by
  have unit : ¬(decide (Config.tiles ≤ t) || decide (8 ≤ a)) = true := by simp [tile, array]
  have fails : (ok && (reads.take 2).any (fun d => d == ((u.gov t a).map (fun g => g.digest)).getD 0)) = false := by
    simpa only [Bool.and_eq_false_iff] using differs
  refine (if_neg unit).trans ((if_neg (fun other => other programming)).trans ?_)
  subst idle
  simp only [target, tensor, fails, Bool.false_eq_true, if_false]

end

theorem State.tile_setValid (s : State) (t a : Nat) (on : Bool) (u : Nat) : (s.setValid t a on).tile u =
    if t = u then { s.tile t with valid := if on then (s.tile t).valid ||| 2 ^ a else clearBits (s.tile t).valid (2 ^ a) }
    else s.tile u := by
  rw [← State.tile_modTile s t u (fun x => { x with valid := if on then x.valid ||| 2 ^ a else clearBits x.valid (2 ^ a) })]
  exact State.tile_congr (by simp [State.setValid]) u

theorem State.testBit_setValid (s : State) (t a : Nat) (on : Bool) : Nat.testBit ((s.setValid t a on).tile t).valid a = on := by
  rw [State.tile_setValid, if_pos rfl]
  cases on with
  | true => simp [Nat.testBit_two_pow_self]
  | false => simp [testBit_clearBits, Nat.testBit_two_pow_self]

/-! ### What a raise leaves -/

/-- A row's suspicion may raise its trim or lower the step; what the loader, the network, the boot logic and PCIe hold stays (R495). -/
theorem State.suspect_frame (s : State) (row : Nat) : (s.suspect row).ldr = s.ldr ∧ (s.suspect row).boot = s.boot ∧
    (s.suspect row).net = s.net ∧ (s.suspect row).pcie = s.pcie := by
  unfold State.suspect State.setTrim State.writeTuning
  dsimp only
  repeat' split
  all_goals simp

/-- A raise, whatever its severity and reactions, changes nothing that the loader, the network, the boot logic or PCIe holds (R482). -/
theorem State.raise_frame (s : State) (src kind idx : Nat) (scenes : List Nat) :
    (s.raise src kind idx scenes).ldr = s.ldr ∧ (s.raise src kind idx scenes).boot = s.boot ∧
      (s.raise src kind idx scenes).net = s.net ∧ (s.raise src kind idx scenes).pcie = s.pcie := by
  unfold State.raise
  dsimp only
  repeat' split
  all_goals simp [State.suspect_frame]

/-! ### The boot check -/

/-- The boot check of an array by its key: ARR_INFO_n, then its journal and readback (R71, R318). -/
def State.bootArray (ds : Map (List Nat)) (s : State) (k : Nat) : State :=
  (s.setReg (tileReg (k / 8) (0x20 + 4 * (k % 8))) (s.bootInfo (k / 8) (k % 8))).verifyArray (k / 8) (k % 8) (Map.getD ds k [])

/-- The state once every array of the journal has been checked (R318). -/
def State.bootArrays (s : State) (ds : Map (List Nat)) : State := (Map.keys s.ldr.journal).foldl (State.bootArray ds) s

/-- ARRAY_VALID is a bit of its tile, which substitutions and the state vector follow (R193, R204). -/
theorem State.setValid_frame (s : State) (t a : Nat) (on : Bool) : (s.setValid t a on).boot = s.boot ∧
    (s.setValid t a on).net = s.net ∧ (s.setValid t a on).pcie = s.pcie := by
  unfold State.setValid State.restream
  split <;> simp

theorem State.verifyArray_frame (s : State) (t a : Nat) (reads : List Nat) : (s.verifyArray t a reads).boot = s.boot ∧
    (s.verifyArray t a reads).net = s.net ∧ (s.verifyArray t a reads).pcie = s.pcie := by
  unfold State.verifyArray
  dsimp only
  repeat' split
  all_goals simp [State.raise_frame, State.setValid_frame, State.journalWrite]

theorem State.bootArrays_frame (s : State) (ds : Map (List Nat)) :
    (s.bootArrays ds).boot = s.boot ∧ (s.bootArrays ds).net = s.net ∧ (s.bootArrays ds).pcie = s.pcie := by
  simp [State.bootArrays, State.bootArray, State.verifyArray_frame]

theorem execBootVerify_first {ds : Map (List Nat)} {s : State} (first : s.ldr.bootVerified = false) (runs : s.firmwareRuns = true) :
    execBootVerify ds s = .next { s.bootArrays ds with ldr := { (s.bootArrays ds).ldr with
      bootVerified := true, resident := (s.bootArrays ds).ldr.resident.filter (fun r => (s.bootArrays ds).allPass r.2) } } :=
  if_neg (by simp [first, runs])

theorem execBootVerify_again {ds : Map (List Nat)} {s : State} (verified : s.ldr.bootVerified = true) :
    execBootVerify ds s = .next s :=
  if_pos (by simp [verified])

/-! ### Wear records -/

/-- What an update of wear records and dates leaves: the journal, the hours of the last general update, the boot logic and the network. -/
structure State.WearKeeps (s t : State) : Prop where
  journal : t.ldr.journal = s.ldr.journal
  hours : t.ldr.wearHours = s.ldr.wearHours
  boot : t.boot = s.boot
  net : t.net = s.net

theorem State.WearKeeps.refl (s : State) : s.WearKeeps s := ⟨rfl, rfl, rfl, rfl⟩

theorem State.WearKeeps.trans {s t u : State} (h : s.WearKeeps t) (k : t.WearKeeps u) : s.WearKeeps u :=
  ⟨k.journal.trans h.journal, k.hours.trans h.hours, k.boot.trans h.boot, k.net.trans h.net⟩

theorem State.WearKeeps.foldl {α : Type} {f : State → α → State} (h : ∀ (s : State) x, s.WearKeeps (f s x)) (xs : List α)
    (s : State) : s.WearKeeps (xs.foldl f s) :=
  List.foldlRecOn xs f (motive := fun t => s.WearKeeps t) (.refl s) fun t ht x _ => ht.trans (h t x)

theorem State.wearTouch_keeps (s : State) (t a : Nat) : s.WearKeeps (s.wearTouch t a) := ⟨rfl, rfl, rfl, rfl⟩

theorem State.setReg_keeps (s : State) (o v : Nat) : s.WearKeeps (s.setReg o v) := ⟨rfl, rfl, rfl, rfl⟩

theorem State.raise_keeps (s : State) (src kind idx : Nat) (scenes : List Nat) : s.WearKeeps (s.raise src kind idx scenes) := by
  obtain ⟨ldr, boot, net, -⟩ := s.raise_frame src kind idx scenes
  exact ⟨by rw [ldr], by rw [ldr], boot, net⟩

/-- WEAR_UPDATE notes the service hours, and touches wear records and dates besides (R325, R326). -/
theorem execWearUpdate_keeps (s : State) : ∃ t, execWearUpdate s = .next t ∧
    State.WearKeeps { s with ldr := { s.ldr with wearHours := s.pwr.hours } } t := by
  unfold execWearUpdate
  extract_lets set date ldr u arrays v tiles w lives first
  have touched : u.WearKeeps v := .foldl (fun s k => s.wearTouch_keeps ..) _ _
  have dated : v.WearKeeps w := by
    refine .foldl (fun s t => ?_) _ _
    split <;> exact s.setReg_keeps ..
  cases first with
  | none => exact ⟨_, rfl, (touched.trans dated).trans (w.setReg_keeps ..)⟩
  | some dr =>
    refine ⟨_, rfl, (touched.trans dated).trans ?_⟩
    split
    · exact (w.setReg_keeps ..).trans (State.raise_keeps ..)
    · exact w.setReg_keeps ..

theorem execWearUpdate_empty {s : State} (journal : s.ldr.journal = []) (tiles : s.tiles = []) : execWearUpdate s =
    .next ({ s with ldr := { s.ldr with wearHours := s.pwr.hours } }.setReg 0xC081C 0xFFFF0000) := by
  have lifeless : (List.range Config.rows).filterMap (fun _ => (none : Option (Nat × Nat))) = [] :=
    List.filterMap_eq_nil_iff.2 fun _ _ => rfl
  simp only [execWearUpdate, journal, tiles, Map.keys, List.map_nil, List.foldl_nil, List.filter_nil, List.filterMap_nil, thirdOf,
    List.getElem?_nil, Option.map_none, lifeless]

/-- Settles O35: a programmed array by its readback, the boot check by what each of its arrays leaves, and a wear update by what the dates
and records leave. -/
theorem arraysAfterProgrammingAndAtBoot : Obligations.ArraysAfterProgrammingAndAtBoot := by
  unfold Obligations.ArraysAfterProgrammingAndAtBoot
  refine ⟨fun t a reads p c x u v s tile array programming idle target tensor written agrees =>
      execArrayProgrammed_verified tile array programming idle target tensor agrees written,
    fun t a ok reads p c x u v w s tile array programming idle target tensor differs written failed => ?_,
    fun t a on s array => ⟨s.testBit_setValid t a on, fun x other => by rw [State.tile_setValid, if_neg other.symm]⟩,
    fun t a reads s tile array other => execArrayProgrammed_other tile array other,
    fun ds s first runs => ?_, fun s => ?_, fun t a s => ⟨_, rfl, rfl, rfl, rfl⟩⟩
  · subst failed written
    exact execArrayProgrammed_fails tile array programming idle target tensor differs
  · obtain ⟨boot, net, pcie⟩ := s.bootArrays_frame ds
    refine ⟨_, execBootVerify_first first runs, rfl, boot, net, pcie, fun journal => ?_, execBootVerify_again rfl⟩
    have none : s.bootArrays ds = s := by simp [State.bootArrays, journal, Map.keys]
    rw [none]
  · obtain ⟨t, updated, keeps⟩ := execWearUpdate_keeps s
    refine ⟨t, updated, keeps.hours, keeps.journal, keeps.boot, keeps.net, fun journal tiles => ?_⟩
    exact Host.Outcome.next.inj (updated.symm.trans (execWearUpdate_empty journal tiles))

end Sys2Proof.Machine
end

section
/-!
SUPPORT. The PTP timebase and its registers (R347, R373): the word that a write of PTP_RATE or PTP_STEP_LO leaves, and the sum that a write
of PTP_STEP_HI makes.
-/
namespace Sys2Proof.Machine

theorem exec_ptpStepHi (v : Word) (s : State) : exec (.ptpStepHi v) s = execPtpStepHi v s := rfl

/-- A timebase that has taken the 64-bit number `v` modulo 2^64 has moved by the signed value of `v` (R373). -/
theorem ptpStep_signed (ns v : Nat) : (((ns + v) % 2 ^ 64 : Nat) - (ns : Int) - signedOf 64 v) % 2 ^ 64 = 0 := by
  have step : signedOf 64 v % ((2 ^ 64 : Nat) : Int) = (v : Int) % ((2 ^ 64 : Nat) : Int) := signedOf_emod 64 v
  omega

/-- A plain word whose bits are all RW and that has no field to guard takes what is written to it. -/
theorem execRegisterWrite_plain {o i j : Nat} {r : RegRow} (v : Word) (s : State) (aligned : o % 4 = 0) (plain : plainWord o = true)
    (row : regRow? o = some (r, i, j)) (rw : r.rw = 0xFFFFFFFF) (w1c : r.w1c = 0) (unguarded : r.guards = [])
    (word : regReset o < 2 ^ 32) : execRegisterWrite o v 4 0 s = .next (s.setReg o v.toNat) := by
  rw [execRegisterWrite_word v 0 s aligned, s.writeWord_of_plainWord _ plain, s.writeReg_of_row _ row,
    RegRow.written_rw rw w1c (s.reg_lt word) v.isLt (by simp [unguarded])]

/-- A write of an offset that no row names and no block takes over changes nothing. -/
theorem execRegisterWrite_unlisted {o : Nat} (v : Word) (s : State) (aligned : o % 4 = 0) (plain : plainWord o = true)
    (unlisted : regRow? o = none) : execRegisterWrite o v 4 0 s = .next s := by
  rw [execRegisterWrite_word v 0 s aligned, s.writeWord_of_plainWord _ plain]
  simp [State.writeReg, unlisted]

/-- A read in the network block returns what the block composes (R381, R382). -/
theorem State.hostRead_net (s : State) {o : Nat} (aligned : o % 4 = 0) (lo : 0xB0000 ≤ o) (hi : o < 0xC0000) :
    s.hostRead o = s.netRead o % 2 ^ 32 := by
  have low : ¬(o = 0 ∨ o = 4 ∨ o = 8) := by omega
  have fab : ¬(o = 0x400 ∨ o = 0x404 ∨ o = 0x40C ∨ (0x1000 ≤ o ∧ o < 0x1280)) := by omega
  have ring : ¬(0x10000 ≤ o ∧ o < 0x10400 ∧ (o % 0x40 = 0x18 ∨ o % 0x40 = 0x24)) := by omega
  have cnt : ¬(0x40000 ≤ o ∧ o < 0x70000) := by omega
  have page : ¬(0x70000 ≤ o ∧ o < 0x80000) := by omega
  have pwr : ¬(0x80000 ≤ o ∧ o < 0x90000) := by omega
  have hkm : ¬(o = 0x90004 ∨ o = 0x91004) := by omega
  have prm : ¬(0xA0000 ≤ o ∧ o < 0xB0000) := by omega
  unfold State.hostRead State.wordRead
  rw [if_pos aligned, tileAt_of_below (by omega)]
  dsimp only
  rw [if_neg low, if_neg fab, if_neg ring, if_neg (by omega), if_neg (by omega), if_neg cnt, if_neg page, if_neg pwr, if_neg hkm,
    if_neg prm, if_pos ⟨lo, hi⟩]

/-- What a shadow holds is a word. -/
theorem State.shadow_lt (s : State) (o : Nat) : s.shadow o < 2 ^ 32 := by
  unfold State.shadow
  cases Map.get? s.shadows o with
  | none => decide
  | some w => exact w.isLt

/-- Settles O20: the step by the signed value of its two words, each register by its row, and the shadow by the read that latched it. -/
theorem ptpRegisters : Obligations.PtpRegisters := by
  unfold Obligations.PtpRegisters
  simp only [exec_ptpStepHi, exec_registerWrite, exec_shadowLoRead]
  refine ⟨fun v s => ⟨_, rfl, Nat.mod_lt _ (by decide), ptpStep_signed ..⟩, fun v s => ⟨?_, ?_⟩, fun s => ?_,
    fun s => ⟨?_, ?_, rfl, rfl⟩, fun o v s offset => ?_, rfl, rfl, rfl⟩
  · exact execRegisterWrite_plain (i := 0) (j := 0) v s rfl (by decide) (by rfl) rfl rfl rfl (by decide)
  · exact execRegisterWrite_plain (i := 0) (j := 0) v s rfl (by decide) (by rfl) rfl rfl rfl (by decide)
  · have latches := execShadowLoRead_latches s (o := 0xB0020) rfl
    rwa [s.hostRead_net rfl (by decide) (by decide), show s.netRead 0xB0020 = s.net.ptpNs % 2 ^ 32 from rfl, Nat.mod_mod] at latches
  · rw [s.hostRead_net rfl (by decide) (by decide)]
    exact Nat.mod_eq_of_lt (s.shadow_lt _)
  · rw [s.hostRead_net rfl (by decide) (by decide)]
    exact Nat.mod_eq_of_lt (s.reg_lt (by decide))
  · obtain rfl | rfl := offset
    · exact execRegisterWrite_unlisted v s rfl (by decide) (by rfl)
    · exact execRegisterWrite_unlisted v s rfl (by decide) (by rfl)

end Sys2Proof.Machine
end

section
/-!
SUPPORT. What the operations that the network's commands share do (R335, R369, R371, R480): a port or a lane after a change of one, the bits
of an event register, a counter that advances, and the registers that a check-value engine leaves.
-/
namespace Sys2Proof.Machine

/-- States with the same ports have the same port at each index. -/
theorem State.port_congr {s t : State} (h : s.net.ports = t.net.ports) (p : Nat) : s.port p = t.port p := by
  unfold State.port
  rw [h]

@[simp] theorem State.port_modPort_same (s : State) (p : Nat) (f : Port → Port) : (s.modPort p f).port p = f (s.port p) := by
  rw [State.port_modPort, if_pos rfl]

theorem State.port_modPort_other (s : State) {p q : Nat} (f : Port → Port) (other : q ≠ p) : (s.modPort p f).port q = s.port q := by
  rw [State.port_modPort, if_neg other.symm]

@[simp] theorem State.lane_modLane_same (s : State) (n : Nat) (f : EthLane → EthLane) : (s.modLane n f).lane n = f (s.lane n) := by
  rw [State.lane_modLane, if_pos rfl]

theorem State.lane_modLane_other (s : State) {n m : Nat} (f : EthLane → EthLane) (other : m ≠ n) :
    (s.modLane n f).lane m = s.lane m := by
  rw [State.lane_modLane, if_neg other.symm]

@[simp] theorem State.setReg_port (s : State) (o v p : Nat) : (s.setReg o v).port p = s.port p := rfl
@[simp] theorem State.setReg_lane (s : State) (o v n : Nat) : (s.setReg o v).lane n = s.lane n := rfl
@[simp] theorem State.send_port (s : State) (x : Sent) (p : Nat) : (s.send x).port p = s.port p := rfl
@[simp] theorem State.send_lane (s : State) (x : Sent) (n : Nat) : (s.send x).lane n = s.lane n := rfl
@[simp] theorem State.send_sent (s : State) (x : Sent) : (s.send x).outside.sent = x :: s.outside.sent := rfl

/-- A bit that the device sets in a register reads 1. -/
theorem State.testBit_orReg (s : State) (o : Nat) {mask i : Nat} (bit : mask.testBit i = true) (word : i < 32) :
    ((s.orReg o mask).reg o).testBit i = true := by
  rw [State.orReg, State.reg_setReg_same, Nat.testBit_mod_two_pow, Nat.testBit_or, bit, decide_eq_true word]
  simp

/-- A counter that advances by one saturates at 48 bits (R512). -/
theorem State.counter_count (s : State) (i : Nat) : (s.count i 1).counter i = min 0xFFFFFFFFFFFF (s.counter i + 1) := by
  simp [State.counter, State.count, Map.getD_put, satAdd, counterTop]

/-- A transfer changes the running CRCs and byte counts of its engine and no other register (R478). -/
theorem State.reg_snoop (s : State) {e o : Nat} (kinds : List (Nat × Option Nat)) (bs : List Byte) (engine : e < 24)
    (other : o < 0x30000 ∨ 0x30600 ≤ o) : (s.snoop e kinds bs).reg o = s.reg o := by
  unfold State.snoop
  refine List.foldlRecOn (motive := fun t : State => t.reg o = s.reg o) _ _ rfl fun t ht c mem => ?_
  have hc := List.mem_range.1 mem
  dsimp only
  split
  · rw [State.reg_setReg, if_neg (by unfold chkReg; omega), State.reg_setReg, if_neg (by unfold chkReg; omega), ht]
  · exact ht

theorem State.field_snoop (s : State) {e o : Nat} (kinds : List (Nat × Option Nat)) (bs : List Byte) (lo len : Nat) (engine : e < 24)
    (other : o < 0x30000 ∨ 0x30600 ≤ o) : (s.snoop e kinds bs).field o lo len = s.field o lo len := by
  rw [State.field, State.reg_snoop s kinds bs engine other, State.field]

/-- A single-bit field is 0 or 1. -/
theorem State.field_bit (s : State) (o lo : Nat) : s.field o lo 1 = if s.field o lo 1 = 1 then 1 else 0 := by
  have : s.field o lo 1 < 2 := Nat.mod_lt _ (by decide)
  split <;> omega

end Sys2Proof.Machine
end

section
/-!
SUPPORT. The lanes (R339, R340, R341, R375): how a lane trains, locks, fails and is tried again, what a training request makes of its taps,
and when its port goes down.
-/
namespace Sys2Proof

/-- A number with another value in one of its fields: what lay below and above the field stays. -/
theorem putBits_eq (v lo len x : Nat) :
    putBits v lo len x = 2 ^ lo * (2 ^ len * (v / 2 ^ lo / 2 ^ len) + x % 2 ^ len) + v % 2 ^ lo := by
  have high := Nat.div_add_mod (v / 2 ^ lo) (2 ^ len)
  have whole : v = 2 ^ lo * (2 ^ len * (v / 2 ^ lo / 2 ^ len)) + v / 2 ^ lo % 2 ^ len * 2 ^ lo + v % 2 ^ lo := by
    rw [Nat.mul_comm (v / 2 ^ lo % 2 ^ len), ← Nat.mul_add, high, Nat.div_add_mod]
  rw [putBits, bitsOf, Nat.shiftRight_eq_div_pow, Nat.shiftLeft_eq, Nat.shiftLeft_eq, Nat.mul_add, Nat.mul_comm (2 ^ lo) (x % _)]
  omega

/-- Putting a value into a field of a word leaves a word. -/
theorem putBits_lt {v lo len n : Nat} (x : Nat) (h : v < 2 ^ n) (inside : lo + len ≤ n) : putBits v lo len x < 2 ^ n := by
  have below : v % 2 ^ lo < 2 ^ lo := Nat.mod_lt _ (Nat.two_pow_pos lo)
  have new : x % 2 ^ len < 2 ^ len := Nat.mod_lt _ (Nat.two_pow_pos len)
  have whole : 2 ^ n = 2 ^ lo * (2 ^ len * 2 ^ (n - (lo + len))) := by
    rw [← Nat.mul_assoc, ← Nat.pow_add, ← Nat.pow_add, Nat.add_sub_cancel' inside]
  have above : v / 2 ^ lo / 2 ^ len < 2 ^ (n - (lo + len)) := by
    rw [Nat.div_div_eq_div_mul, Nat.div_lt_iff_lt_mul (Nat.mul_pos (Nat.two_pow_pos lo) (Nat.two_pow_pos len)), Nat.mul_comm, Nat.mul_assoc, ← whole]
    exact h
  calc putBits v lo len x
      < 2 ^ lo * (2 ^ len * (v / 2 ^ lo / 2 ^ len) + x % 2 ^ len + 1) := by rw [putBits_eq, Nat.mul_add _ _ 1]; omega
    _ ≤ 2 ^ lo * (2 ^ len * (v / 2 ^ lo / 2 ^ len + 1)) := Nat.mul_le_mul_left _ (by rw [Nat.mul_add]; omega)
    _ ≤ 2 ^ lo * (2 ^ len * 2 ^ (n - (lo + len))) := Nat.mul_le_mul_left _ (Nat.mul_le_mul_left _ above)
    _ = 2 ^ n := whole.symm

end Sys2Proof

namespace Sys2Proof.Machine

theorem exec_laneSignalDetect (n : Nat) (s : State) : exec (.laneSignalDetect n) s = execLaneSignalDetect n s := rfl
theorem exec_trainingFrame (n c : Nat) (ready : Bool) (snr : Nat) (s : State) :
    exec (.trainingFrame n c ready snr) s = execTrainingFrame n c ready snr s := rfl
theorem exec_trainingTimeout (n : Nat) (s : State) : exec (.trainingTimeout n) s = execTrainingTimeout n s := rfl
theorem exec_trainingRetry (n : Nat) (s : State) : exec (.trainingRetry n) s = execTrainingRetry n s := rfl
theorem exec_laneLockLoss (n : Nat) (s : State) : exec (.laneLockLoss n) s = execLaneLockLoss n s := rfl
theorem exec_laneCtrl (n : Nat) (v : Word) (s : State) : exec (.laneCtrl n v) s = execLaneCtrl n v s := rfl

/-! ### The registers of a lane -/

/-- The row of LANE_CTRL (R375). -/
def laneCtrlRow : RegRow := { base := 0x000B2000, s1 := 0x40, n1 := 32, rw := 0xFC000000, life := .warm }
/-- The row of LANE_TXEQ (R375). -/
def laneTxeqRow : RegRow := { base := 0x000B2004, s1 := 0x40, n1 := 32, rw := 0x3FFFFFFF, reset := 0x00000C00, life := .warm }
/-- The row of LANE_STATUS (R375). -/
def laneStatusRow : RegRow := { base := 0x000B2008, s1 := 0x40, n1 := 32, rc := 0x0000FFFF, life := .warm }

/-- An offset behind the last word of a row is not in the row (R381). -/
theorem RegRow.index?_past {r : RegRow} {o : Nat} (words : r.s2 = 4) (past : r.base + (if r.s1 = 0 then 4 * r.n2 else r.s1 * r.n1) ≤ o) :
    r.index? o = none := by
  unfold RegRow.index?
  split
  · rfl
  refine if_neg ?_
  rintro ⟨group, -, word⟩
  by_cases single : r.s1 = 0
  · simp only [if_pos single, words] at past word
    omega
  · simp only [if_neg single] at past group
    have := (Nat.div_lt_iff_lt_mul (Nat.pos_of_ne_zero single)).1 group
    rw [Nat.mul_comm] at this
    omega

section
variable {n off : Nat} (lane : n < 32)
include lane

/-- A row of one word in each lane names the word of a lane at its own offset, and no other. -/
theorem RegRow.index?_laneReg {r : RegRow} {at_ : Nat} (base : r.base = 0x000B2000 + at_) (stride : r.s1 = 0x40) (count : r.n1 = 32)
    (words : r.s2 = 4) (one : r.n2 = 1) (inside : off < 0x40) (aligned : off % 4 = 0) (places : at_ % 4 = 0) (fits : at_ < 0x40) :
    r.index? (laneReg n off) = if off = at_ then some (n, 0) else none := by
  unfold RegRow.index? laneReg
  simp only [base, stride, count, words, one, if_neg (show ¬(0x40 = 0) by decide)]
  by_cases same : off = at_
  · have d : 0x000B2000 + 0x40 * n + off - (0x000B2000 + at_) = 0x40 * n := by omega
    have group : 0x40 * n / 0x40 = n := by omega
    have rest : 0x40 * n % 0x40 = 0 := by omega
    rw [if_neg (by omega), d, if_pos same, group, rest]
    exact if_pos ⟨lane, rfl, by decide⟩
  · rw [if_neg same]
    split
    · rfl
    · exact if_neg fun ⟨_, _, _⟩ => by omega

theorem rowsOf_laneReg (inside : off < 0x40) : rowsOf (laneReg n off) = netRows := by
  have block : laneReg n off >>> 16 = 11 := by
    rw [Nat.shiftRight_eq_div_pow]
    unfold laneReg
    omega
  simp only [rowsOf, if_neg (show ¬0x01000000 ≤ laneReg n off by unfold laneReg; omega), block]

/-- The row of a lane's register is found among the rows of the lanes (R375, R381). -/
theorem regRow?_laneReg (inside : off < 0x40) : regRow? (laneReg n off) =
    [laneCtrlRow, laneTxeqRow, laneStatusRow].findSome? (fun r => (r.index? (laneReg n off)).map (fun ij => (r, ij.1, ij.2))) := by
  have rows : netRows = netRows.take 8 ++ [laneCtrlRow, laneTxeqRow, laneStatusRow] := rfl
  have ends : ∀ r ∈ netRows.take 8, r.s2 = 4 ∧ r.base + (if r.s1 = 0 then 4 * r.n2 else r.s1 * r.n1) ≤ 0x000B2000 := by decide
  have before : (netRows.take 8).findSome? (fun r => (r.index? (laneReg n off)).map (fun ij => (r, ij.1, ij.2))) = none := by
    refine List.findSome?_eq_none_iff.2 fun r mem => ?_
    obtain ⟨words, past⟩ := ends r mem
    rw [RegRow.index?_past words (Nat.le_trans past (by unfold laneReg; omega)), Option.map_none]
  rw [regRow?, rowsOf_laneReg lane inside, rows, List.findSome?_append, before, Option.none_or]

theorem index?_laneCtrlRow (inside : off < 0x40) (aligned : off % 4 = 0) :
    laneCtrlRow.index? (laneReg n off) = if off = 0 then some (n, 0) else none :=
  RegRow.index?_laneReg lane rfl rfl rfl rfl rfl inside aligned rfl (by decide)

theorem index?_laneTxeqRow (inside : off < 0x40) (aligned : off % 4 = 0) :
    laneTxeqRow.index? (laneReg n off) = if off = 4 then some (n, 0) else none :=
  RegRow.index?_laneReg lane rfl rfl rfl rfl rfl inside aligned rfl (by decide)

theorem index?_laneStatusRow (inside : off < 0x40) (aligned : off % 4 = 0) :
    laneStatusRow.index? (laneReg n off) = if off = 8 then some (n, 0) else none :=
  RegRow.index?_laneReg lane rfl rfl rfl rfl rfl inside aligned rfl (by decide)

theorem regRow?_laneCtrl : regRow? (laneReg n 0) = some (laneCtrlRow, n, 0) := by
  rw [regRow?_laneReg lane (by decide), List.findSome?_cons, index?_laneCtrlRow lane (by decide) rfl]
  rfl

theorem regRow?_laneTxeq : regRow? (laneReg n 4) = some (laneTxeqRow, n, 0) := by
  rw [regRow?_laneReg lane (by decide), List.findSome?_cons, index?_laneCtrlRow lane (by decide) rfl, List.findSome?_cons,
    index?_laneTxeqRow lane (by decide) rfl]
  rfl

theorem regRow?_laneStatus : regRow? (laneReg n 8) = some (laneStatusRow, n, 0) := by
  rw [regRow?_laneReg lane (by decide), List.findSome?_cons, index?_laneCtrlRow lane (by decide) rfl, List.findSome?_cons,
    index?_laneTxeqRow lane (by decide) rfl, List.findSome?_cons, index?_laneStatusRow lane (by decide) rfl]
  rfl

end

theorem State.reg_laneTxeq_lt (s : State) {n : Nat} (lane : n < Config.lanes) : s.reg (laneReg n 4) < 2 ^ 32 := by
  refine s.reg_lt ?_
  rw [regReset_of_row (by unfold laneReg; omega) (regRow?_laneTxeq lane)]
  simp [laneTxeqRow]

/-- A host write of LANE_CTRL takes each of its RW fields (R375). -/
theorem State.field_laneCtrl (s : State) {n lo len : Nat} (v : Nat) (lane : n < Config.lanes) (word : lo + len ≤ 32)
    (writable : ∀ i < len, (0xFC000000 : Nat).testBit (lo + i) = true) :
    (s.writeReg (laneReg n 0) v).field (laneReg n 0) lo len = bitsOf v lo len := by
  rw [s.writeReg_of_row v (regRow?_laneCtrl lane), State.field, State.reg_setReg_same, bitsOf_mod_word _ word]
  refine RegRow.bitsOf_written_taken _ rfl fun i inside => ?_
  rw [show laneCtrlRow.taken v = 0xFC000000 from clearBits_zero_right _, writable i inside]

/-- Whether a lane is blocked after a write of LANE_CTRL, by the loopback, the pattern and the transmitter that the write sets (R341). -/
theorem State.laneBlocked_writeReg (s : State) {n : Nat} (v : Nat) (lane : n < Config.lanes) :
    (s.writeReg (laneReg n 0) v).laneBlocked n = (decide (bitsOf v 28 4 ≠ 0) || decide (bitsOf v 26 1 = 1)) := by
  rw [State.laneBlocked, s.field_laneCtrl v lane (by decide) (by decide), s.field_laneCtrl v lane (by decide) (by decide)]

/-! ### A lane's port -/

/-- The lanes of a port are those that the mode of its block gives it (R335, R336). -/
theorem State.portLanes_congr {s t : State} {p : Nat} (mode : t.portMode (p / 2) = s.portMode (p / 2)) : t.portLanes p = s.portLanes p := by
  simp only [State.portLanes, mode]

/-- A write of LANE_CTRL leaves the modes, so every lane keeps its port. -/
theorem State.portOfLane_laneCtrl (s : State) {n : Nat} (v m : Nat) (lane : n < Config.lanes) :
    (s.writeReg (laneReg n 0) v).portOfLane m = s.portOfLane m := by
  have same : ∀ p ∈ List.range 16, (s.writeReg (laneReg n 0) v).portLanes p = s.portLanes p := fun p mem => by
    have port := List.mem_range.1 mem
    refine State.portLanes_congr ?_
    rw [s.writeReg_of_row v (regRow?_laneCtrl lane), State.portMode, State.field, State.reg_setReg,
      if_neg (by unfold laneReg portConfig; omega), State.portMode, State.field]
  unfold State.portOfLane
  rw [← List.head?_filter, ← List.head?_filter, List.filter_congr fun p mem => by rw [same p mem]]

@[simp] theorem State.raise_port (s : State) (src kind idx p : Nat) (scenes : List Nat) :
    (s.raise src kind idx scenes).port p = s.port p := by
  obtain ⟨-, -, net, -⟩ := s.raise_frame src kind idx scenes
  exact State.port_congr (by rw [net]) p

/-- A port that goes down is down, and every other port stays (R369). -/
theorem State.port_portDown (s : State) (p : Nat) :
    ((s.portDown p).port p).up = false ∧ ∀ q, q ≠ p → (s.portDown p).port q = s.port q := by
  unfold State.portDown
  split
  · have quiet (x : State) (o m q : Nat) : (x.orReg o m).port q = x.port q := rfl
    simp only [State.raise_port, quiet, State.port_modPort_same, true_and]
    exact fun q other => State.port_modPort_other _ _ other
  · next down => exact ⟨Bool.eq_false_iff.2 down, fun q _ => rfl⟩

theorem State.laneDown_some {s : State} {n p : Nat} (own : s.portOfLane n = some p) : s.laneDown n = s.portDown p := by
  simp only [State.laneDown, own]

theorem State.laneDown_none {s : State} {n : Nat} (unowned : s.portOfLane n = none) : s.laneDown n = s := by
  simp only [State.laneDown, unowned]

theorem execLaneCtrl_eq {n : Nat} (lane : n < Config.lanes) (v : Word) (s : State) : execLaneCtrl n v s =
    .next (if (s.writeReg (laneReg n 0) v.toNat).laneBlocked n = true then (s.writeReg (laneReg n 0) v.toNat).laneDown n
      else s.writeReg (laneReg n 0) v.toNat) := by
  simp only [execLaneCtrl, if_neg (Nat.not_le.2 lane)]

/-! ### Training -/

section
variable {n : Nat} {s : State} (lane : n < Config.lanes)
include lane

theorem execLaneSignalDetect_off (off : (s.lane n).train = .off) : execLaneSignalDetect n s = .next s := by
  simp [execLaneSignalDetect, lane, off]

theorem execLaneSignalDetect_waits (waits : (s.lane n).train = .signalWait) : execLaneSignalDetect n s =
    .next ((s.setReg (laneReg n 4) presetTaps).modLane n (fun x => { train := .training, signal := true, checks := x.checks })) := by
  simp [execLaneSignalDetect, lane, waits]

theorem execLaneSignalDetect_on (on : (s.lane n).train ≠ .off) (past : (s.lane n).train ≠ .signalWait) :
    execLaneSignalDetect n s = .next (s.modLane n (fun x => { x with signal := true })) := by
  unfold execLaneSignalDetect
  rw [if_neg (by omega)]
  split
  · next off => exact absurd off on
  · next waits => exact absurd waits past
  · rfl

end

@[simp] theorem EthLane.settled_snr (x : EthLane) : x.settled.snr = x.snr := by
  unfold EthLane.settled
  split <;> rfl

@[simp] theorem EthLane.settled_precode (x : EthLane) : x.settled.precode = x.precode := by
  unfold EthLane.settled
  split <;> rfl

@[simp] theorem EthLane.settled_lastApplied (x : EthLane) : x.settled.lastApplied = x.lastApplied := by
  unfold EthLane.settled
  split <;> rfl

/-- A lane in training locks once both ends report their receivers ready, and not before (R339). -/
theorem EthLane.settled_locked {x : EthLane} (training : x.train = .training) :
    x.settled.train = .locked ↔ x.partnerReady = true ∧ x.selfReady = true := by
  unfold EthLane.settled
  split
  · next ready => simpa using ready
  · next unready => simpa [training] using unready

/-- LANE_TXEQ of a lane once the request of a control word has been applied, refused or, where its number is the last one's, passed over
(R339, R340). -/
def State.trainedTaps (s : State) (n c : Nat) : Nat :=
  if (s.lane n).lastApplied = some (bitsOf c 12 4) then s.reg (laneReg n 4)
  else (requestTaps (s.reg (laneReg n 4)) (bitsOf c 0 3) (bitsOf c 3 2)).getD (s.reg (laneReg n 4))

section
variable {n : Nat} {s : State} (lane : n < Config.lanes) (c snr : Nat) (ready : Bool)
include lane

theorem execTrainingFrame_other (other : (s.lane n).train ≠ .training) : execTrainingFrame n c ready snr s = .next s := by
  simp [execTrainingFrame, lane, other]

variable (training : (s.lane n).train = .training)
include training

/-- In modes 3 and 4 a training frame brings its readiness (R339). -/
theorem execTrainingFrame_readiness (mode : 3 ≤ s.portMode (n / 4)) : execTrainingFrame n c ready snr s =
    .next (s.modLane n (fun x => ({ x with partnerReady := Nat.testBit c 6, selfReady := ready, snr := snr }).settled)) := by
  simp [execTrainingFrame, lane, training, mode]

variable (mode : s.portMode (n / 4) < 3)
include mode

/-- A control word whose CRC fails is ignored (R339). -/
theorem execTrainingFrame_ignored (fails : bitsOf c 16 16 ≠ controlCrc c) : execTrainingFrame n c ready snr s = .next s := by
  simp [execTrainingFrame, Nat.not_le.2 lane, training, Nat.not_le.2 mode, fails]

/-- A control word whose CRC passes acts on the taps and the readiness, and is answered (R339, R340). -/
theorem execTrainingFrame_answers (passes : bitsOf c 16 16 = controlCrc c) : execTrainingFrame n c ready snr s =
    .next (((s.setReg (laneReg n 4) (s.trainedTaps n c)).modLane n (fun x => ({ x with
      partnerReady := Nat.testBit c 6, selfReady := ready, snr := snr, precode := Nat.testBit c 5
      lastApplied := some (bitsOf c 12 4) }).settled)).send (.handshake n (controlWord ready (bitsOf c 12 4)))) := by
  simp [execTrainingFrame, Nat.not_le.2 lane, training, Nat.not_le.2 mode, passes, State.trainedTaps]

end

/-- What a training request can come to: no change, the preset, or one tap moved within the limits of R340. -/
theorem requestTaps_cases {w tap r v : Nat} (h : requestTaps w tap r = some v) :
    (r = 0 ∧ v = w) ∨ (r = 3 ∧ v = 48 * 2 ^ 6) ∨ (tap ≤ 4 ∧ tapSum v ≤ 64 ∧ ∃ x, v = putBits w (tapBit tap) 6 x) := by
  unfold requestTaps at h
  split at h
  · exact .inl ⟨rfl, (Option.some.inj h).symm⟩
  · exact .inr (.inl ⟨rfl, (Option.some.inj h).symm⟩)
  · split at h
    · cases h
    · next tapOk =>
      obtain ⟨ok, taken⟩ := Option.ite_none_right_eq_some.1 h
      obtain rfl := Option.some.inj taken
      exact .inr (.inr ⟨by omega, of_decide_eq_true (Bool.and_eq_true_iff.1 ok).2, _, rfl⟩)

/-- The taps after a request are a word. -/
theorem requestTaps_lt {w tap r v : Nat} (h : requestTaps w tap r = some v) (word : w < 2 ^ 32) : v < 2 ^ 32 := by
  obtain ⟨-, rfl⟩ | ⟨-, rfl⟩ | ⟨tapOk, -, x, rfl⟩ := requestTaps_cases h
  · exact word
  · decide
  · exact putBits_lt x word (by unfold tapBit; omega)

/-- LANE_TXEQ takes the taps of a request that is applied, and stays where the request is refused or repeated (R339, R340). -/
theorem State.trainedTaps_spec (s : State) {n c : Nat} (lane : n < Config.lanes) :
    ((s.lane n).lastApplied = some (bitsOf c 12 4) → s.trainedTaps n c % 2 ^ 32 = s.reg (laneReg n 4)) ∧
    ((s.lane n).lastApplied ≠ some (bitsOf c 12 4) →
      (requestTaps (s.reg (laneReg n 4)) (bitsOf c 0 3) (bitsOf c 3 2) = none →
        s.trainedTaps n c % 2 ^ 32 = s.reg (laneReg n 4)) ∧
      (∀ w, requestTaps (s.reg (laneReg n 4)) (bitsOf c 0 3) (bitsOf c 3 2) = some w → s.trainedTaps n c % 2 ^ 32 = w)) := by
  have word := s.reg_laneTxeq_lt lane
  refine ⟨fun repeated => ?_, fun fresh => ⟨fun refused => ?_, fun w applied => ?_⟩⟩
  · rw [State.trainedTaps, if_pos repeated, Nat.mod_eq_of_lt word]
  · rw [State.trainedTaps, if_neg fresh, refused, Option.getD_none, Nat.mod_eq_of_lt word]
  · rw [State.trainedTaps, if_neg fresh, applied, Option.getD_some, Nat.mod_eq_of_lt (requestTaps_lt applied word)]

/-! ### LANE_STATUS -/

/-- LANE_STATUS is read as the error count in its lowest half word, below the state of the lane (R375). -/
theorem State.hostRead_laneStatus (s : State) {n : Nat} (lane : n < Config.lanes) :
    s.hostRead (laneReg n 8) % 65536 = s.field (laneReg n 8) 0 16 := by
  change n < 32 at lane
  have place : laneReg n 8 % 0x40 = 8 := by unfold laneReg; omega
  have high : 0xB2000 ≤ laneReg n 8 := by unfold laneReg; omega
  have halfFlag (b : Bool) : flag b 27 % 65536 = 0 ∧ flag b 26 % 65536 = 0 := by cases b <;> decide
  rw [s.hostRead_net (by unfold laneReg; omega) (by omega) (by unfold laneReg; omega)]
  unfold State.netRead
  rw [if_pos high]
  dsimp only
  rw [if_pos place, State.field, bitsOf, Nat.shiftRight_zero, Nat.shiftLeft_eq, Nat.shiftLeft_eq]
  have := halfFlag (s.lane ((laneReg n 8 - 0xB2000) / 0x40)).signal
  have := halfFlag (s.lane ((laneReg n 8 - 0xB2000) / 0x40)).precode
  omega

/-- A read of LANE_STATUS while a pattern is checked first adds the errors of the receiver to the count, which saturates (R341). -/
theorem State.countPattern_lane (s : State) {n : Nat} (lane : n < Config.lanes)
    (checked : s.field (laneReg n 0) 28 2 = 1 ∨ s.field (laneReg n 0) 28 2 = 2) : s.countPattern (laneReg n 8) =
    (s.setField (laneReg n 8) 0 16 (min 0xFFFF (s.field (laneReg n 8) 0 16 + Config.patternErrors n (s.lane n).checks))).modLane n
      (fun x => { x with checks := x.checks + 1 }) := by
  change n < 32 at lane
  have index : (laneReg n 8 - 0xB2000) / 0x40 = n := by unfold laneReg; omega
  obtain ⟨lo, hi, word⟩ : 0xB2000 ≤ laneReg n 8 ∧ laneReg n 8 < 0xB2800 ∧ laneReg n 8 % 0x40 = 8 := by unfold laneReg; omega
  unfold State.countPattern
  dsimp only
  rw [index, if_pos ⟨lo, hi, word, checked⟩, satAdd]

/-- A read of LANE_STATUS returns the word and clears its error count as the same access (R9, R375). -/
theorem execRcRead_laneStatus (s : State) {n : Nat} (lane : n < Config.lanes) : execRcRead (laneReg n 8) 4 s =
    .next (((s.countPattern (laneReg n 8)).setReg (laneReg n 8)
      (clearBits ((s.countPattern (laneReg n 8)).reg (laneReg n 8)) 0xFFFF)).returnData
        ((s.countPattern (laneReg n 8)).hostRead (laneReg n 8))) := by
  have bits : rcBits (laneReg n 8) = 0xFFFF := by rw [rcBits, regRow?_laneStatus lane]; rfl
  change n < 32 at lane
  have aligned : laneReg n 8 % 4 = 0 := by unfold laneReg; omega
  simp [execRcRead, aligned, bits, State.reaches_of_below _ (show laneReg n 8 < 0x01000000 by unfold laneReg; omega)]

/-- The lowest half word of a register whose 16 lowest bits are cleared. -/
theorem bitsOf_clearBits_half (v : Nat) : bitsOf (clearBits v 0xFFFF) 0 16 = 0 := by
  apply Nat.eq_of_testBit_eq
  intro i
  rw [testBit_bitsOf, testBit_clearBits, show (0xFFFF : Nat) = 2 ^ 16 - 1 from rfl, Nat.testBit_two_pow_sub_one]
  by_cases inside : i < 16
  · simp [inside]
  · simp [inside]

theorem State.field_clearHalf (s : State) (o : Nat) : (s.setReg o (clearBits (s.reg o) 0xFFFF)).field o 0 16 = 0 := by
  rw [State.field, State.reg_setReg_same, bitsOf_mod_word _ (by decide), bitsOf_clearBits_half]

/-- Settles O52: each event by the training state that it meets, a request by what it makes of the taps, and a port by the lane that takes
it down. -/
theorem lanesTrainAndLock : Obligations.LanesTrainAndLock := by
  unfold Obligations.LanesTrainAndLock
  simp only [exec_laneSignalDetect, exec_trainingFrame, exec_trainingTimeout, exec_trainingRetry, exec_laneLockLoss, exec_laneCtrl,
    exec_rcRead]
  refine ⟨fun n s lane => ⟨execLaneSignalDetect_off lane, fun waits => ?_, execLaneSignalDetect_on lane⟩,
    fun n c snr ready s lane => ⟨execTrainingFrame_other lane c snr ready, fun training mode => ?_⟩,
    fun n c snr ready s lane training mode => ⟨execTrainingFrame_ignored lane c snr ready training mode, fun passes => ?_⟩,
    fun w tap => ⟨rfl, rfl, fun r v keep preset applied => ?_⟩, fun n s lane => ?_,
    fun n v s lane => ⟨fun plain enabled => ?_, fun blocks => ?_⟩, fun n k s lane count checked => ?_⟩
  · refine ⟨_, execLaneSignalDetect_waits lane waits, State.lane_modLane_same .., ?_, fun m other => State.lane_modLane_other _ _ other,
      rfl, rfl, rfl⟩
    rw [State.reg_congr (State.modLane_regs ..), State.reg_setReg_same]
    rfl
  · refine ⟨_, execTrainingFrame_readiness lane c snr ready training mode, ?_, ?_, fun m other => State.lane_modLane_other _ _ other,
      rfl, rfl, rfl, rfl⟩
    · rw [State.lane_modLane_same]
      exact EthLane.settled_locked training
    · rw [State.lane_modLane_same, EthLane.settled_snr]
  · have taps (f : EthLane → EthLane) (x : Sent) : (((s.setReg (laneReg n 4) (s.trainedTaps n c)).modLane n f).send x).reg
        (laneReg n 4) = s.trainedTaps n c % 2 ^ 32 := State.reg_setReg_same ..
    obtain ⟨repeated, fresh⟩ := s.trainedTaps_spec (c := c) lane
    refine ⟨_, execTrainingFrame_answers lane c snr ready training mode passes, ?_, ?_, ?_, ?_, ?_, ?_, rfl, fun m other => ?_, rfl,
      rfl, rfl⟩
    · rw [State.send_lane, State.lane_modLane_same, EthLane.settled_lastApplied]
    · rw [State.send_lane, State.lane_modLane_same, EthLane.settled_snr]
    · rw [State.send_lane, State.lane_modLane_same, EthLane.settled_precode]
    · rw [State.send_lane, State.lane_modLane_same]
      exact EthLane.settled_locked training
    · rwa [taps]
    · rwa [taps]
    · rw [State.send_lane, State.lane_modLane_other _ _ other, State.setReg_lane]
  · obtain ⟨rfl, -⟩ | ⟨rfl, -⟩ | ⟨tapOk, sum, -⟩ := requestTaps_cases applied
    · exact absurd rfl keep
    · exact absurd rfl preset
    · exact ⟨tapOk, sum⟩
  · have unit : ¬Config.lanes ≤ n := Nat.not_le.2 lane
    unfold execTrainingTimeout execTrainingRetry execLaneLockLoss
    simp only [if_neg unit]
    exact ⟨fun is => if_pos is, fun isNot => if_neg isNot, fun is => if_pos is, fun isNot => if_neg isNot, fun is => if_pos is,
      fun isNot => if_neg isNot⟩
  · rw [execLaneCtrl_eq lane, if_neg]
    simp [State.laneBlocked_writeReg s _ lane, plain, enabled]
  · rw [execLaneCtrl_eq lane, if_pos (by simpa [State.laneBlocked_writeReg s _ lane] using blocks)]
    refine ⟨_, rfl, rfl, fun p own => ?_, fun unowned => ?_⟩
    · rw [State.laneDown_some ((s.portOfLane_laneCtrl v.toNat n lane).trans own)]
      obtain ⟨down, others⟩ := (s.writeReg (laneReg n 0) v.toNat).port_portDown p
      have same (q : Nat) : (s.writeReg (laneReg n 0) v.toNat).port q = s.port q := by
        rw [s.writeReg_of_row v.toNat (regRow?_laneCtrl lane), State.setReg_port]
      exact ⟨down, fun q other => (others q other).trans (same q)⟩
    · rw [State.laneDown_none ((s.portOfLane_laneCtrl v.toNat n lane).trans unowned)]
  · have counted := s.countPattern_lane lane checked
    have kept : (s.countPattern (laneReg n 8)).net.ports = s.net.ports ∧ (s.countPattern (laneReg n 8)).tiles = s.tiles ∧
        (s.countPattern (laneReg n 8)).kv = s.kv := by
      rw [counted]
      exact ⟨rfl, rfl, rfl⟩
    refine ⟨_, execRcRead_laneStatus s lane, ?_, State.field_clearHalf .., kept⟩
    calc (s.countPattern (laneReg n 8)).hostRead (laneReg n 8) % 65536
        = (s.countPattern (laneReg n 8)).field (laneReg n 8) 0 16 := State.hostRead_laneStatus _ lane
      _ = min 0xFFFF (s.field (laneReg n 8) 0 16 + Config.patternErrors n (s.lane n).checks) % 2 ^ 16 := by
          rw [counted]
          exact s.field_setField_low _ _ (by decide)
      _ = min 0xFFFF (k + Config.patternErrors n (s.lane n).checks) := by rw [count, Nat.mod_eq_of_lt (by omega)]

end Sys2Proof.Machine
end

section
/-!
SUPPORT. Port blocks and ports (R336, R344, R374, R399): the commands of LINK_CONFIG that set a block's mode and a port's addresses, and
how a port comes up and verifies preemption.
-/
namespace Sys2Proof.Machine

theorem exec_portMode (e : Entry) (s : State) : exec (.portMode e) s = execPortMode e s := rfl
theorem exec_portAddr (e : Entry) (s : State) : exec (.portAddr e) s = execPortAddr e s := rfl
theorem exec_pcsAlignment (p : Nat) (locked : Bool) (s : State) : exec (.pcsAlignment p locked) s = execPcsAlignment p locked s := rfl
theorem exec_preemptVerify (p : Nat) (ok : Bool) (s : State) : exec (.preemptVerify p ok) s = execPreemptVerify p ok s := rfl

@[simp] theorem State.begun_portMode (s : State) (e : Entry) (b : Nat) : (s.begun e).portMode b = s.portMode b := rfl

/-! ### LINK_CONFIG -/

/-- A LINK_CONFIG entry that begins runs the rules of its subfunction (R399). -/
theorem linkCmd_begins {e : Entry} {sub : Nat} {s : State} (body : Body) (begins : Begins e 0x71 false s) (names : e.op 8 1 = sub) :
    linkCmd e sub body s = .next (runBody e body (s.begun e)) := by
  rw [linkCmd, if_neg (by simp [names]), runCmd_begins body begins (by decide)]

section
variable {e : Entry} {s : State} (begins : Begins e 0x71 false s)
include begins

/-- PORT_MODE with a block, a mode or a pair of them that R336 and R338 do not have is INVALID (R399). -/
theorem execPortMode_invalid (names : e.op 8 1 = 0)
    (refused : 7 < e.op 9 1 ∨ 4 < e.op 10 1 ∨ (e.op 10 1 = 4 ∧ e.op 9 1 % 2 = 1) ∨ s.portMode (e.op 9 1) = 5) :
    execPortMode e s = .next ((s.begun e).complete e .invalid []) := by
  unfold execPortMode
  rw [if_neg (by simp [names]), runCmd_begins _ begins (by decide)]
  refine congrArg _ (runBody_done ?_)
  dsimp only
  rw [if_pos]
  simpa [names, or_assoc] using refused

/-- PORT_MODE between modes 0, 1 and 2 sets its block alone (R336, R399). -/
theorem execPortMode_native (names : e.op 8 1 = 0) (block : e.op 9 1 ≤ 7) (mode : e.op 10 1 ≤ 2) (old : s.portMode (e.op 9 1) ≤ 2)
    (change : e.op 10 1 ≠ s.portMode (e.op 9 1)) :
    execPortMode e s = .next (((s.begun e).setMode (e.op 9 1) (e.op 10 1) false).complete e .ok []) := by
  have allowed : ¬(7 < e.op 9 1 ∨ 4 < e.op 10 1 ∨ (e.op 10 1 = 4 ∧ e.op 9 1 % 2 = 1) ∨ s.portMode (e.op 9 1) = 5) := by omega
  have three : e.op 10 1 ≠ 3 := by omega
  have four : e.op 10 1 ≠ 4 := by omega
  unfold execPortMode
  rw [if_neg (by simp [names]), runCmd_begins _ begins (by decide)]
  refine congrArg _ (runBody_done ?_)
  dsimp only
  rw [if_neg (by simpa [names, or_assoc] using allowed), State.begun_portMode, if_neg change, if_neg four, if_neg (by omega),
    beq_false_of_ne three, beq_false_of_ne four]
  rfl

/-- PORT_ADDR takes an address of either IP version, of which no more bits than it has name the network (R399). -/
theorem execPortAddr_takes {n bits : Nat} (names : e.op 8 1 = 3) (port : e.op 9 1 < 16)
    (version : (e.op 10 1 = 4 ∧ n = 4 ∧ bits = 32) ∨ (e.op 10 1 = 6 ∧ n = 16 ∧ bits = 128)) (fits : e.op 36 1 ≤ bits) :
    execPortAddr e s = .next (((s.begun e).modPort (e.op 9 1) (fun x => { x with
      mac := e.op 14 6, ip := e.op 20 n, ipVersion := e.op 10 1, ipBits := e.op 36 1 })).complete e .ok []) := by
  unfold execPortAddr
  rw [linkCmd_begins _ begins names]
  refine congrArg _ (runBody_done ?_)
  obtain ⟨v4, rfl, rfl⟩ | ⟨v6, rfl, rfl⟩ := version
  · simp [v4, Nat.not_lt.2 (Nat.lt_succ_iff.1 port), Nat.not_lt.2 fits]
  · simp [v6, Nat.not_lt.2 (Nat.lt_succ_iff.1 port), Nat.not_lt.2 fits]

end

/-! ### Alignment and preemption -/

/-- The state in which a port has come up, and preemption is verified where it is offered (R344). -/
def State.portUp (s : State) (p : Nat) : State :=
  let t := s.modPort p (fun x => { x with up := true, preempt := false, attempts := s.field 0xB000C 2 1 })
  if s.field 0xB000C 2 1 = 1 then t.send (.verify p) else t

theorem execPcsAlignment_lost {p : Nat} (port : p < 16) (s : State) : execPcsAlignment p false s = .next (s.portDown p) := by
  simp [execPcsAlignment, port]

/-- A port that is down comes up once all its lanes are locked and none is blocked (R339). -/
theorem execPcsAlignment_up {p : Nat} {s : State} (port : p < 16) (down : (s.port p).up = false) (lanes : s.portLanes p ≠ [])
    (locked : ∀ n ∈ s.portLanes p, (s.lane n).train = .locked ∧ s.laneBlocked n = false) :
    execPcsAlignment p true s = .next (s.portUp p) := by
  have all : (s.portLanes p).all (fun n => (s.lane n).train == .locked && !s.laneBlocked n) = true :=
    List.all_eq_true.2 fun n mem => by simp [locked n mem]
  have ready : (!(s.port p).up && !(s.portLanes p).isEmpty &&
      (s.portLanes p).all (fun n => (s.lane n).train == .locked && !s.laneBlocked n)) = true := by simp [down, lanes, all]
  unfold execPcsAlignment State.portUp
  rw [if_neg (by omega), if_neg (by simp)]
  dsimp only
  rw [if_pos ready]
  simp only [decide_eq_true_eq, ← State.field_bit]

section
variable {p : Nat} {s : State} (port : p < 16) (up : (s.port p).up = true) (offered : (s.port p).attempts ≠ 0)
  (unverified : (s.port p).preempt = false)
include port up offered unverified

theorem execPreemptVerify_responds : execPreemptVerify p true s = .next (s.modPort p (fun x => { x with preempt := true })) := by
  simp [execPreemptVerify, port, up, offered, unverified]

theorem execPreemptVerify_again (few : (s.port p).attempts < 3) : execPreemptVerify p false s =
    .next ((s.modPort p (fun x => { x with attempts := x.attempts + 1 })).send (.verify p)) := by
  simp [execPreemptVerify, port, up, offered, unverified, few]

theorem execPreemptVerify_spent (three : 3 ≤ (s.port p).attempts) : execPreemptVerify p false s = .next s := by
  simp [execPreemptVerify, port, up, offered, unverified, Nat.not_lt.2 three]

end

/-- Settles O53: each command by what it checks of its entry, an alignment by the port that it brings up, a verification by its
answer. -/
theorem portsTakeModesAndComeUp : Obligations.PortsTakeModesAndComeUp := by
  unfold Obligations.PortsTakeModesAndComeUp
  simp only [exec_portMode, exec_portAddr, exec_pcsAlignment, exec_preemptVerify]
  refine ⟨fun e s begins names => ⟨execPortMode_native begins names, execPortMode_invalid begins names⟩,
    fun e s begins names port => ⟨fun v4 fits => ?_, fun v6 fits => ?_⟩, fun p s port => execPcsAlignment_lost port s,
    fun p s port down lanes locked => ?_, fun p s port up offered unverified => ?_⟩
  · rw [execPortAddr_takes begins names port (.inl ⟨v4, rfl, rfl⟩) fits, v4]
  · rw [execPortAddr_takes begins names port (.inr ⟨v6, rfl, rfl⟩) fits, v6]
  · refine ⟨_, execPcsAlignment_up port down lanes locked, ?_⟩
    unfold State.portUp
    dsimp only
    split
    · exact ⟨by simp, by simp, by simp, fun q other => (State.send_port ..).trans (State.port_modPort_other _ _ other),
        rfl, rfl, rfl, rfl⟩
    · exact ⟨by simp, by simp, by simp, fun q other => State.port_modPort_other _ _ other, rfl, rfl, rfl, rfl⟩
  · exact ⟨execPreemptVerify_responds port up offered unverified, execPreemptVerify_again port up offered unverified,
      execPreemptVerify_spent port up offered unverified⟩

end Sys2Proof.Machine
end

section
/-!
SUPPORT. Flow control (R338, R342, R343): what a PFC frame and the end of a pause make of a port's paused classes and of what waits there,
and the XOFF and XON of a lossless class.
-/
namespace Sys2Proof.Machine

theorem exec_pfcFrame (p classes quanta : Nat) (s : State) : exec (.pfcFrame p classes quanta) s = execPfcFrame p classes quanta s := rfl
theorem exec_pfcPauseExpiry (p c : Nat) (s : State) : exec (.pfcPauseExpiry p c) s = execPfcPauseExpiry p c s := rfl
theorem exec_pfcXoffRepeat (p c occ : Nat) (s : State) : exec (.pfcXoffRepeat p c occ) s = execPfcXoffRepeat p c occ s := rfl
theorem exec_pauseFrame (p : Nat) (s : State) : exec (.pauseFrame p) s = execPauseFrame p s := rfl

/-! ### The end of a pause -/

/-- What the frames that leave a port keep: its paused classes, the other ports, the registers, the tiles and HBM (R343). -/
structure State.PausesStay (p : Nat) (s t : State) : Prop where
  paused : (t.port p).paused = (s.port p).paused
  others : ∀ q, q ≠ p → t.port q = s.port q
  regs : t.regs = s.regs
  tiles : t.tiles = s.tiles
  kv : t.kv = s.kv

theorem State.PausesStay.refl (p : Nat) (s : State) : s.PausesStay p s := ⟨rfl, fun _ _ => rfl, rfl, rfl, rfl⟩

theorem State.PausesStay.trans {p : Nat} {s t u : State} (h : s.PausesStay p t) (k : t.PausesStay p u) : s.PausesStay p u :=
  ⟨k.paused.trans h.paused, fun q other => (k.others q other).trans (h.others q other), k.regs.trans h.regs, k.tiles.trans h.tiles,
    k.kv.trans h.kv⟩

/-- A change of a port that leaves its paused classes. -/
theorem State.modPort_pausesStay (s : State) {p : Nat} {f : Port → Port} (same : (f (s.port p)).paused = (s.port p).paused) :
    s.PausesStay p (s.modPort p f) :=
  ⟨by rw [State.port_modPort_same, same], fun _ other => State.port_modPort_other _ _ other, rfl, rfl, rfl⟩

theorem State.send_pausesStay (s : State) (p : Nat) (x : Sent) : s.PausesStay p (s.send x) := ⟨rfl, fun _ _ => rfl, rfl, rfl, rfl⟩

theorem State.releasePort_pausesStay (p fuel : Nat) (s : State) : s.PausesStay p (State.releasePort p fuel s) := by
  induction fuel generalizing s with
  | zero => exact .refl p s
  | succ fuel ih =>
    unfold State.releasePort
    dsimp only
    split
    · split
      · exact s.modPort_pausesStay rfl
      · exact .refl p s
    · exact ((s.modPort_pausesStay rfl).trans (State.send_pausesStay ..)).trans (ih _)

/-- Classes that are no longer paused at a port: the others stay paused, and so does every class of another port (R343). -/
theorem State.resumePort_spec (s : State) (p classes : Nat) :
    ((s.resumePort p classes).port p).paused = clearBits (s.port p).paused classes ∧
    (∀ q, q ≠ p → (s.resumePort p classes).port q = s.port q) ∧ (s.resumePort p classes).regs = s.regs ∧
    (s.resumePort p classes).tiles = s.tiles ∧ (s.resumePort p classes).kv = s.kv := by
  have stays := State.releasePort_pausesStay p
    (((s.modPort p (fun x => { x with paused := clearBits x.paused classes })).port p).waiting.length + 1)
    (s.modPort p (fun x => { x with paused := clearBits x.paused classes }))
  refine ⟨?_, fun q other => (stays.others q other).trans (State.port_modPort_other _ _ other), stays.regs, stays.tiles, stays.kv⟩
  rw [State.resumePort, stays.paused, State.port_modPort_same]

/-- The only frame that waits, of a class that is not paused, leaves, and the port waits for nothing more (R342). -/
theorem State.releasePort_single {p c fuel : Nat} {x : Sent} {s : State} (lossless : c < 2) (waits : (s.port p).waiting = [(c, x)])
    (free : (s.port p).paused.testBit c = false) : ((State.releasePort p (fuel + 2) s).port p).waiting = [] ∧
      (State.releasePort p (fuel + 2) s).outside.sent = x :: s.outside.sent := by
  have next : (s.port p).next = c := by
    unfold Port.next
    obtain rfl | rfl : c = 0 ∨ c = 1 := by omega
    · simp [waits, free]
    · simp [waits, free]
  have leaves : State.releasePort p (fuel + 2) s = State.releasePort p (fuel + 1) ((s.modPort p (fun q =>
      { (q.spend c x.size) with waiting := q.waiting.eraseP (fun v => v.1 == c) })).send x) := by
    rw [State.releasePort]
    simp only [next, waits, List.find?_cons, beq_self_eq_true, free]
    rfl
  rw [leaves, State.releasePort]
  simp [waits]

/-- The end of a pause lets the only frame go that waited for it (R343). -/
theorem State.resumePort_single {p c : Nat} {x : Sent} {s : State} (lossless : c < 2) (waits : (s.port p).waiting = [(c, x)]) :
    ((s.resumePort p (2 ^ c)).port p).waiting = [] ∧ (s.resumePort p (2 ^ c)).outside.sent = x :: s.outside.sent := by
  unfold State.resumePort
  dsimp only
  rw [State.port_modPort_same]
  dsimp only
  rw [waits]
  exact State.releasePort_single (fuel := 0) (s := s.modPort p _) lossless (by rw [State.port_modPort_same, waits])
    (by rw [State.port_modPort_same, testBit_clearBits, Nat.testBit_two_pow_self, Bool.not_true, Bool.and_false])

theorem execPfcPauseExpiry_eq {p c : Nat} {s : State} (port : p < 16) (lossless : c < 2) :
    execPfcPauseExpiry p c s = .next (s.resumePort p (2 ^ c)) := by
  simp [execPfcPauseExpiry, port, lossless]

/-! ### PFC frames -/

/-- The lossless classes that a PFC frame names, as a mask: those on which PFC acts and whose PCP is among the frame's (R343). -/
def State.pfcNamed (s : State) (classes : Nat) : Nat :=
  ((List.range 2).filter (fun c => s.pfcOn c && Nat.testBit classes (s.classPcp c))).foldl (fun m c => m + 2 ^ c) 0

/-- A mask of the classes that pass a test has the bits of those that do. -/
theorem testBit_classMask (f : Nat → Bool) {c : Nat} (lossless : c < 2) :
    (((List.range 2).filter f).foldl (fun m c => m + 2 ^ c) 0).testBit c = f c := by
  have mask : ((List.range 2).filter f).foldl (fun m c => m + 2 ^ c) 0 = (f 0).toNat + 2 * (f 1).toNat := by
    cases h0 : f 0 <;> cases h1 : f 1 <;> simp [show List.range 2 = [0, 1] from rfl, h0, h1]
  rw [mask]
  obtain rfl | rfl : c = 0 ∨ c = 1 := by omega
  · cases f 0 <;> cases f 1 <;> rfl
  · cases f 0 <;> cases f 1 <;> rfl

theorem State.testBit_pfcNamed (s : State) (classes : Nat) {c : Nat} (lossless : c < 2) :
    (s.pfcNamed classes).testBit c = (s.pfcOn c && Nat.testBit classes (s.classPcp c)) := testBit_classMask _ lossless

theorem execPfcFrame_express {p classes quanta : Nat} {s : State} (port : p < 16)
    (express : Nat.testBit classes (s.field 0xB0008 29 3) = true) : execPfcFrame p classes quanta s = .next s := by
  simp [execPfcFrame, port, express]

theorem execPfcFrame_named {p classes quanta : Nat} {s : State} (port : p < 16)
    (lossless : Nat.testBit classes (s.field 0xB0008 29 3) = false) : execPfcFrame p classes quanta s =
    .next (if quanta = 0 then s.resumePort p (s.pfcNamed classes)
      else s.modPort p (fun x => { x with paused := x.paused ||| s.pfcNamed classes })) := by
  simp [execPfcFrame, port, lossless, State.pfcNamed]

/-- A PFC frame sets or ends the pause of the classes that it names, by its quanta, and of no other (R343). -/
theorem execPfcFrame_spec {p classes quanta : Nat} {s : State} (port : p < 16)
    (lossless : Nat.testBit classes (s.field 0xB0008 29 3) = false) : ∃ t, execPfcFrame p classes quanta s = .next t ∧
      (∀ c, c < 2 → Nat.testBit (t.port p).paused c =
        if s.pfcOn c = true ∧ Nat.testBit classes (s.classPcp c) = true then decide (quanta ≠ 0)
        else Nat.testBit (s.port p).paused c) ∧
      (∀ q, q ≠ p → t.port q = s.port q) ∧ t.regs = s.regs ∧ t.tiles = s.tiles ∧ t.kv = s.kv := by
  refine ⟨_, execPfcFrame_named port lossless, ?_⟩
  by_cases resumes : quanta = 0
  · obtain ⟨paused, kept⟩ := s.resumePort_spec p (s.pfcNamed classes)
    rw [if_pos resumes]
    refine ⟨fun c two => ?_, kept⟩
    rw [paused, testBit_clearBits, s.testBit_pfcNamed classes two]
    simp only [← Bool.and_eq_true]
    cases s.pfcOn c && Nat.testBit classes (s.classPcp c) <;> simp [resumes]
  · rw [if_neg resumes]
    refine ⟨fun c two => ?_, fun q other => State.port_modPort_other _ _ other, rfl, rfl, rfl⟩
    rw [State.port_modPort_same, Nat.testBit_or, s.testBit_pfcNamed classes two]
    simp only [← Bool.and_eq_true]
    cases s.pfcOn c && Nat.testBit classes (s.classPcp c) <;> simp [resumes]

/-! ### XOFF and XON -/

@[simp] theorem State.modPort_classPcp (s : State) (p c : Nat) (f : Port → Port) : (s.modPort p f).classPcp c = s.classPcp c := rfl


section
variable {p c occ : Nat} {s : State} (port : p < 16) (lossless : c < 2)
include port lossless

theorem execPfcXoffRepeat_off (off : s.pfcOn c = false) : execPfcXoffRepeat p c occ s = .next s := by
  simp [execPfcXoffRepeat, port, lossless, off]

variable (on : s.pfcOn c = true)
include on

/-- A class above 1 MiB asks the sender to stop, and counts it (R343, R369, R511). -/
theorem execPfcXoffRepeat_xoff (full : 1048576 < occ) : execPfcXoffRepeat p c occ s =
    .next ((((s.modPort p (fun x => { x with xoff := x.xoff ||| 2 ^ c })).send (.pfc p (2 ^ s.classPcp c) 0xFFFF)).orReg
      0xB0004 2).count 72 1) := by
  have off : (decide (1048576 < occ) || (Nat.testBit (s.port p).xoff c && decide (524288 ≤ occ))) = true := by simp [full]
  unfold execPfcXoffRepeat
  rw [if_neg (by simp; omega), if_neg (by simp [on])]
  simp only [off, if_true, State.modPort_classPcp]

/-- A class that asked for it and has fallen below 512 KiB lets the sender go on (R343). -/
theorem execPfcXoffRepeat_xon (drained : occ < 524288) (stopped : Nat.testBit (s.port p).xoff c = true) : execPfcXoffRepeat p c occ s =
    .next ((s.modPort p (fun x => { x with xoff := clearBits x.xoff (2 ^ c) })).send (.pfc p (2 ^ s.classPcp c) 0)) := by
  have off : (decide (1048576 < occ) || (Nat.testBit (s.port p).xoff c && decide (524288 ≤ occ))) = false := by
    rw [decide_eq_false (by omega), decide_eq_false (by omega), Bool.and_false, Bool.or_false]
  unfold execPfcXoffRepeat
  rw [if_neg (by simp; omega), if_neg (by simp [on])]
  simp only [off, Bool.false_eq_true, if_false, State.modPort_classPcp]
  rw [if_pos stopped]

end

/-- Settles O54: a PFC frame by the classes that it names, the end of a pause by what waits, and a class by its occupancy. -/
theorem flowControlOfTheLosslessClasses : Obligations.FlowControlOfTheLosslessClasses := by
  unfold Obligations.FlowControlOfTheLosslessClasses
  simp only [exec_pfcFrame, exec_pfcPauseExpiry, exec_pfcXoffRepeat, exec_pauseFrame]
  refine ⟨fun p classes quanta s port => execPfcFrame_express port, fun p classes quanta s port => execPfcFrame_spec port,
    fun p c s port lossless => ?_, fun p c x s => ⟨fun paused => ?_, fun free => ?_⟩,
    fun p c occ s port lossless => ⟨execPfcXoffRepeat_off port lossless, fun on full => ?_, fun on drained stopped => ?_⟩,
    fun p s port => ?_⟩
  · obtain ⟨paused, others, regs, tiles, kv⟩ := s.resumePort_spec p (2 ^ c)
    have ended (d : Nat) : Nat.testBit ((s.resumePort p (2 ^ c)).port p).paused d =
        (Nat.testBit (s.port p).paused d && !decide (c = d)) := by rw [paused, testBit_clearBits, Nat.testBit_two_pow]
    refine ⟨_, execPfcPauseExpiry_eq port lossless, by simp [ended], fun d other => by simp [ended, other.symm], others, regs, tiles, kv,
      fun x waits => ?_⟩
    exact State.resumePort_single lossless waits
  · rw [State.egress, if_pos paused]
    exact ⟨rfl, by rw [State.port_modPort_same]⟩
  · rw [State.egress, if_neg (by simp [free])]
  · refine ⟨_, execPfcXoffRepeat_xoff port lossless on full, ?_, ?_, State.counter_count .., rfl⟩
    · have asks (t : State) : ((t.orReg 0xB0004 2).count 72 1).port p = t.port p := rfl
      rw [asks, State.send_port, State.port_modPort_same, Nat.testBit_or, Nat.testBit_two_pow_self, Bool.or_true]
    · rw [State.reg_congr (State.count_regs ..)]
      exact State.testBit_orReg _ _ (by decide) (by decide)
  · refine ⟨_, execPfcXoffRepeat_xon port lossless on drained stopped, ?_, rfl, rfl⟩
    rw [State.send_port, State.port_modPort_same, testBit_clearBits, Nat.testBit_two_pow_self, Bool.not_true, Bool.and_false]
  · simp [execPauseFrame, port]

end Sys2Proof.Machine
end

section
/-!
SUPPORT. Host frames and their rings (R338, R342, R348, R349, R372, R380, R399): how a ring is placed, a tail hands descriptors over, a
frame is stored or dropped, and a frame leaves.
-/
namespace Sys2Proof.Machine

theorem exec_hostRing (e : Entry) (s : State) : exec (.hostRing e) s = execHostRing e s := rfl
theorem exec_netHostTxTail (v : Word) (ds : List (List Byte)) (s : State) : exec (.netHostTxTail v ds) s = execNetHostTxTail v ds s := rfl
theorem exec_netHostRxTail (v : Word) (ds : List (List Byte)) (s : State) : exec (.netHostRxTail v ds) s = execNetHostRxTail v ds s := rfl
theorem exec_hostFrameReceive (p : Nat) (frame : List Byte) (s : State) :
    exec (.hostFrameReceive p frame) s = execHostFrameReceive p frame s := rfl
theorem exec_hostFrameTransmitted (frame : List Byte) (s : State) :
    exec (.hostFrameTransmitted frame) s = execHostFrameTransmitted frame s := rfl

/-! ### A ring after a change of one -/

/-- States with the same network have the same rings. -/
theorem State.hostRing_congr {s t : State} (h : s.net = t.net) (rx : Bool) : s.hostRing rx = t.hostRing rx := by
  unfold State.hostRing
  rw [h]

/-- The function of two states with the same PCIe state may issue requests in both or in neither (R380). -/
theorem State.mayRequest_congr {s t : State} (h : s.pcie = t.pcie) : s.mayRequest = t.mayRequest := by
  unfold State.mayRequest
  rw [h]

@[simp] theorem State.hostRing_modHostRing_same (s : State) (rx : Bool) (f : HostRing → HostRing) :
    (s.modHostRing rx f).hostRing rx = f (s.hostRing rx) := by
  cases rx <;> rfl

@[simp] theorem State.hostRing_modHostRing_other (s : State) (rx : Bool) (f : HostRing → HostRing) :
    (s.modHostRing rx f).hostRing (!rx) = s.hostRing (!rx) := by
  cases rx <;> rfl

@[simp] theorem State.modHostRing_regs (s : State) (rx : Bool) (f : HostRing → HostRing) : (s.modHostRing rx f).regs = s.regs := by
  cases rx <;> rfl

@[simp] theorem State.modHostRing_tiles (s : State) (rx : Bool) (f : HostRing → HostRing) : (s.modHostRing rx f).tiles = s.tiles := by
  cases rx <;> rfl

@[simp] theorem State.modHostRing_kv (s : State) (rx : Bool) (f : HostRing → HostRing) : (s.modHostRing rx f).kv = s.kv := by
  cases rx <;> rfl

@[simp] theorem State.modHostRing_pcie (s : State) (rx : Bool) (f : HostRing → HostRing) : (s.modHostRing rx f).pcie = s.pcie := by
  cases rx <;> rfl

@[simp] theorem State.modHostRing_outside (s : State) (rx : Bool) (f : HostRing → HostRing) :
    (s.modHostRing rx f).outside = s.outside := by
  cases rx <;> rfl

/-! ### HOST_RING -/

section
variable {e : Entry} {s : State} (begins : Begins e 0x71 false s) (names : e.op 8 1 = 4)
include begins names

theorem execHostRing_invalid (refused : 1 < e.op 9 1 ∨ e.op 10 2 < 64 ∨ 4096 < e.op 10 2 ∨ e.op 16 8 % 4096 ≠ 0) :
    execHostRing e s = .next ((s.begun e).complete e .invalid []) := by
  unfold execHostRing
  rw [linkCmd_begins _ begins names]
  refine congrArg _ (runBody_done (if_pos ?_))
  simpa [or_assoc] using refused

/-- A ring of a legal size at an aligned base is placed, and its tail is 0 (R349, R399). -/
theorem execHostRing_places {rx : Bool} (kind : e.op 9 1 = rx.toNat) (most : e.op 10 2 ≤ 4096) (least : 64 ≤ e.op 10 2)
    (aligned : e.op 16 8 % 4096 = 0) : execHostRing e s = .next ((((s.begun e).modHostRing rx (fun _ =>
      { base := e.op 16 8, count := e.op 10 2 })).setReg (hostTail rx) 0).complete e .ok []) := by
  unfold execHostRing
  rw [linkCmd_begins _ begins names]
  refine congrArg _ (runBody_done ?_)
  cases rx with
  | false =>
    change e.op 9 1 = 0 at kind
    simp [kind, Nat.not_lt.2 most, Nat.not_lt.2 least, aligned]
  | true =>
    change e.op 9 1 = 1 at kind
    simp [kind, Nat.not_lt.2 most, Nat.not_lt.2 least, aligned]

end

/-! ### Tails -/

/-- Descriptors that the device reads by DMA pass its check-value engine one after the other (R349, R480). -/
def State.dmaDescriptors (s : State) (ds : List (List Byte)) : State := ds.foldl (fun s d => s.snoop 8 [(1, none)] d) s

@[simp] theorem State.dmaDescriptors_tiles (s : State) (ds : List (List Byte)) : (s.dmaDescriptors ds).tiles = s.tiles := by
  simp [State.dmaDescriptors]

@[simp] theorem State.dmaDescriptors_kv (s : State) (ds : List (List Byte)) : (s.dmaDescriptors ds).kv = s.kv := by
  simp [State.dmaDescriptors]

@[simp] theorem State.dmaDescriptors_net (s : State) (ds : List (List Byte)) : (s.dmaDescriptors ds).net = s.net := by
  simp [State.dmaDescriptors]

@[simp] theorem State.dmaDescriptors_outside (s : State) (ds : List (List Byte)) : (s.dmaDescriptors ds).outside = s.outside := by
  simp [State.dmaDescriptors]

@[simp] theorem State.dmaDescriptors_hostRing (s : State) (ds : List (List Byte)) (rx : Bool) :
    (s.dmaDescriptors ds).hostRing rx = s.hostRing rx := State.hostRing_congr (s.dmaDescriptors_net ds) rx

theorem State.reg_dmaDescriptors (s : State) (ds : List (List Byte)) (rx : Bool) :
    (s.dmaDescriptors ds).reg (hostTail rx) = s.reg (hostTail rx) :=
  List.foldlRecOn (motive := fun t : State => t.reg (hostTail rx) = s.reg (hostTail rx)) ds _ rfl fun t same d _ =>
    (t.reg_snoop _ _ (by decide) (by cases rx <;> decide)).trans same

section
variable {s : State} {rx : Bool} {v : Nat} {ds fresh : List (List Byte)}

/-- A tail at or above the count is held and hands nothing over (R349). -/
theorem State.handTail_beyond (beyond : (s.hostRing rx).count ≤ v % 4096) : s.handTail rx v ds = s.setReg (hostTail rx) (v % 4096) :=
  if_pos beyond

variable (inside : v % 4096 < (s.hostRing rx).count)
  (handed : fresh = ds.take ((v % 4096 + (s.hostRing rx).count - (s.hostRing rx).tail) % (s.hostRing rx).count))
include inside handed

/-- While the function may issue no request, descriptors that were handed over wait to be read (R380). -/
theorem State.handTail_waits (still : s.mayRequest = false) : s.handTail rx v ds =
    (s.setReg (hostTail rx) (v % 4096)).modHostRing rx (fun g => { g with tail := v % 4096, unread := g.unread ++ fresh }) := by
  have may (f : HostRing → HostRing) : ((s.setReg (hostTail rx) (v % 4096)).modHostRing rx f).mayRequest = false :=
    (State.mayRequest_congr (State.modHostRing_pcie ..)).trans still
  unfold State.handTail State.readDescriptors
  dsimp only
  rw [if_neg (Nat.not_le.2 inside), may, if_pos (by decide), handed]

/-- Descriptors that were handed over are read at once where the function may issue requests (R349). -/
theorem State.handTail_reads (may : s.mayRequest = true) : s.handTail rx v ds =
    (((s.setReg (hostTail rx) (v % 4096)).modHostRing rx (fun g => { g with tail := v % 4096, unread := g.unread ++ fresh })).dmaDescriptors
      ((s.hostRing rx).unread ++ fresh)).modHostRing rx (fun g => { g with queue := g.queue ++ g.unread, unread := [] }) := by
  have may' (f : HostRing → HostRing) : ((s.setReg (hostTail rx) (v % 4096)).modHostRing rx f).mayRequest = true :=
    (State.mayRequest_congr (State.modHostRing_pcie ..)).trans may
  unfold State.handTail State.readDescriptors
  dsimp only
  rw [if_neg (Nat.not_le.2 inside), may', if_neg (by decide), State.hostRing_modHostRing_same, handed]
  rfl

end

/-- What a tail leaves, whether it hands descriptors over or not (R349). -/
theorem State.handTail_frame (s : State) (rx : Bool) (v : Nat) (ds : List (List Byte)) :
    (s.handTail rx v ds).tiles = s.tiles ∧ (s.handTail rx v ds).kv = s.kv ∧ (s.handTail rx v ds).outside = s.outside ∧
      (s.handTail rx v ds).hostRing (!rx) = s.hostRing (!rx) ∧ (s.handTail rx v ds).reg (hostTail rx) = v % 4096 := by
  have word : v % 4096 % 2 ^ 32 = v % 4096 := by omega
  have tail (f : HostRing → HostRing) : ((s.setReg (hostTail rx) (v % 4096)).modHostRing rx f).reg (hostTail rx) = v % 4096 := by
    rw [State.reg_congr (State.modHostRing_regs ..), State.reg_setReg_same, word]
  have other : (s.setReg (hostTail rx) (v % 4096)).hostRing (!rx) = s.hostRing (!rx) := rfl
  by_cases inside : v % 4096 < (s.hostRing rx).count
  · cases may : s.mayRequest with
    | false =>
      rw [State.handTail_waits inside rfl may, State.hostRing_modHostRing_other, tail]
      exact ⟨by simp, by simp, by simp, other, rfl⟩
    | true =>
      rw [State.handTail_reads inside rfl may, State.hostRing_modHostRing_other, State.dmaDescriptors_hostRing,
        State.hostRing_modHostRing_other, State.reg_congr (State.modHostRing_regs ..), State.reg_dmaDescriptors, tail]
      exact ⟨by simp, by simp, by simp, other, rfl⟩
  · rw [State.handTail_beyond (Nat.not_lt.1 inside), State.reg_setReg_same, word]
    exact ⟨rfl, rfl, rfl, other, rfl⟩

/-! ### Descriptors that return -/

/-- A descriptor that returns moves the head of its ring and leaves its queue (R349). -/
theorem State.net_giveBack (s : State) (rx : Bool) (bs : List Byte) : (s.giveBack rx bs).net =
    (s.modHostRing rx (fun g => { g with head := (g.head + 1) % g.count, queue := g.queue.drop 1 })).net := by
  cases rx <;> simp [State.giveBack, State.modHostRing]

/-- A descriptor that returns is written at the head of its ring (R349). -/
theorem State.outside_giveBack (s : State) (rx : Bool) (bs : List Byte) : (s.giveBack rx bs).outside = { s.outside with
    hostMem := memWriteList s.outside.hostMem ((s.hostRing rx).base + 32 * (s.hostRing rx).head) bs } := by
  unfold State.giveBack
  rw [State.modHostRing_outside]
  simp [State.hostWrite]

@[simp] theorem State.giveBack_tiles (s : State) (rx : Bool) (bs : List Byte) : (s.giveBack rx bs).tiles = s.tiles := by
  simp [State.giveBack]

@[simp] theorem State.giveBack_kv (s : State) (rx : Bool) (bs : List Byte) : (s.giveBack rx bs).kv = s.kv := by
  simp [State.giveBack]

/-- A queue that is empty, or whose first descriptor passes its CRC, returns none unused (R349). -/
theorem State.returnBad_sound (rx : Bool) {queue : List (List Byte)} (s : State)
    (sound : queue = [] ∨ ∃ d ds, queue = d :: ds ∧ descriptorOk d = true) : State.returnBad rx queue s = s := by
  obtain rfl | ⟨d, ds, rfl, ok⟩ := sound
  · rfl
  · rw [State.returnBad, if_pos ok]

/-! ### Frames that arrive -/

section
variable {p : Nat} {frame : List Byte} {s : State} (port : p < 16)
include port

theorem execHostFrameReceive_overlong (long : 9212 < frame.length) : execHostFrameReceive p frame s =
    .next (s.modPort p (fun x => { x with overlong := x.overlong + 1 })) := by
  rw [execHostFrameReceive, if_neg (by omega), if_pos (by omega)]

theorem execHostFrameReceive_runt (short : frame.length < 60) : execHostFrameReceive p frame s = .next s := by
  rw [execHostFrameReceive, if_neg (by omega), if_neg (by omega), if_pos (by simp; omega)]

theorem execHostFrameReceive_consumed (fits : frame.length ≤ 9212) (own : s.consumes frame = true) :
    execHostFrameReceive p frame s = .next s := by
  rw [execHostFrameReceive, if_neg (by omega), if_neg (by omega), if_pos (by simp [own])]

variable (least : 60 ≤ frame.length) (most : frame.length ≤ 9212) (host : s.consumes frame = false)
include least most host

/-- A frame of a legal length that the device does not consume itself is a host frame (R338, R349). -/
theorem execHostFrameReceive_host : execHostFrameReceive p frame s = .next (s.hostFrameIn p frame) := by
  rw [execHostFrameReceive, if_neg (by omega), if_neg (by omega), if_neg (by simp [host]; omega)]

end

section
variable {p at_ : Nat} {frame d : List Byte} {ds : List (List Byte)} {s : State}

/-- A frame that no descriptor takes is dropped and counted (R349). -/
theorem State.storeHostFrame_drops (untaken : s.net.rxRing.queue = [] ∨
    ∃ d ds, s.net.rxRing.queue = d :: ds ∧ descriptorOk d = true ∧ fieldAt d 8 2 < frame.length) : s.storeHostFrame p at_ frame = s.dropHostFrame := by
  unfold State.storeHostFrame
  obtain empty | ⟨d, ds, first, ok, short⟩ := untaken
  · rw [State.returnBad_sound true s (.inl empty)]
    dsimp only
    rw [empty]
  · rw [State.returnBad_sound true s (.inr ⟨d, ds, first, ok⟩)]
    dsimp only
    rw [first]
    exact if_pos short

/-- A frame that the first descriptor has room for is written to its buffer, and the descriptor returns (R348, R349). -/
theorem State.storeHostFrame_stores (first : s.net.rxRing.queue = d :: ds) (ok : descriptorOk d = true)
    (room : frame.length ≤ fieldAt d 8 2) : s.storeHostFrame p at_ frame =
    (((s.snoop 9 [(1, none)] frame).hostWrite (fieldAt d 0 8) frame).giveBack true
      (returned d frame.length p (if s.net.rxRing.dropped then 12 else 4) at_)).modHostRing true
        (fun g => { g with dropped := false }) := by
  have flags : (4 + if s.net.rxRing.dropped = true then 8 else 0) = if s.net.rxRing.dropped = true then 12 else 4 := by split <;> rfl
  unfold State.storeHostFrame
  rw [State.returnBad_sound true s (.inr ⟨d, ds, first, ok⟩), ← flags]
  dsimp only
  rw [first]
  exact if_neg (Nat.not_lt.2 room)

end

/-- What the drop of a host frame does (R349, R369, R511). -/
theorem State.dropHostFrame_spec (s : State) : s.dropHostFrame.net = { s.net with rxRing := { s.net.rxRing with dropped := true } } ∧
    Nat.testBit (s.dropHostFrame.reg 0xB0004) 2 = true ∧ s.dropHostFrame.counter 73 = min 0xFFFFFFFFFFFF (s.counter 73 + 1) ∧
    s.dropHostFrame.outside = s.outside ∧ s.dropHostFrame.tiles = s.tiles ∧ s.dropHostFrame.kv = s.kv := by
  refine ⟨rfl, ?_, State.counter_count .., rfl, rfl, rfl⟩
  rw [State.dropHostFrame, State.reg_congr (State.count_regs ..)]
  exact State.testBit_orReg _ _ (by decide) (by decide)

section
variable {p : Nat} {frame : List Byte} {s : State}

/-- While the function may issue no request, a host frame waits with the time of its arrival (R348, R380). -/
theorem State.hostFrameIn_waits (still : s.mayRequest = false) : s.hostFrameIn p frame =
    { s.ethIn p (7, none) frame with net := { s.net with arrived := s.net.arrived ++ [(p, s.net.ptpNs, frame)] } } := by
  have still' : (s.ethIn p (7, none) frame).mayRequest = false := (State.mayRequest_congr (State.ethIn_pcie ..)).trans still
  unfold State.hostFrameIn
  dsimp only
  rw [still', if_neg (by decide), State.ethIn_net]

/-- A host frame is stored as it arrives where the function may issue requests (R348, R349). -/
theorem State.hostFrameIn_stores (may : s.mayRequest = true) : s.hostFrameIn p frame =
    (s.ethIn p (7, none) frame).storeHostFrame p s.net.ptpNs frame := by
  have may' : (s.ethIn p (7, none) frame).mayRequest = true := (State.mayRequest_congr (State.ethIn_pcie ..)).trans may
  unfold State.hostFrameIn
  dsimp only
  rw [may', if_pos rfl, State.ethIn_net]

end

/-- What a frame that is stored does to its ring, to host memory and to the rest (R349). -/
theorem State.storedFrame_spec (s : State) (frame : List Byte) (at_ : Nat) (bs : List Byte) {t : State}
    (stored : t = (((s.snoop 9 [(1, none)] frame).hostWrite at_ frame).giveBack true bs).modHostRing true (fun g =>
      { g with dropped := false })) :
    t.net = { s.net with rxRing := { s.net.rxRing with
      head := (s.net.rxRing.head + 1) % s.net.rxRing.count, queue := s.net.rxRing.queue.drop 1, dropped := false } } ∧
    t.outside = { s.outside with
      hostMem := memWriteList (memWriteList s.outside.hostMem at_ frame) (s.net.rxRing.base + 32 * s.net.rxRing.head) bs } ∧
    t.tiles = s.tiles ∧ t.kv = s.kv := by
  have ring : ((s.snoop 9 [(1, none)] frame).hostWrite at_ frame).net = s.net := by simp
  subst stored
  refine ⟨?_, ?_, by simp, by simp⟩
  · have give := State.net_giveBack ((s.snoop 9 [(1, none)] frame).hostWrite at_ frame) true bs
    unfold State.modHostRing
    rw [if_pos rfl, give]
    simp [State.modHostRing]
  · rw [State.modHostRing_outside, State.outside_giveBack, State.hostRing_congr ring]
    simp [State.hostWrite, State.hostRing]

/-! ### Frames that leave -/

theorem execHostFrameTransmitted_idle {frame : List Byte} {s : State} (idle : s.mayRequest = false ∨ s.net.txRing.queue = []) :
    execHostFrameTransmitted frame s = .next s := by
  unfold execHostFrameTransmitted
  obtain still | empty := idle
  · rw [still, if_pos (by decide)]
  · split
    · rfl
    · rw [State.returnBad_sound false s (.inl empty)]
      dsimp only
      rw [empty]

/-- The only descriptor of the queue returns unused where its CRC fails (R349). -/
theorem execHostFrameTransmitted_bad {frame d : List Byte} {s : State} (may : s.mayRequest = true) (only : s.net.txRing.queue = [d])
    (bad : descriptorOk d = false) : execHostFrameTransmitted frame s = .next (s.giveBack false
      (returned d (fieldAt d 8 2) 0xFF (clearBits (fieldAt d 11 1) 1) (fieldAt d 16 8))) := by
  have returns : State.returnBad false [d] s = s.giveBack false
      (returned d (fieldAt d 8 2) 0xFF (clearBits (fieldAt d 11 1) 1) (fieldAt d 16 8)) := by
    rw [State.returnBad, if_neg (by simp [bad]), State.returnBad]
  have empty (bs : List Byte) : (s.giveBack false bs).net.txRing.queue = [] := by
    rw [State.net_giveBack]
    exact congrArg (List.drop 1) only
  unfold execHostFrameTransmitted
  rw [may, if_neg (by decide), only, returns]
  dsimp only
  rw [empty]

/-- What the return of the first transmit descriptor does to the network and to what was sent, in a state with the network of `s`. -/
theorem State.giveBack_spec {s u : State} {d : List Byte} {ds : List (List Byte)} (first : s.net.txRing.queue = d :: ds)
    (same : u.net = s.net) (bs : List Byte) : (u.giveBack false bs).net.txRing.queue = ds ∧
      (u.giveBack false bs).net.txRing.head = (s.net.txRing.head + 1) % s.net.txRing.count ∧
      (u.giveBack false bs).net.rxRing = s.net.rxRing ∧ (∀ p, (u.giveBack false bs).port p = s.port p) ∧
      (u.giveBack false bs).outside.sent = u.outside.sent := by
  have net : (u.giveBack false bs).net = { s.net with txRing := { s.net.txRing with
      head := (s.net.txRing.head + 1) % s.net.txRing.count, queue := s.net.txRing.queue.drop 1 } } := by
    rw [State.net_giveBack, State.modHostRing, if_neg (by decide), same]
  exact ⟨by rw [net, first]; rfl, by rw [net], by rw [net], fun p => State.port_congr (by rw [net]) p, by rw [State.outside_giveBack]⟩

/-- The PCP of a host frame is that of its tag or PCP_HOST, whatever a check-value engine counts (R342). -/
theorem State.hostPcp_snoop (s : State) {e : Nat} (kinds : List (Nat × Option Nat)) (bs frame : List Byte) (engine : e < 24) :
    (s.snoop e kinds bs).hostPcp frame = s.hostPcp frame := by
  rw [State.hostPcp, State.field_snoop s kinds bs _ _ engine (by decide), State.hostPcp]

/-- The state in which a frame has been sent from the first descriptor of the ring (R342, R348, R349). -/
def State.hostFrameOut (s : State) (port : Nat) (bytes : List Byte) : State :=
  ((s.snoop 8 [(1, none)] bytes).ethOut port (8, none) bytes).send
    (.inClass (s.hostPcp bytes) (frameMark bytes / 4) (frameMark bytes % 4) (.hostFrame port (withFcs bytes)))

section
variable {frame d bytes : List Byte} {ds : List (List Byte)} {port : Nat} {s : State} (may : s.mayRequest = true)
  (first : s.net.txRing.queue = d :: ds) (ok : descriptorOk d = true)
include may first ok

theorem execHostFrameTransmitted_runt (short : fieldAt d 8 2 < 60) : ∃ back, execHostFrameTransmitted frame s =
    .next (s.giveBack false back) := by
  unfold execHostFrameTransmitted
  rw [may, if_neg (by decide), State.returnBad_sound false s (.inr ⟨d, ds, first, ok⟩)]
  dsimp only
  rw [first]
  dsimp only
  rw [if_neg (by omega), if_pos (by omega)]
  exact ⟨_, rfl⟩

variable (place : port = fieldAt d 10 1 % 16)
include place

theorem execHostFrameTransmitted_overlong (long : 9212 < fieldAt d 8 2) : ∃ back, execHostFrameTransmitted frame s =
    .next ((s.giveBack false back).modPort port (fun x => { x with overlong := x.overlong + 1 })) := by
  unfold execHostFrameTransmitted
  rw [may, if_neg (by decide), State.returnBad_sound false s (.inr ⟨d, ds, first, ok⟩)]
  dsimp only
  rw [first]
  dsimp only
  rw [if_pos (by omega), place]
  exact ⟨_, rfl⟩

theorem execHostFrameTransmitted_legal (least : 60 ≤ fieldAt d 8 2) (most : fieldAt d 8 2 ≤ 9212)
    (buffer : bytes = sliceBytes frame 0 (fieldAt d 8 2)) : ∃ back, execHostFrameTransmitted frame s =
    .next ((s.hostFrameOut port bytes).giveBack false back) := by
  unfold execHostFrameTransmitted
  rw [may, if_neg (by decide), State.returnBad_sound false s (.inr ⟨d, ds, first, ok⟩)]
  dsimp only
  rw [first]
  dsimp only
  have pcp : ((s.snoop 8 [(1, none)] bytes).ethOut port (8, none) bytes).hostPcp bytes = s.hostPcp bytes := by
    rw [State.ethOut, State.hostPcp_snoop _ _ _ _ (by omega), State.hostPcp_snoop _ _ _ _ (by decide)]
  rw [if_neg (by omega), if_neg (by omega), ← place, ← buffer, pcp]
  exact ⟨_, rfl⟩

end

/-- Settles O55: a ring by its size and base, a tail by whether it lies in the ring and the function may issue requests, a frame by its
length and the first descriptor. -/
theorem hostFramesUseTheirRings : Obligations.HostFramesUseTheirRings := by
  unfold Obligations.HostFramesUseTheirRings
  simp only [exec_hostRing, exec_netHostTxTail, exec_netHostRxTail, exec_hostFrameReceive, exec_hostFrameTransmitted]
  refine ⟨fun e s begins names => ⟨execHostRing_invalid begins names, fun least most aligned =>
      ⟨fun tx => execHostRing_places (rx := false) begins names tx most least aligned,
        fun rx => execHostRing_places (rx := true) begins names rx most least aligned⟩⟩,
    fun rx v ds fresh u s handed taken => ?_, fun v ds s => ⟨rfl, rfl⟩,
    fun p frame s port => ⟨execHostFrameReceive_overlong port, execHostFrameReceive_runt port, execHostFrameReceive_consumed port⟩,
    fun p frame s port least most host => ?_, fun frame s => execHostFrameTransmitted_idle,
    fun frame d s => execHostFrameTransmitted_bad, fun frame d bytes ds port s may first ok place buffer => ?_, fun bytes s => rfl⟩
  · subst handed
    obtain ⟨tiles, kv, outside, other, tail⟩ := s.handTail_frame rx v ds
    refine ⟨tiles, kv, outside, other, tail, State.handTail_beyond, fun inside may => ?_, fun inside still => ?_⟩
    · rw [State.handTail_reads inside taken may, State.hostRing_modHostRing_same, State.dmaDescriptors_hostRing,
        State.hostRing_modHostRing_same]
      exact ⟨rfl, rfl, rfl⟩
    · rw [State.handTail_waits inside taken still, State.hostRing_modHostRing_same]
      exact ⟨rfl, rfl, rfl⟩
  · have net : (s.ethIn p (7, none) frame).net = s.net := State.ethIn_net ..
    refine ⟨fun still => ?_, fun may dropped => ?_, fun d ds may first ok room => ?_⟩
    · refine ⟨_, execHostFrameReceive_host port least most host, ?_⟩
      rw [State.hostFrameIn_waits still]
      exact ⟨rfl, rfl, by simp, by simp, by simp⟩
    · refine ⟨_, execHostFrameReceive_host port least most host, ?_⟩
      rw [State.hostFrameIn_stores may, State.storeHostFrame_drops (by rwa [net])]
      obtain ⟨ring, event, count, outside, tiles, kv⟩ := (s.ethIn p (7, none) frame).dropHostFrame_spec
      have counter : (s.ethIn p (7, none) frame).counter 73 = s.counter 73 := by rw [State.counter, State.ethIn_cnt, State.counter]
      exact ⟨by rw [ring, net], event, by rw [count, counter], by rw [outside, State.ethIn_outside], by rw [tiles, State.ethIn_tiles],
        by rw [kv, State.ethIn_kv]⟩
    · refine ⟨_, execHostFrameReceive_host port least most host, ?_⟩
      rw [State.hostFrameIn_stores may, State.storeHostFrame_stores (by rwa [net]) ok room, net]
      obtain ⟨ring, outside, tiles, kv⟩ := (s.ethIn p (7, none) frame).storedFrame_spec frame (fieldAt d 0 8)
        (returned d frame.length p (if s.net.rxRing.dropped then 12 else 4) s.net.ptpNs) rfl
      rw [ring, outside, tiles, kv, net, State.ethIn_outside, State.ethIn_tiles, State.ethIn_kv]
      exact ⟨by rw [first]; rfl, rfl, rfl, rfl, rfl, rfl, rfl⟩
  · by_cases long : 9212 < fieldAt d 8 2
    · obtain ⟨back, sent⟩ := execHostFrameTransmitted_overlong (frame := frame) may first ok place long
      obtain ⟨queue, head, rxRing, ports, kept⟩ := State.giveBack_spec first rfl back
      refine ⟨_, sent, queue, head, fun _ most => absurd long (Nat.not_lt.2 most), fun _ => kept, fun _ => ?_, rxRing, by simp, by simp⟩
      rw [State.port_modPort_same, ports]
    · by_cases short : fieldAt d 8 2 < 60
      · obtain ⟨back, sent⟩ := execHostFrameTransmitted_runt (frame := frame) may first ok short
        obtain ⟨queue, head, rxRing, ports, kept⟩ := State.giveBack_spec first rfl back
        exact ⟨_, sent, queue, head, fun least _ => absurd short (Nat.not_lt.2 least), fun _ => kept, fun l => absurd l long, rxRing,
          by simp, by simp⟩
      · obtain ⟨back, sent⟩ := execHostFrameTransmitted_legal may first ok place (Nat.not_lt.1 short) (Nat.not_lt.1 long) buffer
        obtain ⟨queue, head, rxRing, ports, leaves⟩ := State.giveBack_spec (u := s.hostFrameOut port bytes) first
          (by simp [State.hostFrameOut]) back
        refine ⟨_, sent, queue, head, fun _ _ => ?_, fun illegal => absurd illegal (by omega), fun l => absurd l long, rxRing,
          by simp [State.hostFrameOut], by simp [State.hostFrameOut]⟩
        rw [leaves]
        simp [State.hostFrameOut]

end Sys2Proof.Machine
end

section
/-!
SUPPORT. Chorus groups and steps (R356, R362, R363, R364, R365, R400): a group slot that is written, a step that opens under the next
number, and what half a deadline, a deadline, a late notice and a step that is over bring.
-/
namespace Sys2Proof.Machine

theorem exec_chorusGroupSet (e : Entry) (records : Dma) (s : State) :
    exec (.chorusGroupSet e records) s = execChorusGroupSet e records s := rfl
theorem exec_chorusStepOpen (index scene : Nat) (s : State) : exec (.chorusStepOpen index scene) s = execChorusStepOpen index scene s := rfl
theorem exec_chorusRetxTimer (n : Nat) (s : State) : exec (.chorusRetxTimer n) s = execChorusRetxTimer n s := rfl
theorem exec_chorusDeadline (n : Nat) (s : State) : exec (.chorusDeadline n) s = execChorusDeadline n s := rfl
theorem exec_lateNotice (n : Nat) (s : State) : exec (.lateNotice n) s = execLateNotice n s := rfl
theorem exec_chorusFrameRelease (n : Nat) (s : State) : exec (.chorusFrameRelease n) s = execChorusFrameRelease n s := rfl

/-! ### CHORUS_GROUP_SET -/

/-- The group that a CHORUS_GROUP_SET entry names with its member records, whose counters and gaps start at 0 (R356, R362, R400). -/
def groupOfEntry (e : Entry) (bs : List Byte) : ChorusGroup :=
  { identity := e.op 10 2, size := e.op 12 2, own := e.op 14 2
    members := (List.range (e.op 12 2)).map (fun i => sliceBytes bs (32 * i) 32) }

section
variable {e : Entry} {bs : List Byte} {s : State} (slot : e.op 8 1 < 2) (least : 2 ≤ e.op 12 2) (most : e.op 12 2 ≤ 1024)
  (own : e.op 14 2 < e.op 12 2) (aligned : e.op 16 8 % 64 = 0)
include slot least most own aligned

/-- No operand of a legal entry is out of range (R356, R400). -/
theorem chorusGroupSet_inRange : (decide (2 ≤ e.op 8 1) || decide (e.op 12 2 < 2) || decide (1024 < e.op 12 2) ||
    decide (e.op 12 2 ≤ e.op 14 2) || !bufferOk (e.op 16 8)) = false := by
  simp [bufferOk, aligned]
  omega

variable (begins : Begins e 0x70 true s)
include begins

/-- The bound slot is BUSY (R400). -/
theorem execChorusGroupSet_busy (bound : s.net.bound = some (e.op 8 1)) :
    execChorusGroupSet e (some bs) s = .next ((s.begun e).complete e .busy []) := by
  unfold execChorusGroupSet
  rw [runCmd_begins _ begins (by decide)]
  refine congrArg _ (runBody_done ?_)
  dsimp only
  rw [chorusGroupSet_inRange slot least most own aligned, if_neg (by decide), State.begun_net, if_pos bound]

/-- A free slot takes the group whose member records are all legal (R356, R400). -/
theorem execChorusGroupSet_takes (free : s.net.bound ≠ some (e.op 8 1))
    (sound : ∀ i, i < e.op 12 2 → memberRecordOk (sliceBytes bs (32 * i) 32) = true) : execChorusGroupSet e (some bs) s = .next (
      ({ (s.begun e).dmaRead e.tag (sliceBytes bs 0 (32 * e.op 12 2)) with net := { s.net with
        groups := Map.put s.net.groups (e.op 8 1) (groupOfEntry e bs) } } : State).complete e .ok []) := by
  have all : ((List.range (e.op 12 2)).map (fun i => sliceBytes bs (32 * i) 32)).all memberRecordOk = true := by
    rw [List.all_map]
    exact List.all_eq_true.2 fun i mem => sound i (List.mem_range.1 mem)
  have net : ((s.begun e).dmaRead e.tag (sliceBytes bs 0 (32 * e.op 12 2))).net = s.net := State.dmaRead_net ..
  unfold execChorusGroupSet
  rw [runCmd_begins _ begins (by decide)]
  refine congrArg _ (runBody_done ?_)
  dsimp only [withDma]
  rw [chorusGroupSet_inRange slot least most own aligned, if_neg (by decide), State.begun_net, if_neg free, if_pos all, net]
  rfl

end

/-! ### Opening a step -/

section
variable {index scene : Nat} {s : State}

theorem execChorusStepOpen_none (absent : s.stepAt index scene = none) : execChorusStepOpen index scene s = .next s := by
  simp [execChorusStepOpen, absent]

/-- The schedule brings the counter up to the step's first wing line, where no cause holds it, and the step opens (R364). -/
theorem execChorusStepOpen_at {v : Nat} (at_ : s.stepAt index scene = some v) : execChorusStepOpen index scene s =
    .next (if (s.advanceTo v).reached v = true then (s.advanceTo v).openStep index scene else s.advanceTo v) := by
  simp [execChorusStepOpen, at_]

theorem State.openStep_unbound (unbound : s.boundGroup = none) : s.openStep index scene = s := by
  simp [State.openStep, unbound]

/-- The step that opens next, by its place in the cue sheet and CHORUS_CONFIG as it stands (R356, R364, R372). -/
def State.nextStepOf (s : State) (index scene : Nat) (p : StepSlot) : Step :=
  { number := s.net.nextStep
    plan := { index := index, collective := p.collective, bytes := p.bytes, root := p.root, peer := p.peer, format := p.format
              scene := scene, own := none }
    base := s.field 0xB000C 6 10, deadline := s.field 0xB000C 6 10, udpPort := s.field 0xB000C 16 16 }

/-- The state with a step just opened, before it goes on (R356). -/
def State.stepOpened (s : State) (index scene : Nat) (p : StepSlot) : State :=
  { s with net := { s.net with
      steps := s.net.steps ++ [s.nextStepOf index scene p], nextStep := s.net.nextStep + 1
      early := Map.erase s.net.early s.net.nextStep
      opened := s.net.opened.filter (fun k => s.prm.scenes.any (fun c => c.id == k.2)) ++ [(index, scene)] } }

variable {b : Nat × ChorusGroup} {c : CueSheet} {p : StepSlot} (bound : s.boundGroup = some b) (active : s.fabric.active = some c)
  (listed : c.compiled.steps[index]? = some p)
include bound active listed

/-- A step of a scene opens once (R356). -/
theorem State.openStep_again (opened : (index, scene) ∈ s.net.opened) : s.openStep index scene = s := by
  have any : s.net.opened.any (fun k => k == (index, scene)) = true := List.any_eq_true.2 ⟨_, opened, beq_self_eq_true _⟩
  simp [State.openStep, bound, active, listed, any]

/-- A step for which nothing came early opens and goes on (R356). -/
theorem State.openStep_opens (fresh : (index, scene) ∉ s.net.opened) (quiet : Map.get? s.net.early s.net.nextStep = none) :
    s.openStep index scene = (s.stepOpened index scene p).stepProgress s.net.nextStep := by
  have any : s.net.opened.any (fun k => k == (index, scene)) = false := by
    refine List.any_eq_false.2 fun k mem same => fresh ?_
    rwa [← beq_iff_eq.1 same]
  simp only [State.openStep, bound, active, Option.bind_some, listed, any, Bool.false_eq_true, if_false, Map.getD, quiet,
    Option.getD_none, List.foldl_nil]
  rfl

end

/-! ### Missing ranges -/

/-- A range, of frame kind and source, cut into pieces of at most 8,192 bytes (R363). -/
def rangePieces (r : Nat × Nat × Nat × Nat) : List (Nat × Nat × Nat × Nat) :=
  (List.range (ceilDiv (r.2.2.2 - r.2.2.1) 8192)).map (fun k =>
    (r.1, r.2.1, r.2.2.1 + 8192 * k, min r.2.2.2 (r.2.2.1 + 8192 * k + 8192)))

theorem rangePieces_empty {r : Nat × Nat × Nat × Nat} (empty : r.2.2.2 ≤ r.2.2.1) : rangePieces r = [] := by
  rw [rangePieces, Nat.sub_eq_zero_of_le empty]
  rfl

theorem rangePieces_single {r : Nat × Nat × Nat × Nat} (nonempty : r.2.2.1 < r.2.2.2) (short : r.2.2.2 ≤ r.2.2.1 + 8192) :
    rangePieces r = [r] := by
  have one : ceilDiv (r.2.2.2 - r.2.2.1) 8192 = 1 := by
    rw [ceilDiv, if_neg (by decide)]
    omega
  rw [rangePieces, one, List.range_one, List.map_singleton, Nat.mul_zero, Nat.add_zero, Nat.min_eq_left short]

/-- The pieces of what a member waits for in a step that it does not hold (R363). -/
def Step.missingPieces (x : Step) (g : ChorusGroup) : List (Nat × Nat × Nat × Nat) :=
  ((x.plan.expected g).map rangePieces).flatten.filter (fun r => !x.holds r)

/-- A step whose ranges are short and held misses nothing. -/
theorem Step.missingPieces_held {x : Step} {g : ChorusGroup} (held : ∀ r ∈ x.plan.expected g, r.2.2.1 < r.2.2.2 →
    r.2.2.2 ≤ r.2.2.1 + 8192 ∧ x.holds r = true) : x.missingPieces g = [] := by
  refine List.filter_eq_nil_iff.2 fun q mem => ?_
  obtain ⟨pieces, piecesOf, inPieces⟩ := List.mem_flatten.1 mem
  obtain ⟨r, expected, rfl⟩ := List.mem_map.1 piecesOf
  by_cases nonempty : r.2.2.1 < r.2.2.2
  · obtain ⟨short, holds⟩ := held r expected nonempty
    rw [rangePieces_single nonempty short, List.mem_singleton] at inPieces
    simp [inPieces, holds]
  · rw [rangePieces_empty (Nat.not_lt.1 nonempty)] at inPieces
    cases inPieces

/-- A step that waits for one short range misses it where it does not hold it. -/
theorem Step.missingPieces_single {x : Step} {g : ChorusGroup} {r : Nat × Nat × Nat × Nat} (only : x.plan.expected g = [r])
    (nonempty : r.2.2.1 < r.2.2.2) (short : r.2.2.2 ≤ r.2.2.1 + 8192) (missing : x.holds r = false) : x.missingPieces g = [r] := by
  simp [Step.missingPieces, only, rangePieces_single nonempty short, missing]

/-! ### What a request leaves -/

/-- What a frame that is sent leaves: the tiles, HBM, the sequence table and the fabric. -/
structure State.UnitsStay (s t : State) : Prop where
  tiles : t.tiles = s.tiles
  kv : t.kv = s.kv
  prm : t.prm = s.prm
  fabric : t.fabric = s.fabric

theorem State.UnitsStay.refl (s : State) : s.UnitsStay s := ⟨rfl, rfl, rfl, rfl⟩

theorem State.UnitsStay.trans {s t u : State} (h : s.UnitsStay t) (k : t.UnitsStay u) : s.UnitsStay u :=
  ⟨k.tiles.trans h.tiles, k.kv.trans h.kv, k.prm.trans h.prm, k.fabric.trans h.fabric⟩

theorem State.sendFrame_unitsStay (s : State) (g : ChorusGroup) (udp : Nat) (k : Kept) (body : List Byte) :
    s.UnitsStay (s.sendFrame g udp k body) := by
  unfold State.sendFrame
  dsimp only
  split
  · exact ⟨by simp, by simp, by simp, by simp⟩
  · exact ⟨by simp, by simp, by simp, by simp⟩

theorem State.chorusSend_unitsStay (s : State) (i step : Nat) (k : Kept) (length format extend : Nat) :
    s.UnitsStay (s.chorusSend i step k length format extend).1 := by
  unfold State.chorusSend
  split
  · exact .refl s
  · refine State.UnitsStay.trans ?_ (State.sendFrame_unitsStay ..)
    exact ⟨rfl, rfl, rfl, rfl⟩

theorem State.requestRange_unitsStay (s : State) (i step op src offset length : Nat) :
    s.UnitsStay (s.requestRange i step op src offset length) := by
  unfold State.requestRange
  split
  · exact .refl s
  · have sent (k : Kept) := s.chorusSend_unitsStay i step k length 0 0
    exact ⟨by simp [(sent _).tiles], by simp [(sent _).kv], by simp [(sent _).prm], by simp [(sent _).fabric]⟩

/-! ### Timers of a step -/

section
variable {n i : Nat} {g : ChorusGroup} {x : Step} {s : State} (bound : s.boundGroup = some (i, g)) (live : s.liveStep? n = some x)
include bound live

/-- Half a deadline asks for every piece that is missing (R363). -/
theorem execChorusRetxTimer_live : execChorusRetxTimer n s = .next ((x.missingPieces g).foldl (fun s r =>
    s.requestRange i n r.1 r.2.1 r.2.2.1 (r.2.2.2 - r.2.2.1)) s) := by
  simp only [execChorusRetxTimer, bound, live]
  rfl

theorem execChorusDeadline_live : execChorusDeadline n s =
    .next ((s.tellAll i g n 0x12 0).abandonStep x srcChorusDeadline 1 (x.missingMember g)) := by
  simp only [execChorusDeadline, bound, live]

/-- No late notice is sent past the fourth, without a stall, or once everything of the step has been sent (R365). -/
theorem execLateNotice_silent (silent : 4 ≤ x.notices ∨ x.stalled = false ∨ (x.sent = true ∧ x.gathered = true)) :
    execLateNotice n s = .next s := by
  simp only [execLateNotice, bound, live]
  refine if_pos ?_
  obtain many | calm | ⟨sent, gathered⟩ := silent
  · simp [many]
  · simp [calm]
  · simp [sent, gathered]

/-- A late notice tells every member and extends the own deadline (R365). -/
theorem execLateNotice_tells (few : x.notices < 4) (stalled : x.stalled = true) (owes : x.sent = false ∨ x.gathered = false) :
    execLateNotice n s = .next ((((s.tellAll i g n 0x11 x.base).orReg 0xB0004 0x20).count 66 1).modStep n (fun x =>
      { x.extend x.base with notices := x.notices + 1 })) := by
  simp only [execLateNotice, bound, live]
  refine if_neg ?_
  obtain sent | gathered := owes
  · simp [sent, stalled, few]
  · simp [gathered, stalled, few]

end

/-- Without a bound group or an open step of the number its timers bring nothing. -/
theorem chorusTimers_idle {n : Nat} {s : State} (idle : s.boundGroup = none ∨ s.liveStep? n = none) :
    execChorusRetxTimer n s = .next s ∧ execChorusDeadline n s = .next s ∧ execLateNotice n s = .next s := by
  unfold execChorusRetxTimer execChorusDeadline execLateNotice
  obtain unbound | ended := idle
  · simp only [unbound, and_self]
  · cases s.boundGroup <;> simp only [ended, and_self]

theorem execChorusFrameRelease_live {n : Nat} {x : Step} {s : State} (live : s.liveStep? n = some x) :
    execChorusFrameRelease n s = .next s := by
  simp [execChorusFrameRelease, live]

/-- The state in which a step and what was kept for it have gone (R363). -/
def State.stepReleased (s : State) (n : Nat) : State :=
  { s with net := { s.net with
      steps := s.net.steps.filter (fun (x : Step) => x.number ≠ n)
      scenesSent := s.net.scenesSent.filter (fun (x : Nat × Nat × Kept) => x.1 ≠ n)
      requested := s.net.requested.filter (fun (r : Nat × Nat × Nat) => r.1 ≠ n)
      mismatched := s.net.mismatched.filter (fun (r : Nat × Nat × Nat) => r.1 ≠ n) } }

theorem execChorusFrameRelease_over {n : Nat} {s : State} (ended : s.liveStep? n = none) :
    execChorusFrameRelease n s = .next (s.stepReleased n) := by
  simp [execChorusFrameRelease, ended, State.stepReleased]

/-- Settles O57: a group slot by whether it is bound, an opening by the counter and the group, and each timer by what its step misses. -/
theorem chorusGroupsAndSteps : Obligations.ChorusGroupsAndSteps := by
  unfold Obligations.ChorusGroupsAndSteps
  simp only [exec_chorusGroupSet, exec_chorusStepOpen, exec_chorusRetxTimer, exec_chorusDeadline, exec_lateNotice,
    exec_chorusFrameRelease]
  refine ⟨fun e bs s begins slot least most own aligned => ⟨execChorusGroupSet_busy slot least most own aligned begins,
      fun free sound => ?_⟩,
    fun index scene s => ⟨execChorusStepOpen_none, fun v at_ reached => ?_, fun v at_ held => ?_⟩,
    fun index scene s => State.openStep_unbound,
    fun index scene b c p s bound active listed quiet => ⟨State.openStep_again bound active listed, fun fresh => ?_⟩,
    fun n i g x s bound live => ⟨fun held => ?_, fun r only nonempty short missing => ?_, execChorusDeadline_live bound live,
      execLateNotice_silent bound live, execLateNotice_tells bound live⟩,
    fun n i g x s bound live => ?_, fun n s => chorusTimers_idle, fun n x s => execChorusFrameRelease_live, fun n s ended => ?_⟩
  · refine ⟨_, groupOfEntry e bs, execChorusGroupSet_takes slot least most own aligned begins free sound, Map.get?_put_same ..,
      rfl, rfl, rfl, rfl, rfl, rfl, rfl, ?_, ?_⟩
    · exact State.dmaRead_tiles ..
    · exact State.dmaRead_kv ..
  · rw [execChorusStepOpen_at at_, if_pos reached]
  · rw [execChorusStepOpen_at at_, if_neg (by simp [held])]
  · exact ⟨s.stepOpened index scene p, State.openStep_opens bound active listed fresh quiet, rfl, rfl, rfl, rfl, rfl,
      s.nextStepOf index scene p, rfl, rfl, rfl, rfl, rfl, rfl, rfl, rfl, rfl, rfl, rfl⟩
  · rw [execChorusRetxTimer_live bound live, Step.missingPieces_held held, List.foldl_nil]
  · rw [execChorusRetxTimer_live bound live, Step.missingPieces_single only nonempty short missing]
    rfl
  · obtain ⟨tiles, kv, prm, fabric⟩ : s.UnitsStay ((x.missingPieces g).foldl (fun s r =>
        s.requestRange i n r.1 r.2.1 r.2.2.1 (r.2.2.2 - r.2.2.1)) s) :=
      List.foldlRecOn (motive := s.UnitsStay) _ _ (.refl s) fun t stay r _ => stay.trans (State.requestRange_unitsStay ..)
    exact ⟨_, execChorusRetxTimer_live bound live, tiles, kv, prm, fabric⟩
  · refine ⟨_, execChorusFrameRelease_over ended, fun y => ?_, fun k => ?_, fun r mem => ?_, rfl, rfl, rfl, rfl⟩
    · simp [State.stepReleased]
    · simp [State.stepReleased]
    · simpa using (List.mem_filter.1 mem).2

end Sys2Proof.Machine
end

section
/-!
SUPPORT. Received Chorus frames (R354, R355, R356, R361, R362): which ones are discarded, which alive counters repeat, and what a frame
whose counter is accepted does.
-/
namespace Sys2Proof.Machine

theorem exec_chorusFrame (ce ok : Bool) (bs : List Byte) (s : State) : exec (.chorusFrame ce ok bs) s = execChorusFrame ce ok bs s := rfl

/-! ### Alive counters -/

/-- A counter repeats where it is the last accepted one or lies 1 to 32,767 behind it, modulo 65,536 (R362). -/
theorem aliveRepeats_iff {a l : Nat} (counter : a < 65536) (last : l < 65536) :
    aliveRepeats (some l) a = true ↔ a = l ∨ ∃ k, 1 ≤ k ∧ k ≤ 32767 ∧ (a + k) % 65536 = l := by
  have distance : aliveRepeats (some l) a = true ↔ (a + 65536 - l) % 65536 = 0 ∨ 32769 ≤ (a + 65536 - l) % 65536 := by
    simp [aliveRepeats]
  rw [distance]
  constructor
  · rintro (same | behind)
    · exact .inl (by omega)
    · exact .inr ⟨65536 - (a + 65536 - l) % 65536, by omega, by omega, by omega⟩
  · rintro (same | ⟨k, least, most, ahead⟩)
    · exact .inl (by omega)
    · exact .inr (by omega)

/-- A group that takes a frame which is not sent again holds its counter as the last of its source, and counts a gap (R362). -/
theorem ChorusGroup.accept_first {g : ChorusGroup} {f : ChorusFrame} (first : f.retransmit = false) :
    Map.get? (g.accept f).recvAlive f.src = some f.alive ∧
      (g.accept f).gaps = g.gaps + (if aliveGap (Map.get? g.recvAlive f.src) f.alive then 1 else 0) := by
  rw [ChorusGroup.accept, first, if_neg (by decide)]
  exact ⟨Map.get?_put_same .., rfl⟩

/-! ### Frames -/

section
variable {ce : Bool} {bs : List Byte} {s : State}

theorem execChorusFrame_bad {ok : Bool} (bad : ok = false ∨ bs.length < 40 ∨ crcTrailed (bs.take 32) = false) :
    execChorusFrame ce ok bs s = .next { s with net := { s.net with badFrames := s.net.badFrames + 1 } } := by
  refine if_pos ?_
  simpa [or_assoc] using bad

variable (least : 40 ≤ bs.length) (sound : crcTrailed (bs.take 32) = true)
include least sound

/-- A sound frame of no group here leaves nothing but its CE mark (R345, R356). -/
theorem execChorusFrame_foreign (foreign : (s.countCe ce).groupOf (readFrame bs) = none) :
    execChorusFrame ce true bs s = .next (s.countCe ce) := by
  unfold execChorusFrame
  rw [if_neg (by simp [sound]; omega)]
  dsimp only
  rw [foreign]

/-- A sound frame of a group slot passes the engine of the port of its source and goes to the slot (R356, R480). -/
theorem execChorusFrame_grouped {i : Nat} {g : ChorusGroup} (grouped : (s.countCe ce).groupOf (readFrame bs) = some (i, g)) :
    execChorusFrame ce true bs s = .next (((s.countCe ce).ethIn (g.portOf (readFrame bs).src) (5, some g.identity)
      (readFrame bs).payload).groupFrame i g (readFrame bs)) := by
  unfold execChorusFrame
  rw [if_neg (by simp [sound]; omega)]
  dsimp only
  rw [grouped]

end

section
variable {f : ChorusFrame} {i : Nat} {g : ChorusGroup} {s : State}

/-- A counter that repeats is noted and does nothing else (R362). -/
theorem State.groupFrame_repeats (first : f.retransmit = false)
    (repeats : aliveRepeats (Map.get? g.recvAlive f.src) f.alive = true) : s.groupFrame i g f = s.orReg 0xB0004 0x80 := by
  rw [State.groupFrame, if_pos (by simp [first, repeats])]

/-- A counter that does not repeat is accepted, and the frame acts where its slot is bound (R356, R362). -/
theorem State.groupFrame_accepts (fresh : aliveRepeats (Map.get? g.recvAlive f.src) f.alive = false) : s.groupFrame i g f =
    if s.net.bound = some i then
      { s with net := { s.net with groups := Map.put s.net.groups i (g.accept f) } }.acceptFrame i (g.accept f) f
    else { s with net := { s.net with groups := Map.put s.net.groups i (g.accept f) } } := by
  rw [State.groupFrame, if_neg (by simp [fresh])]

end

/-! ### OPs of a frame whose digest matches -/

section
variable {f : ChorusFrame} (i : Nat) {g : ChorusGroup} (s : State) (sound : f.digest = crc64 f.payload)
include sound

/-- A scene descriptor of member 0 waits for its scene at every other member (R357). -/
theorem State.acceptFrame_descriptor (op : f.op = 0x07) (follower : g.own ≠ 0) (leader : f.src = 0) (first : f.retransmit = false) :
    s.acceptFrame i g f = { s with net := { s.net with sceneQueue := s.net.sceneQueue ++ [(f.alive, f.payload)] } } := by
  simp [State.acceptFrame, sound, op, follower, leader, first]

theorem State.acceptFrame_request (op : f.op = 0x10) : s.acceptFrame i g f = s.resend g f := by
  simp [State.acceptFrame, sound, op]

theorem State.acceptFrame_abort (op : f.op = 0x12) : s.acceptFrame i g f = s.routeStep f := by
  simp [State.acceptFrame, sound, op]

/-- An OP that is neither a descriptor, a request, a notice nor an abort brings data of a step or nothing (R355). -/
theorem State.acceptFrame_data (descriptor : f.op ≠ 0x07) (control : f.op < 0x10 ∨ 0x12 < f.op) :
    s.acceptFrame i g f = if 0x01 ≤ f.op ∧ f.op ≤ 0x06 then s.routeStep f else s := by
  unfold State.acceptFrame
  dsimp only
  rw [if_neg (not_not_intro sound)]
  split
  · next op => exact absurd op descriptor
  · next op => omega
  · next op => omega
  · next op => omega
  · rfl

end

/-- Settles O58: a frame by its check values and its group, a counter by its distance from the last, and a frame that acts by its OP. -/
theorem chorusFramesByTheirCounters : Obligations.ChorusFramesByTheirCounters := by
  unfold Obligations.ChorusFramesByTheirCounters
  simp only [exec_chorusFrame]
  refine ⟨fun ce ok bs s => execChorusFrame_bad, fun ce bs s least sound => ⟨execChorusFrame_foreign least sound,
      fun i g => execChorusFrame_grouped least sound⟩,
    fun f i g s first => ⟨State.groupFrame_repeats first, fun fresh unbound => ?_, fun fresh bound => ?_⟩,
    fun f i g s sound => ⟨State.acceptFrame_descriptor i s sound, State.acceptFrame_request i s sound, State.acceptFrame_abort i s sound,
      fun least most => ?_, fun unlisted => ?_⟩, fun a l counter last => aliveRepeats_iff counter last⟩
  · obtain ⟨alive, gaps⟩ := ChorusGroup.accept_first (g := g) first
    rw [State.groupFrame_accepts fresh, if_neg unbound]
    exact ⟨g.accept f, Map.get?_put_same .., alive, gaps, rfl, rfl, rfl, rfl, rfl⟩
  · rw [State.groupFrame_accepts fresh, if_pos bound]
  · rw [State.acceptFrame_data i s sound (by omega) (.inl (by omega)), if_pos ⟨least, most⟩]
  · rw [State.acceptFrame_data i s sound (by omega) (by omega), if_neg (by omega)]

end Sys2Proof.Machine
end

section
/-!
SUPPORT. Little-endian bytes (R7): how many bytes a number takes, the number that they spell, and the fields of a block that is put
together from parts.
-/
namespace Sys2Proof

@[simp] theorem length_leBytes (n v : Nat) : (leBytes n v).length = n := by
  induction n generalizing v with
  | zero => rfl
  | succ n ih => simp [leBytes, ih]

/-- The number that the bytes of a number spell. -/
theorem leNat_leBytes (n v : Nat) : leNat (leBytes n v) = v % 256 ^ n := by
  induction n generalizing v with
  | zero => simp [leBytes, leNat, Nat.mod_one]
  | succ n ih => rw [leBytes, leNat, ih, Nat.pow_succ', Nat.mod_mul, BitVec.toNat_ofNat]

@[simp] theorem length_sliceBytes (bs : List Byte) (off n : Nat) : (sliceBytes bs off n).length = n := by
  simp only [sliceBytes, List.length_append, List.length_replicate, List.length_take]
  omega

/-- A block of the length asked for is its own slice. -/
theorem sliceBytes_self {bs : List Byte} {n : Nat} (h : bs.length = n) : sliceBytes bs 0 n = bs := by
  simp [sliceBytes, ← h]

/-- A slice within the second of two parts. -/
theorem sliceBytes_append_right {xs : List Byte} (ys : List Byte) {off : Nat} (n : Nat) (h : xs.length ≤ off) :
    sliceBytes (xs ++ ys) off n = sliceBytes ys (off - xs.length) n := by
  simp [sliceBytes, List.drop_append, List.drop_eq_nil_of_le h]

/-- A slice that is the first of two parts. -/
theorem sliceBytes_append_left {xs : List Byte} (ys : List Byte) {n : Nat} (h : xs.length = n) : sliceBytes (xs ++ ys) 0 n = xs := by
  simp [sliceBytes, ← h]

/-- A field within the second of two parts. -/
theorem fieldAt_append_right {xs : List Byte} (ys : List Byte) {off : Nat} (n : Nat) (h : xs.length ≤ off) :
    fieldAt (xs ++ ys) off n = fieldAt ys (off - xs.length) n := by
  simp [fieldAt, List.drop_append, List.drop_eq_nil_of_le h]

/-- A field that is the first of two parts. -/
theorem fieldAt_append_left {xs : List Byte} (ys : List Byte) {n : Nat} (h : xs.length = n) :
    fieldAt (xs ++ ys) 0 n = leNat xs := by
  simp [fieldAt, ← h]

/-- A block that is one number of `n` bytes. -/
theorem fieldAt_leBytes (n v : Nat) : fieldAt (leBytes n v) 0 n = v % 256 ^ n := by
  rw [← List.append_nil (leBytes n v), fieldAt_append_left [] (length_leBytes n v), leNat_leBytes]

end Sys2Proof
end

section
/-! SUPPORT. The bytes of a completion entry (R388). -/
namespace Sys2Proof.Machine

/-- The flags byte of a completion entry: PHASE in bit 0, RECORD in bit 1 (R388). -/
def completionFlags (phase record : Bool) : Nat := (if phase then 1 else 0) + (if record then 2 else 0)

theorem completionFlags_spec (phase record : Bool) : Nat.testBit (completionFlags phase record) 0 = phase ∧
    Nat.testBit (completionFlags phase record) 1 = record ∧ completionFlags phase record < 4 := by
  cases phase <;> cases record <;> decide

/-- The bytes of a completion entry that its CRC-32C covers (R388). -/
def completionHead (c : Completion) (phase : Bool) (alive : Nat) : List Byte :=
  leBytes 4 c.tag ++ (leBytes 1 c.status.code ++ (leBytes 1 (completionFlags phase c.isRecord) ++ (leBytes 2 alive ++ sliceBytes c.result 0 20)))

theorem completionBytes_eq (c : Completion) (phase : Bool) (alive : Nat) :
    completionBytes c phase alive = completionHead c phase alive ++ leBytes 4 (crc32c (completionHead c phase alive)) := by
  simp [completionBytes, completionHead, withCrc, completionFlags]

@[simp] theorem length_completionHead (c : Completion) (phase : Bool) (alive : Nat) : (completionHead c phase alive).length = 28 := by
  simp [completionHead]

@[simp] theorem length_completionBytes (c : Completion) (phase : Bool) (alive : Nat) :
    (completionBytes c phase alive).length = 32 := by
  simp [completionBytes_eq]

theorem Status.code_lt (st : Status) : st.code < 256 := by
  cases st <;> decide

/-- The CRC-32C register stays a word. -/
theorem crcBits_lt {poly : Nat} (hp : poly < 2 ^ 32) (n : Nat) {c : Nat} (hc : c < 2 ^ 32) : crcBits poly n c < 2 ^ 32 := by
  induction n generalizing c with
  | zero => exact hc
  | succ n ih =>
    have shifted : c >>> 1 < 2 ^ 32 := Nat.lt_of_le_of_lt (Nat.shiftRight_le c 1) hc
    unfold crcBits
    split
    · exact ih (Nat.xor_lt_two_pow shifted hp)
    · exact ih shifted

theorem crc32c_lt (bs : List Byte) : crc32c bs < 2 ^ 32 := by
  have run : crc32cRun 0xFFFFFFFF bs < 2 ^ 32 :=
    List.foldlRecOn bs _ (motive := fun c => c < 2 ^ 32) (by decide) fun c hc b _ =>
      crcBits_lt (by decide) 8 (Nat.xor_lt_two_pow hc (Nat.lt_trans b.isLt (by decide)))
  exact Nat.xor_lt_two_pow run (by decide)

/-- Settles O8: the entry is its head of 28 bytes, put together from its fields in the order of R388, and the head's CRC-32C. -/
theorem completionEntryLayout : Obligations.CompletionEntryLayout := by
  unfold Obligations.CompletionEntryLayout
  intro c phase alive tag counter result
  obtain ⟨isPhase, isRecord, flags⟩ := completionFlags_spec phase c.isRecord
  have code := Status.code_lt c.status
  rw [completionBytes_eq]
  have byte5 : fieldAt (completionHead c phase alive ++ leBytes 4 (crc32c (completionHead c phase alive))) 5 1 =
      completionFlags phase c.isRecord := by
    simp [completionHead, fieldAt_append_right, fieldAt_append_left, leNat_leBytes]
    omega
  rw [byte5]
  refine ⟨by simp, ?_, ?_, isPhase, isRecord, flags, ?_, ?_, ?_⟩
  · simpa [completionHead, fieldAt_append_left, leNat_leBytes] using tag
  · simp [completionHead, fieldAt_append_right, fieldAt_append_left, leNat_leBytes, Nat.mod_eq_of_lt code]
  · simp [completionHead, fieldAt_append_right, fieldAt_append_left, leNat_leBytes, Nat.mod_eq_of_lt counter]
  · simp [completionHead, sliceBytes_append_right, sliceBytes_self result, sliceBytes_append_left _ result]
  · simpa [fieldAt_append_right, fieldAt_leBytes] using crc32c_lt _

end Sys2Proof.Machine
end

section
/-!
SUPPORT. The information commands (R396, R397, R420, R484, R499, R516): what each does where its entry begins, and the sizes of a
playbill's parts.
-/
namespace Sys2Proof.Machine

theorem exec_echo (e : Entry) (s : State) : exec (.echo e) s = execEcho e s := rfl
theorem exec_queryInfo (e : Entry) (s : State) : exec (.queryInfo e) s = execQueryInfo e s := rfl
theorem exec_playbill (e : Entry) (s : State) : exec (.playbill e) s = execPlaybill e s := rfl
theorem exec_ledgerRead (e : Entry) (s : State) : exec (.ledgerRead e) s = execLedgerRead e s := rfl
theorem exec_counterSnapshot (e : Entry) (s : State) : exec (.counterSnapshot e) s = execCounterSnapshot e s := rfl

@[simp] theorem State.begun_prm (s : State) (e : Entry) : (s.begun e).prm = s.prm := rfl
@[simp] theorem State.begun_cnt (s : State) (e : Entry) : (s.begun e).cnt = s.cnt := rfl
@[simp] theorem State.begun_pwr (s : State) (e : Entry) : (s.begun e).pwr = s.pwr := rfl
@[simp] theorem State.begun_infoBlock (s : State) (e : Entry) : (s.begun e).infoBlock = s.infoBlock := rfl
@[simp] theorem State.begun_snapPending (s : State) (e : Entry) : (s.begun e).snapPending = s.snapPending := rfl

section
variable {e : Entry} {s : State}

theorem execEcho_begins (begins : Begins e 0x01 false s) :
    execEcho e s = .next ((s.begun e).complete e .ok (sliceBytes e.bytes 8 20)) := by
  rw [execEcho, runCmd_begins _ begins (by decide), runBody_done rfl]

theorem execQueryInfo_begins (begins : Begins e 0x02 true s) (aligned : e.op 8 8 % 64 = 0) :
    execQueryInfo e s = .next (((s.begun e).dmaWrite e.tag (e.op 8 8) s.infoBlock).complete e .ok [0x04, 0xB0]) := by
  rw [execQueryInfo, runCmd_begins _ begins (by decide), runBody_done (if_pos (decide_eq_true aligned)), State.begun_infoBlock]

theorem execLedgerRead_begins (begins : Begins e 0x81 true s) (kind : e.op 8 1 ≤ 3) (aligned : e.op 16 8 % 64 = 0)
    (unit : e.op 8 1 = 1 ∨ e.op 8 1 = 2 → e.op 12 4 < 8 * Config.tiles) :
    execLedgerRead e s = .next (((s.begun e).dmaWrite e.tag (e.op 16 8)
      ((s.begun e).ledgerRecords (e.op 8 1) (e.op 12 4) (e.op 24 4)).flatten).complete e .ok
        (leBytes 4 ((s.begun e).ledgerRecords (e.op 8 1) (e.op 12 4) (e.op 24 4)).flatten.length)) := by
  have inRange : ¬(3 < e.op 8 1 || !bufferOk (e.op 16 8) ||
      ((e.op 8 1 == 1 || e.op 8 1 == 2) && decide (8 * Config.tiles ≤ e.op 12 4))) = true := by
    simp only [bufferOk, aligned, Bool.or_eq_true, Bool.and_eq_true, decide_eq_true_eq, beq_iff_eq, decide_true, Bool.not_true,
      Bool.false_eq_true, or_false, not_or, not_and, Nat.not_lt, Nat.not_le]
    exact ⟨kind, unit⟩
  rw [execLedgerRead, runCmd_begins _ begins (by decide), runBody_done (if_neg inRange)]

/-- COUNTER_SNAPSHOT of mode 0 takes the copy at once. -/
theorem execCounterSnapshot_begins (begins : Begins e 0x80 false s) (mode : e.op 8 1 = 0) (idle : s.snapPending = false) :
    execCounterSnapshot e s =
      .next (((s.begun e).takeSnapshot s.prm.scCount).complete e .ok (leBytes 8 s.prm.scCount)) := by
  rw [execCounterSnapshot, runCmd_begins _ begins (by decide), runBody_done]
  simp [mode, idle]

end

/-- Settles O13: each begins by its entry's checks alone, a FATAL stop included, and its operands pass its own. -/
theorem informationCommandsComplete : Obligations.InformationCommandsComplete := by
  unfold Obligations.InformationCommandsComplete
  simp only [exec_echo, exec_queryInfo, exec_ledgerRead, exec_counterSnapshot]
  exact ⟨fun e s begins => execEcho_begins begins, fun e s begins aligned => execQueryInfo_begins begins aligned,
    fun e s begins kind aligned unit => execLedgerRead_begins begins kind aligned unit,
    fun e s begins mode idle => execCounterSnapshot_begins begins mode idle⟩

@[simp] theorem length_ed448Sign (context : String) (priv m : List Byte) : (ed448Sign context priv m).length = 114 := by
  simp only [ed448Sign, Point.encode, List.length_append, length_leBytes]

@[simp] theorem Fuses.length_idPublic (f : Fuses) : f.idPublic.length = 57 := by
  simp only [Fuses.idPublic, ed448Public, Point.encode, length_leBytes]

@[simp] theorem Fuses.length_xPublic (f : Fuses) : f.xPublic.length = 56 := by
  simp only [Fuses.xPublic, x448, length_leBytes]

/-- The report of a playbill takes 480 bytes. -/
theorem State.length_playbillBody {s : State} {nonce : List Byte} (chain : s.boot.latched.chain.length = 64)
    (fresh : nonce.length = 32) : (s.playbillBody nonce).length = 480 := by
  unfold State.playbillBody
  dsimp only
  simp only [List.length_append, length_leBytes, List.length_replicate, Fuses.length_idPublic, Fuses.length_xPublic, chain, fresh]
  rfl

section
variable {e : Entry} {s : State} (begins : Begins e 0x03 true s)
include begins

theorem execPlaybill_invalid (bad : e.op 48 4 < 594 ∨ e.op 8 8 % 64 ≠ 0) :
    execPlaybill e s = .next ((s.begun e).complete e .invalid []) := by
  rw [execPlaybill, runCmd_begins _ begins (by decide), runBody_done (if_pos (by simpa [bufferOk] using bad))]

/-- The buffer of a playbill that is long enough and aligned passes. -/
theorem execPlaybill_buffer (long : 594 ≤ e.op 48 4) (aligned : e.op 8 8 % 64 = 0) :
    execPlaybill e s = .next (if s.ldr.bootVerified = true then
      ((s.begun e).dmaWrite e.tag (e.op 8 8)
        ((s.begun e).playbillBody (sliceBytes e.bytes 16 32) ++ ed448Sign "FQB-PB1" s.boot.fuses.idPrivate
          ((s.begun e).playbillBody (sliceBytes e.bytes 16 32)))).complete e .ok (leBytes 4 594)
      else (s.begun e).complete e .notReady []) := by
  have fits : ¬(e.op 48 4 < 594 || !bufferOk (e.op 8 8)) = true := by simp [bufferOk, aligned, long]
  rw [execPlaybill, runCmd_begins _ begins (by decide), runBody]
  dsimp only
  rw [if_neg fits, State.begun_ldr]
  cases s.ldr.bootVerified <;> rfl

end

/-- Settles O14: the buffer is tried first and the boot check after it; the parts of the report have fixed sizes. -/
theorem playbillWritesItsReport : Obligations.PlaybillWritesItsReport := by
  unfold Obligations.PlaybillWritesItsReport
  simp only [exec_playbill]
  refine fun e s begins => ⟨fun long aligned verified => ?_, fun chain => State.length_playbillBody chain (length_sliceBytes _ _ _),
    length_ed448Sign _ _, execPlaybill_invalid begins, fun long aligned unverified => ?_⟩
  · rw [execPlaybill_buffer begins long aligned, if_pos verified]
  · rw [execPlaybill_buffer begins long aligned, unverified]
    rfl

end Sys2Proof.Machine
end

section
/-! SUPPORT. GLB_SCRATCH and GLB_APERTURE (R385). -/
namespace Sys2Proof.Machine

/-- The row of GLB_APERTURE: BASE in bits 11 to 0, the others reserved (R385). -/
def apertureRow : RegRow := { base := 0x00000010, rw := 0x00000FFF }

/-- The bits that a write of GLB_APERTURE takes are those of BASE. -/
theorem testBit_taken_aperture (v i : Nat) : (apertureRow.taken v).testBit i = decide (i < 12) := by
  have taken : apertureRow.taken v = 2 ^ 12 - 1 := clearBits_zero_right _
  rw [taken, Nat.testBit_two_pow_sub_one]

theorem execRegisterWrite_aperture (v : Word) (s : State) :
    execRegisterWrite 0x10 v 4 0 s = .next (s.setReg 0x10 (apertureRow.written (s.reg 0x10) v.toNat)) := by
  rw [execRegisterWrite_word v 0 s rfl, s.writeWord_of_plainWord _ (by decide),
    s.writeReg_of_row (r := apertureRow) (i := 0) (j := 0) _ (by rfl)]

/-- Settles O16: both are plain words; of GLB_APERTURE a write takes the bits of BASE and no other. -/
theorem scratchAndAperture : Obligations.ScratchAndAperture := by
  unfold Obligations.ScratchAndAperture
  simp only [exec_registerWrite]
  refine ⟨fun v s => ?_, fun v s => ?_, fun o s _ => rfl, rfl, rfl⟩
  · exact execRegisterWrite_plain (i := 0) (j := 0) v s rfl (by decide) (by rfl) rfl rfl rfl (by decide)
  · refine ⟨_, execRegisterWrite_aperture v s, ?_, ?_, fun o other => ?_, rfl, rfl, rfl⟩
    · rw [State.field, State.reg_setReg_same, bitsOf_mod_word _ (by decide), RegRow.bitsOf_written_taken _ rfl fun i inside => ?_]
      · rfl
      · rw [testBit_taken_aperture, Nat.zero_add, decide_eq_true inside]
    · rw [State.field, State.reg_setReg_same, bitsOf_mod_word _ (by decide), RegRow.bitsOf_written_kept _ rfl fun i _ => ?_]
      · rfl
      · rw [testBit_taken_aperture, decide_eq_false (by omega)]
    · rw [State.reg_setReg, if_neg (Ne.symm other)]

end Sys2Proof.Machine
end

section
/-!
SUPPORT. Ring pairs (R386, R389 to R393): what enabling and disabling does to a pair, the checks of an entry in their order, what a
doorbell fetches and what a post writes.
-/
namespace Sys2Proof.Machine

theorem exec_ringEnable (r : Nat) (v : Word) (s : State) : exec (.ringEnable r v) s = execRingEnable r v s := rfl
theorem exec_ringDisable (r : Nat) (v : Word) (s : State) : exec (.ringDisable r v) s = execRingDisable r v s := rfl
theorem exec_mbxCqHead (r : Nat) (v : Word) (s : State) : exec (.mbxCqHead r v) s = execMbxCqHead r v s := rfl
theorem exec_mbxSqTail (r : Nat) (v : Word) (es : List Entry) (s : State) :
    exec (.mbxSqTail r v es) s = execMbxSqTail r v es s := rfl
theorem exec_completionPost (r : Nat) (s : State) : exec (.completionPost r) s = execCompletionPost r s := rfl
theorem exec_unsupportedOpcode (e : Entry) (s : State) : exec (.unsupportedOpcode e) s = execUnsupportedOpcode e s := rfl

/-! ### Enabling and disabling -/

/-- What enabling a pair needs: sizes of 16 to 4,096 entries, aligned bases, and MBX_READY (R386). -/
theorem State.ringConfigOk_iff (s : State) (r v : Nat) : s.ringConfigOk r v = true ↔
    16 ≤ bitsOf v 0 13 ∧ bitsOf v 0 13 ≤ 4096 ∧ 16 ≤ bitsOf v 13 13 ∧ bitsOf v 13 13 ≤ 4096 ∧
      s.reg (ringReg r 0x00) % 4096 = 0 ∧ s.reg (ringReg r 0x08) % 4096 = 0 ∧ s.reg (ringReg r 0x10) % 64 = 0 ∧
      s.mbx.ready = true := by
  simp [State.ringConfigOk, and_assoc]

section
variable {r : Nat} {s : State} (unit : r < 16)
include unit

theorem execRingEnable_on (v : Word) (on : (s.ring r).enabled = true) : execRingEnable r v s = .next s := by
  simp [execRingEnable, Nat.not_le.2 unit, on]

section
variable {v : Word} (enable : Nat.testBit v.toNat 31 = true)
include enable

/-- A pair that is off is enabled where its configuration is accepted, and else reports CFG_ERROR. -/
theorem execRingEnable_off (off : (s.ring r).enabled = false) : execRingEnable r v s =
    .next (if s.ringConfigOk r v.toNat = true then
      (s.setReg (ringReg r 0x18) (v.toNat &&& 0x03FFFFFF)).modRing r (fun g =>
        { g with enabled := true, gen := g.gen + 1, sqHead := 0, cqTail := 0, phase := true, expected := 0, compAlive := 0,
                 staged := [], unfetched := [], unsignalled := 0, waiting := g.waiting.filter (fun c => c.isRecord) })
      else (s.setReg (ringReg r 0x18) (v.toNat &&& 0x03FFFFFF)).mbxEvent r 3) := by
  unfold execRingEnable
  rw [if_neg (Nat.not_le.2 unit), if_neg (by simp [enable, off])]
  split <;> rfl

end

section
variable {v : Word} (disable : Nat.testBit v.toNat 31 = false)
include disable

theorem execRingDisable_on (on : (s.ring r).enabled = true) : execRingDisable r v s = .next (s.disableRing r) := by
  simp [execRingDisable, Nat.not_le.2 unit, disable, on]

theorem execRingDisable_off (off : (s.ring r).enabled = false) :
    execRingDisable r v s = .next (s.setReg (ringReg r 0x18) (v.toNat &&& 0x03FFFFFF)) := by
  simp [execRingDisable, Nat.not_le.2 unit, disable, off]

end

theorem execMbxCqHead_unit (v : Word) : execMbxCqHead r v s = .next (s.setReg (ringReg r 0x20) (v.toNat % 4096)) :=
  if_neg (Nat.not_le.2 unit)

end

/-- Settles O10: each write is decided by ENABLE, by whether the pair is on, and by the configuration that R386 accepts. -/
theorem ringPairsEnableAndDisable : Obligations.RingPairsEnableAndDisable := by
  unfold Obligations.RingPairsEnableAndDisable
  simp only [exec_ringEnable, exec_ringDisable, exec_mbxCqHead]
  refine ⟨fun r v s unit enable => ⟨execRingEnable_on unit v, fun off ok => ?_, fun off bad => ?_⟩,
    fun r v s unit disable on => ?_, fun r v s unit disable off => execRingDisable_off unit disable off,
    fun r v s unit => execMbxCqHead_unit unit v⟩
  · rw [execRingEnable_off unit enable off, if_pos ((s.ringConfigOk_iff r v.toNat).2 ok)]
    exact ⟨_, rfl, rfl, rfl, rfl, rfl, rfl, rfl, rfl, rfl⟩
  · rw [execRingEnable_off unit enable off, if_neg fun ok => ?_]
    · rfl
    · obtain ⟨sqLeast, sqMost, cqLeast, cqMost, sqBase, cqBase, shadow, ready⟩ := (s.ringConfigOk_iff r v.toNat).1 ok
      simp only [ready, Bool.true_eq_false, or_false] at bad
      omega
  · rw [execRingDisable_on unit disable on]
    exact ⟨_, rfl, rfl, rfl, rfl, rfl⟩

/-! ### The checks of an entry -/

/-- The next entry of an enabled pair with a free completion slot, while firmware runs: its checks decide what becomes of it (R390). -/
structure Reached (e : Entry) (s : State) : Prop where
  enabled : (s.ring e.ring).enabled = true
  first : (s.ring e.ring).staged.head? = some e
  slot : s.slotFree e.ring = true
  runs : s.firmwareRuns = true

section
variable {e : Entry} {s : State} (reached : Reached e s)
include reached

theorem Reached.passes : ¬(!(s.ring e.ring).enabled || (s.ring e.ring).staged.head? != some e || !s.slotFree e.ring ||
    !s.firmwareRuns) = true := by
  simp [reached.enabled, reached.first, reached.slot, reached.runs]

theorem mbxBegin_crcFails (bad : e.crcOk = false) : mbxBegin e s =
    .rejected ((((s.popEntry e.ring).complete e .crcFail []).mbxEvent e.ring 0).raise srcMailboxCheck 8 e.ring []) := by
  unfold mbxBegin
  dsimp only
  rw [if_neg reached.passes, if_pos (by simp [bad])]

section
variable (crc : e.crcOk = true)
include crc

theorem mbxBegin_aliveWrong (wrong : e.alive ≠ (s.ring e.ring).expected) : mbxBegin e s =
    .rejected ((((s.popEntry e.ring).complete e .aliveRepeat []).mbxEvent e.ring 1).raise srcMailboxAlive 8 e.ring []) := by
  unfold mbxBegin
  dsimp only
  rw [if_neg reached.passes, if_neg (by simp [crc]), if_pos wrong]

/-- An opcode that is not listed, or bits that must be zero, turn away an entry that nothing makes wait. -/
theorem mbxBegin_invalid (alive : e.alive = (s.ring e.ring).expected) (idle : s.jobsOf e.ring = []) (room : s.mbx.jobs.length < 256)
    (bad : e.opcode ∉ opcodeTable ∨ e.zerosOk = false) : mbxBegin e s = .rejected ((s.begun e).complete e .invalid []) := by
  have unlisted : (has opcodeTable e.opcode && e.zerosOk) = false := by
    rw [Bool.and_eq_false_iff, ← Bool.not_eq_true, has_iff]
    exact bad
  unfold mbxBegin
  dsimp only
  rw [if_neg reached.passes, if_neg (by simp [crc]), if_neg (not_not_intro alive), if_neg (by simp [idle, room]),
    if_pos (by simp [unlisted])]
  rfl

end

omit reached in
/-- An entry that a check turns away leaves its ring by the completion of that check. -/
theorem execUnsupportedOpcode_rejected {t : State} (wf : entryWf e = true) (rejected : mbxBegin e s = .rejected t) :
    execUnsupportedOpcode e s = .next t := by
  simp [execUnsupportedOpcode, wf, rejected]

end

@[simp] theorem State.popEntry_ring (s : State) (r : Nat) :
    (s.popEntry r).ring r = { s.ring r with staged := (s.ring r).staged.drop 1 } := s.ring_modRing_same r _

theorem State.begun_ring (s : State) (e : Entry) : (s.begun e).ring e.ring =
    { s.ring e.ring with staged := (s.ring e.ring).staged.drop 1, expected := ((s.ring e.ring).expected + 1) % 65536 } := by
  rw [State.begun, State.nextAlive, State.ring_modRing_same, State.popEntry_ring]

/-- MBX_EVENT holds the bit of the event that was recorded (R407). -/
theorem State.testBit_mbxEvent (s : State) (r : Nat) {bit : Nat} (word : bit < 32) :
    Nat.testBit ((s.mbxEvent r bit).reg 0x10800) bit = true :=
  State.testBit_orReg _ _ (by rw [Nat.testBit_two_pow_self]) word

/-- Settles O7: the checks come one after the other, and what each makes of an entry is the rejection of mbxBegin. -/
theorem entryChecksInOrder : Obligations.EntryChecksInOrder := by
  unfold Obligations.EntryChecksInOrder
  simp only [exec_unsupportedOpcode]
  intro e s wf enabled first slot runs
  have reached : Reached e s := ⟨enabled, first, slot, runs⟩
  have turned {t : State} (rejected : mbxBegin e s = .rejected t) := And.intro rejected (execUnsupportedOpcode_rejected wf rejected)
  exact ⟨fun bad => turned (mbxBegin_crcFails reached bad), fun crc wrong => turned (mbxBegin_aliveWrong reached crc wrong),
    fun crc alive idle room bad => turned (mbxBegin_invalid reached crc alive idle room bad),
    fun op pcie body begins listed => runCmd_begins body begins ((has_iff ..).2 listed), by rw [State.popEntry_ring],
    by rw [State.begun_ring],
    fun u => ⟨u.mbxEvent_mbx _ _, u.testBit_mbxEvent _ (by decide), u.mbxEvent_mbx _ _, u.testBit_mbxEvent _ (by decide)⟩⟩

/-! ### Doorbells -/

/-- A transfer changes the running CRCs and byte counts of its engine and no other register, wherever that lies (R478). -/
theorem State.reg_snoop_word (s : State) {e o : Nat} (kinds : List (Nat × Option Nat)) (bs : List Byte)
    (other : ∀ c < 4, chkReg e c 8 ≠ o ∧ chkReg e c 12 ≠ o) : (s.snoop e kinds bs).reg o = s.reg o := by
  unfold State.snoop
  refine List.foldlRecOn (motive := fun t : State => t.reg o = s.reg o) _ _ rfl fun t same c mem => ?_
  obtain ⟨run, bytes⟩ := other c (List.mem_range.1 mem)
  dsimp only
  split
  · rw [State.reg_setReg, if_neg bytes, State.reg_setReg, if_neg run, same]
  · exact same

/-- The entries that a ring fetches pass the check-value engine of command reads one after the other (R389, R480). -/
def State.dmaEntries (s : State) (es : List Entry) : State := es.foldl (fun s e => s.snoop 8 [(1, none)] e.bytes) s

@[simp] theorem State.dmaEntries_tiles (s : State) (es : List Entry) : (s.dmaEntries es).tiles = s.tiles := by simp [State.dmaEntries]
@[simp] theorem State.dmaEntries_kv (s : State) (es : List Entry) : (s.dmaEntries es).kv = s.kv := by simp [State.dmaEntries]
@[simp] theorem State.dmaEntries_prm (s : State) (es : List Entry) : (s.dmaEntries es).prm = s.prm := by simp [State.dmaEntries]
@[simp] theorem State.dmaEntries_ldr (s : State) (es : List Entry) : (s.dmaEntries es).ldr = s.ldr := by simp [State.dmaEntries]
@[simp] theorem State.dmaEntries_net (s : State) (es : List Entry) : (s.dmaEntries es).net = s.net := by simp [State.dmaEntries]
@[simp] theorem State.dmaEntries_mbx (s : State) (es : List Entry) : (s.dmaEntries es).mbx = s.mbx := by simp [State.dmaEntries]
@[simp] theorem State.dmaEntries_outside (s : State) (es : List Entry) : (s.dmaEntries es).outside = s.outside := by
  simp [State.dmaEntries]

@[simp] theorem State.dmaEntries_ring (s : State) (es : List Entry) (r : Nat) : (s.dmaEntries es).ring r = s.ring r :=
  State.ring_congr (s.dmaEntries_mbx es) r

theorem State.reg_dmaEntries (s : State) (es : List Entry) {o : Nat} (other : ∀ c < 4, chkReg 8 c 8 ≠ o ∧ chkReg 8 c 12 ≠ o) :
    (s.dmaEntries es).reg o = s.reg o :=
  List.foldlRecOn (motive := fun t : State => t.reg o = s.reg o) es _ rfl fun t same _ _ => (t.reg_snoop_word _ _ other).trans same

/-- What fetching leaves of a ring pair (R389). -/
theorem State.fetchEntries_eq {s : State} {r : Nat} (may : s.mayRequest = true) (on : (s.ring r).enabled = true) :
    s.fetchEntries r = ((s.dmaEntries (s.ring r).unfetched).modRing r (fun g =>
      { g with sqHead := (s.dmaEntries (s.ring r).unfetched).reg (ringReg r 0x1C), staged := g.staged ++ g.unfetched,
               unfetched := [] })).writeShadow r :=
  if_neg (by simp [may, on])

theorem State.fetchEntries_still {s : State} (r : Nat) (still : s.mayRequest = false) : s.fetchEntries r = s :=
  if_pos (by simp [still])

/-- A fetch takes the entries that wait to the staging area, and SQ_HEAD to the tail that the doorbell stored (R389). -/
theorem State.ring_fetchEntries {s : State} {r : Nat} (may : s.mayRequest = true) (on : (s.ring r).enabled = true) :
    (s.fetchEntries r).ring r = { s.ring r with
      sqHead := s.reg (ringReg r 0x1C), staged := (s.ring r).staged ++ (s.ring r).unfetched, unfetched := [] } := by
  have tail : (s.dmaEntries (s.ring r).unfetched).reg (ringReg r 0x1C) = s.reg (ringReg r 0x1C) :=
    s.reg_dmaEntries _ fun c hc => by
      unfold chkReg ringReg
      omega
  rw [State.fetchEntries_eq may on, State.ring_congr (State.writeShadow_mbx ..), State.ring_modRing_same, tail,
    State.dmaEntries_ring]

section
variable {r : Nat} {v : Word} {es : List Entry} {s : State} (unit : r < 16)
include unit

theorem execMbxSqTail_beyond (beyond : s.sqSize r ≤ v.toNat % 4096) : execMbxSqTail r v es s = .next (s.mbxEvent r 2) := by
  simp [execMbxSqTail, Nat.not_le.2 unit, beyond]

theorem execMbxSqTail_off (inside : v.toNat % 4096 < s.sqSize r) (off : (s.ring r).enabled = false) :
    execMbxSqTail r v es s = .next (s.setReg (ringReg r 0x1C) (v.toNat % 4096)) := by
  have off' : ((s.setReg (ringReg r 0x1C) (v.toNat % 4096)).ring r).enabled = false := off
  simp [execMbxSqTail, Nat.not_le.2 unit, Nat.not_le.2 inside, off']

/-- The ring pair after a doorbell of an enabled pair: the tail is stored and the entries up to it wait to be fetched (R389). -/
def State.rung (s : State) (r t : Nat) (es : List Entry) : State :=
  (s.setReg (ringReg r 0x1C) t).modRing r (fun g => { g with unfetched := es })

/-- A doorbell hands over the entries from SQ_HEAD up to the tail, which are fetched as soon as the function may read. -/
theorem execMbxSqTail_on (inside : v.toNat % 4096 < s.sqSize r) (on : (s.ring r).enabled = true) (wf : es.all entryWf = true)
    (own : ∀ e ∈ es, e.ring = r) (count : es.length = (v.toNat % 4096 + s.sqSize r - (s.ring r).sqHead) % s.sqSize r) :
    execMbxSqTail r v es s = .next ((s.rung r (v.toNat % 4096) es).fetchEntries r) := by
  have on' : ((s.setReg (ringReg r 0x1C) (v.toNat % 4096)).ring r).enabled = true := on
  have mine : es.filter (fun e => entryWf e && decide (e.ring = r)) = es :=
    List.filter_eq_self.2 fun e mem => by rw [List.all_eq_true.1 wf e mem, decide_eq_true (own e mem)]; rfl
  unfold execMbxSqTail
  dsimp only
  rw [if_neg (Nat.not_le.2 unit), if_neg (Nat.not_le.2 inside), on', if_neg (by decide),
    show ((s.setReg (ringReg r 0x1C) (v.toNat % 4096)).ring r).sqHead = (s.ring r).sqHead from rfl, ← count, List.take_length, mine]
  rfl

end

/-- The registers of a ring pair are those that the doorbell left, but for its tail. -/
theorem State.reg_rung (s : State) (r t o : Nat) (es : List Entry) :
    (s.rung r t es).reg o = if ringReg r 0x1C = o then t % 2 ^ 32 else s.reg o := s.reg_setReg _ _ _

theorem State.ring_rung (s : State) (r t : Nat) (es : List Entry) : (s.rung r t es).ring r = { s.ring r with unfetched := es } :=
  State.ring_modRing_same ..

/-- The head shadow holds SQ_HEAD and the alive counter expected of the next entry to be fetched (R389). -/
theorem State.hostMem_writeShadow {s : State} {r : Nat} (wf : memWf s.outside.hostMem = true) :
    memReadList (s.writeShadow r).outside.hostMem ((s.writeShadow r).pair (ringReg r 0x10)) 8 = leBytes 4 ((s.writeShadow r).ring r).sqHead ++
      leBytes 2 ((((s.writeShadow r).ring r).expected + ((s.writeShadow r).ring r).staged.length) % 65536) ++ leBytes 2 0 := by
  have back := memReadList_memWriteList wf (s.pair (ringReg r 0x10))
    (leBytes 4 (s.ring r).sqHead ++ leBytes 2 (((s.ring r).expected + (s.ring r).staged.length) % 65536) ++ leBytes 2 0)
  rw [List.length_append, List.length_append, length_leBytes, length_leBytes, length_leBytes] at back
  exact back

section
variable {s : State} {r : Nat} (may : s.mayRequest = true) (on : (s.ring r).enabled = true)
include may on

theorem State.hostMem_fetchEntries (wf : memWf s.outside.hostMem = true) :
    memReadList (s.fetchEntries r).outside.hostMem ((s.fetchEntries r).pair (ringReg r 0x10)) 8 =
      leBytes 4 ((s.fetchEntries r).ring r).sqHead ++
        leBytes 2 ((((s.fetchEntries r).ring r).expected + ((s.fetchEntries r).ring r).staged.length) % 65536) ++ leBytes 2 0 := by
  rw [State.fetchEntries_eq may on]
  exact State.hostMem_writeShadow (by simpa using wf)

/-- A fetch leaves the units and the commands in progress alone. -/
theorem State.fetchEntries_frame : (s.fetchEntries r).tiles = s.tiles ∧ (s.fetchEntries r).kv = s.kv ∧ (s.fetchEntries r).prm = s.prm ∧
    (s.fetchEntries r).ldr = s.ldr ∧ (s.fetchEntries r).net = s.net ∧ (s.fetchEntries r).mbx.jobs = s.mbx.jobs := by
  rw [State.fetchEntries_eq may on]
  simp [State.modRing]

end

/-- Settles O11: a doorbell within the ring stores the tail, and an enabled pair then fetches, at once or when the function may. -/
theorem doorbellCopiesEntries : Obligations.DoorbellCopiesEntries := by
  unfold Obligations.DoorbellCopiesEntries
  simp only [exec_mbxSqTail]
  refine ⟨fun r v es s unit inside on may wf own count mem => ?_, fun r v es s unit inside on still wf own count => ?_,
    fun r s may on => ?_, fun r v es s unit inside off => execMbxSqTail_off unit inside off,
    fun r v es s unit beyond => execMbxSqTail_beyond unit beyond⟩
  · refine ⟨_, execMbxSqTail_on unit inside on wf own count, ?_⟩
    have word : v.toNat % 4096 % 2 ^ 32 = v.toNat % 4096 := by omega
    have on' : ((s.rung r (v.toNat % 4096) es).ring r).enabled = true := by
      rw [State.ring_rung]
      exact on
    have ring := State.ring_fetchEntries (s := s.rung r (v.toNat % 4096) es) may on'
    rw [State.ring_rung, State.reg_rung, if_pos rfl, word] at ring
    have shadow := State.hostMem_fetchEntries (s := s.rung r (v.toNat % 4096) es) may on' mem
    rw [ring, List.length_append, ← Nat.add_assoc] at shadow
    rw [ring]
    exact ⟨rfl, rfl, rfl, shadow, State.fetchEntries_frame (s := s.rung r (v.toNat % 4096) es) may on'⟩
  · refine ⟨_, execMbxSqTail_on unit inside on wf own count, ?_⟩
    rw [State.fetchEntries_still r (s := s.rung r (v.toNat % 4096) es) still, State.reg_rung, if_pos rfl, State.ring_rung]
    exact ⟨by omega, rfl, rfl, rfl, rfl, rfl⟩
  · rw [State.ring_fetchEntries may on]
    exact ⟨rfl, rfl, rfl⟩

end Sys2Proof.Machine
end

section
/-! SUPPORT. The posting of completions and records (R388, R391, R393, R511). -/
namespace Sys2Proof.Machine

/-- Raising a vector writes no host memory. -/
@[simp] theorem State.raiseVector_hostMem (s : State) (v : Nat) : (s.raiseVector v).outside.hostMem = s.outside.hostMem := by
  unfold State.raiseVector
  split
  · rfl
  · rw [State.orReg_outside]

@[simp] theorem State.signal_hostMem (s : State) (r : Nat) : (s.signal r).outside.hostMem = s.outside.hostMem :=
  s.raiseVector_hostMem _

/-- A change of a ring pair is what it makes of that ring. -/
theorem State.modRing_congr {s : State} {r : Nat} {f g : Ring → Ring} (h : f (s.ring r) = g (s.ring r)) :
    s.modRing r f = s.modRing r g := by
  rw [State.modRing, State.modRing, h]

/-- Raising a ring's vector starts counting again, and changes no more of the ring (R391). -/
theorem State.ring_signal (s : State) (r : Nat) : (s.signal r).ring r = { s.ring r with unsignalled := 0 } := by
  rw [State.signal, State.ring_modRing_same, State.ring_congr (State.raiseVector_mbx ..)]

/-- The ring pair after its first waiting entry has been posted (R388, R391). -/
def Ring.posted (g : Ring) (size : Nat) : Ring :=
  { g with waiting := g.waiting.tail, cqTail := (g.cqTail + 1) % size, compAlive := (g.compAlive + 1) % 65536,
           phase := if g.cqTail + 1 = size then !g.phase else g.phase, unsignalled := g.unsignalled + 1 }

/-- The state after the first waiting entry of a ring has been written, before the post is counted (R391, R480). -/
def State.postEntry (s : State) (r : Nat) (c : Completion) : State :=
  ((s.snoop 9 [(1, none)] (completionBytes c (s.ring r).phase (s.ring r).compAlive)).hostWrite
    (s.pair (ringReg r 0x08) + 32 * (s.ring r).cqTail) (completionBytes c (s.ring r).phase (s.ring r).compAlive)).modRing r
      (fun g => g.posted (s.cqSize r))

theorem State.ring_postEntry (s : State) (r : Nat) (c : Completion) : (s.postEntry r c).ring r = (s.ring r).posted (s.cqSize r) := by
  rw [State.postEntry, State.ring_modRing_same, State.ring_congr (State.hostWrite_mbx ..), State.ring_congr (State.snoop_mbx ..)]

theorem State.hostMem_postEntry (s : State) (r : Nat) (c : Completion) : (s.postEntry r c).outside.hostMem =
    memWriteList s.outside.hostMem (s.pair (ringReg r 0x08) + 32 * (s.ring r).cqTail)
      (completionBytes c (s.ring r).phase (s.ring r).compAlive) := by
  simp [State.postEntry, State.hostWrite]

/-- The counters of a post: records and the tokens that they deliver, or completions (R511). -/
def State.countPost (s : State) (c : Completion) : State :=
  if c.isRecord then (s.count 75 1).count 24 (tokensIn c) else s.count 74 1

@[simp] theorem State.countPost_mbx (s : State) (c : Completion) : (s.countPost c).mbx = s.mbx := by simp [State.countPost]
@[simp] theorem State.countPost_outside (s : State) (c : Completion) : (s.countPost c).outside = s.outside := by simp [State.countPost]

/-- The state after a post, whether it raises the ring's vector or not: the ring has its entry posted, and the entry stands in host
memory (R391). -/
structure Posts (s : State) (r : Nat) (c : Completion) (t : State) : Prop where
  hostMem : t.outside.hostMem = (s.postEntry r c).outside.hostMem
  ring : ∃ n, t.ring r = { (s.ring r).posted (s.cqSize r) with unsignalled := n }
  units : t.tiles = s.tiles ∧ t.kv = s.kv ∧ t.prm = s.prm ∧ t.ldr = s.ldr ∧ t.net = s.net ∧ t.fabric = s.fabric

theorem State.countPost_posts (s : State) (r : Nat) (c : Completion) : Posts s r c ((s.postEntry r c).countPost c) where
  hostMem := by rw [State.countPost_outside]
  ring := ⟨_, (State.ring_congr (State.countPost_mbx ..) r).trans (s.ring_postEntry r c)⟩
  units := by simp [State.countPost, State.postEntry]

theorem State.signal_posts {s t : State} {r : Nat} {c : Completion} (posts : Posts s r c t) : Posts s r c (t.signal r) where
  hostMem := by rw [State.signal_hostMem, posts.hostMem]
  ring := by
    obtain ⟨n, ring⟩ := posts.ring
    exact ⟨0, by rw [State.ring_signal, ring]⟩
  units := by simpa using posts.units

section
variable {r : Nat} {s : State} (unit : r < 16)
include unit

/-- Nothing is posted where nothing waits, no slot is open, the function may not write, or the record's admission is still to be posted. -/
theorem execCompletionPost_waits (held : ∀ c rest, (s.ring r).waiting = c :: rest →
    s.slotOpen r = false ∨ s.mayRequest = false ∨ s.awaitsAdmit r c = true) : execCompletionPost r s = .next s := by
  unfold execCompletionPost
  rw [if_neg (Nat.not_le.2 unit)]
  dsimp only
  split
  · rfl
  · next c rest waiting =>
    refine if_pos ?_
    rcases held c rest waiting with q | q | q <;> simp [q]

theorem execCompletionPost_posts {c : Completion} {rest : List Completion} (waiting : (s.ring r).waiting = c :: rest)
    (slot : s.slotOpen r = true) (may : s.mayRequest = true) (admitted : s.awaitsAdmit r c = false) :
    execCompletionPost r s = .next (if max 1 (((s.postEntry r c).countPost c).field (ringReg r 0x28) 12 8) ≤
        (((s.postEntry r c).countPost c).ring r).unsignalled then ((s.postEntry r c).countPost c).signal r
      else (s.postEntry r c).countPost c) := by
  have post : ((s.snoop 9 [(1, none)] (completionBytes c (s.ring r).phase (s.ring r).compAlive)).hostWrite
      (s.pair (ringReg r 0x08) + 32 * (s.ring r).cqTail) (completionBytes c (s.ring r).phase (s.ring r).compAlive)).modRing r (fun g =>
        { g with waiting := rest, cqTail := (g.cqTail + 1) % s.cqSize r, compAlive := (g.compAlive + 1) % 65536,
                 phase := if g.cqTail + 1 = s.cqSize r then !g.phase else g.phase, unsignalled := g.unsignalled + 1 }) =
      s.postEntry r c := by
    refine State.modRing_congr ?_
    rw [State.ring_congr (State.hostWrite_mbx ..), State.ring_congr (State.snoop_mbx ..), Ring.posted, waiting]
    rfl
  unfold execCompletionPost
  rw [if_neg (Nat.not_le.2 unit)]
  dsimp only
  rw [waiting]
  dsimp only
  rw [if_neg (by simp [slot, may, admitted]), post]
  exact (apply_ite _ _ _ _).symm

end

/-- Settles O9: what stops a post leaves the state; else the entry is written and the ring goes on, whether its vector is raised or not. -/
theorem completionPostWritesOneEntry : Obligations.CompletionPostWritesOneEntry := by
  unfold Obligations.CompletionPostWritesOneEntry
  simp only [exec_completionPost]
  refine ⟨fun r s c rest unit waiting slot may admitted mem => ?_, fun r s unit closed => ?_, fun r s c rest unit waiting awaits => ?_⟩
  · obtain ⟨t, posted, posts⟩ : ∃ t, execCompletionPost r s = .next t ∧ Posts s r c t := by
      refine ⟨_, execCompletionPost_posts unit waiting slot may admitted, ?_⟩
      split
      · exact State.signal_posts (s.countPost_posts r c)
      · exact s.countPost_posts r c
    obtain ⟨n, ring⟩ := posts.ring
    refine ⟨t, posted, ?_, fun a outside => ?_, ?_, ?_, ?_, ?_, posts.units⟩
    · have back := memReadList_memWriteList mem (s.pair (ringReg r 0x08) + 32 * (s.ring r).cqTail)
        (completionBytes c (s.ring r).phase (s.ring r).compAlive)
      rwa [length_completionBytes, ← State.hostMem_postEntry, ← posts.hostMem] at back
    · rw [posts.hostMem, State.hostMem_postEntry, memRead_memWriteList_other mem _ _ _ (by rwa [length_completionBytes])]
    · rw [ring, Ring.posted, waiting]
      rfl
    all_goals rw [ring, Ring.posted]
  · exact execCompletionPost_waits unit fun _ _ _ => .inl closed
  · refine execCompletionPost_waits unit fun c' rest' waiting' => .inr (.inr ?_)
    rw [waiting, List.cons.injEq] at waiting'
    rw [← waiting'.1, awaits]

end Sys2Proof.Machine
end

section
/-!
SUPPORT. The power cap, the thermal hysteresis and the control of power (R396, R440 to R444, R447, R451, R452): what each command
takes, and what an interval, a bubble block and a step of the ramp do.
-/
namespace Sys2Proof.Machine

theorem exec_capSet (e : Entry) (s : State) : exec (.capSet e) s = execCapSet e s := rfl
theorem exec_thermalSet (e : Entry) (s : State) : exec (.thermalSet e) s = execThermalSet e s := rfl
theorem exec_controlInterval (onDie : Nat) (s : State) : exec (.controlInterval onDie) s = execControlInterval onDie s := rfl
theorem exec_bubbleBlock (s : State) : exec .bubbleBlock s = execBubbleBlock s := rfl
theorem exec_rampStep (idle : Bool) (s : State) : exec (.rampStep idle) s = execRampStep idle s := rfl

theorem State.powered_of {s : State} (good : s.pwr.powerGood = true) (on : s.pwr.allStopped = false) : s.powered = true := by
  simp [State.powered, good, on]

/-- The stage clock runs where neither it nor every clock is stopped. -/
theorem State.clockRuns_iff (s : State) : s.clockRuns = true ↔ s.pwr.stageStopped = false ∧ s.pwr.allStopped = false := by
  simp [State.clockRuns]

/-! ### CAP_SET and THERMAL_SET -/

section
variable {e : Entry} {s : State}

theorem execCapSet_takes (begins : Begins e 0x60 false s) (least : 500 ≤ e.op 8 2) (most : e.op 8 2 ≤ 1350) :
    execCapSet e s = .next ({ s.begun e with pwr := { s.pwr with
      cap := e.op 8 2, throttle := s.pwr.throttle.map (min (e.op 8 2)) } }.complete e .ok (leBytes 2 s.pwr.cap)) := by
  rw [execCapSet, runCmd_begins _ begins (by decide), runBody_done (if_neg (by simp [least, most]))]
  rfl

theorem execCapSet_invalid (begins : Begins e 0x60 false s) (bad : e.op 8 2 < 500 ∨ 1350 < e.op 8 2) :
    execCapSet e s = .next ((s.begun e).complete e .invalid []) := by
  rw [execCapSet, runCmd_begins _ begins (by decide), runBody_done (if_pos (by simpa using bad))]

theorem execThermalSet_takes (begins : Begins e 0x61 false s) (die : 2 ≤ e.op 8 1) (die' : e.op 8 1 ≤ 10) (hbm : 2 ≤ e.op 9 1)
    (hbm' : e.op 9 1 ≤ 10) : execThermalSet e s = .next (((s.begun e).setReg 0x80038 (e.op 9 1 * 256 + e.op 8 1)).complete e .ok
      (leBytes 1 (s.field 0x80038 0 4) ++ leBytes 1 (s.field 0x80038 8 4))) := by
  rw [execThermalSet, runCmd_begins _ begins (by decide), runBody_done (if_neg (by simp [Nat.not_lt.2 die, Nat.not_lt.2 hbm, die', hbm']))]
  rfl

theorem execThermalSet_invalid (begins : Begins e 0x61 false s)
    (bad : e.op 8 1 < 2 ∨ 10 < e.op 8 1 ∨ e.op 9 1 < 2 ∨ 10 < e.op 9 1) :
    execThermalSet e s = .next ((s.begun e).complete e .invalid []) := by
  rw [execThermalSet, runCmd_begins _ begins (by decide), runBody_done (if_pos (by simpa [or_assoc] using bad))]

end

/-! ### The events of a powered device -/

/-- A counter that advances by none stays, with what saturates (R512). -/
theorem State.count_zero (s : State) (i : Nat) : s.count i 0 = s := by
  have still : (decide (s.counter i < counterTop) && decide (satAdd counterTop (s.counter i) 0 = counterTop)) = false := by
    rw [Bool.and_eq_false_iff, decide_eq_false_iff_not, decide_eq_false_iff_not, satAdd]
    omega
  unfold State.count
  dsimp only
  rw [still, if_pos rfl, if_neg Bool.false_ne_true]

section
variable {s : State} (powered : s.powered = true)
include powered

theorem execControlInterval_powered (d : Nat) : execControlInterval d s =
    .next ({ (s.elapse 1).measure (s.packagePower d) with
      pwr := ((s.elapse 1).measure (s.packagePower d)).pwr.interval (s.packagePower d) s.fabric.phaseTag
        (!s.prm.scenes.isEmpty) }.capUnmet (s.packagePower d)) := by
  have same : ((s.elapse 1).measure (s.packagePower d)).fabric = s.fabric ∧ ((s.elapse 1).measure (s.packagePower d)).prm = s.prm := by
    simp [State.measure]
  unfold execControlInterval
  dsimp only
  rw [if_neg (by simp [powered]), same.1, same.2]

omit powered in
theorem execBubbleBlock_stopped (stopped : s.pwr.stageStopped = true) : execBubbleBlock s = .next s :=
  if_pos (by simp [State.clockRuns, stopped])

/-- With no collective window open a block's target makes up for the debt (R442, R448). -/
theorem execBubbleBlock_closed (runs : s.clockRuns = true) (closed : s.openStep? = none) {full target : Nat}
    (demand : full = max (max (64 - s.pwr.ceiling) s.pwr.capDemand) s.pwr.throttleDemand)
    (taken : target = min 60 (full + min s.pwr.debt 16)) {b : Blocked}
    (block : b = (List.range 64).foldl (Blocked.cycle target)
      { state := { s with pwr := { s.pwr with target := target, debt := s.pwr.debt - (target - full) } } }) :
    execBubbleBlock s = .next { b.state with pwr := { b.state.pwr with bubbles := b.bubbles } } := by
  have bubbles : s.pwr.block (s.openStep?.map (fun x => x.deadline)) = (target, s.pwr.debt - (target - full), 0, false) := by
    rw [closed, taken, demand]
    rfl
  unfold execBubbleBlock
  dsimp only
  rw [if_neg (by simp [powered, runs]), bubbles]
  dsimp only
  rw [State.count_zero, if_neg (by decide), block]

theorem execRampStep_idle (idle : s.deviceIdle = true) :
    execRampStep true s = .next { s with pwr := { s.pwr with ceiling := 4 } } := by
  simp [execRampStep, powered, idle]

theorem execRampStep_busy (busy : s.deviceIdle = false) :
    execRampStep false s = .next { s with pwr := { s.pwr with ceiling := min 64 (s.pwr.ceiling + 1) } } := by
  simp [execRampStep, powered, busy]

end

/-- Settles O27: the two commands by the range of their operands, and the events on a device that has power. -/
theorem powerCapAndControl : Obligations.PowerCapAndControl := by
  unfold Obligations.PowerCapAndControl
  simp only [exec_capSet, exec_thermalSet, exec_controlInterval, exec_bubbleBlock, exec_rampStep]
  refine ⟨fun e s begins least most => execCapSet_takes begins least most, fun e s begins bad => execCapSet_invalid begins bad,
    fun e s begins die die' hbm hbm' => execThermalSet_takes begins die die' hbm hbm',
    fun e s begins bad => execThermalSet_invalid begins bad, fun d p s good on power => ?_,
    fun b s good on stage closed block => ?_, fun s good on stopped => execBubbleBlock_stopped stopped,
    fun s good on => ⟨execRampStep_idle (State.powered_of good on), execRampStep_busy (State.powered_of good on)⟩⟩
  · rw [execControlInterval_powered (State.powered_of good on), power]
  · exact execBubbleBlock_closed (State.powered_of good on) (s.clockRuns_iff.2 ⟨stage, on⟩) closed rfl rfl block

end Sys2Proof.Machine
end

section
/-!
SUPPORT. Interrupt coalescing, the errors and the configuration of the PCIe function, and messages that wait (R376, R377, R379, R380,
R391, R404, R411).
-/
namespace Sys2Proof.Machine

theorem exec_coalTimer (r : Nat) (s : State) : exec (.coalTimer r) s = execCoalTimer r s := rfl
theorem exec_dmaCompletion (r tag : Nat) (poisoned : Bool) (s : State) :
    exec (.dmaCompletion r tag poisoned) s = execDmaCompletion r tag poisoned s := rfl
theorem exec_pcieLinkError (bit : Nat) (s : State) : exec (.pcieLinkError bit) s = execPcieLinkError bit s := rfl
theorem exec_pcieConfigWrite (w : CfgWrite) (s : State) : exec (.pcieConfigWrite w) s = execPcieConfigWrite w s := rfl

/-! ### Timers and errors -/

section
variable {r : Nat} {s : State} (unit : r < 16)
include unit

theorem execCoalTimer_fires (waits : (s.ring r).unsignalled ≠ 0) (time : s.field (ringReg r 0x28) 0 12 ≠ 0) :
    execCoalTimer r s = .next (s.signal r) := by
  simp [execCoalTimer, Nat.not_le.2 unit, waits, time]

theorem execCoalTimer_silent (none : (s.ring r).unsignalled = 0 ∨ s.field (ringReg r 0x28) 0 12 = 0) :
    execCoalTimer r s = .next s := by
  simp [execCoalTimer, Nat.not_le.2 unit, none]

theorem execDmaCompletion_sound (tag : Nat) : execDmaCompletion r tag false s = .next s := by
  simp [execDmaCompletion, Nat.not_le.2 unit]

theorem execDmaCompletion_poisoned (tag : Nat) : execDmaCompletion r tag true s = .next ((s.finishJobs (fun j =>
    if j.ring = r ∧ j.tag = tag then some (.crcFail, []) else none)).raise srcPcieUncorrectable 0 0 []) := by
  simp [execDmaCompletion, Nat.not_le.2 unit]

end

/-- A link error that AER masks, or an ECRC error that is not checked for, raises nothing (R376, R404). -/
theorem execPcieLinkError_eq (bit : Nat) (s : State) : execPcieLinkError bit s =
    if Nat.testBit s.pcie.aerMask bit = true ∨ (bit = 19 ∧ s.pcie.ecrcCheck = false) then .next s
    else .next (s.raise srcPcieUncorrectable 0 0 []) := by
  simp [execPcieLinkError]

/-! ### What the requests that waited leave -/

/-- What a request of the function leaves: its own configuration, the tiles, the key/value cache and the sequence table. -/
structure State.RequestStays (s t : State) : Prop where
  pcie : t.pcie = s.pcie
  tiles : t.tiles = s.tiles
  kv : t.kv = s.kv
  prm : t.prm = s.prm

theorem State.RequestStays.refl (s : State) : s.RequestStays s := ⟨rfl, rfl, rfl, rfl⟩

theorem State.RequestStays.trans {s t u : State} (h : s.RequestStays t) (k : t.RequestStays u) : s.RequestStays u :=
  ⟨k.pcie.trans h.pcie, k.tiles.trans h.tiles, k.kv.trans h.kv, k.prm.trans h.prm⟩

theorem State.RequestStays.foldl {α : Type} {f : State → α → State} (h : ∀ (s : State) x, s.RequestStays (f s x)) (xs : List α)
    (s : State) : s.RequestStays (xs.foldl f s) :=
  List.foldlRecOn xs f (motive := fun t => s.RequestStays t) (.refl s) fun t stays x _ => stays.trans (h t x)

theorem State.snoop_stays (s : State) (e : Nat) (kinds : List (Nat × Option Nat)) (bs : List Byte) :
    s.RequestStays (s.snoop e kinds bs) := ⟨by simp, by simp, by simp, by simp⟩

theorem State.modHostRing_stays (s : State) (rx : Bool) (f : HostRing → HostRing) : s.RequestStays (s.modHostRing rx f) := by
  cases rx <;> exact ⟨rfl, rfl, rfl, rfl⟩

theorem State.hostWrite_stays (s : State) (a : Nat) (bs : List Byte) : s.RequestStays (s.hostWrite a bs) := ⟨rfl, rfl, rfl, rfl⟩

theorem State.fetchEntries_stays (s : State) (r : Nat) : s.RequestStays (s.fetchEntries r) := by
  unfold State.fetchEntries
  split
  · exact .refl s
  · exact (State.RequestStays.foldl (fun u e => u.snoop_stays ..) _ _).trans ⟨rfl, rfl, rfl, rfl⟩

theorem State.readDescriptors_stays (s : State) (rx : Bool) : s.RequestStays (s.readDescriptors rx) := by
  unfold State.readDescriptors
  split
  · exact .refl s
  · exact (State.RequestStays.foldl (fun u d => u.snoop_stays ..) _ _).trans (State.modHostRing_stays ..)

theorem State.giveBack_stays (s : State) (rx : Bool) (bs : List Byte) : s.RequestStays (s.giveBack rx bs) := by
  unfold State.giveBack
  exact ((State.snoop_stays ..).trans (State.hostWrite_stays ..)).trans (State.modHostRing_stays ..)

theorem State.returnBad_stays (rx : Bool) (ds : List (List Byte)) (s : State) : s.RequestStays (State.returnBad rx ds s) := by
  induction ds generalizing s with
  | nil => exact .refl s
  | cons d ds ih =>
    rw [State.returnBad]
    split
    · exact .refl s
    · exact (s.giveBack_stays ..).trans (ih _)

theorem State.storeHostFrame_stays (s : State) (port at_ : Nat) (frame : List Byte) : s.RequestStays (s.storeHostFrame port at_ frame) := by
  have returned := State.returnBad_stays true s.net.rxRing.queue s
  unfold State.storeHostFrame
  dsimp only
  split
  · exact returned.trans ⟨rfl, rfl, rfl, rfl⟩
  · split
    · exact returned.trans ⟨rfl, rfl, rfl, rfl⟩
    · refine returned.trans (State.RequestStays.trans (State.RequestStays.trans ?_ (State.giveBack_stays ..)) (State.modHostRing_stays ..))
      exact (State.snoop_stays ..).trans (State.hostWrite_stays ..)

theorem State.resumeHostFrames_stays (s : State) : s.RequestStays s.resumeHostFrames := by
  unfold State.resumeHostFrames
  split
  · exact .refl s
  · refine ((s.readDescriptors_stays false).trans (State.readDescriptors_stays _ true)).trans ?_
    dsimp only
    refine State.RequestStays.trans ?_ (State.RequestStays.foldl (fun u x => u.storeHostFrame_stays ..) _ _)
    exact ⟨rfl, rfl, rfl, rfl⟩

/-! ### Messages that wait -/

/-- The offset of the pending bit of a vector, and of its control word in the MSI-X table (R379). -/
def pendingReg (v : Nat) : Nat := 0x1D000 + 4 * (v / 32)
def vectorControl (v : Nat) : Nat := 0x1C00C + 0x10 * v

/-- A message that waits leaves where its vector is not masked (R379). -/
def State.deliverVector (s : State) (v : Nat) : State :=
  if s.maySignal && Nat.testBit (s.reg (pendingReg v)) (v % 32) && decide (s.reg (vectorControl v) % 2 = 0) then
    { s.setReg (pendingReg v) (clearBits (s.reg (pendingReg v)) (2 ^ (v % 32))) with
      outside := { s.outside with msix := v :: s.outside.msix } }
  else s

theorem State.deliverPending_eq (s : State) : s.deliverPending = (List.range 64).foldl State.deliverVector s := rfl

theorem State.deliverVector_stays (s : State) (v : Nat) : s.RequestStays (s.deliverVector v) := by
  unfold State.deliverVector
  split
  · exact ⟨rfl, rfl, rfl, rfl⟩
  · exact .refl s

theorem State.deliverPending_stays (s : State) : s.RequestStays s.deliverPending :=
  State.RequestStays.foldl State.deliverVector_stays _ s

theorem State.resumeRequests_stays (s : State) : s.RequestStays s.resumeRequests :=
  ((State.RequestStays.foldl State.fetchEntries_stays _ s).trans (State.resumeHostFrames_stays _)).trans (State.deliverPending_stays _)

/-- A message waits, and nothing keeps it from leaving (R379). -/
structure State.VectorWaits (s : State) (v : Nat) : Prop where
  signals : s.maySignal = true
  pending : Nat.testBit (s.reg (pendingReg v)) (v % 32) = true
  unmasked : s.reg (vectorControl v) % 2 = 0

/-- A message has left, and its pending bit is clear (R379). -/
structure State.VectorSent (s : State) (v : Nat) : Prop where
  sent : v ∈ s.outside.msix
  clear : Nat.testBit (s.reg (pendingReg v)) (v % 32) = false

/-- Delivering a vector clears its own pending bit, and no other of the register. -/
theorem testBit_clearBits_vector (w i v : Nat) (word : i < 32) :
    (clearBits w (2 ^ v) % 2 ^ 32).testBit i = (w.testBit i && decide (v ≠ i)) := by
  rw [Nat.testBit_mod_two_pow, decide_eq_true word, Bool.true_and, testBit_clearBits, Nat.testBit_two_pow, decide_not]

/-- The vectors' control words and their pending bits are different registers. -/
theorem pendingReg_ne_vectorControl {v w : Nat} (vector : v < 64) : pendingReg w ≠ vectorControl v := by
  unfold pendingReg vectorControl
  omega

/-- Two vectors of one pending register have different bits there. -/
theorem vector_bit_ne {v w : Nat} (other : w ≠ v) (same : pendingReg w = pendingReg v) : w % 32 ≠ v % 32 := by
  unfold pendingReg at same
  omega

theorem State.VectorWaits.deliver_same {s : State} {v : Nat} (h : s.VectorWaits v) : (s.deliverVector v).VectorSent v := by
  have leaves : s.deliverVector v = { s.setReg (pendingReg v) (clearBits (s.reg (pendingReg v)) (2 ^ (v % 32))) with
      outside := { s.outside with msix := v :: s.outside.msix } } := if_pos (by simp [h.signals, h.pending, h.unmasked])
  rw [leaves]
  refine ⟨List.mem_cons_self, (congrArg (Nat.testBit · _) (s.reg_setReg_same ..)).trans ?_⟩
  rw [testBit_clearBits_vector _ _ _ (Nat.mod_lt _ (by decide))]
  simp

theorem State.VectorWaits.deliver_other {s : State} {v w : Nat} (vector : v < 64) (other : w ≠ v) (h : s.VectorWaits v) :
    (s.deliverVector w).VectorWaits v := by
  unfold State.deliverVector
  split
  · refine ⟨h.signals, (congrArg (Nat.testBit · _) (s.reg_setReg ..)).trans ?_, (congrArg (· % 2) (s.reg_setReg ..)).trans ?_⟩
    · split
      · next same =>
        rw [testBit_clearBits_vector _ _ _ (Nat.mod_lt _ (by decide)), same, h.pending, decide_eq_true (vector_bit_ne other same)]
        rfl
      · exact h.pending
    · rw [if_neg (pendingReg_ne_vectorControl vector)]
      exact h.unmasked
  · exact h

theorem State.VectorSent.deliver {s : State} {v w : Nat} (h : s.VectorSent v) : (s.deliverVector w).VectorSent v := by
  unfold State.deliverVector
  split
  · refine ⟨List.mem_cons_of_mem _ h.sent, (congrArg (Nat.testBit · _) (s.reg_setReg ..)).trans ?_⟩
    split
    · next same =>
      rw [testBit_clearBits_vector _ _ _ (Nat.mod_lt _ (by decide)), same, h.clear]
      rfl
    · exact h.clear
  · exact h

/-- A message that waits leaves with the vectors that are delivered, where its own is one of them. -/
theorem State.VectorWaits.delivered {s : State} {v : Nat} (vector : v < 64) (h : s.VectorWaits v) {vs : List Nat} (mem : v ∈ vs) :
    (vs.foldl State.deliverVector s).VectorSent v := by
  induction vs generalizing s with
  | nil => cases mem
  | cons w vs ih =>
    rw [List.foldl_cons]
    by_cases own : w = v
    · subst own
      exact List.foldlRecOn vs _ (motive := fun t => State.VectorSent t w) h.deliver_same fun t sent _ _ => sent.deliver
    · exact ih (h.deliver_other vector own) ((List.mem_cons.1 mem).resolve_left (Ne.symm own))

theorem State.VectorWaits.leaves {s : State} {v : Nat} (vector : v < 64) (h : s.VectorWaits v) : s.deliverPending.VectorSent v := by
  rw [State.deliverPending_eq]
  exact h.delivered vector (List.mem_range.2 vector)

/-! ### Configuration space -/

/-- The bits of a number with another value in one of its fields. -/
theorem testBit_putBits (v lo len x i : Nat) :
    (putBits v lo len x).testBit i = if lo ≤ i ∧ i < lo + len then x.testBit (i - lo) else v.testBit i := by
  have low : v % 2 ^ lo < 2 ^ lo := Nat.mod_lt _ (Nat.two_pow_pos lo)
  have field : x % 2 ^ len < 2 ^ len := Nat.mod_lt _ (Nat.two_pow_pos len)
  rw [putBits_eq, Nat.testBit_two_pow_mul_add _ low, Nat.testBit_mod_two_pow]
  by_cases below : i < lo
  · rw [if_pos below, decide_eq_true below, if_neg (by omega), Bool.true_and]
  rw [if_neg below, Nat.testBit_two_pow_mul_add _ field, Nat.testBit_mod_two_pow]
  by_cases inside : i - lo < len
  · rw [if_pos inside, decide_eq_true inside, if_pos (by omega), Bool.true_and]
  · rw [if_neg inside, if_neg (by omega), Nat.testBit_div_two_pow, Nat.testBit_div_two_pow]
    congr 1
    omega

/-- The field that was put. -/
theorem bitsOf_putBits_same (v lo len x : Nat) : bitsOf (putBits v lo len x) lo len = x % 2 ^ len := by
  apply Nat.eq_of_testBit_eq
  intro i
  rw [testBit_bitsOf, testBit_putBits, Nat.testBit_mod_two_pow]
  by_cases inside : i < len
  · rw [if_pos (by omega), Nat.add_sub_cancel_left]
  · rw [decide_eq_false inside, Bool.false_and, Bool.false_and]

/-- A field apart from the one that was put. -/
theorem bitsOf_putBits_apart {lo len lo' len' : Nat} (v x : Nat) (apart : lo' + len' ≤ lo ∨ lo + len ≤ lo') :
    bitsOf (putBits v lo len x) lo' len' = bitsOf v lo' len' :=
  bitsOf_congr fun i inside => by rw [testBit_putBits, if_neg (by omega)]

theorem bitsOf_lt (v lo len : Nat) : bitsOf v lo len < 2 ^ len := Nat.mod_lt _ (Nat.two_pow_pos len)

/-- The field of Device Control that a write leaves: what was written where R376 lists it, else what stood there. -/
def keptSize (most old v : Nat) : Nat := if v ≤ most then v else old

/-- The two size fields of Device Control after a write (R376). -/
theorem Pcie.control_sizes (p : Pcie) (v : Nat) :
    bitsOf (p.control v).devControl 5 3 = keptSize 2 (bitsOf p.devControl 5 3) (bitsOf v 5 3) ∧
      bitsOf (p.control v).devControl 12 3 = keptSize 5 (bitsOf p.devControl 12 3) (bitsOf v 12 3) := by
  have cut {lo len : Nat} (h : lo + len ≤ 15) : bitsOf (v % 32768) lo len = bitsOf v lo len :=
    bitsOf_congr fun i inside => by
      rw [show 32768 = 2 ^ 15 from rfl, Nat.testBit_mod_two_pow, decide_eq_true (by omega), Bool.true_and]
  have payload := cut (lo := 5) (len := 3) (by decide)
  have request := cut (lo := 12) (len := 3) (by decide)
  have oldPayload := Nat.mod_eq_of_lt (bitsOf_lt p.devControl 5 3)
  have oldRequest := Nat.mod_eq_of_lt (bitsOf_lt p.devControl 12 3)
  unfold Pcie.control keptSize
  dsimp only
  rw [payload]
  split
  · rw [request]
    split
    · exact ⟨payload, request⟩
    · rw [bitsOf_putBits_apart _ _ (by decide), bitsOf_putBits_same, oldRequest]
      exact ⟨payload, rfl⟩
  · rw [bitsOf_putBits_apart _ _ (by decide), request]
    split
    · rw [bitsOf_putBits_same, bitsOf_putBits_apart _ _ (by decide), request]
      exact ⟨oldPayload, rfl⟩
    · rw [bitsOf_putBits_apart _ _ (by decide), bitsOf_putBits_same, bitsOf_putBits_same]
      exact ⟨oldPayload, oldRequest⟩

theorem Pcie.maxPayload_control (p : Pcie) (v : Nat) :
    (p.control v).maxPayload = if bitsOf v 5 3 ≤ 2 then 128 * 2 ^ bitsOf v 5 3 else p.maxPayload := by
  rw [Pcie.maxPayload, (p.control_sizes v).1, keptSize]
  split <;> rfl

theorem Pcie.maxReadRequest_control (p : Pcie) (v : Nat) :
    (p.control v).maxReadRequest = if bitsOf v 12 3 ≤ 5 then 128 * 2 ^ bitsOf v 12 3 else p.maxReadRequest := by
  rw [Pcie.maxReadRequest, (p.control_sizes v).2, keptSize]
  split <;> rfl

theorem execPcieConfigWrite_ready {s : State} (w : CfgWrite) (ready : s.configReady = true) :
    execPcieConfigWrite w s = .next { s with pcie := s.pcie.write w }.resumeRequests := if_pos ready

theorem execPcieConfigWrite_retry {s : State} (w : CfgWrite) (retry : s.configReady = false) : execPcieConfigWrite w s = .next s :=
  if_neg (by simp [retry])

/-- Settles O12: each event by its own conditions; what waited for the function leaves its configuration and the units alone. -/
theorem coalescingAndPcieErrors : Obligations.CoalescingAndPcieErrors := by
  unfold Obligations.CoalescingAndPcieErrors
  simp only [exec_coalTimer, exec_dmaCompletion, exec_pcieLinkError, exec_pcieConfigWrite]
  refine ⟨fun r s unit waits time => execCoalTimer_fires unit waits time, fun r s unit silent => execCoalTimer_silent unit silent,
    fun r tag s unit => execDmaCompletion_sound unit tag, fun r tag s unit => execDmaCompletion_poisoned unit tag,
    fun bit s _ => ⟨fun masked => ?_, fun unmasked checked => ?_⟩, fun w s => ⟨execPcieConfigWrite_retry w, fun ready => ?_⟩,
    fun n v on mask p => ⟨rfl, rfl, rfl, rfl, p.maxPayload_control v, p.maxReadRequest_control v⟩,
    fun v s vector signals pending unmasked => ?_⟩
  · rw [execPcieLinkError_eq, if_pos masked]
  · rw [execPcieLinkError_eq, if_neg]
    rintro (masked | ⟨ecrc, unchecked⟩)
    · simp [masked] at unmasked
    · simp [ecrc, unchecked] at checked
  · obtain ⟨pcie, tiles, kv, prm⟩ := State.resumeRequests_stays { s with pcie := s.pcie.write w }
    exact ⟨_, execPcieConfigWrite_ready w ready, rfl, pcie, tiles, kv, prm⟩
  · have waits : s.VectorWaits v := ⟨signals, pending, unmasked⟩
    exact ⟨(waits.leaves vector).sent, (waits.leaves vector).clear⟩

end Sys2Proof.Machine
end

section
/-! SUPPORT. The resets of the PCIe function and of the chip (R379, R423, R424). -/
namespace Sys2Proof.Machine

theorem exec_hotReset (s : State) : exec .hotReset s = execHotReset s := rfl
theorem exec_flr (s : State) : exec .flr s = execFlr s := rfl
theorem exec_chipReset (selfTest identity : Bool) (b : List Byte) (s : State) :
    exec (.chipReset selfTest identity b) s = execChipReset selfTest identity b s := rfl

/-- Every ring pair takes its reset values (R424). -/
theorem State.ring_functionReset (s : State) (r : Nat) : (s.functionReset.ring r).enabled = false := by
  have rings : s.functionReset.mbx.rings = Map.mapVals s.mbx.rings (fun _ g => g.afresh s.integ.fatalStop) := rfl
  rw [State.ring, Map.getD, rings, Map.get?_mapVals]
  cases Map.get? s.mbx.rings r <;> rfl

/-- No copy under load keeps its content keys (R424). -/
theorem State.keys_functionReset (s : State) {c : Copy} (h : s.functionReset.ldr.current = some c) : c.keys = [] := by
  obtain ⟨loaded, -, rfl⟩ := Option.map_eq_some_iff.1 (show s.ldr.current.map Copy.keyless = some c from h)
  rfl

theorem State.tile_functionReset (s : State) (x : Nat) : s.functionReset.tile x = (s.tile x).functionReset :=
  State.tile_mapTiles _ (f := fun _ y => y.functionReset) rfl

/-- A function reset keeps all of a tile but the tags of free group slots and what shows of a phase that is over (R11, R65, R151). -/
theorem Tile.functionReset_keeps (x : Tile) : x.functionReset.cells = x.cells ∧ x.functionReset.sram = x.sram ∧
    x.functionReset.router = x.router ∧ x.functionReset.fl = x.fl ∧ x.functionReset.trims = x.trims ∧ x.functionReset.mvm = x.mvm ∧
    x.functionReset.valid = x.valid ∧ x.functionReset.lanes = x.lanes ∧
    x.functionReset.groups = x.groups.filter (fun (e : Nat × AccGroup) => e.2.isOpen) := by
  unfold Tile.functionReset
  dsimp only
  split
  · exact ⟨rfl, rfl, rfl, rfl, rfl, rfl, rfl, rfl, rfl⟩
  · exact ⟨rfl, rfl, rfl, rfl, rfl, rfl, rfl, rfl, rfl⟩

/-- The chip reset that a fault reaction asked for, of a device that may take it: the full reset, and the ROM runs. -/
theorem execChipReset_taken {s : State} (selfTest identity : Bool) (b : List Byte) (good : s.pwr.powerGood = true)
    (on : s.pwr.allStopped = false) (asked : s.integ.chipReset = true) (rom : s.boot.fws ≠ .romInit) (going : s.boot.stopped = false) :
    execChipReset selfTest identity b s = .next ((s.full true).rom selfTest identity b) := by
  have may : s.mayChipReset = true := by simp [State.mayChipReset, State.powered_of good on, rom, going]
  rw [execChipReset, if_pos asked, State.chipReset, if_pos may]

/-- Settles O24: a function reset touches the ring pairs, the keys, the function and what shows of a tile; a chip reset is the full
reset with the function kept, after which the ROM brings up its own fields. -/
theorem hotAndChipResets : Obligations.HotAndChipResets := by
  unfold Obligations.HotAndChipResets
  simp only [exec_hotReset, exec_flr, exec_chipReset]
  refine ⟨fun s good on => ?_, fun s dead => ?_, fun b s good on asked rom going => ?_, fun selfTest identity b s unasked => ?_⟩
  · have powered := State.powered_of good on
    refine ⟨s.functionReset, congrArg _ (if_pos powered), congrArg _ (if_pos powered), fun r _ => s.ring_functionReset r,
      fun c loaded => s.keys_functionReset loaded, rfl, rfl, rfl, rfl, rfl, fun x => ?_, rfl, rfl, rfl, rfl, rfl, rfl, rfl, rfl⟩
    rw [State.tile_functionReset]
    exact (s.tile x).functionReset_keeps
  · have unpowered : ¬s.powered = true := by
      rcases dead with off | stopped
      · simp [State.powered, off]
      · simp [State.powered, stopped]
    exact ⟨congrArg _ (if_neg unpowered), congrArg _ (if_neg unpowered)⟩
  · have kept {o : Nat} (function : keptFull true o = true) : ((s.full true).rom true true b).reg o = s.reg o :=
      (s.full_reg true o).trans (if_pos function)
    exact ⟨_, execChipReset_taken true true b good on asked rom going, rfl, rfl, kept (by decide), kept (by decide), kept (by decide),
      rfl, rfl, rfl, rfl, rfl, rfl, rfl, rfl, rfl⟩
  · exact congrArg _ (if_neg (by simp [unasked]))

end Sys2Proof.Machine
end

section
/-!
SUPPORT. What an outcome is of a command that is well formed or not, with the rules for the shapes that the meanings of the
commands are made of: the fault `noSuchUnit` at the front, and next states behind it.
-/
namespace Sys2Proof.Machine

/-- An outcome is a next state, or the fault of a command that is not well formed; it is no refusal. -/
def RunsIf (wf : Bool) : Host.Outcome State Fault Refusal → Prop
  | .next _ => True
  | .fault _ => wf = false
  | .refused _ => False

theorem runs_next {wf : Bool} {t : State} : RunsIf wf (.next t) := trivial

/-- The fault at the front needs a command that is not well formed; what follows is the command of a unit that there is. -/
theorem runs_present {wf : Bool} {c : Prop} [Decidable c] {r : Fault} {o : Host.Outcome State Fault Refusal}
    (absent : c → wf = false) (present : RunsIf wf o) : RunsIf wf (if c then .fault r else o) := by
  split
  · next h => exact absent h
  · exact present

theorem runs_either {wf : Bool} {c : Prop} [Decidable c] {a b : Host.Outcome State Fault Refusal}
    (ha : RunsIf wf a) (hb : RunsIf wf b) : RunsIf wf (if c then a else b) := by
  split
  · exact ha
  · exact hb

theorem runs_unless {wf : Bool} {c : Prop} [Decidable c] {t : State} {o : Host.Outcome State Fault Refusal}
    (h : RunsIf wf o) : RunsIf wf (if c then .next t else o) := runs_either runs_next h

end Sys2Proof.Machine
end

section
/-!
SUPPORT. Why a guard that finds its unit absent means that the command is not well formed.
-/
namespace Sys2Proof.Machine

theorem absent_of_not {b : Bool} : (!b) = true → b = false := by simp

theorem absent_of_le {n x : Nat} : n ≤ x → decide (x < n) = false := by simp

theorem absent_of_decide_le {n x : Nat} : decide (n ≤ x) = true → decide (x < n) = false := by simp

theorem absent_left {c : Prop} {a b : Bool} (h : c → a = false) : c → (a && b) = false := fun hc => by rw [h hc]; rfl

theorem absent_right {c : Prop} {a b : Bool} (h : c → b = false) : c → (a && b) = false := fun hc => by
  rw [h hc, Bool.and_false]

theorem absent_or {c d a b : Bool} (ha : c = true → a = false) (hb : d = true → b = false) :
    (c || d) = true → (a && b) = false := by
  rw [Bool.or_eq_true, Bool.and_eq_false_iff]
  exact Or.imp ha hb

end Sys2Proof.Machine
end

section
/-!
SUPPORT. The mailbox commands: an entry of 64 bytes on one of 16 rings is executed, is rejected, waits, or is none of theirs.
-/
namespace Sys2Proof.Machine

theorem runs_runCmd {e : Entry} {op : Nat} {pcie : Bool} {body : Body} {s : State} :
    RunsIf (entryWf e) (runCmd e op pcie body s) := by
  refine runs_present absent_of_not (runs_unless ?_)
  split <;> exact runs_next

theorem runs_linkCmd {e : Entry} {sub : Nat} {body : Body} {s : State} :
    RunsIf (entryWf e) (linkCmd e sub body s) := runs_unless runs_runCmd

end Sys2Proof.Machine
end

section
/-!
SUPPORT. Accesses of the host that look something up: behind the guard of the unit each branch is a next state.
-/
namespace Sys2Proof.Machine

theorem execUnsupportedOpcode_runs {e : Entry} {s : State} :
    RunsIf (Instr.wellFormed (.unsupportedOpcode e)) (execUnsupportedOpcode e s) := by
  refine runs_present absent_of_not ?_
  split <;> exact runs_next

theorem execShadowLoRead_runs {offset : Nat} {s : State} :
    RunsIf (Instr.wellFormed (.shadowLoRead offset)) (execShadowLoRead offset s) := by
  unfold execShadowLoRead
  split <;> exact runs_next

theorem execChkRunWrite_runs {offset : Nat} {value : Word} {s : State} :
    RunsIf (Instr.wellFormed (.chkRunWrite offset value)) (execChkRunWrite offset value s) := by
  unfold execChkRunWrite
  split <;> exact runs_next

theorem execBar2Access_runs {offset : Nat} {write : Option (List Byte)} {length : Nat} {s : State} :
    RunsIf (Instr.wellFormed (.bar2Access offset write length)) (execBar2Access offset write length s) := by
  refine runs_unless ?_
  extract_lets
  split <;> exact runs_next

end Sys2Proof.Machine
end

section
/-!
SUPPORT. Events of power, clock and temperature that look something up: behind the guard of the unit each branch is a next state.
-/
namespace Sys2Proof.Machine

theorem execDroop_runs {row : Nat} {s : State} : RunsIf (Instr.wellFormed (.droop row)) (execDroop row s) := by
  refine runs_present absent_of_le (runs_unless ?_)
  extract_lets
  split
  · exact runs_unless runs_next
  · exact runs_next

theorem execHkmPass_runs {half : Nat} {codes : List Nat} {s : State} :
    RunsIf (Instr.wellFormed (.hkmPass half codes)) (execHkmPass half codes s) := by
  refine runs_present (absent_left absent_of_le) (runs_unless ?_)
  extract_lets
  split <;> exact runs_next

theorem execHbmSensorRead_runs {temps : List Int} {s : State} :
    RunsIf (Instr.wellFormed (.hbmSensorRead temps)) (execHbmSensorRead temps s) := by
  refine runs_unless ?_
  extract_lets
  split <;> exact runs_next

theorem execThrottleLimitStep_runs {s : State} : RunsIf (Instr.wellFormed .throttleLimitStep) (execThrottleLimitStep s) := by
  unfold execThrottleLimitStep
  split
  · exact runs_next
  · exact runs_unless runs_next

theorem execStepChangeProceed_runs {expired : Bool} {s : State} :
    RunsIf (Instr.wellFormed (.stepChangeProceed expired)) (execStepChangeProceed expired s) := by
  unfold execStepChangeProceed
  split
  · exact runs_unless (runs_unless runs_next)
  · exact runs_next

theorem execRegulatorReached_runs {s : State} : RunsIf (Instr.wellFormed .regulatorReached) (execRegulatorReached s) := by
  unfold execRegulatorReached
  split
  · exact runs_unless (runs_unless runs_next)
  · exact runs_next

theorem execStepSwitch_runs {s : State} : RunsIf (Instr.wellFormed .stepSwitch) (execStepSwitch s) := by
  unfold execStepSwitch
  split
  · exact runs_unless (runs_unless (runs_unless runs_next))
  · exact runs_next

end Sys2Proof.Machine
end

section
/-!
SUPPORT. Events of the scene and of its tiles that look something up: behind the guard of the unit each branch is a next state.
-/
namespace Sys2Proof.Machine

theorem execSectionStart_runs {index scene : Nat} {errors : List SecError} {s : State} :
    RunsIf (Instr.wellFormed (.sectionStart index scene errors)) (execSectionStart index scene errors s) := by
  unfold execSectionStart
  split
  · exact runs_next
  · exact runs_unless runs_next

theorem execPhaseWindow_runs {tile : Nat} {start : Option MvmRef} {input : PhaseIn} {s : State} :
    RunsIf (Instr.wellFormed (.phaseWindow tile start input)) (execPhaseWindow tile start input s) := by
  refine runs_present (absent_left absent_of_le) ?_
  split
  · exact runs_next
  · split
    · exact runs_next
    · exact runs_next
    · split <;> exact runs_next

theorem execMvmDelivery_runs {tile : Nat} {s : State} :
    RunsIf (Instr.wellFormed (.mvmDelivery tile)) (execMvmDelivery tile s) := by
  refine runs_present absent_of_le ?_
  split
  · exact runs_next
  · exact runs_unless runs_next

theorem execGroupClose_runs {tile slot : Nat} {s : State} :
    RunsIf (Instr.wellFormed (.groupClose tile slot)) (execGroupClose tile slot s) := by
  refine runs_present (absent_left absent_of_le) ?_
  split
  · exact runs_next
  · split <;> exact runs_next

theorem execFootlightCall_runs {call : FlCall} {s : State} :
    RunsIf (Instr.wellFormed (.footlightCall call)) (execFootlightCall call s) := by
  refine runs_present absent_of_le ?_
  split
  · exact runs_next
  · exact runs_unless runs_next

theorem execStatWindowEnd_runs {tile : Nat} {s : State} :
    RunsIf (Instr.wellFormed (.statWindowEnd tile)) (execStatWindowEnd tile s) := by
  refine runs_present absent_of_le ?_
  split <;> exact runs_next

theorem execCalSlot_runs {tile : Nat} {windows : List CalWindow} {s : State} :
    RunsIf (Instr.wellFormed (.calSlot tile windows)) (execCalSlot tile windows s) := by
  refine runs_present (absent_left (absent_left absent_of_le)) ?_
  split
  · split <;> exact runs_next
  · exact runs_next

theorem execCalRunComplete_runs {tile : Nat} {windows : List CalWindow} {s : State} :
    RunsIf (Instr.wellFormed (.calRunComplete tile windows)) (execCalRunComplete tile windows s) := by
  refine runs_present (absent_left absent_of_le) (runs_unless ?_)
  split
  · exact runs_next
  · exact runs_unless runs_next

theorem execWingSourceIssue_runs {rowEnd line target at_ : Nat} {s : State} :
    RunsIf (Instr.wellFormed (.wingSourceIssue rowEnd line target at_)) (execWingSourceIssue rowEnd line target at_ s) := by
  refine runs_present (absent_or (absent_left absent_of_decide_le) absent_of_decide_le) ?_
  split
  · exact runs_next
  · exact runs_unless runs_next

theorem execWingLineReady_runs {rowEnd line : Nat} {data : List Byte} {s : State} :
    RunsIf (Instr.wellFormed (.wingLineReady rowEnd line data)) (execWingLineReady rowEnd line data s) := by
  refine runs_present (absent_left (absent_or absent_of_decide_le absent_of_decide_le)) ?_
  split
  · exact runs_next
  · split
    · exact runs_next
    · split
      · exact runs_next
      · exact runs_next
      · split <;> exact runs_next

theorem execSceneForm_runs {s : State} : RunsIf (Instr.wellFormed .sceneForm) (execSceneForm s) := by
  unfold execSceneForm
  split
  · exact runs_next
  · refine runs_unless (runs_unless ?_)
    split
    · exact runs_next
    · refine runs_unless ?_
      split <;> exact runs_next

theorem execSceneChange_runs {s : State} : RunsIf (Instr.wellFormed .sceneChange) (execSceneChange s) := by
  unfold execSceneChange
  split
  · refine runs_unless ?_
    split <;> exact runs_next
  · exact runs_next

end Sys2Proof.Machine
end

section
/-!
SUPPORT. Events of the loader that look something up: behind the guard of the unit each branch is a next state.
-/
namespace Sys2Proof.Machine

theorem execUnderstudyArraysReady_runs {row : Nat} {east : Bool} {s : State} :
    RunsIf (Instr.wellFormed (.understudyArraysReady row east)) (execUnderstudyArraysReady row east s) := by
  refine runs_present absent_of_le ?_
  extract_lets
  split
  · exact runs_unless runs_next
  · exact runs_next

theorem execArrayProgrammed_runs {tile array : Nat} {verified : Bool} {readbacks : List Nat} {s : State} :
    RunsIf (Instr.wellFormed (.arrayProgrammed tile array verified readbacks))
      (execArrayProgrammed tile array verified readbacks s) := by
  refine runs_present (absent_or absent_of_decide_le absent_of_decide_le) (runs_unless ?_)
  extract_lets
  split <;> exact runs_next

theorem execDrainTimeout_runs {s : State} : RunsIf (Instr.wellFormed .drainTimeout) (execDrainTimeout s) := by
  unfold execDrainTimeout
  split
  · exact runs_unless runs_next
  · exact runs_next

theorem execDrainComplete_runs {s : State} : RunsIf (Instr.wellFormed .drainComplete) (execDrainComplete s) := by
  unfold execDrainComplete
  split
  · exact runs_unless runs_next
  · exact runs_next

theorem execWearUpdate_runs {s : State} : RunsIf (Instr.wellFormed .wearUpdate) (execWearUpdate s) := by
  unfold execWearUpdate
  extract_lets
  rename_i first
  clear_value first
  split <;> exact runs_next

end Sys2Proof.Machine
end

section
/-!
SUPPORT. Events of the sequences that look something up: behind the guard of the entry each branch is a next state.
-/
namespace Sys2Proof.Machine

theorem execPauseCopyDone_runs {entry : Nat} {s : State} :
    RunsIf (Instr.wellFormed (.pauseCopyDone entry)) (execPauseCopyDone entry s) := by
  refine runs_present absent_of_le ?_
  split
  · exact runs_next
  · exact runs_unless runs_next

theorem execResumeComplete_runs {entry : Nat} {s : State} :
    RunsIf (Instr.wellFormed (.resumeComplete entry)) (execResumeComplete entry s) := by
  refine runs_present absent_of_le ?_
  split
  · exact runs_next
  · refine runs_unless (runs_unless (runs_unless (runs_unless ?_)))
    extract_lets
    split <;> exact runs_next

theorem execGreenRoomExpiry_runs {entry : Nat} {s : State} :
    RunsIf (Instr.wellFormed (.greenRoomExpiry entry)) (execGreenRoomExpiry entry s) := by
  refine runs_present absent_of_le ?_
  split
  · exact runs_next
  · exact runs_unless runs_next

end Sys2Proof.Machine
end

section
/-!
SUPPORT. Events of the firmware, of the ports and of CHORUS that look something up: behind the guard of the unit each branch
is a next state.
-/
namespace Sys2Proof.Machine

theorem execFirmwareVerified_runs {s : State} : RunsIf (Instr.wellFormed .firmwareVerified) (execFirmwareVerified s) := by
  refine runs_unless ?_
  extract_lets
  split <;> exact runs_next

theorem execLaneSignalDetect_runs {lane : Nat} {s : State} :
    RunsIf (Instr.wellFormed (.laneSignalDetect lane)) (execLaneSignalDetect lane s) := by
  refine runs_present absent_of_le ?_
  split <;> exact runs_next

theorem execChorusFrame_runs {ce fcsOk : Bool} {bytes : List Byte} {s : State} :
    RunsIf (Instr.wellFormed (.chorusFrame ce fcsOk bytes)) (execChorusFrame ce fcsOk bytes s) := by
  refine runs_unless ?_
  extract_lets
  split <;> exact runs_next

theorem execRocePacket_runs {qp port : Nat} {ce : Bool} {packet : RocePacket} {frame : List Byte} {s : State} :
    RunsIf (Instr.wellFormed (.rocePacket qp port ce packet frame)) (execRocePacket qp port ce packet frame s) := by
  refine runs_present (absent_right absent_of_le) ?_
  split <;> exact runs_next

theorem execRoceAckTimeout_runs {qp : Nat} {s : State} :
    RunsIf (Instr.wellFormed (.roceAckTimeout qp)) (execRoceAckTimeout qp s) := by
  refine runs_present absent_of_le ?_
  split <;> exact runs_next

theorem execRoceRateIncrease_runs {qp : Nat} {s : State} :
    RunsIf (Instr.wellFormed (.roceRateIncrease qp)) (execRoceRateIncrease qp s) := by
  refine runs_present absent_of_le ?_
  split <;> exact runs_next

theorem execChorusStepOpen_runs {index scene : Nat} {s : State} :
    RunsIf (Instr.wellFormed (.chorusStepOpen index scene)) (execChorusStepOpen index scene s) := by
  unfold execChorusStepOpen
  split <;> exact runs_next

theorem execChorusRetxTimer_runs {stepNo : Nat} {s : State} :
    RunsIf (Instr.wellFormed (.chorusRetxTimer stepNo)) (execChorusRetxTimer stepNo s) := by
  unfold execChorusRetxTimer
  split <;> exact runs_next

theorem execChorusDeadline_runs {stepNo : Nat} {s : State} :
    RunsIf (Instr.wellFormed (.chorusDeadline stepNo)) (execChorusDeadline stepNo s) := by
  unfold execChorusDeadline
  split <;> exact runs_next

theorem execLateNotice_runs {stepNo : Nat} {s : State} :
    RunsIf (Instr.wellFormed (.lateNotice stepNo)) (execLateNotice stepNo s) := by
  unfold execLateNotice
  split
  · exact runs_unless runs_next
  · exact runs_next

theorem execSmbusMessage_runs {address : Nat} {request : SmbusRequest} {s : State} :
    RunsIf (Instr.wellFormed (.smbusMessage address request)) (execSmbusMessage address request s) := by
  refine runs_unless ?_
  split <;> exact runs_next

theorem execCompletionPost_runs {ring : Nat} {s : State} :
    RunsIf (Instr.wellFormed (.completionPost ring)) (execCompletionPost ring s) := by
  refine runs_present absent_of_le ?_
  extract_lets
  split
  · exact runs_next
  · exact runs_unless (runs_unless runs_next)

theorem execRehearsalDone_runs {found first set : Nat} {digests : Map (List Nat)} {s : State} :
    RunsIf (Instr.wellFormed (.rehearsalDone found first set digests)) (execRehearsalDone found first set digests s) := by
  unfold execRehearsalDone
  split
  · exact runs_next
  · exact runs_unless runs_next

theorem execRotationStep_runs {s : State} : RunsIf (Instr.wellFormed .rotationStep) (execRotationStep s) := by
  refine runs_unless ?_
  split <;> exact runs_next

theorem execPatternWriteDone_runs {ok : Bool} {s : State} :
    RunsIf (Instr.wellFormed (.patternWriteDone ok)) (execPatternWriteDone ok s) := by
  unfold execPatternWriteDone
  split
  · exact runs_next
  · exact runs_unless (runs_unless runs_next)

theorem execHostFrameTransmitted_runs {frame : List Byte} {s : State} :
    RunsIf (Instr.wellFormed (.hostFrameTransmitted frame)) (execHostFrameTransmitted frame s) := by
  refine runs_unless ?_
  extract_lets
  split
  · exact runs_next
  · exact runs_unless (runs_unless runs_next)

end Sys2Proof.Machine
end

section
/-!
SUPPORT. Every command: those that look nothing up are read off their guards here, the others have a lemma of their own above.
-/
namespace Sys2Proof.Machine

/-- Every command has a next state, or is not well formed and names a unit that is absent. -/
theorem exec_runs (c : Instr) (s : State) : RunsIf c.wellFormed (exec c s) := by
  unfold exec
  cases c with
  | echo => exact runs_runCmd
  | queryInfo => exact runs_runCmd
  | playbill => exact runs_runCmd
  | productionOpen => exact runs_runCmd
  | productionFetch => exact runs_runCmd
  | productionPush => exact runs_runCmd
  | productionSeal => exact runs_runCmd
  | recastRolling => exact runs_runCmd
  | recastAbort => exact runs_runCmd
  | keyUnwrap => exact runs_runCmd
  | cuesheetLoad => exact runs_runCmd
  | cuesheetActivate => exact runs_runCmd
  | seqAdmit => exact runs_runCmd
  | seqAppend => exact runs_runCmd
  | seqCancel => exact runs_runCmd
  | seqPause => exact runs_runCmd
  | seqResume => exact runs_runCmd
  | seqEvict => exact runs_runCmd
  | prefixPin => exact runs_runCmd
  | prefixUnpin => exact runs_runCmd
  | calRun => exact runs_runCmd
  | calExport => exact runs_runCmd
  | calImport => exact runs_runCmd
  | tileFence => exact runs_runCmd
  | tileRestore => exact runs_runCmd
  | rehearse => exact runs_unless runs_runCmd
  | rehearseRotation => exact runs_unless runs_runCmd
  | patternInstall => exact runs_runCmd
  | unitTuneTrim => exact runs_unless runs_runCmd
  | unitTuneStep => exact runs_unless runs_runCmd
  | capSet => exact runs_runCmd
  | thermalSet => exact runs_runCmd
  | chorusGroupSet => exact runs_runCmd
  | portMode => exact runs_unless runs_runCmd
  | qpEstablish => exact runs_linkCmd
  | qpDestroy => exact runs_linkCmd
  | portAddr => exact runs_linkCmd
  | hostRing => exact runs_linkCmd
  | counterSnapshot => exact runs_runCmd
  | ledgerRead => exact runs_runCmd
  | faultPolicySet => exact runs_runCmd
  | unsupportedOpcode => exact execUnsupportedOpcode_runs
  | mbxSqTail => exact runs_present (absent_left absent_of_le) (runs_unless (runs_unless runs_next))
  | mbxCqHead => exact runs_present absent_of_le runs_next
  | ringEnable => exact runs_present absent_of_le (runs_unless (runs_unless runs_next))
  | ringDisable => exact runs_present absent_of_le (runs_unless (runs_unless runs_next))
  | flHoldForce => exact runs_present absent_of_le (runs_unless (runs_unless runs_next))
  | calDataWrite => exact runs_present absent_of_le (runs_unless runs_next)
  | calDataRead => exact runs_present absent_of_le (runs_unless runs_next)
  | autoEn => exact runs_unless runs_next
  | shadowLoRead => exact execShadowLoRead_runs
  | rcRead => exact runs_unless runs_next
  | prmSeqSelect => exact runs_next
  | ptpStepHi => exact runs_next
  | glbResetChip => exact runs_next
  | glbResetBlock => exact runs_next
  | fwsLength => exact runs_unless runs_next
  | fwsPiece => exact runs_unless runs_next
  | swTrigger => exact runs_present absent_of_le runs_next
  | cntClear => exact runs_next
  | cntBwCfg => exact runs_present absent_of_le runs_next
  | chkRunWrite => exact execChkRunWrite_runs
  | chkModeWrite => exact runs_present absent_of_le runs_next
  | netHostTxTail => exact runs_next
  | netHostRxTail => exact runs_next
  | laneCtrl => exact runs_present absent_of_le runs_next
  | registerWrite => exact runs_unless runs_next
  | bar2Access => exact execBar2Access_runs
  | coldReset => exact runs_unless runs_next
  | fundamentalReset => exact runs_unless runs_next
  | hotReset => exact runs_next
  | flr => exact runs_next
  | chipReset => exact runs_next
  | blockReset => exact runs_present absent_of_not (runs_unless runs_next)
  | blockResetEnd => exact runs_present absent_of_not (runs_unless runs_next)
  | powerDown => exact runs_unless runs_next
  | railLoss => exact runs_next
  | coolantLoss => exact runs_unless (runs_unless runs_next)
  | pllUnlock => exact runs_unless runs_next
  | droop => exact execDroop_runs
  | droopRecovery => exact runs_unless runs_next
  | hkmPass => exact execHkmPass_runs
  | hbmSensorRead => exact execHbmSensorRead_runs
  | throttleLimitStep => exact execThrottleLimitStep_runs
  | thermtripTimeout => exact runs_next
  | injectedSequence => exact runs_present (absent_left absent_of_le) (runs_unless runs_next)
  | controlInterval => exact runs_unless runs_next
  | bubbleBlock => exact runs_unless runs_next
  | rampStep => exact runs_unless (runs_unless (runs_unless runs_next))
  | avsTelemetry => exact runs_unless runs_next
  | avsFault => exact runs_present absent_of_le (runs_unless runs_next)
  | ageColumnCrossing => exact runs_unless (runs_unless runs_next)
  | stepChangeProceed => exact execStepChangeProceed_runs
  | regulatorReached => exact execRegulatorReached_runs
  | stepSwitch => exact execStepSwitch_runs
  | sectionStart => exact execSectionStart_runs
  | phaseWindow => exact execPhaseWindow_runs
  | mvmDelivery => exact execMvmDelivery_runs
  | groupClose => exact execGroupClose_runs
  | footlightCall => exact execFootlightCall_runs
  | flSettled => exact runs_present absent_of_le runs_next
  | flPowerdown => exact runs_present absent_of_le (runs_unless runs_next)
  | statWindowEnd => exact execStatWindowEnd_runs
  | calTrigger => exact runs_present absent_of_le (runs_unless runs_next)
  | calSlot => exact execCalSlot_runs
  | calRunComplete => exact execCalRunComplete_runs
  | wingSourceIssue => exact execWingSourceIssue_runs
  | wingLineReady => exact execWingLineReady_runs
  | wingReadyTest => exact runs_present absent_of_le runs_next
  | wingStall => exact runs_present absent_of_le (runs_unless runs_next)
  | stepDescriptorCompletion =>
    exact runs_present (absent_or (absent_or absent_of_decide_le absent_of_decide_le) absent_of_decide_le)
      (runs_unless runs_next)
  | sceneForm => exact execSceneForm_runs
  | sceneChange => exact execSceneChange_runs
  | emptySceneChange => exact runs_unless runs_next
  | understudyPrepared => exact runs_present absent_of_le runs_next
  | understudyArraysReady => exact execUnderstudyArraysReady_runs
  | faultQuiet => exact runs_present absent_of_le (runs_unless runs_next)
  | fwWatchdog => exact runs_next
  | arrayProgrammed => exact execArrayProgrammed_runs
  | drainTimeout => exact execDrainTimeout_runs
  | drainComplete => exact execDrainComplete_runs
  | bootVerify => exact runs_unless runs_next
  | wearUpdate => exact execWearUpdate_runs
  | pauseCopyDone => exact execPauseCopyDone_runs
  | resumeComplete => exact execResumeComplete_runs
  | greenRoomExpiry => exact execGreenRoomExpiry_runs
  | fwsPieceCopied => exact runs_unless runs_next
  | firmwareVerified => exact execFirmwareVerified_runs
  | mbxReady => exact runs_unless runs_next
  | laneSignalDetect => exact execLaneSignalDetect_runs
  | trainingFrame => exact runs_present absent_of_le (runs_unless (runs_unless (runs_unless runs_next)))
  | trainingTimeout => exact runs_present absent_of_le (runs_unless runs_next)
  | trainingRetry => exact runs_present absent_of_le (runs_unless runs_next)
  | laneLockLoss => exact runs_present absent_of_le (runs_unless runs_next)
  | chorusFrame => exact execChorusFrame_runs
  | rocePacket => exact execRocePacket_runs
  | pfcFrame => exact runs_present absent_of_le (runs_unless runs_next)
  | pauseFrame => exact runs_present absent_of_le runs_next
  | hostFrameReceive => exact runs_present absent_of_le (runs_unless (runs_unless runs_next))
  | pfcXoffRepeat =>
    exact runs_present (absent_or absent_of_decide_le absent_of_decide_le) (runs_unless (runs_unless (runs_unless runs_next)))
  | preemptVerify => exact runs_present absent_of_le (runs_unless (runs_unless (runs_unless runs_next)))
  | roceAckTimeout => exact execRoceAckTimeout_runs
  | roceRateIncrease => exact execRoceRateIncrease_runs
  | chorusStepOpen => exact execChorusStepOpen_runs
  | chorusRetxTimer => exact execChorusRetxTimer_runs
  | chorusDeadline => exact execChorusDeadline_runs
  | lateNotice => exact execLateNotice_runs
  | chorusFrameRelease => exact runs_unless runs_next
  | smbusMessage => exact execSmbusMessage_runs
  | pldmSensorRefresh => exact runs_unless runs_next
  | dmaCompletion => exact runs_present absent_of_le (runs_unless runs_next)
  | completionPost => exact execCompletionPost_runs
  | coalTimer => exact runs_present absent_of_le (runs_unless runs_next)
  | bwWindowEnd => exact runs_present absent_of_le (runs_unless runs_next)
  | rehearsalDone => exact execRehearsalDone_runs
  | rotationStep => exact execRotationStep_runs
  | patternWriteDone => exact execPatternWriteDone_runs
  | mgmtRefresh => exact runs_next
  | pcsAlignment => exact runs_present absent_of_le (runs_unless (runs_unless runs_next))
  | pfcPauseExpiry => exact runs_present (absent_or absent_of_decide_le absent_of_decide_le) runs_next
  | coolantOkRestored => exact runs_unless (runs_unless runs_next)
  | perstNDeassert => exact runs_unless runs_next
  | pcieConfigWrite => exact runs_unless runs_next
  | pcieLinkError => exact runs_unless runs_next
  | sramScrubAccess => exact runs_present absent_of_le (runs_unless runs_next)
  | wingOutboundDrain => exact runs_present absent_of_le runs_next
  | counterSaturated => exact runs_unless runs_next
  | hostFrameTransmitted => exact execHostFrameTransmitted_runs

/-- Settles O3: what is not a next state is the fault of a command that is not well formed. -/
theorem wellFormedCommandsNeverStop : Obligations.WellFormedCommandsNeverStop := by
  unfold Obligations.WellFormedCommandsNeverStop
  refine ⟨fun c s wf => ?_, fun c s r stops => ?_⟩
  · have runs := exec_runs c s
    rw [wf] at runs
    match h : exec c s with
    | .next t => exact ⟨t, rfl⟩
    | .fault _ => rw [h] at runs; exact absurd runs (by simp [RunsIf])
    | .refused _ => rw [h] at runs; exact runs.elim
  · have runs := exec_runs c s
    rw [stops] at runs
    exact runs

end Sys2Proof.Machine
end

section
/-!
SUPPORT. A queue pair on a port that the device does not have (R335, R350, R478): the bytes that enter through it are counted by a
check-value engine that the device does not have either, and whose registers are those of the network.
-/
namespace Sys2Proof.Machine

/-- A pair on port 16,384, under the smallest path MTU. -/
def strayPair : QueuePair :=
  { port := 16384, ipVersion := 4, mac := 0, ip := 0, peer := 0, mtu := 1024, sendPsn := 0, recvPsn := 0, ackedPsn := 0
    timeoutExp := 14, rkey := 0, rate := 0 }

/-- A device with the pair as its pair 0. Its port is that of engine 8,192, whose CHK_CTRL, CHK_SEL and CHK_RUN of channel 0 would be
the words at 0xB0000, 0xB0004 and 0xB0008 (R507): the channel is on, for every frame that enters, and the marks of R345, which
the word at 0xB0008 holds, are 0. -/
def strayPort : State :=
  { State.reset with
    regs := [(0xB0000, 1), (0xB0004, 0x10000000), (0xB0008, 0)], net := { State.reset.net with qps := [(0, strayPair)] } }

/-- The state after a WRITE of one byte to the pair. -/
def strayPortWritten : State := strayPort.onPacket 0 strayPair false (.write 0 .only 0 1 0 [1])

/-- The acknowledgement leaves with the marks that the byte's CRC-32C has put in the word at 0xB0008. -/
theorem strayPortWritten_sent :
    strayPortWritten.outside.sent = [.inClass 4 3 2 (.roceAck 0 0)] := by decide

/-- Refutes O56: a WRITE that is taken is to be acknowledged under the marks of the state before it, and the statement asks nothing of
the port that a pair names. QP_ESTABLISH takes ports up to 15 (R399), but the state may hold a pair on any; where it is port
16,384, the byte that enters through it changes the word that holds the marks, and the acknowledgement carries others. -/
theorem not_queuePairsServeAndRecover : ¬ Obligations.QueuePairsServeAndRecover := by
  unfold Obligations.QueuePairsServeAndRecover
  rintro ⟨-, -, -, -, -, -, writes, -⟩
  obtain ⟨only, -, -⟩ := writes 0 0 0 [1] strayPair _ strayPort rfl rfl rfl rfl
  obtain ⟨t, rfl, -, -, sent, -⟩ := only (by decide) (by decide) (by decide)
  exact absurd (strayPortWritten_sent.symm.trans sent) (by decide)

end Sys2Proof.Machine
end

section
/-! SUPPORT. Firmware staging (R412, R429): what a length, a piece and the end of a piece's copy come to by the state of the window. -/
namespace Sys2Proof.Machine

theorem exec_fwsLength (v : Word) (s : State) : exec (.fwsLength v) s = execFwsLength v s := rfl
theorem exec_fwsPiece (v : Word) (s : State) : exec (.fwsPiece v) s = execFwsPiece v s := rfl
theorem exec_fwsPieceCopied (s : State) : exec .fwsPieceCopied s = execFwsPieceCopied s := rfl

/-- An image has one piece for each 32 KiB begun. -/
theorem pieceCount_eq (length : Nat) : pieceCount length = (length + 32767) / 32768 := by
  simp [pieceCount, ceilDiv]

section
variable {v : Word} {s : State}

/-- A length is taken in WAIT and within 4 KiB to 4 MiB, and else dropped. -/
theorem execFwsLength_eq : execFwsLength v s =
    .next (if s.boot.fws ≠ .wait ∨ v.toNat % 8388608 < 4096 ∨ 4194304 < v.toNat % 8388608 then s
      else { s with boot := { s.boot with length := v.toNat % 8388608, fws := .receiving, pieces := [], image := [] } }) := by
  simp only [execFwsLength, Bool.or_eq_true, decide_eq_true_eq, or_assoc]
  split <;> rfl

/-- A piece below the count is copied while an image is received and no copy lasts, and else dropped. -/
theorem execFwsPiece_eq : execFwsPiece v s =
    .next (if s.boot.fws ≠ .receiving ∨ s.boot.busy = true ∨ (s.boot.length + 32767) / 32768 ≤ v.toNat % 256 then s
      else { s with boot := { s.boot with pieceIndex := v.toNat % 256, busy := true } }) := by
  simp only [execFwsPiece, pieceCount_eq, Bool.or_eq_true, decide_eq_true_eq, or_assoc]
  split <;> rfl

/-- A copy that lasts while an image is received brings its piece, and the last piece of all the verification. -/
theorem execFwsPieceCopied_copies (receiving : s.boot.fws = .receiving) (busy : s.boot.busy = true) :
    execFwsPieceCopied s = .next { s with boot := { s.boot with
      busy := false
      image := Map.put s.boot.image s.boot.pieceIndex (memReadList s.boot.window 0 32768)
      pieces := insertNat s.boot.pieceIndex s.boot.pieces
      fws := if (insertNat s.boot.pieceIndex s.boot.pieces).length = (s.boot.length + 32767) / 32768 then .verifying
        else .receiving } } :=
  if_neg (by simp [receiving, busy])

/-- Where no copy lasts, none ends. -/
theorem execFwsPieceCopied_none (idle : s.boot.fws ≠ .receiving ∨ s.boot.busy = false) : execFwsPieceCopied s = .next s :=
  if_pos (by simpa using idle)

end

/-- Settles O22: each write by the one condition that drops it, and the end of a copy by whether one lasts. -/
theorem firmwareStagingByState : Obligations.FirmwareStagingByState := by
  unfold Obligations.FirmwareStagingByState
  simp only [exec_fwsLength, exec_fwsPiece, exec_fwsPieceCopied, execFwsLength_eq, execFwsPiece_eq]
  refine ⟨fun v s wait least most => ?_, fun v s drops => ?_, fun v s receiving idle below => ?_, fun v s drops => ?_,
    fun s => execFwsPieceCopied_copies, fun s => execFwsPieceCopied_none⟩
  · rw [if_neg (by simp [wait, Nat.not_lt.2 least, Nat.not_lt.2 most])]
  · rw [if_pos drops]
  · rw [if_neg (by simp [receiving, idle, Nat.not_le.2 below])]
  · rw [if_pos drops]

end Sys2Proof.Machine
end

section
/-!
SUPPORT. GLB_RESET (R423, R430): which of its writes are taken, the reset that each of them is, and what a block reset leaves of an HBM
stack.
-/
namespace Sys2Proof.Machine

theorem exec_glbResetChip (v : Word) (selfTest identity : Bool) (b : List Byte) (s : State) :
    exec (.glbResetChip v selfTest identity b) s = execGlbResetChip v selfTest identity b s := rfl
theorem exec_glbResetBlock (v : Word) (s : State) : exec (.glbResetBlock v) s = execGlbResetBlock v s := rfl

/-- How many blocks there are of a BLOCK_TYPE: tiles, rows, port dies, HBM stacks (R430). -/
def blockCount (kind : Nat) : Nat :=
  match kind with
  | 0 => 10560
  | 1 => 160
  | 2 => 2
  | _ => 12

/-- A block of one of the four types is there where its index is below their count. -/
theorem blockWf_iff_lt {kind : Nat} (h : kind < 4) (index : Nat) : blockWf kind index = true ↔ index < blockCount kind :=
  match kind, h with
  | 0, _ | 1, _ | 2, _ | 3, _ => decide_eq_true_iff

/-- Whether GLB_RESET asks for a reset of a KIND: by its key, the kind and an index in range (R430). -/
def glbAsks (v : Word) (kind : Nat) : Prop :=
  bitsOf v.toNat 24 8 = 0xB0 ∧ bitsOf v.toNat 22 2 = kind ∧ bitsOf v.toNat 0 14 < blockCount (bitsOf v.toNat 20 2)

theorem blockWf_glb (v : Word) : blockWf (bitsOf v.toNat 20 2) (bitsOf v.toNat 0 14) = true ↔
    bitsOf v.toNat 0 14 < blockCount (bitsOf v.toNat 20 2) :=
  blockWf_iff_lt (bitsOf_lt _ 20 2) _

/-- A device that is powered, and whose ROM neither runs nor has stopped, takes a chip reset: the full reset, and the ROM runs. -/
theorem State.chipReset_taken {s : State} (selfTest identity : Bool) (b : List Byte) (powered : s.powered = true)
    (rom : s.boot.fws ≠ .romInit) (going : s.boot.stopped = false) :
    s.chipReset selfTest identity b = (s.full true).rom selfTest identity b :=
  if_pos (by simp [State.mayChipReset, powered, rom, going])

section
variable {v : Word} {s : State} (selfTest identity : Bool) (b : List Byte)

theorem execGlbResetChip_taken (asks : glbAsks v 1) :
    execGlbResetChip v selfTest identity b s = .next (s.chipReset selfTest identity b) := by
  obtain ⟨key, kind, inRange⟩ := asks
  rw [execGlbResetChip, if_pos ⟨key, kind, (blockWf_glb v).2 inRange⟩]

theorem execGlbResetChip_dropped (no : ¬glbAsks v 1) : execGlbResetChip v selfTest identity b s = .next s := by
  rw [execGlbResetChip, if_neg fun ⟨key, kind, unit⟩ => no ⟨key, kind, (blockWf_glb v).1 unit⟩]

theorem execGlbResetBlock_taken (asks : glbAsks v 2) (powered : s.powered = true) :
    execGlbResetBlock v s = .next (s.blockReset (bitsOf v.toNat 20 2) (bitsOf v.toNat 0 14)) := by
  obtain ⟨key, kind, inRange⟩ := asks
  rw [execGlbResetBlock, if_pos ⟨key, kind, (blockWf_glb v).2 inRange, powered⟩]

theorem execGlbResetBlock_dropped (no : ¬glbAsks v 2) : execGlbResetBlock v s = .next s := by
  rw [execGlbResetBlock, if_neg fun ⟨key, kind, unit, _⟩ => no ⟨key, kind, (blockWf_glb v).1 unit⟩]

end

/-- After a stack's reset the bytes of its frames and annexes read as zero, and every other byte of HBM as before. -/
theorem State.memRead_resetStack (s : State) (k a : Nat) :
    memRead (s.resetStack k).kv.hbm a = if stackOf a = k then 0 else memRead s.kv.hbm a := by
  rw [State.hbm_resetStack, memRead_filter _ (fun a => decide (stackOf a ≠ k))]
  by_cases h : stackOf a = k <;> simp [h]

/-- Settles O21: a write that asks for a chip reset is the full reset with the function kept, one that asks for a block reset is that
of its block, whose kind's own lemma says what it takes, and any other is dropped. -/
theorem glbResetNeedsItsKey : Obligations.GlbResetNeedsItsKey := by
  unfold Obligations.GlbResetNeedsItsKey
  simp only [exec_glbResetChip, exec_glbResetBlock]
  refine ⟨fun v b s key kind inRange good on rom going => ?_, fun v s key kind inRange good on => ?_,
    fun v selfTest identity b s bad => ?_, fun v selfTest identity b s => ⟨fun other => ?_, fun other => ?_⟩⟩
  · refine ⟨_, (execGlbResetChip_taken true true b ⟨key, kind, inRange⟩).trans
      (congrArg _ (State.chipReset_taken true true b (State.powered_of good on) rom going)), ?_⟩
    exact ⟨rfl, rfl, rfl, rfl, rfl, rfl, rfl, rfl, rfl, rfl, rfl, rfl⟩
  · refine ⟨_, execGlbResetBlock_taken ⟨key, kind, inRange⟩ (State.powered_of good on), ?_, ?_, ?_, ?_⟩
    · rintro d die rfl
      rw [die, State.blockReset_portDie]
      exact ⟨fun p hp => State.port_resetPortDie _ hp, fun n hn => State.lane_resetPortDie _ hn, State.qps_resetPortDie _ _⟩
    · rintro k stack rfl - a
      rw [stack, State.blockReset_stack, State.memRead_resetStack]
    · rintro x tile rfl
      rw [tile, State.tile_blockReset_tile, if_pos rfl]
      refine ⟨rfl, rfl, rfl, fun y other => ?_⟩
      rw [State.tile_blockReset_tile, if_neg (Ne.symm other)]
    · rintro r row rfl
      rw [row]
      refine ⟨State.rowFaults_blockReset_row _ _, fun x hx => ?_⟩
      rw [State.tile_blockReset_row, if_pos hx]
      exact ⟨rfl, rfl⟩
  · have asksNot (k : Nat) (named : k = 1 ∨ k = 2) : ¬glbAsks v k := by
      rintro ⟨key, kind, inRange⟩
      rcases bad with wrong | outside | zero | three
      · exact wrong key
      · exact Nat.not_le.2 inRange outside
      · omega
      · omega
    exact ⟨execGlbResetChip_dropped selfTest identity b (asksNot 1 (.inl rfl)), execGlbResetBlock_dropped (asksNot 2 (.inr rfl))⟩
  · exact execGlbResetChip_dropped selfTest identity b fun ⟨_, kind, _⟩ => other kind
  · exact execGlbResetBlock_dropped fun ⟨_, kind, _⟩ => other kind

end Sys2Proof.Machine
end

section
/-!
SUPPORT. The reset balls PERST_N and SYS_RST_N (R411, R423, R424, R453): when the assertion of one is a fundamental reset, and when the
release of one starts the ROM.
-/
namespace Sys2Proof.Machine

theorem exec_fundamentalReset (sys : Bool) (s : State) : exec (.fundamentalReset sys) s = execFundamentalReset sys s := rfl
theorem exec_perstNDeassert (sys selfTest identity : Bool) (b : List Byte) (s : State) :
    exec (.perstNDeassert sys selfTest identity b) s = execPerstNDeassert sys selfTest identity b s := rfl

/-- A reset ball is asserted: SYS_RST_N, or PERST_N. -/
def State.assertBall (s : State) (sys : Bool) : State :=
  { s with pwr := { s.pwr with perst := s.pwr.perst || !sys, sysRst := s.pwr.sysRst || sys } }

/-- A reset ball is released. -/
def State.releaseBall (s : State) (sys : Bool) : State :=
  { s with pwr := { s.pwr with perst := s.pwr.perst && sys, sysRst := s.pwr.sysRst && !sys } }

section
variable {s : State} {sys : Bool}

theorem execFundamentalReset_taken (good : s.pwr.powerGood = true) (cool : s.pwr.thermtrip = false) :
    execFundamentalReset sys s = .next ((s.assertBall sys).full false) :=
  if_neg (by simp [good, cool])

theorem execFundamentalReset_seen (ignores : s.pwr.powerGood = false ∨ s.pwr.thermtrip = true) :
    execFundamentalReset sys s = .next (s.assertBall sys) :=
  if_pos (by simpa using ignores)

variable (selfTest identity : Bool) (b : List Byte)

/-- The release of the last ball that was asserted starts the ROM. -/
theorem execPerstNDeassert_starts (good : s.pwr.powerGood = true) (cool : s.pwr.thermtrip = false) (perst : s.pwr.perst = !sys)
    (sysRst : s.pwr.sysRst = sys) :
    execPerstNDeassert sys selfTest identity b s = .next ((s.releaseBall sys).rom selfTest identity b) :=
  if_neg (by cases sys <;> simp [good, cool, perst, sysRst])

/-- The release of a ball does nothing more while the other is asserted, without power-good, while THERMTRIP_N is asserted, and where no
ball was asserted. -/
theorem execPerstNDeassert_seen (ignores : (s.pwr.perst && sys) = true ∨ (s.pwr.sysRst && !sys) = true ∨ s.pwr.powerGood = false ∨
      s.pwr.thermtrip = true ∨ (s.pwr.perst = false ∧ s.pwr.sysRst = false)) :
    execPerstNDeassert sys selfTest identity b s = .next (s.releaseBall sys) := by
  refine if_pos ?_
  rcases ignores with other | other | off | hot | ⟨perst, sysRst⟩
  · simp [other]
  · simp [other]
  · simp [off]
  · simp [hot]
  · simp [perst, sysRst]

end

/-- FWS_FAIL holds the code that it records (R411, R429). -/
theorem State.field_fwsFail (s : State) {code : Nat} (h : code < 128) : (s.fwsFail code).field 0xD000C 16 8 = code := by
  rw [State.field, State.fwsFail, State.reg_setReg_same, bitsOf, Nat.shiftRight_eq_div_pow]
  omega

/-- Settles O23: a ball that is asserted is the full reset, the last that is released starts the ROM, and where the device ignores
them only the balls themselves change. -/
theorem fundamentalResetAndRelease : Obligations.FundamentalResetAndRelease := by
  unfold Obligations.FundamentalResetAndRelease
  simp only [exec_fundamentalReset, exec_perstNDeassert]
  refine ⟨fun sys s good cool => ?_, fun sys s => execFundamentalReset_seen, fun sys b s good cool perst sysRst => ⟨?_, ?_⟩,
    fun sys selfTest identity b s => execPerstNDeassert_seen selfTest identity b⟩
  · exact ⟨_, execFundamentalReset_taken good cool, rfl, rfl, rfl, rfl, rfl, rfl, rfl, rfl, rfl, rfl, rfl, rfl, rfl, rfl, rfl,
      (s.assertBall sys).full_cells false, rfl⟩
  · refine ⟨_, execPerstNDeassert_starts true true b good cool perst sysRst, rfl, ?_, ?_, rfl, rfl, rfl, rfl⟩
    · show (s.pwr.perst && sys) = false
      simp [perst]
    · show (s.pwr.sysRst && !sys) = false
      simp [sysRst]
  · exact ⟨_, execPerstNDeassert_starts false true b good cool perst sysRst, rfl, rfl, State.field_fwsFail _ (by decide), rfl, rfl⟩

end Sys2Proof.Machine
end

section
/-!
SUPPORT. The start of firmware and pattern packs (R408, R411, R412, R414, R418, R419, R422, R498): what the verification of an image comes
to, by which row of R422 PATTERN_INSTALL ends, and what the end of a pack's flash write leaves.
-/
namespace Sys2Proof.Machine

theorem exec_firmwareVerified (s : State) : exec .firmwareVerified s = execFirmwareVerified s := rfl
theorem exec_mbxReady (s : State) : exec .mbxReady s = execMbxReady s := rfl
theorem exec_patternInstall (e : Entry) (pack : Dma) (s : State) : exec (.patternInstall e pack) s = execPatternInstall e pack s := rfl
theorem exec_patternWriteDone (ok : Bool) (s : State) : exec (.patternWriteDone ok) s = execPatternWriteDone ok s := rfl

/-! ### The verification of an image -/

/-- Firmware that has started, measured and tuned, before it raises what it finds (R411, R415, R418, R419, R498). -/
def State.measured (s : State) (bs : List Byte) : State :=
  { s with boot := { s.boot with
      fws := .running, stopped := false, window := [], image := [], pieces := [], chain := List.replicate 64 0, chainCount := 0
      firmware := some { line := fieldAt bs 4 1, build := fieldAt bs 12 4, svn := fieldAt bs 16 4, digest := shake32 bs } }
  }.applyTuning.latchPlaybill

/-- What firmware raises as it starts leaves its own state alone (R410, R454, R482). -/
theorem State.boot_startFirmware (s : State) (bs : List Byte) : (s.startFirmware bs).boot = (s.measured bs).boot := by
  have start : s.startFirmware bs =
      (let t := if (s.measured bs).boot.config.isNone then (s.measured bs).raise srcBootConfigInvalid 0 0 [] else s.measured bs
       if t.pwr.coolantOk then t else t.raise srcCoolantLoss 0 0 []) := rfl
  rw [start]
  dsimp only
  repeat' split
  all_goals simp [State.raise_frame]

theorem execFirmwareVerified_verifying {s : State} (verifying : s.boot.fws = .verifying) :
    execFirmwareVerified s = .next (match s.boot.imageCheck s.boot.imageBytes with
      | some code => s.rejectImage code
      | none => s.startFirmware s.boot.imageBytes) := by
  rw [execFirmwareVerified, if_neg (by simp [verifying])]
  dsimp only
  cases s.boot.imageCheck s.boot.imageBytes <;> rfl

/-! ### PATTERN_INSTALL -/

/-- The digests of the keys that may sign a pattern pack (R410, R422). -/
def State.packKeys (s : State) : List Nat := s.boot.fuses.patternKeys ++ (s.boot.config.map (fun c => c.patternKeys)).getD []

/-- What PATTERN_INSTALL does with a well-formed pack, by the first row of R422 that matches. -/
def State.takePack (s : State) (e : Entry) (p : List Byte) : State :=
  if packSigned p = true ∧ has s.packKeys (shake32 (sliceBytes p 16 57)) = true then
    if fieldAt p 12 4 ≤ s.boot.packVersion then s.complete e .invalid []
    else if s.boot.installing.isSome = true then s.complete e .busy []
    else { s.addJob e.ring e.tag (.patternInstall (fieldAt p 12 4)) with
      boot := { s.boot with installing := some (fieldAt p 12 4, shake32 (p.take (fieldAt p 8 4)), p.take (fieldAt p 8 4)) } }
  else s.complete e .badSignature []

section
variable {e : Entry} {p : List Byte} {s : State} (begins : Begins e 0x53 true s) (aligned : e.op 8 8 % 64 = 0)
include begins aligned

/-- A pack that is malformed or longer than its entry says is refused. -/
theorem execPatternInstall_invalid (bad : packOk p = false ∨ e.op 24 4 < fieldAt p 8 4) :
    execPatternInstall e (some p) s = .next (((s.begun e).dmaRead e.tag p).complete e .invalid []) := by
  have placed : ¬(!bufferOk (e.op 8 8)) = true := by simp [bufferOk, aligned]
  have refuses : (!packOk p || decide (e.op 24 4 < fieldAt p 8 4)) = true := by simpa using bad
  rw [execPatternInstall, runCmd_begins _ begins (by decide), runBody_done ((if_neg placed).trans (if_pos refuses))]

/-- A well-formed pack is taken by its signature, its version and whether another is being written. -/
theorem execPatternInstall_wf (wf : packOk p = true) (fits : fieldAt p 8 4 ≤ e.op 24 4) :
    execPatternInstall e (some p) s = .next (((s.begun e).dmaRead e.tag p).takePack e p) := by
  have placed : ¬(!bufferOk (e.op 8 8)) = true := by simp [bufferOk, aligned]
  have sound : ¬(!packOk p || decide (e.op 24 4 < fieldAt p 8 4)) = true := by simp [wf, fits]
  refine (runCmd_begins _ begins (by decide)).trans (congrArg _ ?_)
  generalize pack : (s.begun e).dmaRead e.tag p = u
  by_cases signed : packSigned p = true ∧ has u.packKeys (shake32 (sliceBytes p 16 57)) = true
  · have trusted : ¬(!packSigned p || !has u.packKeys (shake32 (sliceBytes p 16 57))) = true := by simp [signed]
    rw [State.takePack, if_pos signed]
    by_cases old : fieldAt p 12 4 ≤ u.boot.packVersion
    · rw [if_pos old]
      subst pack
      exact runBody_done ((if_neg placed).trans ((if_neg sound).trans ((if_neg trusted).trans (if_pos old))))
    rw [if_neg old]
    by_cases writing : u.boot.installing.isSome = true
    · rw [if_pos writing]
      subst pack
      exact runBody_done ((if_neg placed).trans ((if_neg sound).trans ((if_neg trusted).trans
        ((if_neg old).trans (if_pos writing)))))
    · rw [if_neg writing]
      subst pack
      exact runBody_later ((if_neg placed).trans ((if_neg sound).trans ((if_neg trusted).trans
        ((if_neg old).trans (if_neg writing)))))
  · have distrusted : (!packSigned p || !has u.packKeys (shake32 (sliceBytes p 16 57))) = true := by
      rw [← Bool.not_and, Bool.not_eq_true', ← Bool.not_eq_true, Bool.and_eq_true]
      exact signed
    rw [State.takePack, if_neg signed]
    subst pack
    exact runBody_done ((if_neg placed).trans ((if_neg sound).trans (if_pos distrusted)))

end

/-! ### The end of a pack's flash write -/

/-- A pack of a version and digest, written to the free slot, takes force and enters the history chain (R408, R419). -/
def State.installPack (s : State) (version digest : Nat) (bs : List Byte) : State :=
  { s with boot := { s.boot with
      installing := none, packVersion := version, packDigest := digest, packSlot := 1 - s.boot.packSlot
      flash := memWriteList s.boot.flash (packAddr (1 - s.boot.packSlot)) bs } }.record 0x04 digest

section
variable {v d : Nat} {bs : List Byte} {s : State} (installing : s.boot.installing = some (v, d, bs))
  (asked : s.hasJob (fun k => k == .patternInstall v) = true)
include installing asked

theorem execPatternWriteDone_written : execPatternWriteDone true s = .next ((s.installPack v d bs).finishJobs
    (fun j => if j.kind == JobKind.patternInstall v then some (.ok, leBytes 4 v) else none)) := by
  have waits : ¬(!s.hasJob (fun k => k == .patternInstall v)) = true := by simp [asked]
  rw [execPatternWriteDone, installing]
  exact if_neg waits

theorem execPatternWriteDone_failed : execPatternWriteDone false s =
    .next ({ s with boot := { s.boot with installing := none } }.finishJobs
      (fun j => if j.kind == JobKind.patternInstall v then some (.crcFail, []) else none)) := by
  have waits : ¬(!s.hasJob (fun k => k == .patternInstall v)) = true := by simp [asked]
  rw [execPatternWriteDone, installing]
  exact if_neg waits

end

/-- Settles O36: an image by its check, firmware's own state through what it raises, a pack by the row of R422, and the end of its
flash write by how it went. -/
theorem firmwareStartsAndTakesPacks : Obligations.FirmwareStartsAndTakesPacks := by
  unfold Obligations.FirmwareStartsAndTakesPacks
  simp only [exec_firmwareVerified, exec_mbxReady, exec_patternInstall, exec_patternWriteDone]
  refine ⟨fun s => execFirmwareVerified_verifying, fun s other => if_pos other, fun bs s => ?_, fun code s => ?_,
    fun s runs => if_pos runs, fun s dead => if_neg (by simp [dead]), fun e p u s begins aligned wf fits received => ?_,
    fun e p s begins aligned => execPatternInstall_invalid begins aligned, fun v d bs s installing asked flash => ?_⟩
  · rw [State.boot_startFirmware]
    exact ⟨rfl, rfl, rfl, rfl, rfl, rfl⟩
  · exact ⟨rfl, rfl, rfl, rfl, rfl, rfl⟩
  · have boot : u.boot = s.boot := by rw [received, State.dmaRead_boot, State.begun_boot]
    rw [execPatternInstall_wf begins aligned wf fits, ← received, State.takePack, State.packKeys, boot]
  · have written := State.finishJobs_boot (s.installPack v d bs)
      (fun j => if j.kind == JobKind.patternInstall v then some (.ok, leBytes 4 v) else none)
    exact ⟨_, _, execPatternWriteDone_written installing asked, congrArg Boot.packVersion written, congrArg Boot.packDigest written,
      congrArg Boot.packSlot written,
      (congrArg (fun b : Boot => memReadList b.flash _ _) written).trans (memReadList_memWriteList flash _ _),
      congrArg Boot.installing written, congrArg Boot.chainCount written, execPatternWriteDone_failed installing asked,
      State.finishJobs_boot .., State.finishJobs_tiles .., State.finishJobs_tiles ..⟩

end Sys2Proof.Machine
end

section
/-!
SUPPORT. What the raise of a source that no tile causes leaves of the rest of the device (R190, R481 to R484, R495).
-/
namespace Sys2Proof.Machine

@[simp] theorem State.fatalStop_active (s : State) (src kind idx : Nat) : (s.fatalStop src kind idx).fabric.active = s.fabric.active := by
  unfold State.fatalStop
  dsimp only
  split <;> simp

@[simp] theorem State.raiseBase_active (s : State) (src kind idx : Nat) (scenes : List Nat) :
    (s.raiseBase src kind idx scenes).fabric.active = s.fabric.active := by
  unfold State.raiseBase
  dsimp only
  repeat' split
  all_goals simp

@[simp] theorem State.ledgerSettle_active (s : State) : s.ledgerSettle.fabric.active = s.fabric.active :=
  foldl_field (fun s => s.fabric.active) _ (fun _ _ => State.raiseBase_active ..) _ _

@[simp] theorem State.raiseVector_errLow (s : State) (v : Nat) : (s.raiseVector v).outside.errLow = s.outside.errLow := by
  unfold State.raiseVector
  split <;> simp

@[simp] theorem State.raiseBase_errLow (s : State) (src kind idx : Nat) (scenes : List Nat) :
    (s.raiseBase src kind idx scenes).outside.errLow = s.outside.errLow := by
  unfold State.raiseBase
  dsimp only
  repeat' split
  all_goals simp

@[simp] theorem State.ledgerSettle_errLow (s : State) : s.ledgerSettle.outside.errLow = s.outside.errLow :=
  foldl_field (fun s => s.outside.errLow) _ (fun _ _ => State.raiseBase_errLow ..) _ _

section
variable (s : State) {src kind : Nat} (idx : Nat) (scenes : List Nat) (apart : src ≠ srcRouterFault) (noTile : kind ≠ 1)
include apart noTile

/-- A raise that names no tile degrades none and is no suspicion event. -/
theorem State.raise_noTile : s.raise src kind idx scenes = (s.raiseBase src kind idx scenes).ledgerSettle := by
  simp [State.raise, isSuspicion, apart, noTile]

/-- What holds whether power fails, a zone runs hot or coolant is lost: the raise leaves power, monitors, cue sheet and ERR_N. -/
theorem State.raise_noTile_frame : (s.raise src kind idx scenes).pwr = s.pwr ∧ (s.raise src kind idx scenes).hkm = s.hkm ∧
    (s.raise src kind idx scenes).fabric.active = s.fabric.active ∧
    (s.raise src kind idx scenes).outside.errLow = s.outside.errLow := by
  simp [State.raise_noTile s idx scenes apart noTile]

end

end Sys2Proof.Machine
end

section
/-!
SUPPORT. UNIT_TUNE and a change of the stage clock step (R194, R434, R435, R437, R497): what each kind of the command takes, and where
each event brings the change.
-/
namespace Sys2Proof.Machine

theorem exec_unitTuneTrim (e : Entry) (s : State) : exec (.unitTuneTrim e) s = execUnitTuneTrim e s := rfl
theorem exec_unitTuneStep (e : Entry) (s : State) : exec (.unitTuneStep e) s = execUnitTuneStep e s := rfl
theorem exec_stepChangeProceed (expired : Bool) (s : State) :
    exec (.stepChangeProceed expired) s = execStepChangeProceed expired s := rfl
theorem exec_regulatorReached (s : State) : exec .regulatorReached s = execRegulatorReached s := rfl
theorem exec_stepSwitch (s : State) : exec .stepSwitch s = execStepSwitch s := rfl

@[simp] theorem State.begun_rowTrim (s : State) (e : Entry) (r : Nat) : (s.begun e).rowTrim r = s.rowTrim r := rfl
@[simp] theorem State.begun_jobs (s : State) (e : Entry) : (s.begun e).mbx.jobs = s.mbx.jobs := rfl

/-! ### UNIT_TUNE -/

section
variable {e : Entry} {s : State}

/-- A command whose epoch is in force runs where its voltage is within 850 mV, no change is in progress and no regulator has failed. -/
theorem tuneChecks_passes {mv : Nat} (go : State × Option (Status × List Byte)) (epoch : e.op 16 4 = s.fabric.epoch) (volts : mv ≤ 850)
    (still : s.pwr.change = none) (works : s.pwr.avsFaults = []) : tuneChecks e s mv go = go := by
  simp [tuneChecks, epoch, volts, still, works]

theorem tuneChecks_stale {mv : Nat} (go : State × Option (Status × List Byte)) (stale : e.op 16 4 ≠ s.fabric.epoch) :
    tuneChecks e s mv go = done s .staleEpoch [] := if_pos stale

/-- Another trim of a row sets the regulator, and its record follows. -/
theorem execUnitTuneTrim_sets (begins : Begins e 0x54 false s) (names : e.op 8 1 = 0) (row : e.op 10 2 ≤ 159) (trim : e.op 12 1 ≤ 4)
    (epoch : e.op 16 4 = s.fabric.epoch)
    (volts : s.regulatorFor s.pwr.step (trimsWith s.pwr.rowTrims (e.op 10 2) (e.op 12 1)) ≤ 850) (still : s.pwr.change = none)
    (works : s.pwr.avsFaults = []) (other : e.op 12 1 ≠ s.rowTrim (e.op 10 2)) :
    execUnitTuneTrim e s = .next ((((s.begun e).setTrim (e.op 10 2) (e.op 12 1)).tuneRecord false false (e.op 10 2)
      (s.rowTrim (e.op 10 2)) (e.op 12 1)).ledgerSettle.complete e .ok (leBytes 1 (s.rowTrim (e.op 10 2)))) := by
  have inRange : ¬(decide (1 < e.op 8 1) || decide (159 < e.op 10 2) || decide (4 < e.op 12 1)) = true := by
    simp [names, row, trim]
  rw [execUnitTuneTrim, if_neg (by simp [names]), runCmd_begins _ begins (by decide)]
  refine congrArg _ (runBody_done ((if_neg inRange).trans ((tuneChecks_passes (s := s.begun e) _ epoch volts still works).trans ?_)))
  rw [State.begun_rowTrim, if_neg other]

section
variable (begins : Begins e 0x54 false s) (names : e.op 8 1 = 1) (step : e.op 12 1 ≤ 3)
include begins names step

/-- Another step begins its change, and the command stays in progress. -/
theorem execUnitTuneStep_begins (epoch : e.op 16 4 = s.fabric.epoch) (volts : s.regulatorFor (e.op 12 1) s.pwr.rowTrims ≤ 850)
    (still : s.pwr.change = none) (works : s.pwr.avsFaults = []) (other : e.op 12 1 ≠ s.pwr.step) :
    execUnitTuneStep e s = .next (((s.begun e).addJob e.ring e.tag (.step s.pwr.step)).beginStep (e.op 12 1) (some s.mbx.nextJob)) := by
  rw [execUnitTuneStep, if_neg (by simp [names]), runCmd_begins _ begins (by decide)]
  exact congrArg _ (runBody_later ((if_neg (Nat.not_lt.2 step)).trans
    ((tuneChecks_passes (s := s.begun e) _ epoch volts still works).trans (if_neg other))))

theorem execUnitTuneStep_stale (stale : e.op 16 4 ≠ s.fabric.epoch) :
    execUnitTuneStep e s = .next ((s.begun e).complete e .staleEpoch []) := by
  rw [execUnitTuneStep, if_neg (by simp [names]), runCmd_begins _ begins (by decide)]
  exact congrArg _ (runBody_done ((if_neg (Nat.not_lt.2 step)).trans (tuneChecks_stale (s := s.begun e) _ stale)))

end

end

/-! ### The events of a change -/

section
variable {v : Nat} {j : Option Nat} {s : State}

/-- A faster step waits for its voltage once no window is open. -/
theorem execStepChangeProceed_faster (waits : s.pwr.change = some (v, .waiting, j)) (powered : s.powered = true)
    (closed : s.openStep? = none) (faster : v < s.pwr.step) :
    execStepChangeProceed false s = .next { s with pwr := { s.pwr with change := some (v, .voltage, j) } } := by
  simp [execStepChangeProceed, waits, powered, closed, faster]

theorem execStepChangeProceed_slower (waits : s.pwr.change = some (v, .waiting, j)) (powered : s.powered = true)
    (closed : s.openStep? = none) (slower : s.pwr.step ≤ v) : execStepChangeProceed false s = .next (s.raiseSwitch v j) := by
  simp [execStepChangeProceed, waits, powered, closed, Nat.not_lt.2 slower]

/-- The voltage of a faster step is there, and its switch is raised. -/
theorem execRegulatorReached_faster (waits : s.pwr.change = some (v, .voltage, j)) (powered : s.powered = true) (other : s.pwr.step ≠ v) :
    execRegulatorReached s = .next ({ s with pwr := { s.pwr with regulator := s.regulatorFor v s.pwr.rowTrims } }.raiseSwitch v j) := by
  simp [execRegulatorReached, waits, powered, other]

/-- The state in which the divider has switched and the cause of the switch has dropped: the cycles up to the switch have run in it, and
then those of the hold (R434, R435). -/
def State.switched (s : State) (v : Nat) : State :=
  (({ s.runSwitch with pwr := { s.runSwitch.pwr with step := v } }.runCycles 2).dropCause 2).runCycles 2

/-- What a switch counts and writes: its count, the tuning slot and, where a command asked for it, its record (R497, R500). -/
def State.noteSwitch (s : State) (old v : Nat) (j : Option Nat) : State :=
  let w := (s.setReg 0x80020 (min 0xFFFF (s.reg 0x80020 + 1))).writeTuning v
  (if j.isSome then w.tuneRecord true false 0 old v else w).ledgerSettle

/-- A switch by the step that was in force and by the regulator. -/
theorem execStepSwitch_switches (switching : s.pwr.change = some (v, .switching, j)) (powered : s.powered = true)
    (runs : s.clockRuns = true) : execStepSwitch s =
    if v < s.pwr.step then .next (((s.switched v).noteSwitch s.pwr.step v j).endStep .ok)
    else if !((s.switched v).noteSwitch s.pwr.step v j).pwr.avsFaults.isEmpty then
      .next (((s.switched v).noteSwitch s.pwr.step v j).endStep .timeout)
    else .next { (s.switched v).noteSwitch s.pwr.step v j with pwr := {
      ((s.switched v).noteSwitch s.pwr.step v j).pwr with change := some (v, .voltage, j) } } := by
  rw [execStepSwitch, switching]
  exact if_neg (by simp [powered, runs])

theorem execStepSwitch_stopped (stopped : s.pwr.stageStopped = true) : execStepSwitch s = .next s := by
  unfold execStepSwitch
  split
  · exact if_pos (by simp [State.clockRuns, stopped])
  · rfl

end

/-- Settles O28: the command by its checks, and each event by where the change stands. -/
theorem tuningAndStepChanges : Obligations.TuningAndStepChanges := by
  unfold Obligations.TuningAndStepChanges
  simp only [exec_unitTuneTrim, exec_unitTuneStep, exec_stepChangeProceed, exec_regulatorReached, exec_stepSwitch]
  refine ⟨fun e s => execUnitTuneTrim_sets, fun e s begins names step epoch volts still works other => ?_,
    fun e s => execUnitTuneStep_stale, fun v j s waits good on closed => ⟨?_, ?_⟩, fun v j s waits good on => ?_,
    fun v j u w s switching good on stage cycles notes => ?_, fun s => execStepSwitch_stopped⟩
  · refine ⟨_, execUnitTuneStep_begins begins names step epoch volts still works other, rfl, rfl, ?_, rfl, rfl⟩
    simp [State.addJob, State.begun_ring]
  · exact execStepChangeProceed_faster waits (State.powered_of good on) closed
  · exact execStepChangeProceed_slower waits (State.powered_of good on) closed
  · exact execRegulatorReached_faster waits (State.powered_of good on)
  · obtain rfl : w = (s.switched v).noteSwitch s.pwr.step v j := notes.trans (by rw [cycles]; rfl)
    rw [execStepSwitch_switches switching (State.powered_of good on) (s.clockRuns_iff.2 ⟨stage, on⟩)]
    refine ⟨fun faster => if_pos faster, fun slower works => ?_, fun slower fails => ?_⟩
    · rw [if_neg (Nat.not_lt.2 slower), if_neg (by simp [works])]
    · rw [if_neg (Nat.not_lt.2 slower), if_pos (by simp [fails])]

end Sys2Proof.Machine
end

section
/-!
SUPPORT. Loss of PLL lock, regulator failures, telemetry and coolant (R433, R439, R440, R454, R458).
-/
namespace Sys2Proof

/-- A map into which values have gone, each at its key: at the key of one it holds that value, where no other has gone there. -/
theorem Map.getD_foldl_put {α β : Type} (key : β → Nat) (val : β → α) {xs : List β} {x : β} (mem : x ∈ xs)
    (single : ∀ y ∈ xs, key y = key x → val y = val x) (m : Map α) (d : α) :
    Map.getD (xs.foldl (fun m y => Map.put m (key y) (val y)) m) (key x) d = val x := by
  induction xs using List.reverseRecOn with
  | nil => cases mem
  | append_singleton xs y ih =>
    rw [List.foldl_append, List.foldl_cons, List.foldl_nil, Map.getD_put]
    by_cases same : key y = key x
    · rw [if_pos same, single y (by simp) same]
    · have earlier : x ∈ xs := (List.mem_append.1 mem).resolve_right fun last => same (by rw [List.mem_singleton.1 last])
      rw [if_neg same, ih earlier fun z among => single z (List.mem_append_left _ among)]

end Sys2Proof

namespace Sys2Proof.Machine

theorem exec_pllUnlock (s : State) : exec .pllUnlock s = execPllUnlock s := rfl
theorem exec_avsFault (rail : Nat) (s : State) : exec (.avsFault rail) s = execAvsFault rail s := rfl
theorem exec_avsTelemetry (mw : List Nat) (s : State) : exec (.avsTelemetry mw) s = execAvsTelemetry mw s := rfl
theorem exec_coolantLoss (s : State) : exec .coolantLoss s = execCoolantLoss s := rfl
theorem exec_coolantOkRestored (s : State) : exec .coolantOkRestored s = execCoolantOkRestored s := rfl

/-- A trigger changes the half's monitor and nothing else (R458). -/
theorem State.trigger_spec (s : State) (half bit : Nat) : ∃ hkm, s.trigger half bit = { s with hkm := hkm } := by
  unfold State.trigger
  split
  · exact ⟨_, rfl⟩
  · exact ⟨s.hkm, rfl⟩

@[simp] theorem State.trigger_pwr (s : State) (half bit : Nat) : (s.trigger half bit).pwr = s.pwr := by
  obtain ⟨hkm, eq⟩ := s.trigger_spec half bit
  rw [eq]
@[simp] theorem State.trigger_tiles (s : State) (half bit : Nat) : (s.trigger half bit).tiles = s.tiles := by
  obtain ⟨hkm, eq⟩ := s.trigger_spec half bit
  rw [eq]
@[simp] theorem State.trigger_fabric (s : State) (half bit : Nat) : (s.trigger half bit).fabric = s.fabric := by
  obtain ⟨hkm, eq⟩ := s.trigger_spec half bit
  rw [eq]
@[simp] theorem State.trigger_integ (s : State) (half bit : Nat) : (s.trigger half bit).integ = s.integ := by
  obtain ⟨hkm, eq⟩ := s.trigger_spec half bit
  rw [eq]
@[simp] theorem State.trigger_boot (s : State) (half bit : Nat) : (s.trigger half bit).boot = s.boot := by
  obtain ⟨hkm, eq⟩ := s.trigger_spec half bit
  rw [eq]

section
variable {s : State} (powered : s.powered = true)
include powered

/-! ### PLL and regulators -/

theorem execPllUnlock_locked (locked : s.pwr.pllLocked = true) : execPllUnlock s =
    .next ({ s with pwr := { s.pwr with pllLocked := false, stageStopped := true } }.raise srcPllUnlock 0 0 s.flight) :=
  if_neg (by simp [powered, locked])

/-- A regulator that fails while no change is in progress is noted, and raised with its rail. -/
theorem execAvsFault_still {rail : Nat} (unit : rail < 8) (still : s.pwr.change = none) : execAvsFault rail s =
    .next (({ s with pwr := { s.pwr with avsFaults := insertNat rail s.pwr.avsFaults } }.pwrEvent 5).raise srcAvsFault 9 rail []) := by
  rw [execAvsFault, if_neg (Nat.not_le.2 unit), if_neg (by simp [powered])]
  simp [still, State.endStep]

theorem execAvsTelemetry_powered (mw : List Nat) : execAvsTelemetry mw s =
    .next { s with pwr := { s.pwr with telemetry := (mw.take 8).zipIdx.foldl (fun m x =>
      if has s.pwr.avsFaults x.2 then m else Map.put m x.2 x.1) s.pwr.telemetry } } :=
  if_neg (by simp [powered])

/-! ### Coolant -/

/-- The state of a coolant loss as its source is raised: the stage clock has stopped, the record is written and ERR_N is driven. -/
def State.uncooled (s : State) : State :=
  let t := ({ s with pwr := { s.pwr with coolantOk := false, stageStopped := true } }.trigger 0 2).trigger 1 2
  let u := (t.ledgerWrite 3 0xFF (leNat [Config.openByte 3 0, Config.openByte 3 1]) []).ledgerSettle
  { u with outside := { u.outside with errLow := true } }

theorem execCoolantLoss_cooled (cooled : s.pwr.coolantOk = true) : execCoolantLoss s =
    .next { s.uncooled.raise srcCoolantLoss 0 0 s.uncooled.flight with boot := {
      (s.uncooled.raise srcCoolantLoss 0 0 s.uncooled.flight).boot with stopped := true } } := by
  unfold execCoolantLoss
  dsimp only
  rw [if_neg (by simp [cooled]), if_neg (by simpa [State.powered] using powered)]
  rfl

section
variable (uncooled : s.pwr.coolantOk = false)
include uncooled

/-- Coolant that returns triggers both halves, and starts the stage clock only where nothing else has stopped it. -/
theorem execCoolantOkRestored_uncooled {t : State}
    (triggered : t = ({ s with pwr := { s.pwr with coolantOk := true } }.trigger 0 2).trigger 1 2) :
    execCoolantOkRestored s = if s.pwr.pllLocked && !s.integ.fatalStop && !s.boot.stopped then
      .next { t with pwr := { t.pwr with stageStopped := false } } else .next t := by
  unfold execCoolantOkRestored
  dsimp only
  rw [if_neg (by simpa [State.powered, uncooled] using powered), ← triggered,
    show t.pwr.pllLocked = s.pwr.pllLocked by simp [triggered], show t.integ = s.integ by simp [triggered],
    show t.boot = s.boot by simp [triggered]]

end

end

/-- Settles O29: each event by what it finds of power, PLL and coolant. -/
theorem failuresStopTheStageClock : Obligations.FailuresStopTheStageClock := by
  unfold Obligations.FailuresStopTheStageClock
  simp only [exec_pllUnlock, exec_avsFault, exec_avsTelemetry, exec_coolantLoss, exec_coolantOkRestored]
  refine ⟨fun s good on => execPllUnlock_locked (State.powered_of good on),
    fun rail s unit good on => execAvsFault_still (State.powered_of good on) unit, fun mw s eight good on => ?_,
    fun s cooled good on => ?_, fun s uncooled good on locked going runs => ?_, fun s uncooled good on stopped => ?_⟩
  · refine ⟨_, execAvsTelemetry_powered (State.powered_of good on) mw, fun i rail works => ?_, rfl, rfl, rfl⟩
    simp only [works, has, List.any_nil, Bool.false_eq_true, if_false]
    rw [List.take_of_length_le eight.le]
    have mem : (mw.getD i 0, i) ∈ mw.zipIdx := List.mem_zipIdx_iff_getElem?.2 (by simp [eight, rail])
    refine Map.getD_foldl_put Prod.snd Prod.fst mem (fun y among (same : y.2 = i) => ?_) _ 0
    have there := List.mem_zipIdx_iff_getElem?.1 among
    rw [same] at there
    exact Option.some.inj (there.symm.trans (List.mem_zipIdx_iff_getElem?.1 mem))
  · obtain ⟨pwr, -, -, errLow⟩ := s.uncooled.raise_noTile_frame 0 s.uncooled.flight (src := srcCoolantLoss) (kind := 0)
      (by decide) (by decide)
    have power : s.uncooled.pwr = { s.pwr with coolantOk := false, stageStopped := true } := by simp [State.uncooled]
    refine ⟨_, execCoolantLoss_cooled (State.powered_of good on) cooled, ?_, rfl, ?_, errLow, Bool.and_false _⟩
    · show (State.raise ..).pwr.coolantOk = false
      rw [pwr, power]
    · show (State.raise ..).pwr.stageStopped = true
      rw [pwr, power]
  · refine ⟨_, (execCoolantOkRestored_uncooled (State.powered_of good on) uncooled rfl).trans
      (if_pos (by simp [locked, going, runs])), ?_, rfl, ?_⟩
    all_goals simp
  · refine ⟨_, (execCoolantOkRestored_uncooled (State.powered_of good on) uncooled rfl).trans (if_neg (by simp [stopped])), ?_, ?_⟩
    all_goals simp

end Sys2Proof.Machine
end

section
/-!
SUPPORT. Service hours (R436): the crossing of a boundary by the regulator that it sets.
-/
namespace Sys2Proof.Machine

theorem exec_ageColumnCrossing (hours : Nat) (s : State) : exec (.ageColumnCrossing hours) s = execAgeColumnCrossing hours s := rfl

/-- The state in which a boundary has been crossed at some service hours. -/
def State.aged (s : State) (hours : Nat) : State :=
  { s with pwr := { s.pwr with hours := hours, ageColumn := ageColumnOf hours } }

/-- Hours that go on into another column set the regulator, where none has failed. -/
theorem execAgeColumnCrossing_crosses {h : Nat} {s : State} (powered : s.powered = true) (runs : s.firmwareRuns = true)
    (later : s.pwr.hours ≤ h) (works : s.pwr.avsFaults = []) (crosses : ageColumnOf h ≠ s.pwr.ageColumn) :
    execAgeColumnCrossing h s = .next { s.aged h with pwr := {
      (s.aged h).pwr with regulator := (s.aged h).regulatorFor s.pwr.step s.pwr.rowTrims } } := by
  simp [execAgeColumnCrossing, powered, runs, Nat.max_eq_left later, works, crosses, State.aged]

/-- Settles O30: the columns by their borders, and a crossing by the column that it enters. -/
theorem ageColumnByServiceHours : Obligations.AgeColumnByServiceHours := by
  unfold Obligations.AgeColumnByServiceHours
  simp only [exec_ageColumnCrossing]
  exact ⟨fun h => rfl, fun h s good on runs later works crosses =>
    ⟨_, execAgeColumnCrossing_crosses (State.powered_of good on) runs later works crosses, rfl, rfl, rfl, rfl, rfl, rfl⟩⟩

end Sys2Proof.Machine
end

section
/-!
SUPPORT. Droop (R449, R450): what an alarm leaves between two raises of its source, and when its recovery drops the cause.
-/
namespace Sys2Proof.Machine

theorem exec_droop (row : Nat) (s : State) : exec (.droop row) s = execDroop row s := rfl
theorem exec_droopRecovery (s : State) : exec .droopRecovery s = execDroopRecovery s := rfl

/-- The state in which an alarm has raised cause DROOP. -/
def State.drooping (s : State) : State :=
  { s with pwr := { s.pwr with droopActive := true, droopQuiet := false } }.raiseCause 3

/-- The state in which an alarm is counted and noted, and its half triggered. -/
def State.noteDroop (s : State) (row : Nat) : State :=
  (((s.setReg 0x8002C (min 0xFFFFFFFF (s.reg 0x8002C + 1))).count 14 1).pwrEvent 2).trigger (row / 80) 0

/-- An alarm within a millisecond of the last raise of its source raises none (R450). -/
theorem execDroop_again {row t : Nat} {s : State} (unit : row < 160) (powered : s.powered = true)
    (raised : s.pwr.droopRaised = some t) (soon : s.integ.clock < t + 1000) :
    execDroop row s = .next (s.drooping.noteDroop row) := by
  have same : (s.drooping.noteDroop row).pwr.droopRaised = s.pwr.droopRaised ∧ (s.drooping.noteDroop row).integ = s.integ := by
    simp [State.noteDroop, State.drooping, State.pwrEvent]
  rw [execDroop, if_neg (show ¬Config.rows ≤ row from Nat.not_le.2 unit), if_neg (by simp [powered])]
  extract_lets _ _ _ noted
  rw [show noted.pwr.droopRaised = some t from same.1.trans raised]
  exact if_pos (by rwa [show noted.integ = s.integ from same.2])

/-- What an alarm leaves: the cause, the count and the event are there, and sequences and commands stay. -/
theorem State.noteDroop_drooping (s : State) (row : Nat) : ∃ t, s.drooping.noteDroop row = t ∧
    Nat.testBit t.fabric.causes 3 = true ∧ t.reg 0x8002C = min 0xFFFFFFFF (s.reg 0x8002C + 1) ∧ t.pwr.droopActive = true ∧
    Nat.testBit (t.reg 0x80004) 2 = true ∧ t.kv = s.kv ∧ t.prm = s.prm ∧ t.mbx = s.mbx := by
  obtain ⟨hkm, triggered⟩ := State.trigger_spec
    (((s.drooping.setReg 0x8002C (min 0xFFFFFFFF (s.drooping.reg 0x8002C + 1))).count 14 1).pwrEvent 2) (row / 80) 0
  have before : s.drooping.reg 0x8002C = s.reg 0x8002C :=
    (State.reg_setReg ..).trans (if_neg (by decide))
  refine ⟨_, triggered, ?_, ?_, rfl, State.testBit_orReg _ _ (by decide) (by decide), rfl, rfl, rfl⟩
  · show Nat.testBit (s.fabric.causes ||| 2 ^ 3) 3 = true
    rw [Nat.testBit_or, Nat.testBit_two_pow_self, Bool.or_true]
  · refine ((State.reg_setReg ..).trans (if_neg (by decide))).trans ((State.reg_setReg_same ..).trans ?_)
    rw [before]
    exact Nat.mod_eq_of_lt (by omega)

section
variable {s : State} (powered : s.powered = true)
include powered

/-- The cause drops at a recovery that no droop re-run outlasts. -/
theorem execDroopRecovery_drops (spent : s.pwr.rerunsLeft = 0) : execDroopRecovery s =
    .next ({ s with pwr := { s.pwr with droopActive := false, droopQuiet := true } }.dropCause 3) := by
  simp [execDroopRecovery, powered, spent]

theorem execDroopRecovery_reruns (reruns : s.pwr.rerunsLeft ≠ 0) : execDroopRecovery s =
    .next { s with pwr := { s.pwr with droopActive := false, droopQuiet := true } } := by
  simp [execDroopRecovery, powered, reruns]

end

/-- Settles O31: an alarm by what it leaves, and the recovery by whether a re-run is left. -/
theorem droopHoldsUntilRecovery : Obligations.DroopHoldsUntilRecovery := by
  unfold Obligations.DroopHoldsUntilRecovery
  simp only [exec_droop, exec_droopRecovery]
  refine ⟨fun row s unit good on raised => ?_, fun s good on spent => ?_,
    fun s good on => execDroopRecovery_reruns (State.powered_of good on)⟩
  · obtain ⟨t, eq, left⟩ := s.noteDroop_drooping row
    exact ⟨t, (execDroop_again unit (State.powered_of good on) raised (by omega)).trans (congrArg _ eq), left⟩
  · refine ⟨_, execDroopRecovery_drops (State.powered_of good on) spent, ?_, rfl, rfl, rfl, rfl⟩
    show Nat.testBit (clearBits s.fabric.causes (2 ^ 3)) 3 = false
    rw [testBit_clearBits, Nat.testBit_two_pow_self, Bool.not_true, Bool.and_false]

end Sys2Proof.Machine
end

section
/-!
SUPPORT. The housekeeping monitor and the thermal zones (R451 to R453, R456 to R458, R467): which fields a conversion, a trigger and the
evaluation of a zone leave, and what a zone's reading makes of its states and of the throttle limit.
-/
namespace Sys2Proof.Machine

theorem exec_hkmPass (half : Nat) (codes : List Nat) (s : State) : exec (.hkmPass half codes) s = execHkmPass half codes s := rfl
theorem exec_hbmSensorRead (temps : List Int) (s : State) : exec (.hbmSensorRead temps) s = execHbmSensorRead temps s := rfl
theorem exec_throttleLimitStep (s : State) : exec .throttleLimitStep s = execThrottleLimitStep s := rfl
theorem exec_thermtripTimeout (s : State) : exec .thermtripTimeout s = execThermtripTimeout s := rfl
theorem exec_swTrigger (half : Nat) (v : Word) (s : State) : exec (.swTrigger half v) s = execSwTrigger half v s := rfl
theorem exec_injectedSequence (half : Nat) (codes : List Nat) (s : State) :
    exec (.injectedSequence half codes) s = execInjectedSequence half codes s := rfl

/-! ### Conversions write registers only -/

/-- Steps that write registers only, one after another, write registers only. -/
theorem foldl_regsOnly {α : Type} {f : State → α → State} (h : ∀ s x, ∃ regs, f s x = { s with regs := regs }) (xs : List α)
    (s : State) : ∃ regs, xs.foldl f s = { s with regs := regs } := by
  refine List.foldlRecOn xs f (motive := fun t => ∃ regs, t = { s with regs := regs }) ⟨s.regs, rfl⟩ fun t ht x _ => ?_
  obtain ⟨regs, rfl⟩ := ht
  exact h _ x

theorem State.convert_regsOnly (s : State) (half input code : Nat) : ∃ regs, s.convert half input code = { s with regs := regs } := by
  unfold State.convert
  split
  · exact ⟨_, rfl⟩
  · exact ⟨s.regs, rfl⟩

/-- A result that is written before its conversion is noted. -/
theorem State.convert_setReg_regsOnly (s : State) (o v half input code : Nat) :
    ∃ regs, (s.setReg o v).convert half input code = { s with regs := regs } := (s.setReg o v).convert_regsOnly half input code

theorem State.regularResults_regsOnly (s : State) (half : Nat) (codes : List Nat) :
    ∃ regs, s.regularResults half codes = { s with regs := regs } :=
  foldl_regsOnly (fun s _ => s.convert_setReg_regsOnly ..) _ s

/-! ### What the zones leave -/

/-- What the evaluation of a zone leaves: the number of passes of each half, the temperatures of the diodes, the cap and the cue sheet. -/
structure State.ZoneKeeps (s t : State) : Prop where
  passes : ∀ h, (Map.getD t.hkm h {}).passes = (Map.getD s.hkm h {}).passes
  dieTemps : t.pwr.dieTemps = s.pwr.dieTemps
  cap : t.pwr.cap = s.pwr.cap
  active : t.fabric.active = s.fabric.active

namespace State.ZoneKeeps

theorem refl (s : State) : s.ZoneKeeps s := ⟨fun _ => rfl, rfl, rfl, rfl⟩

theorem trans {s t u : State} (h : s.ZoneKeeps t) (k : t.ZoneKeeps u) : s.ZoneKeeps u :=
  ⟨fun i => (k.passes i).trans (h.passes i), k.dieTemps.trans h.dieTemps, k.cap.trans h.cap, k.active.trans h.active⟩

theorem ite {s t u : State} {c : Prop} [Decidable c] (h : s.ZoneKeeps t) (k : s.ZoneKeeps u) : s.ZoneKeeps (if c then t else u) := by
  split
  · exact h
  · exact k

end State.ZoneKeeps

theorem State.raise_zoneKeeps (s : State) {src kind : Nat} (idx : Nat) (scenes : List Nat) (apart : src ≠ srcRouterFault)
    (noTile : kind ≠ 1) : s.ZoneKeeps (s.raise src kind idx scenes) := by
  obtain ⟨pwr, hkm, active, -⟩ := s.raise_noTile_frame idx scenes apart noTile
  exact ⟨fun h => by rw [hkm], by rw [pwr], by rw [pwr], active⟩

theorem State.pwrEvent_zoneKeeps (s : State) (bit : Nat) : s.ZoneKeeps (s.pwrEvent bit) := ⟨fun _ => rfl, rfl, rfl, rfl⟩

/-- A trigger asks for a run, and counts no pass. -/
theorem State.trigger_zoneKeeps (s : State) (half bit : Nat) : s.ZoneKeeps (s.trigger half bit) := by
  refine ⟨fun h => ?_, by simp, by simp, by simp⟩
  unfold State.trigger
  split
  · dsimp only
    rw [Map.getD_put]
    by_cases same : half = h
    · rw [if_pos same, same]
      split <;> rfl
    · rw [if_neg same]
  · rfl

theorem State.enterThrottle_zoneKeeps (s : State) : s.ZoneKeeps s.enterThrottle := by
  unfold State.enterThrottle
  extract_lets avg limit w limited
  have first : s.ZoneKeeps limited := ⟨fun _ => rfl, rfl, rfl, rfl⟩
  exact first.trans ((limited.pwrEvent_zoneKeeps 1).trans (State.raise_zoneKeeps _ 0 [] (by decide) (by decide)))

theorem State.enterWarning_zoneKeeps (s : State) : s.ZoneKeeps s.enterWarning :=
  (s.pwrEvent_zoneKeeps 0).trans (.trans (State.raise_zoneKeeps _ 0 [] (by decide) (by decide))
    ((State.trigger_zoneKeeps _ 0 1).trans (State.trigger_zoneKeeps _ 1 1)))

theorem State.evalZone_zoneKeeps (s : State) (die : Bool) (reading : Int) : s.ZoneKeeps (s.evalZone die reading) := by
  unfold State.evalZone
  extract_lets t h w warn hot newWarn newHot zoned warned
  have first : s.ZoneKeeps zoned := ⟨fun _ => rfl, rfl, rfl, rfl⟩
  have second : s.ZoneKeeps warned := .ite (first.trans zoned.enterWarning_zoneKeeps) first
  exact .ite (second.trans warned.enterThrottle_zoneKeeps) second

theorem State.ledgerWrite_zoneKeeps (s : State) (kind sensor reading : Nat) (rest : List Byte) :
    s.ZoneKeeps (s.ledgerWrite kind sensor reading rest) := ⟨by simp, by simp, by simp, by simp⟩

theorem State.ledgerSettle_zoneKeeps (s : State) : s.ZoneKeeps s.ledgerSettle := ⟨by simp, by simp, by simp, by simp⟩

theorem State.tripThermal_zoneKeeps (s : State) : s.ZoneKeeps s.tripThermal := ⟨fun _ => rfl, rfl, rfl, rfl⟩

theorem State.shutdown_zoneKeeps (s : State) (die : Bool) (sensor : Nat) (reading : Int) : s.ZoneKeeps (s.shutdown die sensor reading) := by
  unfold State.shutdown
  extract_lets w stopped raised
  have first : s.ZoneKeeps stopped := ⟨fun _ => rfl, rfl, rfl, rfl⟩
  have second : s.ZoneKeeps raised := first.trans (stopped.raise_zoneKeeps 0 _ (by decide) (by decide))
  refine .ite (.refl s) (.ite (second.trans ?_) second)
  exact (raised.ledgerWrite_zoneKeeps ..).trans ((State.ledgerSettle_zoneKeeps _).trans (State.tripThermal_zoneKeeps _))

theorem State.watchShutdown_zoneKeeps (s : State) (die : Bool) (readings : List (Nat × Int)) :
    s.ZoneKeeps (s.watchShutdown die readings) := by
  refine List.foldlRecOn _ _ (motive := fun t => s.ZoneKeeps t) (.refl s) fun t kept r _ => kept.trans ?_
  exact .ite (.ite (t.shutdown_zoneKeeps die r.1 r.2) ⟨fun _ => rfl, rfl, rfl, rfl⟩) ⟨fun _ => rfl, rfl, rfl, rfl⟩

/-! ### A pass of a half's monitor -/

/-- The state after a pass, before the die zone is evaluated: its results, its number and its temperatures are there. -/
def State.passed (s : State) (half : Nat) (codes : List Nat) : State :=
  let r := s.regularResults half codes
  let m := Map.getD r.hkm half {}
  { r with
    hkm := Map.put r.hkm half { m with passes := (m.passes + 1) % 65536, regIndex := 0 }
    pwr := { r.pwr with dieTemps := (diodeReadings half codes).foldl (fun (d : Map Int) (x : Nat × Int) => Map.put d x.1 x.2) r.pwr.dieTemps }
  }.compensatePass half

/-- A pass, and what the evaluation of the die zone keeps of it. -/
theorem execHkmPass_passes {half : Nat} {s : State} (unit : half < 2) (powered : s.powered = true) (codes : List Nat) :
    ∃ t, execHkmPass half codes s = .next t ∧ (s.passed half codes).ZoneKeeps t := by
  unfold execHkmPass
  rw [if_neg (Nat.not_le.2 unit), if_neg (by simp [powered])]
  extract_lets _ _ readings _ _ u
  obtain ⟨v, reached⟩ : ∃ v, v = u := ⟨_, rfl⟩
  rw [show s.passed half codes = v from reached.symm, ← reached]
  cases hottest v.pwr.dieTemps with
  | none => exact ⟨_, rfl, .refl _⟩
  | some kv =>
    have shown : v.ZoneKeeps ((v.setField 0x80030 16 16 (unsignedOf 16 kv.2)).setField 0x80034 8 8 kv.1) := ⟨fun _ => rfl, rfl, rfl, rfl⟩
    exact ⟨_, rfl, shown.trans ((State.evalZone_zoneKeeps _ true kv.2).trans (State.watchShutdown_zoneKeeps _ true readings))⟩

/-- The corrections of a pass leave the temperatures from which they are taken. -/
theorem State.compensatePass_dieTemps (s : State) (half : Nat) : (s.compensatePass half).pwr.dieTemps = s.pwr.dieTemps := rfl

theorem State.compensatePass_cap (s : State) (half : Nat) : (s.compensatePass half).pwr.cap = s.pwr.cap := rfl

/-- The pass counts itself, the other half's number stays, and each of the half's diodes reads its code. -/
theorem State.passed_spec (s : State) (half : Nat) (codes : List Nat) :
    (∀ d, d < 48 → Map.getD (s.passed half codes).pwr.dieTemps (48 * half + d) 0 =
      Config.diodeTemp (48 * half + d) (codes.getD d 0 % 4096)) ∧
    (∀ h, (Map.getD (s.passed half codes).hkm h {}).passes =
      if half = h then ((Map.getD s.hkm half {}).passes + 1) % 65536 else (Map.getD s.hkm h {}).passes) ∧
    (s.passed half codes).pwr.cap = s.pwr.cap ∧ (s.passed half codes).fabric = s.fabric := by
  obtain ⟨regs, converted⟩ := s.regularResults_regsOnly half codes
  refine ⟨fun d diode => ?_, fun h => ?_, ?_, ?_⟩
  · have mem : (48 * half + d, Config.diodeTemp (48 * half + d) (codes.getD d 0 % 4096)) ∈ diodeReadings half codes :=
      List.mem_map.2 ⟨d, List.mem_range.2 diode, rfl⟩
    have temps : (s.passed half codes).pwr.dieTemps = (diodeReadings half codes).foldl
        (fun (d : Map Int) (x : Nat × Int) => Map.put d x.1 x.2) (s.regularResults half codes).pwr.dieTemps := by
      rw [State.passed, State.compensatePass_dieTemps]
    rw [temps]
    refine Map.getD_foldl_put Prod.fst Prod.snd mem (fun y among (same : y.1 = 48 * half + d) => ?_) _ 0
    obtain ⟨d', -, rfl⟩ := List.mem_map.1 among
    rw [Nat.add_left_cancel same]
  · have numbers : (s.passed half codes).hkm = Map.put s.hkm half { Map.getD s.hkm half {} with
        passes := ((Map.getD s.hkm half {}).passes + 1) % 65536, regIndex := 0 } := by
      rw [State.passed, State.compensatePass_hkm, converted]
    rw [numbers, Map.getD_put]
    split <;> rfl
  · rw [State.passed, State.compensatePass_cap, converted]
  · rw [State.passed, State.compensatePass_fabric, converted]

/-! ### A reading of the HBM zone -/

/-- The hottest sensor is one of those that were read. -/
theorem hottest_mem {m : Map Int} {k : Nat} {v : Int} (h : hottest m = some (k, v)) : (k, v) ∈ m := by
  induction m with
  | nil => cases h
  | cons x m ih =>
    rw [hottest] at h
    split at h
    · next j w rest =>
      split at h
      · exact List.mem_cons_of_mem _ (ih (rest.trans h))
      · rw [← Option.some.inj h]
        exact List.mem_cons_self
    · rw [← Option.some.inj h]
      exact List.mem_cons_self

section
variable {s : State}

/-- A zone that is in no state stays so while its reading is below the warning threshold. -/
theorem zoneState_below {reading threshold hyst : Int} (below : reading < threshold) :
    zoneState reading threshold hyst false = false := by
  simp [zoneState, below]

/-- A cool reading of the HBM zone leaves the device as it is. -/
theorem State.evalZone_cool {v : Int} (warn : s.pwr.hbmWarn = false) (throttle : s.pwr.hbmThrottle = false) (cool : v < 85 * 16) :
    s.evalZone false v = s := by
  have cold : zoneState v (thresholds false).1 (s.hysteresis false) false = false := zoneState_below cool
  have mild : zoneState v (thresholds false).2.1 (s.hysteresis false) false = false :=
    zoneState_below (show v < 1440 by omega)
  have same : ∀ a b, s.pwr.hbmWarn = a → s.pwr.hbmThrottle = b →
      { s with pwr := { s.pwr with hbmWarn := a, hbmThrottle := b } } = s := by
    rintro _ _ rfl rfl
    rfl
  simp [State.evalZone, warn, throttle, cold, mild, same]

/-- Readings below shutdown leave a device of which no sensor has reached it. -/
theorem State.watchShutdown_cool {die : Bool} {readings : List (Nat × Int)} (calm : s.pwr.overShutdown = [])
    (cool : ∀ r ∈ readings, r.2 < (thresholds die).2.2) : s.watchShutdown die readings = s := by
  have same : ∀ xs, s.pwr.overShutdown = xs → { s with pwr := { s.pwr with overShutdown := xs } } = s := by
    rintro _ rfl
    rfl
  refine List.foldlRecOn _ _ (motive := fun t => t = s) rfl fun t kept r mem => ?_
  subst kept
  refine (if_neg (Int.not_le.2 (cool r mem))).trans (same _ ?_)
  rw [calm]
  rfl

/-- Cool readings of the HBM zone are evaluated and watched without effect. -/
theorem State.evalWatch_cool {v : Int} {readings : List (Nat × Int)} (warn : s.pwr.hbmWarn = false)
    (throttle : s.pwr.hbmThrottle = false) (calm : s.pwr.overShutdown = []) (highest : v < 85 * 16)
    (cool : ∀ r ∈ readings, r.2 < 85 * 16) : (s.evalZone false v).watchShutdown false readings = s := by
  rw [State.evalZone_cool warn throttle highest, State.watchShutdown_cool calm fun r mem => (cool r mem).trans (by decide)]

/-- A reading of the stacks, each below the warning threshold, changes their temperatures and the registers that show them. -/
theorem execHbmSensorRead_cool {temps : List Int} (powered : s.powered = true) (twelve : temps.length = 12)
    (cool : ∀ x ∈ temps, x < 85 * 16) (warn : s.pwr.hbmWarn = false) (throttle : s.pwr.hbmThrottle = false)
    (calm : s.pwr.overShutdown = []) :
    ∃ ts regs, execHbmSensorRead temps s = .next { s with regs := regs, pwr := { s.pwr with hbmTemps := ts } } := by
  have read : ∀ r ∈ (temps.take 12).zipIdx.map (fun x => (x.2, x.1)), r.2 < 85 * 16 := by
    rw [List.take_of_length_le twelve.le]
    intro r mem
    obtain ⟨x, among, rfl⟩ := List.mem_map.1 mem
    exact cool x.1 (List.mem_of_getElem? (List.mem_zipIdx_iff_getElem?.1 among))
  unfold execHbmSensorRead
  extract_lets ts w u
  rw [if_neg (by simp [powered])]
  split
  · exact ⟨ts, s.regs, rfl⟩
  · next k v high =>
    have still := State.evalWatch_cool (s := (u.setField 0x80030 0 16 (unsignedOf 16 v)).setField 0x80034 0 4 k) warn throttle calm
      (read (k, v) (hottest_mem high)) read
    exact ⟨ts, _, congrArg _ still⟩

/-! ### Throttle and shutdown -/

/-- While the die zone reads at its throttle threshold or above, the limit falls. -/
theorem execThrottleLimitStep_hot {l : Nat} (limit : s.pwr.throttle = some l) (powered : s.powered = true)
    (hot : 105 * 16 ≤ s.zoneReading true) :
    execThrottleLimitStep s = .next { s with pwr := { s.pwr with throttle := some (max (min l 250) (l - 25)) } } := by
  have reaches : (thresholds true).2.1 ≤ s.zoneReading true := hot
  simp [execThrottleLimitStep, limit, powered, reaches]

theorem execThermtripTimeout_due (powered : s.powered = true) (due : s.pwr.shutdownDue = true) :
    execThermtripTimeout s = .next s.tripThermal := by
  simp [execThermtripTimeout, powered, due]

/-! ### Triggered runs -/

/-- HKM_CTRL of a half (R467). -/
def hkmCtrlRow : RegRow :=
  { base := 0x00090000, s1 := 0x1000, n1 := 2, rw := 0x0F0F007F, reset := 0x0F050040, life := .warm,
    guards := [(0, 7, 48, 64), (16, 4, 1, 8)] }

theorem regRow?_hkmCtrl {half : Nat} (unit : half < 2) : regRow? (hkmReg half 0) = some (hkmCtrlRow, half, 0) := by
  have either : half = 0 ∨ half = 1 := by omega
  rcases either with rfl | rfl <;> rfl

/-- Whatever is written to the guarded fields beside it, the enable bit of the software trigger is taken. -/
theorem hkmCtrlRow_taken (v : Nat) : (hkmCtrlRow.taken v).testBit 27 = true := by
  have guards : hkmCtrlRow.taken v = clearBits hkmCtrlRow.rw
      (if guardOk v (16, 4, 1, 8) then (if guardOk v (0, 7, 48, 64) then 0 else 0 ||| fieldMask (0, 7, 48, 64))
        else (if guardOk v (0, 7, 48, 64) then 0 else 0 ||| fieldMask (0, 7, 48, 64)) ||| fieldMask (16, 4, 1, 8)) := rfl
  rw [guards, testBit_clearBits]
  split <;> split <;> decide

/-- A trigger that HKM_CTRL enables starts a run where none is in progress. -/
theorem State.trigger_starts {half bit : Nat} (enabled : Nat.testBit (s.reg (hkmReg half 0)) (24 + bit) = true) (small : bit < 4)
    (idle : (Map.getD s.hkm half {}).injActive = 0) :
    s.trigger half bit = { s with hkm := Map.put s.hkm half { Map.getD s.hkm half {} with injActive := 2 ^ bit } } := by
  have fires : Nat.testBit (s.field (0x00090000 + 0x1000 * half) 24 4) bit = true := by
    rw [State.field, testBit_bitsOf, decide_eq_true small, Bool.true_and]
    exact enabled
  rw [State.trigger, if_pos fires]
  dsimp only
  rw [if_pos idle]

/-- A write of HKM_CTRL that fires the software trigger and enables it starts a run of a half that is idle. -/
theorem execSwTrigger_starts {half : Nat} {v : Word} (unit : half < 2) (fires : Nat.testBit v.toNat 31 = true)
    (enables : bitsOf v.toNat 27 1 = 1) (idle : (Map.getD s.hkm half {}).injActive = 0) :
    ∃ regs, execSwTrigger half v s =
      .next { s with regs := regs, hkm := Map.put s.hkm half { Map.getD s.hkm half {} with injActive := 8 } } := by
  have bit : v.toNat.testBit 27 = true := by
    have low := testBit_bitsOf v.toNat 27 1 0
    rw [enables] at low
    exact low.symm
  have enabled : Nat.testBit ((s.setReg (hkmReg half 0) (hkmCtrlRow.written (s.reg (hkmReg half 0)) v.toNat)).reg (hkmReg half 0))
      (24 + 3) = true := by
    rw [State.reg_setReg_same, Nat.testBit_mod_two_pow, RegRow.testBit_written _ _ _ rfl, hkmCtrlRow_taken, if_pos rfl, bit]
    rfl
  unfold execSwTrigger
  dsimp only
  rw [if_neg (Nat.not_le.2 unit), regRow?_hkmCtrl unit, if_pos fires]
  dsimp only
  rw [State.trigger_starts enabled (by decide) (by exact idle)]
  exact ⟨_, rfl⟩

/-- A run that was asked for converts its entries and leaves the merged triggers for the next. -/
theorem execInjectedSequence_runs_next {half : Nat} (codes : List Nat) (unit : half < 2) (powered : s.powered = true)
    (asked : (Map.getD s.hkm half {}).injActive ≠ 0) :
    ∃ regs, execInjectedSequence half codes s = .next { s with
      regs := regs
      hkm := Map.put s.hkm half { Map.getD s.hkm half {} with injActive := (Map.getD s.hkm half {}).injPending, injPending := 0 } } := by
  unfold execInjectedSequence
  rw [if_neg (Nat.not_le.2 unit)]
  extract_lets m t
  rw [if_neg (by simp [powered, m, asked])]
  obtain ⟨regs, converted⟩ : ∃ regs, t = { s with regs := regs } :=
    foldl_regsOnly (fun s _ => s.convert_setReg_regsOnly ..) _ s
  rw [converted]
  exact ⟨regs, rfl⟩

end

/-- Settles O32: a pass by its results and what the die zone keeps of them, a reading by its thresholds, and each trigger by the run
that it finds. -/
theorem housekeepingAndThrottle : Obligations.HousekeepingAndThrottle := by
  unfold Obligations.HousekeepingAndThrottle
  simp only [exec_hkmPass, exec_hbmSensorRead, exec_throttleLimitStep, exec_thermtripTimeout, exec_swTrigger, exec_injectedSequence]
  refine ⟨fun half codes s unit good on _ => ?_, fun temps s good on twelve cool warn throttle calm => ?_,
    fun l s limit good on => execThrottleLimitStep_hot limit (State.powered_of good on),
    fun s good on => execThermtripTimeout_due (State.powered_of good on), fun half v s unit fires enables idle => ?_,
    fun half codes s unit good on asked => ?_⟩
  · obtain ⟨t, runs, kept⟩ := execHkmPass_passes unit (State.powered_of good on) codes
    obtain ⟨temps, passes, cap, fabric⟩ := s.passed_spec half codes
    refine ⟨t, runs, fun d diode => ?_, ?_, fun h other => ?_, kept.cap.trans cap, kept.active.trans (by rw [fabric])⟩
    · rw [kept.dieTemps, temps d diode]
    · rw [kept.passes, passes, if_pos rfl]
    · rw [kept.passes, passes, if_neg other.symm]
  · obtain ⟨ts, regs, read⟩ := execHbmSensorRead_cool (State.powered_of good on) twelve cool warn throttle calm
    exact ⟨_, read, warn, throttle, rfl, rfl, rfl⟩
  · obtain ⟨regs, starts⟩ := execSwTrigger_starts unit fires enables idle
    refine ⟨_, starts, ?_, ?_, rfl, rfl⟩
    all_goals
      dsimp only
      rw [Map.getD_put, if_pos rfl]
  · obtain ⟨regs, ends⟩ := execInjectedSequence_runs_next codes unit (State.powered_of good on) asked
    refine ⟨_, ends, ?_, ?_, ?_, rfl, rfl⟩
    all_goals
      dsimp only
      rw [Map.getD_put, if_pos rfl]

end Sys2Proof.Machine
end

section
/-!
SUPPORT. The queue of waiting commands through the shared operations (log 2): none of them changes it. What Laws/State.lean says of the
others is used here.
-/
namespace Sys2Proof.Machine

/-- A fold whose every step leaves what is seen of its value leaves it. -/
theorem foldl_view {σ α β : Type} (p : σ → β) (f : σ → α → σ) (h : ∀ a x, p (f a x) = p a) (xs : List α) (a : σ) :
    p (xs.foldl f a) = p a :=
  List.foldlRecOn xs f (motive := fun b => p b = p a) rfl fun b hb x _ => (h b x).trans hb

section
variable (s : State)

/-! ### Registers, counters, frames, sequences, power, faults and the mailbox -/

@[simp] theorem State.modScene_pending (scene : Nat) (f : Scene → Scene) : (s.modScene scene f).pending = s.pending := by
  simp [State.modScene]

@[simp] theorem State.clearRegs_pending (p : Nat → Bool) : (s.clearRegs p).pending = s.pending := by simp [State.clearRegs]

@[simp] theorem State.writeReg_pending (o v : Nat) : (s.writeReg o v).pending = s.pending := by
  unfold State.writeReg
  split <;> simp

@[simp] theorem State.clearGroups_pending (mask : Nat) : (s.clearGroups mask).pending = s.pending := by simp [State.clearGroups]

@[simp] theorem State.takeSnapshot_pending (count : Nat) : (s.takeSnapshot count).pending = s.pending := by
  simp [State.takeSnapshot]

@[simp] theorem State.uncheck_pending (a : Nat) : (s.uncheck a).pending = s.pending := by simp [State.uncheck]

@[simp] theorem State.dropPages_pending (fs : List Nat) : (s.dropPages fs).pending = s.pending := by simp [State.dropPages]

@[simp] theorem State.evictEntry_pending (i : Nat) : (s.evictEntry i).pending = s.pending := by
  unfold State.evictEntry
  split <;> simp

@[simp] theorem State.evictTree_pending (is : List Nat) : (s.evictTree is).pending = s.pending := by simp [State.evictTree]

theorem State.releaseOne_pending {s s' : State} (h : s.releaseOne = some s') : s'.pending = s.pending := by
  unfold State.releaseOne at h
  split at h
  · cases h
    simp
  · rw [Option.map_eq_some_iff] at h
    obtain ⟨i, -, rfl⟩ := h
    simp

@[simp] theorem State.makeRoom_pending (fuel want : Nat) (s : State) : (s.makeRoom fuel want).pending = s.pending := by
  induction fuel generalizing s with
  | zero => rfl
  | succ fuel ih =>
    unfold State.makeRoom
    split
    · rfl
    · split
      · next q => rw [ih, State.releaseOne_pending q]
      · rfl

@[simp] theorem State.takeFrames_pending (ds : List Frame) : (s.takeFrames ds).2.pending = s.pending := by simp [State.takeFrames]

@[simp] theorem State.cancelSeq_pending (e : Nat) : (s.cancelSeq e).pending = s.pending := by simp [State.cancelSeq]

@[simp] theorem State.writeTuning_pending (step : Nat) : (s.writeTuning step).pending = s.pending := by simp [State.writeTuning]

@[simp] theorem State.setTrim_pending (row v : Nat) : (s.setTrim row v).pending = s.pending := by simp [State.setTrim]

@[simp] theorem State.markStall_pending : s.markStall.pending = s.pending := by simp [State.markStall]

@[simp] theorem State.suspect_pending (row : Nat) : (s.suspect row).pending = s.pending := by simp [State.suspect]

@[simp] theorem State.raise_pending (src kind idx : Nat) (scenes : List Nat) :
    (s.raise src kind idx scenes).pending = s.pending := by
  simp [State.raise]

@[simp] theorem State.refreshCopy_pending : s.refreshCopy.pending = s.pending := by simp [State.refreshCopy]

@[simp] theorem State.checkFail_pending (place idx : Nat) (scenes : List Nat) :
    (s.checkFail place idx scenes).pending = s.pending := by
  simp [State.checkFail]

@[simp] theorem State.chkService_pending : s.chkService.pending = s.pending := by simp [State.chkService]

@[simp] theorem runBody_pending (e : Entry) (body : Body) (s : State) : (runBody e body s).pending = (body s).1.pending := by
  unfold runBody
  split
  · next q => simp [q]
  · next q => simp [q]

@[simp] theorem State.fetchEntries_pending (r : Nat) : (s.fetchEntries r).pending = s.pending := by simp [State.fetchEntries]

@[simp] theorem State.handoverCycle_pending : s.handoverCycle.pending = s.pending := by simp [State.handoverCycle]

/-! ### Tiles: engine, arrays and calibration -/

@[simp] theorem State.noteSat_pending (t scene : Nat) : (s.noteSat t scene).pending = s.pending := by simp [State.noteSat]

@[simp] theorem State.noteNan_pending (t scene : Nat) : (s.noteNan t scene).pending = s.pending := by simp [State.noteNan]

@[simp] theorem State.take_pending (t : Nat) (a : Arrival) : (s.take t a).pending = s.pending := by simp [State.take]

@[simp] theorem State.takeArrivals_pending (t : Nat) : (s.takeArrivals t).pending = s.pending := by simp [State.takeArrivals]

@[simp] theorem State.sramCe_pending (t word : Nat) : (s.sramCe t word).pending = s.pending := by simp [State.sramCe]

@[simp] theorem State.sramUe_pending (t word : Nat) (scenes : List Nat) : (s.sramUe t word scenes).pending = s.pending := by
  simp [State.sramUe]

@[simp] theorem State.holdUntilCall_pending (t : Nat) : (s.holdUntilCall t).pending = s.pending := by simp [State.holdUntilCall]

@[simp] theorem State.writeRowSums_pending (t a : Nat) : (s.writeRowSums t a).pending = s.pending := by simp [State.writeRowSums]

@[simp] theorem State.monitor_pending (t a : Nat) (d : Int) : (s.monitor t a d).pending = s.pending := by simp [State.monitor]

@[simp] theorem State.settleCauses_pending : s.settleCauses.pending = s.pending := by simp [State.settleCauses]

@[simp] theorem State.spoilMvm_pending (t : Nat) (m : Mvm) : (s.spoilMvm t m).pending = s.pending := by simp [State.spoilMvm]

@[simp] theorem State.exhaust_pending (t : Nat) (m : Mvm) (cause group plane quarter : Nat) :
    (s.exhaust t m cause group plane quarter).pending = s.pending := by
  simp [State.exhaust]

@[simp] theorem State.leaveLife_pending (t a : Nat) : (s.leaveLife t a).pending = s.pending := by simp [State.leaveLife]

@[simp] theorem State.trendAdd_pending (t a conversions encores : Nat) :
    (s.trendAdd t a conversions encores).pending = s.pending := by
  simp [State.trendAdd]

@[simp] theorem State.finishMvm_pending (t : Nat) (m : Mvm) : (s.finishMvm t m).pending = s.pending := by simp [State.finishMvm]

@[simp] theorem State.noteFlagged_pending (t : Nat) (m : Mvm) (rows plane group : Nat) (vs : List Int) :
    (s.noteFlagged t m rows plane group vs).pending = s.pending := by
  unfold State.noteFlagged
  split <;> simp

@[simp] theorem State.resolve_pending (t : Nat) (m : Mvm) (lo rows plane group window : Nat) (base : Bool) (input : PhaseIn) :
    (s.resolve t m lo rows plane group window base input).1.pending = s.pending := by
  unfold State.resolve
  dsimp only
  repeat' split
  all_goals simp

@[simp] theorem State.keepMvm_pending (t : Nat) (m : Mvm) : (s.keepMvm t m).pending = s.pending := by simp [State.keepMvm]

@[simp] theorem State.taint_pending (t : Nat) (m : Mvm) : (s.taint t m).pending = s.pending := by simp [State.taint]

@[simp] theorem State.untaint_pending (m : Mvm) : (s.untaint m).pending = s.pending := by simp [State.untaint]

@[simp] theorem State.runPhase_pending (s : State) (t : Nat) (m m' : Mvm) (lo rows plane group : Nat) (base : Bool) (input : PhaseIn) :
    (s.runPhase t m m' lo rows plane group base input).pending = s.pending := by
  unfold State.runPhase
  dsimp only
  split
  · simp
  · split
    · simp
    · split
      all_goals
        next q =>
          have kept := congrArg (fun a => a.1.pending) q
          simp only [State.resolve_pending] at kept
          simpa using kept.symm

@[simp] theorem State.pieceWindow_pending (t : Nat) (m : Mvm) (input : PhaseIn) :
    (s.pieceWindow t m input).pending = s.pending := by
  unfold State.pieceWindow
  dsimp only
  split <;> simp

@[simp] theorem State.footlightEarly_pending (t : Nat) (m : Mvm) : (s.footlightEarly t m).pending = s.pending := by
  simp [State.footlightEarly]

@[simp] theorem State.mvmWindow_pending (t : Nat) (m : Mvm) (input : PhaseIn) :
    (s.mvmWindow t m input).pending = s.pending := by
  simp [State.mvmWindow]

@[simp] theorem State.latchPlaybill_pending : s.latchPlaybill.pending = s.pending := by simp [State.latchPlaybill]

@[simp] theorem State.installRecord_pending (t : Nat) (r : List Byte) : (s.installRecord t r).pending = s.pending := by
  simp [State.installRecord]

@[simp] theorem State.calNext_pending (t : Nat) : (s.calNext t).pending = s.pending := by simp [State.calNext]

@[simp] theorem State.calExact_pending (t a : Nat) (r : CalRunState) (w : CalWindow) :
    (s.calExact t a r w).pending = s.pending := by
  simp [State.calExact]

@[simp] theorem State.calPerformance_pending (t a : Nat) (r : CalRunState) (w : CalWindow) :
    (s.calPerformance t a r w).pending = s.pending := by
  simp [State.calPerformance]

@[simp] theorem State.calWindow_pending (t : Nat) (w : CalWindow) : (s.calWindow t w).pending = s.pending := by
  unfold State.calWindow
  split
  · rfl
  · split <;> simp

@[simp] theorem State.applyFit_pending (t a : Nat) (r : CalRunState) : (s.applyFit t a r).pending = s.pending := by
  simp [State.applyFit]

@[simp] theorem State.endRun_pending (t : Nat) : (s.endRun t).pending = s.pending := by simp [State.endRun]

@[simp] theorem State.openGroup_pending (t scene : Nat) (g : GroupSlot) (key : List Byte) :
    (s.openGroup t scene g key).pending = s.pending := by
  simp [State.openGroup]

@[simp] theorem State.macIssue_pending (t sec scene lane : Nat) (m : MacMode) (a b : Nat) :
    (s.macIssue t sec scene lane m a b).pending = s.pending := by
  simp [State.macIssue]

@[simp] theorem State.outlierAdd_pending (t sec scene lane col count xs slots : Nat) (int2 : Bool) (weight : Nat → Nat → Int) :
    (s.outlierAdd t sec scene lane col count xs slots int2 weight).pending = s.pending := by
  simp [State.outlierAdd]

@[simp] theorem State.buildTable_pending (t scene table i : Nat) (v : VecRef) :
    (s.buildTable t scene table i v).pending = s.pending := by
  simp [State.buildTable]

@[simp] theorem State.lookupAdd_pending (t sec scene table lane : Nat) (v : VecRef) (int2 : Bool) (ws : Nat → List Int) :
    (s.lookupAdd t sec scene table lane v int2 ws).pending = s.pending := by
  simp [State.lookupAdd]

@[simp] theorem State.quantise_pending (t scene src n : Nat) (v : VecRef) (scale : Nat) (slotRows : List Nat) (k : Nat) :
    (s.quantise t scene src n v scale slotRows k).pending = s.pending := by
  simp [State.quantise]

@[simp] theorem State.setTri_pending (t scene addr : Nat) (v : Tri) : (s.setTri t scene addr v).pending = s.pending := by
  simp [State.setTri]

@[simp] theorem State.closeInto_pending (t scene addr : Nat) (target : CloseTarget) (fp : Bool) (key : List Byte)
    (element : Nat) (ws : List Nat) :
    (s.closeInto t scene addr target fp key element ws).pending = s.pending := by
  simp [State.closeInto]

@[simp] theorem State.outputTri_pending (t scene tri dim addr : Nat) (target : CloseTarget) (key : List Byte) (element : Nat) :
    (s.outputTri t scene tri dim addr target key element).pending = s.pending := by
  simp [State.outputTri]

@[simp] theorem State.beginClose_pending (t slot : Nat) : (s.beginClose t slot).pending = s.pending := by simp [State.beginClose]

@[simp] theorem State.drainGroup_pending (t slot : Nat) (g : AccGroup) (n : Nat) :
    (s.drainGroup t slot g n).pending = s.pending := by
  simp [State.drainGroup]

@[simp] theorem State.drainGroups_pending (s : State) (t : Nat) : (s.drainGroups t).pending = s.pending := by
  refine foldl_pending _ (fun s e => ?_) _ _
  split <;> simp

@[simp] theorem State.scrubWord_pending (tile ecc : Nat) : (s.scrubWord tile ecc).pending = s.pending := by simp [State.scrubWord]

/-! ### Routers -/

@[simp] theorem State.modRouter_pending (t : Nat) (f : Router → Router) : (s.modRouter t f).pending = s.pending := by
  simp [State.modRouter]

@[simp] theorem State.toInput_pending (t code at_ : Nat) (f : Flit) : (s.toInput t code at_ f).pending = s.pending := by
  simp [State.toInput]

@[simp] theorem State.modWing_pending (r : Nat) (f : Wing → Wing) : (s.modWing r f).pending = s.pending := by simp [State.modWing]

@[simp] theorem State.outHop_pending (t out at_ : Nat) (f : Flit) : (s.outHop t out at_ f).pending = s.pending := by
  unfold State.outHop
  split <;> simp

@[simp] theorem State.wingTake_pending (rowEnd now : Nat) (f : Flit) : (s.wingTake rowEnd now f).pending = s.pending := by
  unfold State.wingTake
  split
  · rfl
  · split <;> simp

@[simp] theorem State.deliver_pending (home : Nat) (slot : LocalSlot) (f : Flit) :
    (s.deliver home slot f).pending = s.pending := by
  unfold State.deliver
  split <;> simp

@[simp] theorem State.modSubLanes_pending (under : Nat) (f : List LaneFlit → List LaneFlit) :
    (s.modSubLanes under f).pending = s.pending := by
  simp [State.modSubLanes]

@[simp] theorem State.toLane_pending (home : Nat) (way : LaneWay) (sub due : Nat) (f : Flit) :
    (s.toLane home way sub due f).pending = s.pending := by
  simp [State.toLane]

@[simp] theorem State.passLane_pending (home now : Nat) (input : Bool) :
    (s.passLane home now input).pending = s.pending := by
  simp [State.passLane]

@[simp] theorem State.drainDelay_pending (home now : Nat) (slot : LocalSlot) :
    (s.drainDelay home now slot).pending = s.pending := by
  simp [State.drainDelay]

@[simp] theorem State.selectOutput_pending (home now out nibble : Nat) (source : Nat → Option Flit) :
    (s.selectOutput home now out nibble source).pending = s.pending := by
  unfold State.selectOutput
  split
  · rfl
  · split <;> simp

@[simp] theorem State.forwardStraight_pending (home now : Nat) (here : List (Nat × Nat × Flit)) :
    (s.forwardStraight home now here).pending = s.pending := by
  simp [State.forwardStraight]

@[simp] theorem State.copyInputs_pending (home now : Nat) (here : List (Nat × Nat × Flit)) :
    (s.copyInputs home now here).pending = s.pending := by
  simp [State.copyInputs]

@[simp] theorem State.setSequencer_pending (home : Nat) (q : Sequencer) : (s.setSequencer home q).pending = s.pending := by
  unfold State.setSequencer
  split <;> simp

@[simp] theorem State.aluWord_pending (home : Nat) (q : Sequencer) (w : Nat) (source : Nat → Option Flit) (scenes : List Nat) :
    (s.aluWord home q w source scenes).pending = s.pending := by
  unfold State.aluWord
  dsimp only
  repeat' split
  all_goals simp

@[simp] theorem State.routerCycle_pending (home : Nat) (slot : LocalSlot) (scenes : List Nat) :
    (s.routerCycle home slot scenes).pending = s.pending := by
  simp [State.routerCycle]

@[simp] theorem State.injectFlit_pending (home : Nat) (f : Flit) : (s.injectFlit home f).pending = s.pending := by
  simp [State.injectFlit]

@[simp] theorem State.wingDrive_pending (l : WingLine) : (s.wingDrive l).pending = s.pending := by simp [State.wingDrive]

@[simp] theorem State.slotError_pending (t addr : Nat) (ue : Bool) : (s.slotError t addr ue).pending = s.pending := by
  simp [State.slotError]

/-! ### Frames and Chorus steps -/

@[simp] theorem State.releasePort_pending (port fuel : Nat) (s : State) : (s.releasePort port fuel).pending = s.pending := by
  induction fuel generalizing s with
  | zero => rfl
  | succ fuel ih =>
    unfold State.releasePort
    dsimp only
    split
    · split <;> simp
    · rw [ih, State.send_pending, State.modPort_pending]

@[simp] theorem State.resumePort_pending (port classes : Nat) : (s.resumePort port classes).pending = s.pending := by
  simp [State.resumePort]

@[simp] theorem State.sendFrame_pending (g : ChorusGroup) (udp : Nat) (k : Kept) (body : List Byte) :
    (s.sendFrame g udp k body).pending = s.pending := by
  simp [State.sendFrame]

@[simp] theorem State.chorusSend_pending (i step : Nat) (k : Kept) (length format extend : Nat) :
    (s.chorusSend i step k length format extend).1.pending = s.pending := by
  unfold State.chorusSend
  split <;> simp

@[simp] theorem State.sendStep_pending (s : State) (i : Nat) (x : Step) (ks : List Kept) :
    (s.sendStep i x ks).pending = s.pending := by
  unfold State.sendStep
  simp only [State.modStep_pending]
  exact foldl_view (fun a : State × List Kept => a.1.pending) _ (fun _ _ => by simp) _ _

@[simp] theorem State.gather_pending (i : Nat) (g : ChorusGroup) (x : Step) : (s.gather i g x).pending = s.pending := by
  simp [State.gather]

@[simp] theorem State.stepProgress_pending (n : Nat) : (s.stepProgress n).pending = s.pending := by
  unfold State.stepProgress
  dsimp only
  repeat' split
  all_goals simp

@[simp] theorem State.chorusOwn_pending (n : Nat) (own : List Byte) : (s.chorusOwn n own).pending = s.pending := by
  simp [State.chorusOwn]

@[simp] theorem State.failStep_pending (x : Step) (src cause member : Nat) :
    (s.failStep x src cause member).pending = s.pending := by
  unfold State.failStep
  split <;> simp

@[simp] theorem State.sendScene_pending (s : State) (x : SceneDesc) : (s.sendScene x).pending = s.pending := by
  unfold State.sendScene
  split
  · rfl
  · exact foldl_view (fun a : State × List Kept => a.1.pending) _ (fun _ _ => by simp) _ _

/-! ### Attention, the KV cache and the journals -/

@[simp] theorem State.writeLogits_pending (q : Seq) (d : Delivered) : (s.writeLogits q d).pending = s.pending := by
  simp [State.writeLogits]

@[simp] theorem State.hbmWrite_pending (f a : Nat) (bs : List Byte) : (s.hbmWrite f a bs).pending = s.pending := by
  simp [State.hbmWrite]

@[simp] theorem State.hbmRead_pending (f a n : Nat) : (s.hbmRead f a n).1.pending = s.pending := by simp [State.hbmRead]

@[simp] theorem State.sealChunk_pending (m : Model) (f head pos : Nat) (major : Bool) :
    (s.sealChunk m f head pos major).pending = s.pending := by
  simp [State.sealChunk]

@[simp] theorem State.advanceRing_pending (m : Model) (f layer pos : Nat) :
    (s.advanceRing m f layer pos).pending = s.pending := by
  simp [State.advanceRing]

@[simp] theorem State.writePlane_pending (entry layer plane head pos : Nat) (slices : List Byte) (scale : Option Nat) :
    (s.writePlane entry layer plane head pos slices scale).pending = s.pending := by
  unfold State.writePlane
  dsimp only
  repeat' split
  all_goals simp

@[simp] theorem State.candWrite_pending (frames : List Nat) (off : Nat) (bs : List Byte) :
    (s.candWrite frames off bs).pending = s.pending := by
  simp [State.candWrite]

@[simp] theorem State.writePuts_pending (puts : List KvPut) : (s.writePuts puts).pending = s.pending := by simp [State.writePuts]

@[simp] theorem State.settleWrites_pending (scene layer : Nat) : (s.settleWrites scene layer).pending = s.pending := by
  simp [State.settleWrites]

@[simp] theorem State.kvQuantise_pending (t scene row : Nat) (ar : AttRecord) (head : Nat) (value : Bool) (src : Nat)
    (o : OwnArea) :
    (s.kvQuantise t scene row ar head value src o).pending = s.pending := by
  unfold State.kvQuantise
  split <;> simp

@[simp] theorem State.candPut_pending (s : State) (entry layer head node : Nat) (anchor : Bool) (k v : List Int) (sk sv : Nat) :
    (s.candPut entry layer head node anchor k v sk sv).pending = s.pending := by
  simp [State.candPut]

@[simp] theorem State.kvWrite_pending (t scene row : Nat) (ar : AttRecord) (head : Nat) (o : OwnArea) :
    (s.kvWrite t scene row ar head o).pending = s.pending := by
  unfold State.kvWrite
  dsimp only
  repeat' split
  all_goals simp

@[simp] theorem State.commitNode_pending (s : State) (entry node pos : Nat) : (s.commitNode entry node pos).pending = s.pending :=
  foldl_pending _ (fun _ _ => foldl_pending _ (fun _ _ => foldl_pending _ (fun _ _ => State.writePlane_pending ..) _ _) _ _) _ s

@[simp] theorem State.kvCheckFail_pending (index kind : Nat) (scenes : List Nat) :
    (s.kvCheckFail index kind scenes).pending = s.pending := by
  simp [State.kvCheckFail]

@[simp] theorem State.checkEntries_pending (is : List Nat) : (s.checkEntries is).pending = s.pending := by
  simp [State.checkEntries]

@[simp] theorem State.roomFor_pending : s.roomFor.pending = s.pending := by simp [State.roomFor]

@[simp] theorem State.checkPages_pending (fs : List Nat) : (s.checkPages fs).2.pending = s.pending := by
  unfold State.checkPages
  split <;> simp

@[simp] theorem State.fetchBlocks_pending (scene : Nat) (c : RowCtx) (significant : List Nat) :
    (s.fetchBlocks scene c significant).pending = s.pending := by
  simp [State.fetchBlocks]

@[simp] theorem State.attend_pending (t scene tri row : Nat) (ar : AttRecord) (head q : Nat) (o : OwnArea) :
    (s.attend t scene tri row ar head q o).pending = s.pending := by
  unfold State.attend
  split <;> simp

@[simp] theorem State.mergeAt_pending (t scene : Nat) (ar : AttRecord) (level dst src : Nat) :
    (s.mergeAt t scene ar level dst src).pending = s.pending := by
  simp [State.mergeAt]

@[simp] theorem State.lookupEntry_pending (h : Nat × Nat) : (s.lookupEntry h).2.pending = s.pending := by
  unfold State.lookupEntry
  split
  · rfl
  · split <;> simp

@[simp] theorem State.journalWrite_pending (t a : Nat) (f : JournalSlot → JournalSlot) :
    (s.journalWrite t a f).pending = s.pending := by
  simp [State.journalWrite]

@[simp] theorem State.restream_pending (t : Nat) : (s.restream t).pending = s.pending := by
  unfold State.restream
  split <;> simp

@[simp] theorem State.setValid_pending (t a : Nat) (on : Bool) : (s.setValid t a on).pending = s.pending := by
  simp [State.setValid]

@[simp] theorem State.leaveLeft_pending (t a : Nat) : (s.leaveLeft t a).pending = s.pending := by simp [State.leaveLeft]

@[simp] theorem State.tally_pending (changed : Bool) : (s.tally changed).pending = s.pending := by simp [State.tally]

@[simp] theorem State.noteShape_pending (t a shape : Nat) : (s.noteShape t a shape).pending = s.pending := by
  simp [State.noteShape]

@[simp] theorem State.writeArrInfo_pending (t : Nat) (x : Tensor) (p : Placement) :
    (s.writeArrInfo t x p).pending = s.pending := by
  simp [State.writeArrInfo]

@[simp] theorem State.fillArea_pending (t : Nat) (c : Copy) (x : Tensor) (p : Placement) :
    (s.fillArea t c x p).pending = s.pending := by
  simp [State.fillArea]

@[simp] theorem State.fillArray_pending (t : Nat) (c : Copy) (x : Tensor) (p : Placement) :
    (s.fillArray t c x p).pending = s.pending := by
  simp [State.fillArray]

@[simp] theorem State.beginArray_pending (t : Nat) (p : Placement) (c : Copy) (d format : Nat) :
    (s.beginArray t p c d format).pending = s.pending := by
  unfold State.beginArray
  split <;> simp

@[simp] theorem State.adopt_pending (t : Nat) (p : Placement) (c : Copy) (x : Tensor) (d : Nat) :
    (s.adopt t p c x d).pending = s.pending := by
  simp [State.adopt]

@[simp] theorem State.failArray_pending (t a : Nat) (f : JournalSlot → JournalSlot) :
    (s.failArray t a f).pending = s.pending := by
  simp [State.failArray]

@[simp] theorem State.startArray_pending (t : Nat) (p : Placement) (c : Copy) :
    (s.startArray t p c).pending = s.pending := by
  unfold State.startArray
  split <;> simp

@[simp] theorem State.pumpArrays_pending (fuel : Nat) (s : State) : (s.pumpArrays fuel).pending = s.pending := by
  induction fuel generalizing s with
  | zero => rfl
  | succ fuel ih =>
    unfold State.pumpArrays
    dsimp only
    split
    · rfl
    · split
      · rw [ih, State.startArray_pending]
      · rfl

@[simp] theorem State.pump_pending : s.pump.pending = s.pending := by simp [State.pump]

/-! ### Programs and stage cycles -/

@[simp] theorem State.streamFail_pending (t scene : Nat) (held : Bool) :
    (s.streamFail t scene held).pending = s.pending := by
  simp [State.streamFail]

@[simp] theorem State.busy_pending (t bit : Nat) : (s.busy t bit).pending = s.pending := by simp [State.busy]

@[simp] theorem State.lookupWork_pending (t sec scene table lane tensor rowBlock colBlock group col : Nat) (v : VecRef) :
    (s.lookupWork t sec scene table lane tensor rowBlock colBlock group col v).pending = s.pending := by
  unfold State.lookupWork
  split <;> simp

@[simp] theorem State.putFp_pending (t scene addr : Nat) (xs : List Nat) :
    (s.putFp t scene addr xs).pending = s.pending := by
  simp [State.putFp]

@[simp] theorem State.embedWork_pending (t scene row tensor n dst : Nat) :
    (s.embedWork t scene row tensor n dst).pending = s.pending := by
  unfold State.embedWork
  split <;> simp

@[simp] theorem State.lmHeadWork_pending (t scene row head tensor src n : Nat) :
    (s.lmHeadWork t scene row head tensor src n).pending = s.pending := by
  unfold State.lmHeadWork
  split <;> simp

@[simp] theorem State.selectExperts_pending (scene layer row : Nat) (chosen : List Nat) :
    (s.selectExperts scene layer row chosen).pending = s.pending := by
  unfold State.selectExperts
  dsimp only
  split <;> simp

@[simp] theorem State.expertWork_pending (t sec scene row lane count k dst : Nat) :
    (s.expertWork t sec scene row lane count k dst).pending = s.pending := by
  unfold State.expertWork
  split <;> simp

@[simp] theorem State.outlierWork_pending (t home sec scene row lane array col count xs : Nat) :
    (s.outlierWork t home sec scene row lane array col count xs).pending = s.pending := by
  unfold State.outlierWork
  dsimp only
  repeat' split
  all_goals simp

@[simp] theorem State.scaleWork_pending (t home sec scene row lane array col n fa : Nat) :
    (s.scaleWork t home sec scene row lane array col n fa).pending = s.pending := by
  unfold State.scaleWork
  dsimp only
  repeat' split
  all_goals simp

@[simp] theorem State.sealWork_pending (t addr lines buffer index : Nat) :
    (s.sealWork t addr lines buffer index).pending = s.pending := by
  simp [State.sealWork]

@[simp] theorem State.doWork_pending (t home sec scene : Nat) (w : Work) :
    (s.doWork t home sec scene w).pending = s.pending := by
  unfold State.doWork
  dsimp only
  repeat' split
  all_goals simp

@[simp] theorem State.lineReady_pending (rowEnd line : Nat) : (s.lineReady rowEnd line).pending = s.pending := by
  simp [State.lineReady]

@[simp] theorem State.fillLine_pending (rowEnd line : Nat) (data : List Byte) :
    (s.fillLine rowEnd line data).pending = s.pending := by
  simp [State.fillLine]

@[simp] theorem State.releaseZero_pending (rowEnd : Nat) (lines : List Nat) :
    (s.releaseZero rowEnd lines).pending = s.pending := by
  simp [State.releaseZero]

@[simp] theorem State.abandonStep_pending (x : Step) (src cause member : Nat) :
    (s.abandonStep x src cause member).pending = s.pending := by
  simp [State.abandonStep]

@[simp] theorem State.stepFrame_pending (f : ChorusFrame) : (s.stepFrame f).pending = s.pending := by
  unfold State.stepFrame
  dsimp only
  repeat' split
  all_goals simp

@[simp] theorem State.openStep_pending (index scene : Nat) : (s.openStep index scene).pending = s.pending := by
  unfold State.openStep
  split <;> simp

@[simp] theorem State.chorusPut_pending (scene index offset : Nat) (data : List Byte) :
    (s.chorusPut scene index offset data).pending = s.pending := by
  unfold State.chorusPut
  split <;> simp

@[simp] theorem State.startStreams_pending (s : State) (c : CueSheet) (now : Nat) :
    (s.startStreams c now).pending = s.pending := by
  refine foldl_pending _ (fun s r => foldl_pending _ (fun s p => ?_) _ _) _ _
  split
  · dsimp only
    split <;> simp
  · rfl

@[simp] theorem State.streamHold_pending : s.streamHold.pending = s.pending := by simp [State.streamHold]

@[simp] theorem State.streamDone_pending : s.streamDone.pending = s.pending := by simp [State.streamDone]

@[simp] theorem State.endStream_pending (t : Nat) (r : StreamRun) : (s.endStream t r).pending = s.pending := by
  unfold State.endStream
  split
  · rfl
  · split <;> simp

@[simp] theorem State.streamCycle_pending (s : State) : s.streamCycle.pending = s.pending := by
  refine foldl_pending _ (fun s e => ?_) _ _
  split <;> simp

@[simp] theorem State.wingTest_pending (rowEnd at_ : Nat) : (s.wingTest rowEnd at_).pending = s.pending := by
  simp [State.wingTest]

@[simp] theorem State.wingCycle_pending (c : CueSheet) (now : Nat) : (s.wingCycle c now).pending = s.pending := by
  simp [State.wingCycle]

@[simp] theorem State.footlightCall_pending (k : FlCall) : (s.footlightCall k).pending = s.pending := by
  simp [State.footlightCall]

@[simp] theorem State.groupCycle_pending (c : CueSheet) (now : Nat) (closing : Bool) :
    (s.groupCycle c now closing).pending = s.pending := by
  simp [State.groupCycle]

@[simp] theorem State.runAct_pending (a : Act × Nat) : (s.runAct a).pending = s.pending := by
  unfold State.runAct
  dsimp only
  split
  · rfl
  · split <;> simp

@[simp] theorem State.dropExcess_pending (e : Excess) : (s.dropExcess e).pending = s.pending := by simp [State.dropExcess]

@[simp] theorem State.takeExcess_pending (s : State) (c : CueSheet) : (s.takeExcess c).pending = s.pending := by
  refine foldl_pending _ (fun s e => ?_) _ _
  dsimp only
  split <;> simp

@[simp] theorem State.settleExcess_pending : s.settleExcess.pending = s.pending := by simp [State.settleExcess]

@[simp] theorem State.deliverOut_pending (t : Nat) (o : OutReg) : (s.deliverOut t o).pending = s.pending := by
  simp [State.deliverOut]

@[simp] theorem State.deliverDue_pending (s : State) (t : Nat) : (s.deliverDue t).pending = s.pending :=
  foldl_pending _ (fun _ _ => State.deliverOut_pending ..) _ s

@[simp] theorem State.barrierCycle_pending (s : State) : s.barrierCycle.pending = s.pending := by
  refine foldl_pending _ (fun s k => ?_) _ _
  split <;> simp

@[simp] theorem State.scheduledCycle_pending (s : State) (c : CueSheet) : (s.scheduledCycle c).pending = s.pending := by
  simp [State.scheduledCycle]

@[simp] theorem State.engineCycle_pending : s.engineCycle.pending = s.pending := by simp [State.engineCycle]

@[simp] theorem State.formatCycle_pending : s.formatCycle.pending = s.pending := by simp [State.formatCycle]

@[simp] theorem State.stageCycle_pending : s.stageCycle.pending = s.pending := by
  unfold State.stageCycle
  dsimp only
  repeat' split
  all_goals simp

@[simp] theorem State.passQuiet_pending (n : Nat) : (s.passQuiet n).pending = s.pending := by simp [State.passQuiet]

@[simp] theorem State.runTo_pending (c : CueSheet) (at_ fuel : Nat) (s : State) :
    (State.runTo c at_ fuel s).pending = s.pending := by
  induction fuel generalizing s with
  | zero => rfl
  | succ fuel ih => simp [State.runTo, ih]

@[simp] theorem State.advanceTo_pending (at_ : Nat) : (s.advanceTo at_).pending = s.pending := by
  unfold State.advanceTo
  split <;> simp

@[simp] theorem State.runCycles_pending (n : Nat) : (s.runCycles n).pending = s.pending := by simp [State.runCycles]

/-! ### Power, monitoring and boot -/

@[simp] theorem State.pwrEvent_pending (bit : Nat) : (s.pwrEvent bit).pending = s.pending := by simp [State.pwrEvent]

@[simp] theorem State.measure_pending (power : Nat) : (s.measure power).pending = s.pending := by simp [State.measure]

@[simp] theorem State.capUnmet_pending (power : Nat) : (s.capUnmet power).pending = s.pending := by simp [State.capUnmet]

@[simp] theorem State.bubble_pending : s.bubble.pending = s.pending := by simp [State.bubble]

@[simp] theorem State.endStep_pending (st : Status) : (s.endStep st).pending = s.pending := by
  unfold State.endStep
  split
  · rfl
  · split <;> simp

@[simp] theorem State.raiseSwitch_pending (target : Nat) (job : Option Nat) :
    (s.raiseSwitch target job).pending = s.pending := by
  simp [State.raiseSwitch]

@[simp] theorem State.runSwitch_pending : s.runSwitch.pending = s.pending := by simp [State.runSwitch]

@[simp] theorem State.trigger_pending (half bit : Nat) : (s.trigger half bit).pending = s.pending := by simp [State.trigger]

@[simp] theorem State.convert_pending (half input code : Nat) : (s.convert half input code).pending = s.pending := by
  simp [State.convert]

@[simp] theorem State.enterThrottle_pending : s.enterThrottle.pending = s.pending := by simp [State.enterThrottle]

@[simp] theorem State.enterWarning_pending : s.enterWarning.pending = s.pending := by simp [State.enterWarning]

@[simp] theorem State.evalZone_pending (die : Bool) (reading : Int) : (s.evalZone die reading).pending = s.pending := by
  simp [State.evalZone]

@[simp] theorem State.tripThermal_pending : s.tripThermal.pending = s.pending := by simp [State.tripThermal]

@[simp] theorem State.shutdown_pending (die : Bool) (sensor : Nat) (reading : Int) :
    (s.shutdown die sensor reading).pending = s.pending := by
  simp [State.shutdown]

@[simp] theorem State.watchShutdown_pending (die : Bool) (readings : List (Nat × Int)) :
    (s.watchShutdown die readings).pending = s.pending := by
  simp [State.watchShutdown]

@[simp] theorem State.regularResults_pending (half : Nat) (codes : List Nat) :
    (s.regularResults half codes).pending = s.pending := by
  simp [State.regularResults]

@[simp] theorem State.fwsFail_pending (code : Nat) : (s.fwsFail code).pending = s.pending := by simp [State.fwsFail]

@[simp] theorem State.rejectImage_pending (code : Nat) : (s.rejectImage code).pending = s.pending := by simp [State.rejectImage]

@[simp] theorem State.applyTuning_pending : s.applyTuning.pending = s.pending := by simp [State.applyTuning]

@[simp] theorem State.startFirmware_pending (bs : List Byte) : (s.startFirmware bs).pending = s.pending := by
  simp [State.startFirmware]

/-! ### Sections, Chorus groups and windows of the counters -/

@[simp] theorem State.hbmEcc_pending (stack : Nat) (ue : Bool) (scenes : List Nat) :
    (s.hbmEcc stack ue scenes).pending = s.pending := by
  simp [State.hbmEcc]

@[simp] theorem State.rowLinkFault_pending (row : Nat) (scenes : List Nat) :
    (s.rowLinkFault row scenes).pending = s.pending := by
  simp [State.rowLinkFault]

@[simp] theorem State.flipHbm_pending (a : Nat) : (s.flipHbm a).pending = s.pending := by simp [State.flipHbm]

@[simp] theorem State.sectionError_pending (scene : Nat) (s : State) (e : SecError) :
    (s.sectionError scene e).pending = s.pending := by
  unfold State.sectionError
  dsimp only
  repeat' split
  all_goals simp

@[simp] theorem State.beginSection_pending (index scene start tag : Nat) :
    (s.beginSection index scene start tag).pending = s.pending := by
  simp [State.beginSection]

@[simp] theorem State.lineArrives_pending (c : CueSheet) (rowEnd line : Nat) (data : List Byte) :
    (s.lineArrives c rowEnd line data).pending = s.pending := by
  unfold State.lineArrives
  split <;> simp

@[simp] theorem State.requestRange_pending (i step op src offset length : Nat) :
    (s.requestRange i step op src offset length).pending = s.pending := by
  simp [State.requestRange]

@[simp] theorem State.resend_pending (g : ChorusGroup) (f : ChorusFrame) : (s.resend g f).pending = s.pending := by
  simp [State.resend]

@[simp] theorem State.routeStep_pending (f : ChorusFrame) : (s.routeStep f).pending = s.pending := by simp [State.routeStep]

@[simp] theorem State.acceptFrame_pending (i : Nat) (g : ChorusGroup) (f : ChorusFrame) :
    (s.acceptFrame i g f).pending = s.pending := by
  unfold State.acceptFrame
  dsimp only
  split
  · simp
  · split <;> simp

@[simp] theorem State.countCe_pending (ce : Bool) : (s.countCe ce).pending = s.pending := by simp [State.countCe]

@[simp] theorem State.groupFrame_pending (i : Nat) (g : ChorusGroup) (f : ChorusFrame) :
    (s.groupFrame i g f).pending = s.pending := by
  simp [State.groupFrame]

@[simp] theorem State.tellAll_pending (i : Nat) (g : ChorusGroup) (step op extend : Nat) :
    (s.tellAll i g step op extend).pending = s.pending := by
  simp [State.tellAll]

@[simp] theorem State.latchWindow_pending (window off bytes : Nat) :
    (s.latchWindow window off bytes).pending = s.pending := by
  simp [State.latchWindow]

/-! ### Queue pairs and remote transfers -/

@[simp] theorem State.modQp_pending (n : Nat) (f : QueuePair → QueuePair) : (s.modQp n f).pending = s.pending := by
  unfold State.modQp
  split <;> simp

@[simp] theorem State.qpFails_pending (n : Nat) : (s.qpFails n).pending = s.pending := by simp [State.qpFails]

@[simp] theorem State.goBack_pending (n psn : Nat) (rnr : Bool) : (s.goBack n psn rnr).pending = s.pending := by
  unfold State.goBack
  split <;> simp

@[simp] theorem State.acknowledge_pending (n psn : Nat) : (s.acknowledge n psn).pending = s.pending := by simp [State.acknowledge]

@[simp] theorem State.request_pending (n psn : Nat) (x : Sent) : (s.request n psn x).pending = s.pending := by
  simp [State.request]

@[simp] theorem State.readRemote_pending (n addr rkey : Nat) (answered : Bool) (fuel len : Nat) (s : State) :
    (State.readRemote n addr rkey answered fuel len s).pending = s.pending := by
  induction fuel generalizing addr len s with
  | zero => rfl
  | succ fuel ih =>
    unfold State.readRemote
    split
    · rfl
    · cases answered <;> simp [ih]

@[simp] theorem State.remoteRead_pending (n addr rkey len : Nat) (answered : Bool) :
    (s.remoteRead n addr rkey len answered).pending = s.pending := by
  simp [State.remoteRead]

@[simp] theorem State.remoteWrite_pending (n addr rkey : Nat) (data : List Byte) :
    (s.remoteWrite n addr rkey data).pending = s.pending := by
  unfold State.remoteWrite
  split <;> simp

/-! ### Cue sheets, cut-overs and substitutions -/

@[simp] theorem State.fillAreas_pending (s : State) (sheet : CueSheet) (home t : Nat) :
    (s.fillAreas sheet home t).pending = s.pending := by
  refine foldl_pending _ (fun s p => ?_) _ _
  split <;> simp

@[simp] theorem State.fillSums_pending (s : State) (sheet : CueSheet) (home t : Nat) :
    (s.fillSums sheet home t).pending = s.pending := by
  refine foldl_pending _ (fun s p => ?_) _ _
  split
  · split <;> simp
  · rfl

@[simp] theorem State.servingSums_pending (home t : Nat) : (s.servingSums home t).pending = s.pending := by
  unfold State.servingSums
  split <;> simp

@[simp] theorem State.loadImage_pending (sheet : CueSheet) (home t : Nat) :
    (s.loadImage sheet home t).pending = s.pending := by
  simp [State.loadImage]

@[simp] theorem State.activationRun_pending (c : CueSheet) (t : Nat) : (s.activationRun c t).pending = s.pending := by
  simp [State.activationRun]

@[simp] theorem State.markStreamed_pending : s.markStreamed.pending = s.pending := by
  unfold State.markStreamed
  split <;> simp

@[simp] theorem State.endActivation_pending : s.endActivation.pending = s.pending := by simp [State.endActivation]

@[simp] theorem State.activate_pending (s : State) (c : CueSheet) : (s.activate c).pending = s.pending := by
  simp [State.activate]

@[simp] theorem State.deactivate_pending : s.deactivate.pending = s.pending := by simp [State.deactivate]

@[simp] theorem State.setCheck_pending (code tile : Nat) : (s.setCheck code tile).pending = s.pending := by simp [State.setCheck]

@[simp] theorem State.storeSheet_pending (c : CueSheet) : (s.storeSheet c).pending = s.pending := by simp [State.storeSheet]

@[simp] theorem State.noteForm_pending (c : CueSheet) : (s.noteForm c).pending = s.pending := by simp [State.noteForm]

@[simp] theorem State.stopServing_pending (t : Nat) : (s.stopServing t).pending = s.pending := by
  unfold State.stopServing
  split <;> simp

@[simp] theorem State.copyTile_pending (a b : Nat) : (s.copyTile a b).pending = s.pending := by simp [State.copyTile]

@[simp] theorem State.handOver_pending (copy : Bool) (home a b : Nat) : (s.handOver copy home a b).pending = s.pending := by
  unfold State.handOver
  dsimp only
  split
  · simp
  · split <;> simp

@[simp] theorem State.moveLane_pending (home a u : Nat) : (s.moveLane home a u).pending = s.pending := by simp [State.moveLane]

@[simp] theorem State.emptyLane_pending (home u : Nat) : (s.emptyLane home u).pending = s.pending := by simp [State.emptyLane]

@[simp] theorem State.passProgram_pending (c : Cutover) (a u : Nat) : (s.passProgram c a u).pending = s.pending := by
  simp [State.passProgram]

@[simp] theorem State.moveToUnderstudy_pending (c : Cutover) (u : Nat) : (s.moveToUnderstudy c u).pending = s.pending := by
  unfold State.moveToUnderstudy
  dsimp only
  split <;> simp

@[simp] theorem State.moveHome_pending (c : Cutover) : (s.moveHome c).pending = s.pending := by simp [State.moveHome]

@[simp] theorem State.rehearsalCut_pending (c : Cutover) : (s.rehearsalCut c).pending = s.pending := by simp [State.rehearsalCut]

@[simp] theorem State.cutOver_pending (c : Cutover) (u : Nat) : (s.cutOver c u).pending = s.pending := by simp [State.cutOver]

@[simp] theorem State.takeCutover_pending (c : Cutover) : (s.takeCutover c).pending = s.pending := by
  unfold State.takeCutover
  dsimp only
  repeat' split
  all_goals simp

@[simp] theorem State.cutovers_pending : s.cutovers.pending = s.pending := by simp [State.cutovers]

@[simp] theorem State.noteRollCall_pending (t : Nat) : (s.noteRollCall t).pending = s.pending := by simp [State.noteRollCall]

@[simp] theorem State.rollCall_pending : s.rollCall.pending = s.pending := by
  unfold State.rollCall
  dsimp only
  split
  · split <;> simp
  · split <;> simp

/-! ### Ports and host frames -/

@[simp] theorem State.portDown_pending (p : Nat) : (s.portDown p).pending = s.pending := by simp [State.portDown]

@[simp] theorem State.restartLanes_pending (b : Nat) (train : TrainState) :
    (s.restartLanes b train).pending = s.pending := by
  simp [State.restartLanes]

@[simp] theorem State.setMode_pending (b mode : Nat) (an : Bool) : (s.setMode b mode an).pending = s.pending := by
  simp [State.setMode]

@[simp] theorem State.laneDown_pending (lane : Nat) : (s.laneDown lane).pending = s.pending := by
  unfold State.laneDown
  split <;> simp

@[simp] theorem State.modHostRing_pending (rx : Bool) (f : HostRing → HostRing) :
    (s.modHostRing rx f).pending = s.pending := by
  simp [State.modHostRing]

@[simp] theorem State.readDescriptors_pending (rx : Bool) : (s.readDescriptors rx).pending = s.pending := by
  simp [State.readDescriptors]

@[simp] theorem State.handTail_pending (rx : Bool) (value : Nat) (descriptors : List (List Byte)) :
    (s.handTail rx value descriptors).pending = s.pending := by
  simp [State.handTail]

@[simp] theorem State.giveBack_pending (rx : Bool) (bs : List Byte) : (s.giveBack rx bs).pending = s.pending := by
  simp [State.giveBack]

@[simp] theorem State.returnBad_pending (rx : Bool) (ds : List (List Byte)) (s : State) :
    (s.returnBad rx ds).pending = s.pending := by
  induction ds generalizing s with
  | nil => rfl
  | cons d ds ih => simp [State.returnBad, ih]

@[simp] theorem State.dropHostFrame_pending : s.dropHostFrame.pending = s.pending := by simp [State.dropHostFrame]

@[simp] theorem State.storeHostFrame_pending (port timestamp : Nat) (frame : List Byte) :
    (s.storeHostFrame port timestamp frame).pending = s.pending := by
  unfold State.storeHostFrame
  dsimp only
  split <;> simp

@[simp] theorem State.hostFrameIn_pending (port : Nat) (frame : List Byte) :
    (s.hostFrameIn port frame).pending = s.pending := by
  simp [State.hostFrameIn]

@[simp] theorem State.resumeHostFrames_pending : s.resumeHostFrames.pending = s.pending := by simp [State.resumeHostFrames]

/-! ### Productions, seals and recasts -/

@[simp] theorem State.setFail_pending (code index : Nat) : (s.setFail code index).pending = s.pending := by simp [State.setFail]

theorem State.takeCopyFrames_pending {s s' : State} {n : Nat} {fs : List Nat} (h : s.takeCopyFrames n = some (fs, s')) :
    s'.pending = s.pending := by
  unfold State.takeCopyFrames at h
  dsimp only at h
  split at h
  · cases h
    simp
  · cases h

@[simp] theorem State.freeCopy_pending (c : Copy) : (s.freeCopy c).pending = s.pending := by simp [State.freeCopy]

@[simp] theorem State.runProgrammed_pending (t : Nat) : (s.runProgrammed t).pending = s.pending := by
  unfold State.runProgrammed
  split <;> simp

@[simp] theorem State.settleRuns_pending : s.settleRuns.pending = s.pending := by simp [State.settleRuns]

@[simp] theorem State.sealServes_pending (r : SealRun) : (s.sealServes r).pending = s.pending := by
  unfold State.sealServes
  split <;> simp

@[simp] theorem State.endSeal_pending : s.endSeal.pending = s.pending := by
  unfold State.endSeal
  split <;> simp

@[simp] theorem State.proceed_pending : s.proceed.pending = s.pending := by simp [State.proceed]

@[simp] theorem State.storeSegment_pending (c : Copy) (seg : Nat) (groups : List (List Byte)) :
    (s.storeSegment c seg groups).pending = s.pending := by
  simp [State.storeSegment]

@[simp] theorem State.zeroSegment_pending (c : Copy) (seg : Nat) : (s.zeroSegment c seg).pending = s.pending := by
  simp [State.zeroSegment]

@[simp] theorem State.segmentFails_pending (c : Copy) (seg : Nat) (a : Arrived) :
    (s.segmentFails c seg a).pending = s.pending := by
  simp [State.segmentFails]

@[simp] theorem FetchRun.take_pending (r : FetchRun) (x : SegArrival) : (r.take x).state.pending = r.state.pending := by
  unfold FetchRun.take
  split
  · rfl
  · dsimp only
    split
    · rfl
    · split <;> simp

@[simp] theorem State.copyComplete_pending : s.copyComplete.pending = s.pending := by
  unfold State.copyComplete
  dsimp only
  repeat' split
  all_goals simp

@[simp] theorem State.firstRunDone_pending (t : Nat) : (s.firstRunDone t).pending = s.pending := by simp [State.firstRunDone]

@[simp] theorem State.runDone_pending (t : Nat) : (s.runDone t).pending = s.pending := by simp [State.runDone]

@[simp] theorem State.endCalArray_pending (t : Nat) : (s.endCalArray t).pending = s.pending := by
  unfold State.endCalArray
  split
  · rfl
  · split <;> simp

@[simp] theorem State.clearUnused_pending (s : State) (sheet : CueSheet) : (s.clearUnused sheet).pending = s.pending := by
  refine foldl_pending _ (fun s k => ?_) _ _
  split <;> simp

@[simp] theorem State.startProgramming_pending : s.startProgramming.pending = s.pending := by
  unfold State.startProgramming
  split <;> simp

@[simp] theorem State.acceptRolling_pending (c : Copy) (budget : Nat) (r : Recast) (old : Option Copy) :
    (s.acceptRolling c budget r old).pending = s.pending := by
  simp [State.acceptRolling]

@[simp] theorem State.refillSums_pending (sheet : CueSheet) : (s.refillSums sheet).pending = s.pending := by
  simp [State.refillSums]

@[simp] theorem State.switchEpoch_pending (r : Recast) : (s.switchEpoch r).pending = s.pending := by
  unfold State.switchEpoch
  dsimp only
  split <;> simp

@[simp] theorem State.layerNew_pending (s : State) (r : Recast) (layer : Nat) : (s.layerNew r layer).pending = s.pending := by
  unfold State.layerNew
  split
  · rfl
  · refine foldl_pending _ (fun s p => ?_) _ _
    dsimp only
    split <;> simp

@[simp] theorem State.nextLayer_pending (r : Recast) : (s.nextLayer r).pending = s.pending := by
  unfold State.nextLayer
  split <;> simp

@[simp] theorem State.pointerSwitch_pending : s.pointerSwitch.pending = s.pending := by
  unfold State.pointerSwitch
  dsimp only
  repeat' split
  all_goals simp

@[simp] theorem State.releaseOld_pending : s.releaseOld.pending = s.pending := by
  unfold State.releaseOld
  split <;> simp

@[simp] theorem State.wearTouch_pending (t a : Nat) : (s.wearTouch t a).pending = s.pending := by simp [State.wearTouch]

@[simp] theorem State.verifyArray_pending (t a : Nat) (reads : List Nat) :
    (s.verifyArray t a reads).pending = s.pending := by
  unfold State.verifyArray
  split <;> simp

/-! ### Rehearsals -/

@[simp] theorem State.rehearsalFence_pending (t : Nat) (job : Option Nat) :
    (s.rehearsalFence t job).pending = s.pending := by
  unfold State.rehearsalFence
  dsimp only
  repeat' split
  all_goals simp

@[simp] theorem State.startRehearsal_pending (t : Nat) (job : Option Nat) :
    (s.startRehearsal t job).pending = s.pending := by
  simp [State.startRehearsal]

@[simp] theorem State.rehearsalPass_pending (s : State) (r : Rehearsal) : (s.rehearsalPass r).pending = s.pending := by
  simp [State.rehearsalPass]

@[simp] theorem State.rehearsalFail_pending (r : Rehearsal) (result first set : Nat) :
    (s.rehearsalFail r result first set).pending = s.pending := by
  simp [State.rehearsalFail]

@[simp] theorem State.mctpControl_pending (code : Nat) (data : List Byte) :
    (s.mctpControl code data).pending = s.pending := by
  simp [State.mctpControl]

/-! ### Prefixes and scenes -/

@[simp] theorem chained_pending (fs : List Nat) (s : State) : (chained fs s).pending = s.pending := by simp [chained]

@[simp] theorem State.mapSlots_pending (e : Nat) (xs : List (Nat × Nat × Nat)) (fs : List Nat) :
    (s.mapSlots e xs fs).pending = s.pending := by
  simp [State.mapSlots]

@[simp] theorem State.takeMap_pending (e : Nat) : (s.takeMap e).pending = s.pending := by
  unfold State.takeMap
  split <;> simp

@[simp] theorem State.reserveSlots_pending (e : Nat) (slots : List (Nat × Nat × Nat)) (draws : Bool) :
    (s.reserveSlots e slots draws).2.pending = s.pending := by
  unfold State.reserveSlots
  dsimp only
  repeat' split
  all_goals simp

@[simp] theorem State.reserve_pending (e pos n : Nat) : (s.reserve e pos n).2.pending = s.pending := by simp [State.reserve]

@[simp] theorem State.matched_pending (s : State) (hashes : List (Nat × Nat)) : (s.matched hashes).2.pending = s.pending := by
  unfold State.matched
  refine List.foldlRecOn (motive := fun (a : List (Nat × Nat) × Bool × State) => a.2.2.pending = s.pending) _ _ rfl ?_
  intro a ha x _
  split
  · exact ha
  · have looked := State.lookupEntry_pending a.2.2 (hashes.getD x (0, 0))
    split
    all_goals
      next q =>
        rw [q] at looked
        exact looked.trans ha

@[simp] theorem State.copyWindow_pending (s : State) (e n : Nat) (frames : List Nat) :
    (s.copyWindow e n frames).pending = s.pending := by
  refine foldl_pending _ (fun s p => ?_) _ _
  dsimp only
  split <;> simp

@[simp] theorem State.reserveRings_pending (e : Nat) : (s.reserveRings e).2.pending = s.pending := by
  unfold State.reserveRings
  dsimp only
  split <;> simp

@[simp] theorem State.takeHit_pending (e n : Nat) (hits : List (Nat × Nat)) : (s.takeHit e n hits).pending = s.pending := by
  simp [State.takeHit]

@[simp] theorem State.lookup_pending (e blocks : Nat) : (s.lookup e blocks).pending = s.pending := by
  unfold State.lookup
  dsimp only
  repeat' split
  all_goals simp

@[simp] theorem State.windowSet_pending (s : State) (e n index epoch : Nat) :
    (s.windowSet e n index epoch).2.pending = s.pending := by
  unfold State.windowSet
  dsimp only
  split
  · simp
  · split
    · rw [chained_pending]
      refine (foldl_pending _ (fun s p => ?_) _ _).trans (by simp)
      split <;> simp
    · simp

@[simp] theorem State.registerBlock_pending (e n : Nat) (hashes : List (Nat × Nat)) :
    (s.registerBlock e n hashes).pending = s.pending := by
  unfold State.registerBlock
  dsimp only
  repeat' split
  all_goals simp

@[simp] theorem State.registerSeq_pending (e before after : Nat) : (s.registerSeq e before after).pending = s.pending := by
  unfold State.registerSeq
  split <;> simp

@[simp] theorem State.resumeFrames_pending (s : State) (e : Nat) : (s.resumeFrames e).2.pending = s.pending := by
  unfold State.resumeFrames
  split
  · rfl
  · next q _ =>
    dsimp only
    have reserved := State.reserveSlots_pending ((s.setSeq e { q with hitDepth := 0, starved := false }).lookup e q.hitDepth) e
      (q.fetched.map (fun p => p.1)) true
    split
    · next k =>
      rw [k] at reserved
      simpa using reserved
    · simp

@[simp] theorem State.serveWaiting_pending (s : State) : s.serveWaiting.pending = s.pending := by
  unfold State.serveWaiting
  refine List.foldlRecOn (motive := fun (a : Bool × State) => a.2.pending = s.pending) _ _ rfl ?_
  intro a ha x _
  split
  · exact ha
  · split
    · next w _ =>
      have reserved := State.reserve_pending a.2 x.2.1 w.1 w.2
      split
      all_goals
        next k =>
          rw [k] at reserved
          simpa using reserved.trans ha
    · simpa using ha

@[simp] theorem State.startScene_pending (v : Nat × Variant) (start : Nat) (ms : List Member) (positions : Nat) :
    (s.startScene v start ms positions).pending = s.pending := by
  simp [State.startScene]

@[simp] theorem State.failMember_pending (source : Nat) (s : State) (m : Member) :
    (s.failMember source m).pending = s.pending := by
  unfold State.failMember
  split <;> simp

@[simp] theorem State.settleLost_pending : s.settleLost.pending = s.pending := by simp [State.settleLost]

@[simp] theorem State.freeLost_pending : s.freeLost.pending = s.pending := by simp [State.freeLost]

@[simp] theorem State.stepFailure_pending (c : Option Scene) : (s.stepFailure c).pending = s.pending := by
  unfold State.stepFailure
  dsimp only
  split
  · split <;> simp
  · simp

@[simp] theorem State.stepCancel_pending : s.stepCancel.pending = s.pending := by simp [State.stepCancel]

@[simp] theorem State.stepAppend_pending : s.stepAppend.pending = s.pending := by simp [State.stepAppend]

@[simp] theorem State.deliverTokens_pending (e : Nat) (q : Seq) (ds : List Delivered) (reason : Nat) (heads : List (List Nat)) :
    (s.deliverTokens e q ds reason heads).pending = s.pending := by
  simp [State.deliverTokens]

@[simp] theorem State.commitChunk_pending (c : Scene) (base e : Nat) (q : Seq) (first stop : Nat) :
    (s.commitChunk c base e q first stop).pending = s.pending := by
  simp [State.commitChunk]

@[simp] theorem State.commitPath_pending (c : Scene) (base e : Nat) (q : Seq) (kept : List Nat) :
    (s.commitPath c base e q kept).pending = s.pending := by
  simp [State.commitPath]

@[simp] theorem State.commitMember_pending (c : Scene) (base : Nat) (m : Member) :
    (s.commitMember c base m).pending = s.pending := by
  unfold State.commitMember
  split
  · rfl
  · split <;> simp

@[simp] theorem State.checkAccepted_pending (s : State) (c : Scene) : (s.checkAccepted c).pending = s.pending := by
  unfold State.checkAccepted
  split
  · rfl
  · refine (foldl_pending _ (fun s b => ?_) _ _).trans ?_
    · split
      · rfl
      · rfl
      · dsimp only
        split <;> simp
    · split <;> simp

@[simp] theorem State.stepCommit_pending (c : Scene) : (s.stepCommit c).pending = s.pending := by simp [State.stepCommit]

@[simp] theorem State.releaseFinished_pending (e : Nat) : (s.releaseFinished e).pending = s.pending := by
  unfold State.releaseFinished
  split <;> simp

@[simp] theorem State.beginPause_pending (e : Nat) : (s.beginPause e).pending = s.pending := by
  unfold State.beginPause
  split <;> simp

@[simp] theorem State.stepSnapshot_pending (count : Nat) : (s.stepSnapshot count).pending = s.pending := by
  simp [State.stepSnapshot]

@[simp] theorem State.stepCount_pending (s : State) (ms : List Member) : (s.stepCount ms).pending = s.pending := by
  unfold State.stepCount
  extract_lets _ served hits _ noted
  have serves : served.pending = s.pending := foldl_pending _ (fun s m => by split <;> simp) _ _
  simp [noted, hits, serves]

@[simp] theorem State.unlessStopped_pending (s : State) (f : State → State) (h : ∀ u, (f u).pending = u.pending) :
    (s.unlessStopped f).pending = s.pending := by
  simp [State.unlessStopped, h]

@[simp] theorem State.changeSteps_pending (c : Option Scene) : (s.changeSteps c).pending = s.pending := by
  unfold State.changeSteps
  split <;> simp

@[simp] theorem State.afterChange_pending : s.afterChange.pending = s.pending := by
  unfold State.afterChange
  split
  · rfl
  · split <;> simp

@[simp] theorem State.leaveFabric_pending (scene : Nat) : (s.leaveFabric scene).pending = s.pending := by simp [State.leaveFabric]

@[simp] theorem State.endScene_pending (c : Scene) : (s.endScene c).pending = s.pending := by
  unfold State.endScene
  dsimp only
  split <;> simp

/-! ### Host accesses and the function -/

@[simp] theorem State.returnData_pending (v : Nat) : (s.returnData v).pending = s.pending := by simp [State.returnData]

@[simp] theorem State.countPattern_pending (o : Nat) : (s.countPattern o).pending = s.pending := by simp [State.countPattern]

@[simp] theorem State.deliverPending_pending : s.deliverPending.pending = s.pending := by simp [State.deliverPending]

@[simp] theorem State.windowWrite_pending (o v : Nat) : (s.windowWrite o v).pending = s.pending := by simp [State.windowWrite]

@[simp] theorem State.writeWord_pending (offset v : Nat) : (s.writeWord offset v).pending = s.pending := by simp [State.writeWord]

@[simp] theorem State.hbmPut_pending (a : Nat) (b : Byte) : (s.hbmPut a b).pending = s.pending := by
  unfold State.hbmPut
  dsimp only
  repeat' split
  all_goals simp

@[simp] theorem State.bar2Put_pending (a : Nat) (b : Byte) : (s.bar2Put a b).pending = s.pending := by simp [State.bar2Put]

@[simp] theorem State.bar2Write_pending (s : State) (a : Nat) (bs : List Byte) : (s.bar2Write a bs).pending = s.pending := by
  induction bs generalizing s a with
  | nil => rfl
  | cons b bs ih => exact (ih _ _).trans (State.bar2Put_pending ..)

@[simp] theorem State.bar2Read_pending (s : State) (a n : Nat) : (s.bar2Read a n).1.pending = s.pending := by
  induction n generalizing s a with
  | zero => rfl
  | succ n ih => simp [State.bar2Read, ih, apply_ite Prod.fst]

@[simp] theorem State.resumeRequests_pending : s.resumeRequests.pending = s.pending := by simp [State.resumeRequests]

/-! ### Sequences -/

@[simp] theorem State.enterSeq_pending (i tag : Nat) (b : List Byte) (tokens : List Nat) :
    (s.enterSeq i tag b tokens).pending = s.pending := by
  simp [State.enterSeq]

@[simp] theorem State.beginResume_pending (e : Nat) (q : Seq) (im : Image) : (s.beginResume e q im).pending = s.pending := by
  simp [State.beginResume]

@[simp] theorem State.resumeSeq_pending (i : Nat) (ring : Option Nat) (im : Image) :
    (s.resumeSeq i ring im).pending = s.pending := by
  unfold State.resumeSeq
  split <;> simp

@[simp] theorem State.vacate_pending (i : Nat) : (s.vacate i).pending = s.pending := by simp [State.vacate]

@[simp] theorem State.carryOut_pending (r : Relay) : (s.carryOut r).pending = s.pending := by
  unfold State.carryOut
  split <;> simp

@[simp] theorem State.accept_pending (r : Relay) : (s.accept r).pending = s.pending := by simp [State.accept]

@[simp] theorem State.placeRecord_pending (e : Nat) (p : (Nat × Nat × Nat) × List Byte) :
    (s.placeRecord e p).pending = s.pending := by
  unfold State.placeRecord
  split <;> simp

@[simp] theorem State.landPage_pending (e : Nat) (x : Nat × Nat × Nat) : (s.landPage e x).pending = s.pending := by
  unfold State.landPage
  split <;> simp

@[simp] theorem State.startSent_pending (c : CueSheet) : (s.startSent c).pending = s.pending := by
  unfold State.startSent
  dsimp only
  split
  · rfl
  · split <;> simp

/-! ### Resets -/

@[simp] theorem State.holdFlash_pending (boot : List Byte) : (s.holdFlash boot).pending = s.pending := by simp [State.holdFlash]

@[simp] theorem State.rom_pending (selfTestOk identityOk : Bool) (boot : List Byte) :
    (s.rom selfTestOk identityOk boot).pending = s.pending := by
  simp [State.rom]

@[simp] theorem State.full_pending (chip : Bool) : (s.full chip).pending = s.pending := by simp [State.full]

@[simp] theorem State.functionReset_pending : s.functionReset.pending = s.pending := by simp [State.functionReset]

@[simp] theorem State.chipReset_pending (selfTestOk identityOk : Bool) (boot : List Byte) :
    (s.chipReset selfTestOk identityOk boot).pending = s.pending := by
  simp [State.chipReset]

@[simp] theorem State.resetTile_pending (kind t : Nat) : (s.resetTile kind t).pending = s.pending := by
  unfold State.resetTile
  dsimp only
  split <;> simp

@[simp] theorem State.resetPortDie_pending (d : Nat) : (s.resetPortDie d).pending = s.pending := by simp [State.resetPortDie]

@[simp] theorem State.loseCopies_pending : s.loseCopies.pending = s.pending := by
  unfold State.loseCopies
  split <;> simp

@[simp] theorem State.resetStack_pending (k : Nat) : (s.resetStack k).pending = s.pending := by simp [State.resetStack]

@[simp] theorem State.blockReset_pending (kind index : Nat) : (s.blockReset kind index).pending = s.pending := by
  unfold State.blockReset
  split <;> simp

@[simp] theorem State.restoreArrInfo_pending (t a : Nat) : (s.restoreArrInfo t a).pending = s.pending := by
  unfold State.restoreArrInfo
  dsimp only
  split <;> simp

@[simp] theorem State.saveTrims_pending (t : Nat) : (s.saveTrims t).pending = s.pending := by simp [State.saveTrims]

@[simp] theorem State.endTileReset_pending (s : State) (t : Nat) (digests : Map (List Nat)) :
    (s.endTileReset t digests).pending = s.pending := by
  unfold State.endTileReset
  extract_lets u v w x
  have governed : w.pending = v.pending := foldl_pending _ (fun s a => by split <;> simp) _ _
  simp [x, governed, v, u]

/-! ### RDMA packets -/

@[simp] theorem State.stagingWrite_pending (a : Nat) (bs : List Byte) : (s.stagingWrite a bs).pending = s.pending := by
  simp [State.stagingWrite]

@[simp] theorem State.stagingRead_pending (a n : Nat) : (s.stagingRead a n).pending = s.pending := by simp [State.stagingRead]

@[simp] theorem State.markCnp_pending (n : Nat) (q : QueuePair) : (s.markCnp n q).pending = s.pending := by simp [State.markCnp]

@[simp] theorem State.takeRequest_pending (n packets : Nat) : (s.takeRequest n packets).pending = s.pending := by
  simp [State.takeRequest]

@[simp] theorem State.readPacket_pending (n : Nat) (q : QueuePair) (psn addr : Nat) (s : State)
    (p : Nat × PacketPart × List Byte) :
    (s.readPacket n q psn addr p).pending = s.pending := by
  simp [State.readPacket]

@[simp] theorem State.answerRead_pending (n : Nat) (q : QueuePair) (psn addr len : Nat) :
    (s.answerRead n q psn addr len).pending = s.pending := by
  simp [State.answerRead]

@[simp] theorem State.landRecord_pending (offset f : Nat) : (s.landRecord offset f).pending = s.pending := by
  simp [State.landRecord]

@[simp] theorem State.takePages_pending (qp layout offset : Nat) (pages : List (Nat × Nat × Nat)) :
    (s.takePages qp layout offset pages).pending = s.pending := by
  unfold State.takePages
  split <;> simp

@[simp] theorem State.refuse_pending (n code : Nat) : (s.refuse n code).pending = s.pending := by simp [State.refuse]

@[simp] theorem State.takeWrite_pending (n : Nat) (q : QueuePair) (psn : Nat) (part : PacketPart) (addr len rkey : Nat)
    (data : List Byte) :
    (s.takeWrite n q psn part addr len rkey data).pending = s.pending := by
  unfold State.takeWrite
  dsimp only
  split <;> simp

@[simp] theorem State.takeSend_pending (n : Nat) (q : QueuePair) (psn : Nat) (part : PacketPart) (data : List Byte)
    (pageSet : Option (Nat × Nat × List (Nat × Nat × Nat))) :
    (s.takeSend n q psn part data pageSet).pending = s.pending := by
  unfold State.takeSend
  dsimp only
  split
  · simp
  · split <;> simp

@[simp] theorem State.takeRead_pending (n : Nat) (q : QueuePair) (psn addr len rkey : Nat) :
    (s.takeRead n q psn addr len rkey).pending = s.pending := by
  simp [State.takeRead]

theorem State.onRequest_pending (s : State) (n : Nat) (q : QueuePair) (psn : Nat) (take repeat_ : State → State)
    (taken : (take s).pending = s.pending) (repeated : (repeat_ s).pending = s.pending) :
    (s.onRequest n q psn take repeat_).pending = s.pending := by
  simp [State.onRequest, taken, repeated]

@[simp] theorem State.onPacket_pending (s : State) (n : Nat) (q : QueuePair) (ce : Bool) (packet : RocePacket) :
    (s.onPacket n q ce packet).pending = s.pending := by
  cases packet <;> simp [State.onPacket, State.onRequest_pending]

/-! ### The timeline -/

@[simp] theorem State.formatHold_pending (m : Mvm) : (s.formatHold m).pending = s.pending := by simp [State.formatHold]

@[simp] theorem State.beginMvm_pending (t : Nat) (m : Mvm) (input : PhaseIn) :
    (s.beginMvm t m input).pending = s.pending := by
  simp [State.beginMvm]

@[simp] theorem State.startSlot_pending (c : CueSheet) (t index scene : Nat) (input : PhaseIn) :
    (s.startSlot c t index scene input).pending = s.pending := by
  unfold State.startSlot
  dsimp only
  repeat' split
  all_goals simp

@[simp] theorem State.startExcess_pending (c : CueSheet) (t : Nat) (input : PhaseIn) :
    (s.startExcess c t input).pending = s.pending := by
  unfold State.startExcess
  split
  · rfl
  · split <;> simp

@[simp] theorem State.nextWindow_pending (t : Nat) (m : Mvm) (input : PhaseIn) :
    (s.nextWindow t m input).pending = s.pending := by
  simp [State.nextWindow]

@[simp] theorem State.powerDownFl_pending (t : Nat) : (s.powerDownFl t).pending = s.pending := by
  unfold State.powerDownFl
  dsimp only
  split <;> simp

@[simp] theorem State.endStatWindow_pending (t : Nat) (w : Int × Nat × Nat) : (s.endStatWindow t w).pending = s.pending := by
  simp [State.endStatWindow]

@[simp] theorem State.runSlot_pending (t at_ : Nat) (windows : List CalWindow) :
    (s.runSlot t at_ windows).pending = s.pending := by
  unfold State.runSlot
  dsimp only
  split <;> simp

end

end Sys2Proof.Machine
end

section
/-!
SUPPORT. The queue through a mailbox command: the checks of its entry (R390) leave it alone, and so do the ways in which its rules may
end. What a command does between is its own.
-/
namespace Sys2Proof.Machine

/-- A state whose queue is that of another one. -/
@[simp] def State.LeavesQueue (s t : State) : Prop := t.pending = s.pending

/-- What the checks of an entry leave, whether one fails or the command begins, has the queue as it was. -/
def Begin.LeavesQueue (s : State) : Begin → Prop
  | .waits => True
  | .rejected t => t.pending = s.pending
  | .runs t => t.pending = s.pending

theorem mbxBegin_leavesQueue (e : Entry) (s : State) : (mbxBegin e s).LeavesQueue s := by
  unfold mbxBegin
  dsimp only
  repeat' split
  all_goals simp [Begin.LeavesQueue]

@[simp] theorem done_pending (s : State) (st : Status) (res : List Byte) : (done s st res).1.pending = s.pending := by
  rw [done]

@[simp] theorem later_pending (s : State) : (later s).1.pending = s.pending := by
  rw [later]

@[simp] theorem ite_result_pending {α : Type} {c : Prop} [Decidable c] (a b : State × α) :
    (if c then a else b).1.pending = if c then a.1.pending else b.1.pending := by
  split <;> rfl

/-- Either branch of a choice in a command's rules. -/
theorem branch_pending {α : Type} {c : Prop} [Decidable c] {a b : State × α} {q : List Instr} (ha : a.1.pending = q)
    (hb : b.1.pending = q) : (if c then a else b).1.pending = q := by
  rw [ite_result_pending, ha, hb, ite_self]

/-- A mailbox command leaves the queue where its own rules do. -/
theorem runCmd_leavesQueue {e : Entry} {op : Nat} {pcie : Bool} {body : Body} {s : State}
    (leaves : ∀ u : State, (body u).1.pending = u.pending) : Answers s.LeavesQueue (runCmd e op pcie body s) := by
  have begins := mbxBegin_leavesQueue e s
  refine answers_runCmd rfl (fun t r => ?_) fun u r => ?_
  · rw [r] at begins
    exact begins
  · rw [r] at begins
    exact (runBody_pending e body u).trans ((leaves u).trans begins)

/-- A link command leaves the queue where its own rules do. -/
theorem linkCmd_leavesQueue {e : Entry} {sub : Nat} {body : Body} {s : State}
    (leaves : ∀ u : State, (body u).1.pending = u.pending) : Answers s.LeavesQueue (linkCmd e sub body s) :=
  answers_unless rfl (runCmd_leavesQueue leaves)

section
variable {s : State}

@[simp] theorem withDma_pending {α : Type} {x : Option α} {k : α → State × Option (Status × List Byte)}
    (leaves : ∀ v, (k v).1.pending = s.pending) : (withDma x s k).1.pending = s.pending := by
  unfold withDma
  split
  · exact leaves _
  · simp

@[simp] theorem withBuffer_pending {α : Type} {qp addr rkey len : Nat} {x : Option α}
    {k : State → α → State × Option (Status × List Byte)} (leaves : ∀ u v, (k u v).1.pending = u.pending) :
    (withBuffer qp addr rkey len x s k).1.pending = s.pending := by
  cases x <;> simp [withBuffer, leaves]

@[simp] theorem withTransfer_pending {α : Type} {e : Entry} {at_ len : Nat} {x : Option α}
    {k : State → α → State × Option (Status × List Byte)} (leaves : ∀ u v, (k u v).1.pending = u.pending) :
    (withTransfer e at_ len x s k).1.pending = s.pending :=
  withBuffer_pending leaves

@[simp] theorem withTokens_pending {qp addr rkey n : Nat} {tokens : List Nat} {k : State → State × Option (Status × List Byte)}
    (leaves : ∀ u, (k u).1.pending = u.pending) : (withTokens qp addr rkey n tokens s k).1.pending = s.pending := by
  simp [withTokens, leaves]

@[simp] theorem seqCommand_pending {e : Entry} {k : Seq → State × Option (Status × List Byte)}
    (leaves : ∀ q, (k q).1.pending = s.pending) : (seqCommand e s k).1.pending = s.pending := by
  cases found : s.seq? e.seqIndex <;> simp [seqCommand, found, leaves]

@[simp] theorem tuneChecks_pending {e : Entry} {mv : Nat} {go : State × Option (Status × List Byte)}
    (leaves : go.1.pending = s.pending) : (tuneChecks e s mv go).1.pending = s.pending := by
  simp [tuneChecks, leaves]

end

end Sys2Proof.Machine
end

section
/-!
SUPPORT. The queue through each command, by the shared operations that its rules are made of.
-/
namespace Sys2Proof.Machine

/-! ### Operations of one command -/

@[simp] theorem importRecord_pending (a : Importing) (t : Nat) (r : List Byte) :
    (importRecord a t r).1.pending = a.1.pending := by
  unfold importRecord
  split <;> simp

@[simp] theorem Blocked.cycle_pending (t : Nat) (b : Blocked) (j : Nat) : (b.cycle t j).state.pending = b.state.pending := by
  unfold Blocked.cycle
  extract_lets f held past u
  split
  · exact (State.bubble_pending _).trans (State.stageCycle_pending _)
  · exact State.stageCycle_pending _

@[simp] theorem Forming.offer_pending (f : Forming) (limit cap share : Nat) (m : Member) (pos : Nat) :
    (f.offer limit cap share m pos).st.pending = f.st.pending := by
  have reserved : (if f.st.waits m.entry pos m.nodes then (false, f.st) else f.st.reserve m.entry pos m.nodes).2.pending =
      f.st.pending := by
    split
    · rfl
    · exact State.reserve_pending ..
  unfold Forming.offer
  split
  · rfl
  · split
    all_goals
      next q =>
        rw [q] at reserved
        simpa using reserved

@[simp] theorem State.choose_pending (s : State) (limit cap : Nat) : (s.choose limit cap).st.pending = s.pending := by
  unfold State.choose
  extract_lets u f share
  refine (foldl_view (fun f : Forming => f.st.pending) _ (fun _ _ => Forming.offer_pending ..) _ _).trans ?_
  exact (foldl_view (fun f : Forming => f.st.pending) _ (fun _ _ => Forming.offer_pending ..) _ _).trans s.serveWaiting_pending

@[simp] theorem State.chooseFor_pending (s : State) (c : CueSheet) (big : Variant) :
    (s.chooseFor c big).st.pending = s.pending := by
  unfold State.chooseFor
  dsimp only
  split <;> simp

@[simp] theorem State.abortOpen_pending (s : State) (c : Copy) : (s.abortOpen c).1.pending = s.pending := by
  unfold State.abortOpen
  split <;> simp

section
variable {s : State} {e : Entry}

/-- A transfer's segments leave the queue as they are taken (R295, R296). -/
theorem fetchRange_pending (remote : Bool) (arrived : Option (List SegArrival)) :
    (fetchRange e remote arrived s).1.pending = s.pending := by
  have taken : ∀ (xs : List SegArrival) (r : FetchRun), (xs.foldl FetchRun.take r).state.pending = r.state.pending := fun xs r =>
    foldl_view (fun r : FetchRun => r.state.pending) _ FetchRun.take_pending xs r
  unfold fetchRange
  dsimp only
  split
  · refine branch_pending (done_pending ..) (branch_pending (done_pending ..) ?_)
    split
    · refine withTransfer_pending fun u xs => ?_
      split <;> simp [taken]
    · refine withDma_pending fun xs => ?_
      dsimp only
      split <;> simp [taken]
  · simp

@[simp] theorem State.resumeImage_pending (image : Option Image) : (s.resumeImage e image).1.pending = s.pending := by
  unfold State.resumeImage
  refine branch_pending (done_pending ..) (branch_pending (done_pending ..) (branch_pending (done_pending ..) ?_))
  refine withTransfer_pending fun u im => branch_pending (done_pending ..) ?_
  split
  · simp
  · split <;> simp

/-! ### Mailbox, power, links and faults -/

theorem execEcho_leavesQueue : Answers s.LeavesQueue (execEcho e s) := runCmd_leavesQueue fun u => by simp

theorem execQueryInfo_leavesQueue : Answers s.LeavesQueue (execQueryInfo e s) := runCmd_leavesQueue fun u => by simp

theorem execUnsupportedOpcode_leavesQueue : Answers s.LeavesQueue (execUnsupportedOpcode e s) := by
  unfold execUnsupportedOpcode
  have begins := mbxBegin_leavesQueue e s
  refine answers_present ?_
  split
  · next r =>
    rw [r] at begins
    exact (answers_next ..).2 begins
  · simp

theorem execCapSet_leavesQueue : Answers s.LeavesQueue (execCapSet e s) := runCmd_leavesQueue fun u => by simp

theorem execThermalSet_leavesQueue : Answers s.LeavesQueue (execThermalSet e s) := runCmd_leavesQueue fun u => by simp

theorem execUnitTuneTrim_leavesQueue : Answers s.LeavesQueue (execUnitTuneTrim e s) :=
  answers_unless rfl (runCmd_leavesQueue fun u => by simp)

theorem execUnitTuneStep_leavesQueue : Answers s.LeavesQueue (execUnitTuneStep e s) :=
  answers_unless rfl (runCmd_leavesQueue fun u => by simp)

theorem execPlaybill_leavesQueue : Answers s.LeavesQueue (execPlaybill e s) := runCmd_leavesQueue fun u => by simp

theorem execPatternInstall_leavesQueue {pack : Dma} : Answers s.LeavesQueue (execPatternInstall e pack s) :=
  runCmd_leavesQueue fun u => by simp

theorem execCounterSnapshot_leavesQueue : Answers s.LeavesQueue (execCounterSnapshot e s) := runCmd_leavesQueue fun u => by simp

theorem execLedgerRead_leavesQueue : Answers s.LeavesQueue (execLedgerRead e s) := runCmd_leavesQueue fun u => by simp

theorem execFaultPolicySet_leavesQueue : Answers s.LeavesQueue (execFaultPolicySet e s) := runCmd_leavesQueue fun u => by simp

theorem execPortMode_leavesQueue : Answers s.LeavesQueue (execPortMode e s) :=
  answers_unless rfl (runCmd_leavesQueue fun u => by simp)

theorem execPortAddr_leavesQueue : Answers s.LeavesQueue (execPortAddr e s) := linkCmd_leavesQueue fun u => by simp

theorem execHostRing_leavesQueue : Answers s.LeavesQueue (execHostRing e s) := linkCmd_leavesQueue fun u => by simp

theorem execQpEstablish_leavesQueue : Answers s.LeavesQueue (execQpEstablish e s) := linkCmd_leavesQueue fun u => by simp

theorem execQpDestroy_leavesQueue : Answers s.LeavesQueue (execQpDestroy e s) := linkCmd_leavesQueue fun u => by simp

theorem execChorusGroupSet_leavesQueue {records : Dma} : Answers s.LeavesQueue (execChorusGroupSet e records s) :=
  runCmd_leavesQueue fun u => by simp

/-! ### Calibration and the tiles -/

theorem execCalRun_leavesQueue : Answers s.LeavesQueue (execCalRun e s) := runCmd_leavesQueue fun u => by simp

theorem execCalExport_leavesQueue : Answers s.LeavesQueue (execCalExport e s) := runCmd_leavesQueue fun u => by simp

theorem execCalImport_leavesQueue {records : Dma} : Answers s.LeavesQueue (execCalImport e records s) :=
  runCmd_leavesQueue fun u => by
    refine branch_pending (withDma_pending fun bs => ?_) (done_pending ..)
    have imported : ((List.range (e.op 10 2)).foldl (fun (a : Importing) i =>
        importRecord a (e.op 8 2 + i) (sliceBytes bs (calRecordBytes * i) calRecordBytes)) (u, 0, none)).1.pending = u.pending :=
      foldl_view (fun a : Importing => a.1.pending) _ (fun _ _ => importRecord_pending ..) _ _
    dsimp only
    split <;> simp [imported]

theorem execTileFence_leavesQueue : Answers s.LeavesQueue (execTileFence e s) :=
  runCmd_leavesQueue fun u => by
    dsimp only
    repeat' split
    all_goals simp

theorem execTileRestore_leavesQueue : Answers s.LeavesQueue (execTileRestore e s) := runCmd_leavesQueue fun u => by simp

theorem execRehearse_leavesQueue : Answers s.LeavesQueue (execRehearse e s) :=
  answers_unless rfl (runCmd_leavesQueue fun u => by
    dsimp only
    repeat' split
    all_goals simp)

theorem execRehearseRotation_leavesQueue : Answers s.LeavesQueue (execRehearseRotation e s) :=
  answers_unless rfl (runCmd_leavesQueue fun u => by simp)

/-! ### Cue sheets -/

theorem execCuesheetLoad_leavesQueue {sheet : Option SheetIn} : Answers s.LeavesQueue (execCuesheetLoad e sheet s) :=
  runCmd_leavesQueue fun u => by
    refine branch_pending (done_pending ..) (branch_pending (done_pending ..) (withTransfer_pending fun v x => ?_))
    dsimp only
    split <;> simp

theorem execCuesheetActivate_leavesQueue : Answers s.LeavesQueue (execCuesheetActivate e s) :=
  runCmd_leavesQueue fun u => by
    dsimp only
    repeat' split
    all_goals simp

/-! ### Productions -/

theorem execProductionOpen_leavesQueue {m : Option ManifestIn} : Answers s.LeavesQueue (execProductionOpen e m s) :=
  runCmd_leavesQueue fun u => by
    refine branch_pending (done_pending ..) (branch_pending (done_pending ..) (withTransfer_pending fun v x => ?_))
    refine branch_pending (done_pending ..) (branch_pending (done_pending ..) ?_)
    split
    · simp
    · next taken =>
      have kept := State.takeCopyFrames_pending taken
      exact kept

theorem execProductionFetch_leavesQueue {arrived : Option (List SegArrival)} :
    Answers s.LeavesQueue (execProductionFetch e arrived s) :=
  runCmd_leavesQueue fun _ => fetchRange_pending true arrived

theorem execProductionPush_leavesQueue {arrived : Option (List SegArrival)} :
    Answers s.LeavesQueue (execProductionPush e arrived s) :=
  runCmd_leavesQueue fun _ => fetchRange_pending false arrived

theorem execKeyUnwrap_leavesQueue {rec : Dma} : Answers s.LeavesQueue (execKeyUnwrap e rec s) :=
  runCmd_leavesQueue fun u => by
    split
    · simp
    · refine branch_pending (done_pending ..) (branch_pending (done_pending ..) (withDma_pending fun b => ?_))
      refine branch_pending (by simp) ?_
      cases Fuses.unwrap _ _ _ with
      | none => simp
      | some key => exact (State.record_pending ..).trans (State.dmaRead_pending ..)

theorem execProductionSeal_leavesQueue : Answers s.LeavesQueue (execProductionSeal e s) :=
  runCmd_leavesQueue fun u => by
    dsimp only
    repeat' split
    all_goals simp

theorem execRecastRolling_leavesQueue : Answers s.LeavesQueue (execRecastRolling e s) :=
  runCmd_leavesQueue fun u => by
    dsimp only
    repeat' split
    all_goals simp

theorem execRecastAbort_leavesQueue : Answers s.LeavesQueue (execRecastAbort e s) :=
  runCmd_leavesQueue fun u => by
    dsimp only
    split
    · simp
    · split <;> simp
    · simp
    · simp

/-! ### Sequences and the directory of shared blocks -/

theorem execPrefixPin_leavesQueue : Answers s.LeavesQueue (execPrefixPin e s) :=
  runCmd_leavesQueue fun u => by
    have looked := State.lookupEntry_pending u (e.op 8 8, e.op 16 8)
    dsimp only
    split
    all_goals
      next q =>
        rw [q] at looked
        simpa using looked

theorem execPrefixUnpin_leavesQueue : Answers s.LeavesQueue (execPrefixUnpin e s) :=
  runCmd_leavesQueue fun u => by
    have looked := State.lookupEntry_pending u (e.op 8 8, e.op 16 8)
    dsimp only
    split
    all_goals
      next q =>
        rw [q] at looked
        simpa using looked

theorem execSeqAdmit_leavesQueue {rec : Dma} {tokens : List Nat} : Answers s.LeavesQueue (execSeqAdmit e rec tokens s) :=
  runCmd_leavesQueue fun u => by
    refine branch_pending (done_pending ..) (branch_pending (done_pending ..) (branch_pending (done_pending ..) ?_))
    refine withDma_pending fun r => branch_pending (by simp) (branch_pending (by simp) ?_)
    split
    · simp
    · exact (withTokens_pending fun v => by simp).trans (State.dmaRead_pending ..)

theorem execSeqAppend_leavesQueue {tokens : List Nat} : Answers s.LeavesQueue (execSeqAppend e tokens s) :=
  runCmd_leavesQueue fun u => seqCommand_pending fun q => by
    cases q.state with
    | idle => exact branch_pending (done_pending ..) (withTokens_pending fun v => by simp)
    | _ => simp

theorem execSeqCancel_leavesQueue : Answers s.LeavesQueue (execSeqCancel e s) :=
  runCmd_leavesQueue fun u => seqCommand_pending fun q => by cases q.state <;> simp

theorem execSeqPause_leavesQueue : Answers s.LeavesQueue (execSeqPause e s) :=
  runCmd_leavesQueue fun u => seqCommand_pending fun q => by cases q.state <;> simp

theorem execSeqEvict_leavesQueue : Answers s.LeavesQueue (execSeqEvict e s) :=
  runCmd_leavesQueue fun u => seqCommand_pending fun q => by cases q.state <;> simp

theorem execSeqResume_leavesQueue {image : Option Image} : Answers s.LeavesQueue (execSeqResume e image s) :=
  runCmd_leavesQueue fun u => by
    refine branch_pending (State.resumeImage_pending image) (seqCommand_pending fun q => ?_)
    cases q.state with
    | paused =>
      refine branch_pending (done_pending ..) (withBuffer_pending fun v im => ?_)
      split <;> simp
    | _ => simp

/-! ### Rings and completions (R386 to R392) -/

theorem execRingEnable_leavesQueue {ring : Nat} {value : Word} : Answers s.LeavesQueue (execRingEnable ring value s) := by
  simp [execRingEnable]

theorem execRingDisable_leavesQueue {ring : Nat} {value : Word} : Answers s.LeavesQueue (execRingDisable ring value s) := by
  simp [execRingDisable]

theorem execMbxSqTail_leavesQueue {ring : Nat} {value : Word} {fetched : List Entry} :
    Answers s.LeavesQueue (execMbxSqTail ring value fetched s) := by
  simp [execMbxSqTail]

theorem execMbxCqHead_leavesQueue {ring : Nat} {value : Word} : Answers s.LeavesQueue (execMbxCqHead ring value s) := by
  simp [execMbxCqHead]

theorem execCompletionPost_leavesQueue {ring : Nat} : Answers s.LeavesQueue (execCompletionPost ring s) := by
  unfold execCompletionPost
  refine answers_present ?_
  dsimp only
  split <;> simp

theorem execCoalTimer_leavesQueue {ring : Nat} : Answers s.LeavesQueue (execCoalTimer ring s) := by simp [execCoalTimer]

theorem execDmaCompletion_leavesQueue {ring tag : Nat} {poisoned : Bool} :
    Answers s.LeavesQueue (execDmaCompletion ring tag poisoned s) := by
  simp [execDmaCompletion]

/-! ### Calibration and footlights -/

theorem execCalDataWrite_leavesQueue {tile : Nat} {value : Word} : Answers s.LeavesQueue (execCalDataWrite tile value s) := by
  simp [execCalDataWrite]

theorem execCalDataRead_leavesQueue {tile : Nat} : Answers s.LeavesQueue (execCalDataRead tile s) := by simp [execCalDataRead]

theorem execAutoEn_leavesQueue {value : Word} : Answers s.LeavesQueue (execAutoEn value s) := by simp [execAutoEn]

theorem execCalTrigger_leavesQueue {half : Nat} : Answers s.LeavesQueue (execCalTrigger half s) := by simp [execCalTrigger]

theorem execFlHoldForce_leavesQueue {tile : Nat} {value : Word} : Answers s.LeavesQueue (execFlHoldForce tile value s) := by
  simp [execFlHoldForce]

/-! ### The scrubber -/

theorem execSramScrubAccess_leavesQueue {tile ecc : Nat} : Answers s.LeavesQueue (execSramScrubAccess tile ecc s) := by
  simp [execSramScrubAccess]

/-! ### Power and steps -/

theorem execControlInterval_leavesQueue {onDie : Nat} : Answers s.LeavesQueue (execControlInterval onDie s) := by
  simp [execControlInterval]

theorem execRampStep_leavesQueue {idle : Bool} : Answers s.LeavesQueue (execRampStep idle s) := by simp [execRampStep]

theorem execStepChangeProceed_leavesQueue {expired : Bool} : Answers s.LeavesQueue (execStepChangeProceed expired s) := by
  unfold execStepChangeProceed
  split <;> simp

theorem execRegulatorReached_leavesQueue : Answers s.LeavesQueue (execRegulatorReached s) := by
  unfold execRegulatorReached
  split <;> simp

theorem execAvsFault_leavesQueue {rail : Nat} : Answers s.LeavesQueue (execAvsFault rail s) := by
  unfold execAvsFault
  refine answers_present ?_
  split
  · simp
  · dsimp only
    split <;> simp

theorem execAvsTelemetry_leavesQueue {milliwatts : List Nat} : Answers s.LeavesQueue (execAvsTelemetry milliwatts s) := by
  simp [execAvsTelemetry]

theorem execAgeColumnCrossing_leavesQueue {hours : Nat} : Answers s.LeavesQueue (execAgeColumnCrossing hours s) := by
  simp [execAgeColumnCrossing]

theorem execDroop_leavesQueue {row : Nat} : Answers s.LeavesQueue (execDroop row s) := by
  unfold execDroop
  refine answers_present ?_
  split
  · simp
  · dsimp only
    split <;> simp

theorem execDroopRecovery_leavesQueue : Answers s.LeavesQueue (execDroopRecovery s) := by simp [execDroopRecovery]

theorem execPllUnlock_leavesQueue : Answers s.LeavesQueue (execPllUnlock s) := by simp [execPllUnlock]

/-! ### Housekeeping and temperatures -/

theorem execHkmPass_leavesQueue {half : Nat} {codes : List Nat} : Answers s.LeavesQueue (execHkmPass half codes s) := by
  unfold execHkmPass
  refine answers_present ?_
  split
  · simp
  · dsimp only
    split <;> simp

theorem execHbmSensorRead_leavesQueue {temps : List Int} : Answers s.LeavesQueue (execHbmSensorRead temps s) := by
  unfold execHbmSensorRead
  split
  · simp
  · dsimp only
    split <;> simp

theorem execThrottleLimitStep_leavesQueue : Answers s.LeavesQueue (execThrottleLimitStep s) := by
  unfold execThrottleLimitStep
  split <;> simp

theorem execThermtripTimeout_leavesQueue : Answers s.LeavesQueue (execThermtripTimeout s) := by simp [execThermtripTimeout]

theorem execInjectedSequence_leavesQueue {half : Nat} {codes : List Nat} :
    Answers s.LeavesQueue (execInjectedSequence half codes s) := by
  simp [execInjectedSequence]

theorem execSwTrigger_leavesQueue {half : Nat} {value : Word} : Answers s.LeavesQueue (execSwTrigger half value s) := by
  unfold execSwTrigger
  dsimp only
  repeat' split
  all_goals simp

theorem execCoolantLoss_leavesQueue : Answers s.LeavesQueue (execCoolantLoss s) := by simp [execCoolantLoss]

theorem execCoolantOkRestored_leavesQueue : Answers s.LeavesQueue (execCoolantOkRestored s) := by simp [execCoolantOkRestored]

/-! ### Boot -/

theorem execFwsLength_leavesQueue {value : Word} : Answers s.LeavesQueue (execFwsLength value s) := by simp [execFwsLength]

theorem execFwsPiece_leavesQueue {value : Word} : Answers s.LeavesQueue (execFwsPiece value s) := by simp [execFwsPiece]

theorem execFwsPieceCopied_leavesQueue : Answers s.LeavesQueue (execFwsPieceCopied s) := by simp [execFwsPieceCopied]

theorem execFirmwareVerified_leavesQueue : Answers s.LeavesQueue (execFirmwareVerified s) := by
  unfold execFirmwareVerified
  split
  · simp
  · dsimp only
    split <;> simp

theorem execMbxReady_leavesQueue : Answers s.LeavesQueue (execMbxReady s) := by simp [execMbxReady]

theorem execPatternWriteDone_leavesQueue {ok : Bool} : Answers s.LeavesQueue (execPatternWriteDone ok s) := by
  unfold execPatternWriteDone
  split <;> simp

/-! ### Wings -/

theorem execWingLineReady_leavesQueue {rowEnd line : Nat} {data : List Byte} :
    Answers s.LeavesQueue (execWingLineReady rowEnd line data s) := by
  unfold execWingLineReady
  refine answers_present ?_
  split
  · simp
  · split
    · simp
    · split
      · simp
      · simp
      · split <;> simp

theorem execWingStall_leavesQueue {rowEnd : Nat} : Answers s.LeavesQueue (execWingStall rowEnd s) := by simp [execWingStall]

theorem execStepDescriptorCompletion_leavesQueue {rowEnd target alive line : Nat} :
    Answers s.LeavesQueue (execStepDescriptorCompletion rowEnd target alive line s) := by
  simp [execStepDescriptorCompletion]

/-! ### Chorus -/

theorem execChorusFrame_leavesQueue {ce fcsOk : Bool} {bytes : List Byte} :
    Answers s.LeavesQueue (execChorusFrame ce fcsOk bytes s) := by
  unfold execChorusFrame
  split
  · simp
  · dsimp only
    split <;> simp

theorem execChorusRetxTimer_leavesQueue {stepNo : Nat} : Answers s.LeavesQueue (execChorusRetxTimer stepNo s) := by
  unfold execChorusRetxTimer
  split <;> simp

theorem execChorusDeadline_leavesQueue {stepNo : Nat} : Answers s.LeavesQueue (execChorusDeadline stepNo s) := by
  unfold execChorusDeadline
  split <;> simp

theorem execLateNotice_leavesQueue {stepNo : Nat} : Answers s.LeavesQueue (execLateNotice stepNo s) := by
  unfold execLateNotice
  split <;> simp

theorem execChorusFrameRelease_leavesQueue {stepNo : Nat} : Answers s.LeavesQueue (execChorusFrameRelease stepNo s) := by
  simp [execChorusFrameRelease]

/-! ### Counters -/

theorem execCntClear_leavesQueue {value : Word} : Answers s.LeavesQueue (execCntClear value s) := by simp [execCntClear]

theorem execCntBwCfg_leavesQueue {window : Nat} {value : Word} : Answers s.LeavesQueue (execCntBwCfg window value s) := by
  unfold execCntBwCfg
  refine answers_present ?_
  dsimp only
  split <;> simp

theorem execBwWindowEnd_leavesQueue {window bytesA bytesB : Nat} :
    Answers s.LeavesQueue (execBwWindowEnd window bytesA bytesB s) := by
  simp [execBwWindowEnd]

theorem execCounterSaturated_leavesQueue {index : Nat} : Answers s.LeavesQueue (execCounterSaturated index s) := by
  simp [execCounterSaturated]

/-! ### Understudies -/

theorem execUnderstudyPrepared_leavesQueue {tile : Nat} : Answers s.LeavesQueue (execUnderstudyPrepared tile s) := by
  simp [execUnderstudyPrepared]

theorem execUnderstudyArraysReady_leavesQueue {row : Nat} {east : Bool} :
    Answers s.LeavesQueue (execUnderstudyArraysReady row east s) := by
  unfold execUnderstudyArraysReady
  refine answers_present ?_
  dsimp only
  split <;> simp

/-! ### Lanes and ports -/

theorem execLaneSignalDetect_leavesQueue {lane : Nat} : Answers s.LeavesQueue (execLaneSignalDetect lane s) := by
  unfold execLaneSignalDetect
  refine answers_present ?_
  split <;> simp

theorem execTrainingFrame_leavesQueue {lane control : Nat} {ready : Bool} {snr : Nat} :
    Answers s.LeavesQueue (execTrainingFrame lane control ready snr s) := by
  simp [execTrainingFrame]

theorem execTrainingTimeout_leavesQueue {lane : Nat} : Answers s.LeavesQueue (execTrainingTimeout lane s) := by
  simp [execTrainingTimeout]

theorem execTrainingRetry_leavesQueue {lane : Nat} : Answers s.LeavesQueue (execTrainingRetry lane s) := by
  simp [execTrainingRetry]

theorem execLaneLockLoss_leavesQueue {lane : Nat} : Answers s.LeavesQueue (execLaneLockLoss lane s) := by simp [execLaneLockLoss]

theorem execLaneCtrl_leavesQueue {lane : Nat} {value : Word} : Answers s.LeavesQueue (execLaneCtrl lane value s) := by
  simp [execLaneCtrl]

theorem execPcsAlignment_leavesQueue {port : Nat} {locked : Bool} : Answers s.LeavesQueue (execPcsAlignment port locked s) := by
  simp [execPcsAlignment]

theorem execPreemptVerify_leavesQueue {port : Nat} {responded : Bool} :
    Answers s.LeavesQueue (execPreemptVerify port responded s) := by
  simp [execPreemptVerify]

theorem execPfcFrame_leavesQueue {port classes quanta : Nat} : Answers s.LeavesQueue (execPfcFrame port classes quanta s) := by
  simp [execPfcFrame]

theorem execPfcPauseExpiry_leavesQueue {port cls : Nat} : Answers s.LeavesQueue (execPfcPauseExpiry port cls s) := by
  simp [execPfcPauseExpiry]

theorem execPfcXoffRepeat_leavesQueue {port cls occupancy : Nat} :
    Answers s.LeavesQueue (execPfcXoffRepeat port cls occupancy s) := by
  simp [execPfcXoffRepeat]

theorem execPauseFrame_leavesQueue {port : Nat} : Answers s.LeavesQueue (execPauseFrame port s) := by simp [execPauseFrame]

theorem execPtpStepHi_leavesQueue {value : Word} : Answers s.LeavesQueue (execPtpStepHi value s) := by simp [execPtpStepHi]

/-! ### Host frames -/

theorem execNetHostTxTail_leavesQueue {value : Word} {descriptors : List (List Byte)} :
    Answers s.LeavesQueue (execNetHostTxTail value descriptors s) := by
  simp [execNetHostTxTail]

theorem execNetHostRxTail_leavesQueue {value : Word} {descriptors : List (List Byte)} :
    Answers s.LeavesQueue (execNetHostRxTail value descriptors s) := by
  simp [execNetHostRxTail]

theorem execHostFrameReceive_leavesQueue {port : Nat} {frame : List Byte} :
    Answers s.LeavesQueue (execHostFrameReceive port frame s) := by
  simp [execHostFrameReceive]

theorem execHostFrameTransmitted_leavesQueue {frame : List Byte} : Answers s.LeavesQueue (execHostFrameTransmitted frame s) := by
  unfold execHostFrameTransmitted
  split
  · simp
  · dsimp only
    split <;> simp

/-! ### The loader -/

theorem execCalRunComplete_leavesQueue {tile : Nat} {windows : List CalWindow} :
    Answers s.LeavesQueue (execCalRunComplete tile windows s) := by
  unfold execCalRunComplete
  refine answers_present ?_
  split
  · simp
  · split <;> simp

theorem execDrainTimeout_leavesQueue : Answers s.LeavesQueue (execDrainTimeout s) := by
  unfold execDrainTimeout
  split <;> simp

theorem execDrainComplete_leavesQueue : Answers s.LeavesQueue (execDrainComplete s) := by
  unfold execDrainComplete
  split <;> simp

theorem execWearUpdate_leavesQueue : Answers s.LeavesQueue (execWearUpdate s) := by
  unfold execWearUpdate
  extract_lets set date _ aged arrays touched tiles dated lives first
  have same : dated.pending = s.pending := by
    refine (foldl_pending _ (fun u t => ?_) _ _).trans (by simp [touched, aged])
    split <;> simp
  clear_value first dated
  cases first <;> simp [same]

theorem execArrayProgrammed_leavesQueue {tile array : Nat} {verified : Bool} {readbacks : List Nat} :
    Answers s.LeavesQueue (execArrayProgrammed tile array verified readbacks s) := by
  unfold execArrayProgrammed
  dsimp only
  repeat' split
  all_goals simp

theorem execBootVerify_leavesQueue {digests : Map (List Nat)} : Answers s.LeavesQueue (execBootVerify digests s) := by
  simp [execBootVerify]

/-! ### Rehearsals, faults and the sideband -/

theorem execRotationStep_leavesQueue : Answers s.LeavesQueue (execRotationStep s) := by
  unfold execRotationStep
  split
  · simp
  · dsimp only
    split <;> simp

theorem execRehearsalDone_leavesQueue {found first set : Nat} {digests : Map (List Nat)} :
    Answers s.LeavesQueue (execRehearsalDone found first set digests s) := by
  unfold execRehearsalDone
  split <;> simp

theorem execFaultQuiet_leavesQueue {source : Nat} : Answers s.LeavesQueue (execFaultQuiet source s) := by simp [execFaultQuiet]

theorem execFwWatchdog_leavesQueue : Answers s.LeavesQueue (execFwWatchdog s) := by simp [execFwWatchdog]

theorem execMgmtRefresh_leavesQueue : Answers s.LeavesQueue (execMgmtRefresh s) := by simp [execMgmtRefresh]

theorem execPldmSensorRefresh_leavesQueue : Answers s.LeavesQueue (execPldmSensorRefresh s) := by simp [execPldmSensorRefresh]

theorem execSmbusMessage_leavesQueue {address : Nat} {request : SmbusRequest} :
    Answers s.LeavesQueue (execSmbusMessage address request s) := by
  unfold execSmbusMessage
  split
  · simp
  · dsimp only
    split <;> simp

/-! ### Host accesses of BAR0 -/

theorem execShadowLoRead_leavesQueue {offset : Nat} : Answers s.LeavesQueue (execShadowLoRead offset s) := by
  unfold execShadowLoRead
  split <;> simp

theorem execRcRead_leavesQueue {offset size : Nat} : Answers s.LeavesQueue (execRcRead offset size s) := by simp [execRcRead]

theorem execChkRunWrite_leavesQueue {offset : Nat} {value : Word} : Answers s.LeavesQueue (execChkRunWrite offset value s) := by
  unfold execChkRunWrite
  split <;> simp

theorem execChkModeWrite_leavesQueue {engine : Nat} {value : Word} : Answers s.LeavesQueue (execChkModeWrite engine value s) := by
  simp [execChkModeWrite]

theorem execRegisterWrite_leavesQueue {offset : Nat} {value : Word} {size : Nat} {high : Word} :
    Answers s.LeavesQueue (execRegisterWrite offset value size high s) := by
  simp [execRegisterWrite]

/-! ### The PCIe function -/

theorem execPcieConfigWrite_leavesQueue {write : CfgWrite} : Answers s.LeavesQueue (execPcieConfigWrite write s) := by
  simp [execPcieConfigWrite]

theorem execPcieLinkError_leavesQueue {bit : Nat} : Answers s.LeavesQueue (execPcieLinkError bit s) := by simp [execPcieLinkError]

/-! ### Sequences -/

theorem execPauseCopyDone_leavesQueue {entry : Nat} : Answers s.LeavesQueue (execPauseCopyDone entry s) := by
  unfold execPauseCopyDone
  dsimp only
  repeat' split
  all_goals simp

theorem execGreenRoomExpiry_leavesQueue {entry : Nat} : Answers s.LeavesQueue (execGreenRoomExpiry entry s) := by
  unfold execGreenRoomExpiry
  refine answers_present ?_
  split <;> simp

theorem execPrmSeqSelect_leavesQueue {value : Word} : Answers s.LeavesQueue (execPrmSeqSelect value s) := by
  simp [execPrmSeqSelect]

/-! ### Function resets and power -/

theorem execPerstNDeassert_leavesQueue {sysRst selfTestOk identityOk : Bool} {boot : List Byte} :
    Answers s.LeavesQueue (execPerstNDeassert sysRst selfTestOk identityOk boot s) := by
  simp [execPerstNDeassert]

theorem execHotReset_leavesQueue : Answers s.LeavesQueue (execHotReset s) := by simp [execHotReset]

theorem execFlr_leavesQueue : Answers s.LeavesQueue (execFlr s) := by simp [execFlr]

theorem execBlockResetEnd_leavesQueue {kind index : Nat} {digests : Map (List Nat)} :
    Answers s.LeavesQueue (execBlockResetEnd kind index digests s) := by
  simp [execBlockResetEnd]

theorem execPowerDown_leavesQueue : Answers s.LeavesQueue (execPowerDown s) := by simp [execPowerDown]

/-! ### Queue pairs -/

theorem execRoceAckTimeout_leavesQueue {qp : Nat} : Answers s.LeavesQueue (execRoceAckTimeout qp s) := by
  unfold execRoceAckTimeout
  refine answers_present ?_
  split <;> simp

theorem execRoceRateIncrease_leavesQueue {qp : Nat} : Answers s.LeavesQueue (execRoceRateIncrease qp s) := by
  unfold execRoceRateIncrease
  refine answers_present ?_
  split <;> simp

/-! ### Tiles -/

theorem execFlSettled_leavesQueue {tile : Nat} : Answers s.LeavesQueue (execFlSettled tile s) := by simp [execFlSettled]

theorem execStatWindowEnd_leavesQueue {tile : Nat} : Answers s.LeavesQueue (execStatWindowEnd tile s) := by
  unfold execStatWindowEnd
  refine answers_present ?_
  split <;> simp

/-! ### Events of the schedule -/

theorem execBubbleBlock_leavesQueue : Answers s.LeavesQueue (execBubbleBlock s) := by
  have blocked : ∀ (xs : List Nat) (t : Nat) (b : Blocked), (xs.foldl (Blocked.cycle t) b).state.pending = b.state.pending :=
    fun xs t b => foldl_view (fun b : Blocked => b.state.pending) _ (fun _ _ => Blocked.cycle_pending ..) xs b
  simp [execBubbleBlock, blocked]

theorem execStepSwitch_leavesQueue : Answers s.LeavesQueue (execStepSwitch s) := by
  unfold execStepSwitch
  split <;> simp

theorem execSectionStart_leavesQueue {index scene : Nat} {errors : List SecError} :
    Answers s.LeavesQueue (execSectionStart index scene errors s) := by
  unfold execSectionStart
  split <;> simp

theorem execWingSourceIssue_leavesQueue {rowEnd line target at_ : Nat} :
    Answers s.LeavesQueue (execWingSourceIssue rowEnd line target at_ s) := by
  unfold execWingSourceIssue
  refine answers_present ?_
  split <;> simp

theorem execWingReadyTest_leavesQueue {rowEnd at_ : Nat} : Answers s.LeavesQueue (execWingReadyTest rowEnd at_ s) := by
  simp [execWingReadyTest]

theorem execWingOutboundDrain_leavesQueue {rowEnd : Nat} : Answers s.LeavesQueue (execWingOutboundDrain rowEnd s) := by
  unfold execWingOutboundDrain
  refine answers_present ?_
  dsimp only
  split <;> simp

theorem execChorusStepOpen_leavesQueue {index scene : Nat} : Answers s.LeavesQueue (execChorusStepOpen index scene s) := by
  unfold execChorusStepOpen
  split <;> simp

theorem execMvmDelivery_leavesQueue {tile : Nat} : Answers s.LeavesQueue (execMvmDelivery tile s) := by
  unfold execMvmDelivery
  refine answers_present ?_
  split <;> simp

theorem execGroupClose_leavesQueue {tile slot : Nat} : Answers s.LeavesQueue (execGroupClose tile slot s) := by
  unfold execGroupClose
  refine answers_present ?_
  split
  · simp
  · split <;> simp

theorem execFootlightCall_leavesQueue {call : FlCall} : Answers s.LeavesQueue (execFootlightCall call s) := by
  unfold execFootlightCall
  refine answers_present ?_
  split <;> simp

theorem execFlPowerdown_leavesQueue {tile : Nat} : Answers s.LeavesQueue (execFlPowerdown tile s) := by simp [execFlPowerdown]

theorem execCalSlot_leavesQueue {tile : Nat} {windows : List CalWindow} : Answers s.LeavesQueue (execCalSlot tile windows s) := by
  unfold execCalSlot
  dsimp only
  repeat' split
  all_goals simp

theorem execPhaseWindow_leavesQueue {tile : Nat} {start : Option MvmRef} {input : PhaseIn} :
    Answers s.LeavesQueue (execPhaseWindow tile start input s) := by
  unfold execPhaseWindow
  refine answers_present ?_
  split
  · simp
  · split
    · simp
    · simp
    · split <;> simp

/-! ### Scenes -/

theorem execSceneChange_leavesQueue : Answers s.LeavesQueue (execSceneChange s) := by
  unfold execSceneChange
  dsimp only
  repeat' split
  all_goals simp

theorem execEmptySceneChange_leavesQueue : Answers s.LeavesQueue (execEmptySceneChange s) := by simp [execEmptySceneChange]

theorem execSceneForm_leavesQueue : Answers s.LeavesQueue (execSceneForm s) := by
  unfold execSceneForm
  split
  · simp
  · refine answers_unless rfl (answers_unless (by simp) ?_)
    split
    · simp
    · refine answers_unless (by simp) ?_
      split <;> simp

theorem execResumeComplete_leavesQueue {entry : Nat} : Answers s.LeavesQueue (execResumeComplete entry s) := by
  unfold execResumeComplete
  dsimp only
  repeat' split
  all_goals simp

/-! ### BAR2, RDMA and the resets -/

theorem execBar2Access_leavesQueue {offset length : Nat} {write : Option (List Byte)} :
    Answers s.LeavesQueue (execBar2Access offset write length s) := by
  unfold execBar2Access
  split <;> simp

theorem execRocePacket_leavesQueue {qp port : Nat} {ce : Bool} {packet : RocePacket} {frame : List Byte} :
    Answers s.LeavesQueue (execRocePacket qp port ce packet frame s) := by
  unfold execRocePacket
  refine answers_present ?_
  split <;> simp

theorem execColdReset_leavesQueue {selfTestOk identityOk : Bool} {boot : List Byte} :
    Answers s.LeavesQueue (execColdReset selfTestOk identityOk boot s) := by
  simp [execColdReset]

theorem execFundamentalReset_leavesQueue {sysRst : Bool} : Answers s.LeavesQueue (execFundamentalReset sysRst s) := by
  simp [execFundamentalReset]

theorem execChipReset_leavesQueue {selfTestOk identityOk : Bool} {boot : List Byte} :
    Answers s.LeavesQueue (execChipReset selfTestOk identityOk boot s) := by
  simp [execChipReset]

theorem execGlbResetChip_leavesQueue {value : Word} {selfTestOk identityOk : Bool} {boot : List Byte} :
    Answers s.LeavesQueue (execGlbResetChip value selfTestOk identityOk boot s) := by
  simp [execGlbResetChip]

theorem execBlockReset_leavesQueue {kind index : Nat} : Answers s.LeavesQueue (execBlockReset kind index s) := by
  simp [execBlockReset]

theorem execGlbResetBlock_leavesQueue {value : Word} : Answers s.LeavesQueue (execGlbResetBlock value s) := by
  simp [execGlbResetBlock]

theorem execRailLoss_leavesQueue : Answers s.LeavesQueue (execRailLoss s) := by simp [execRailLoss]

end

/-- No command changes the queue. -/
theorem exec_leavesQueue (c : Instr) (s : State) : Answers s.LeavesQueue (exec c s) := by
  unfold exec
  cases c with
  | echo => exact execEcho_leavesQueue
  | queryInfo => exact execQueryInfo_leavesQueue
  | playbill => exact execPlaybill_leavesQueue
  | productionOpen => exact execProductionOpen_leavesQueue
  | productionFetch => exact execProductionFetch_leavesQueue
  | productionPush => exact execProductionPush_leavesQueue
  | productionSeal => exact execProductionSeal_leavesQueue
  | recastRolling => exact execRecastRolling_leavesQueue
  | recastAbort => exact execRecastAbort_leavesQueue
  | keyUnwrap => exact execKeyUnwrap_leavesQueue
  | cuesheetLoad => exact execCuesheetLoad_leavesQueue
  | cuesheetActivate => exact execCuesheetActivate_leavesQueue
  | seqAdmit => exact execSeqAdmit_leavesQueue
  | seqAppend => exact execSeqAppend_leavesQueue
  | seqCancel => exact execSeqCancel_leavesQueue
  | seqPause => exact execSeqPause_leavesQueue
  | seqResume => exact execSeqResume_leavesQueue
  | seqEvict => exact execSeqEvict_leavesQueue
  | prefixPin => exact execPrefixPin_leavesQueue
  | prefixUnpin => exact execPrefixUnpin_leavesQueue
  | calRun => exact execCalRun_leavesQueue
  | calExport => exact execCalExport_leavesQueue
  | calImport => exact execCalImport_leavesQueue
  | tileFence => exact execTileFence_leavesQueue
  | tileRestore => exact execTileRestore_leavesQueue
  | rehearse => exact execRehearse_leavesQueue
  | rehearseRotation => exact execRehearseRotation_leavesQueue
  | patternInstall => exact execPatternInstall_leavesQueue
  | unitTuneTrim => exact execUnitTuneTrim_leavesQueue
  | unitTuneStep => exact execUnitTuneStep_leavesQueue
  | capSet => exact execCapSet_leavesQueue
  | thermalSet => exact execThermalSet_leavesQueue
  | chorusGroupSet => exact execChorusGroupSet_leavesQueue
  | portMode => exact execPortMode_leavesQueue
  | qpEstablish => exact execQpEstablish_leavesQueue
  | qpDestroy => exact execQpDestroy_leavesQueue
  | portAddr => exact execPortAddr_leavesQueue
  | hostRing => exact execHostRing_leavesQueue
  | counterSnapshot => exact execCounterSnapshot_leavesQueue
  | ledgerRead => exact execLedgerRead_leavesQueue
  | faultPolicySet => exact execFaultPolicySet_leavesQueue
  | unsupportedOpcode => exact execUnsupportedOpcode_leavesQueue
  | mbxSqTail => exact execMbxSqTail_leavesQueue
  | mbxCqHead => exact execMbxCqHead_leavesQueue
  | ringEnable => exact execRingEnable_leavesQueue
  | ringDisable => exact execRingDisable_leavesQueue
  | flHoldForce => exact execFlHoldForce_leavesQueue
  | calDataWrite => exact execCalDataWrite_leavesQueue
  | calDataRead => exact execCalDataRead_leavesQueue
  | autoEn => exact execAutoEn_leavesQueue
  | shadowLoRead => exact execShadowLoRead_leavesQueue
  | rcRead => exact execRcRead_leavesQueue
  | prmSeqSelect => exact execPrmSeqSelect_leavesQueue
  | ptpStepHi => exact execPtpStepHi_leavesQueue
  | glbResetChip => exact execGlbResetChip_leavesQueue
  | glbResetBlock => exact execGlbResetBlock_leavesQueue
  | fwsLength => exact execFwsLength_leavesQueue
  | fwsPiece => exact execFwsPiece_leavesQueue
  | swTrigger => exact execSwTrigger_leavesQueue
  | cntClear => exact execCntClear_leavesQueue
  | cntBwCfg => exact execCntBwCfg_leavesQueue
  | chkRunWrite => exact execChkRunWrite_leavesQueue
  | chkModeWrite => exact execChkModeWrite_leavesQueue
  | netHostTxTail => exact execNetHostTxTail_leavesQueue
  | netHostRxTail => exact execNetHostRxTail_leavesQueue
  | laneCtrl => exact execLaneCtrl_leavesQueue
  | registerWrite => exact execRegisterWrite_leavesQueue
  | bar2Access => exact execBar2Access_leavesQueue
  | coldReset => exact execColdReset_leavesQueue
  | fundamentalReset => exact execFundamentalReset_leavesQueue
  | hotReset => exact execHotReset_leavesQueue
  | flr => exact execFlr_leavesQueue
  | chipReset => exact execChipReset_leavesQueue
  | blockReset => exact execBlockReset_leavesQueue
  | blockResetEnd => exact execBlockResetEnd_leavesQueue
  | powerDown => exact execPowerDown_leavesQueue
  | railLoss => exact execRailLoss_leavesQueue
  | coolantLoss => exact execCoolantLoss_leavesQueue
  | pllUnlock => exact execPllUnlock_leavesQueue
  | droop => exact execDroop_leavesQueue
  | droopRecovery => exact execDroopRecovery_leavesQueue
  | hkmPass => exact execHkmPass_leavesQueue
  | hbmSensorRead => exact execHbmSensorRead_leavesQueue
  | throttleLimitStep => exact execThrottleLimitStep_leavesQueue
  | thermtripTimeout => exact execThermtripTimeout_leavesQueue
  | injectedSequence => exact execInjectedSequence_leavesQueue
  | controlInterval => exact execControlInterval_leavesQueue
  | bubbleBlock => exact execBubbleBlock_leavesQueue
  | rampStep => exact execRampStep_leavesQueue
  | avsTelemetry => exact execAvsTelemetry_leavesQueue
  | avsFault => exact execAvsFault_leavesQueue
  | ageColumnCrossing => exact execAgeColumnCrossing_leavesQueue
  | stepChangeProceed => exact execStepChangeProceed_leavesQueue
  | regulatorReached => exact execRegulatorReached_leavesQueue
  | stepSwitch => exact execStepSwitch_leavesQueue
  | sectionStart => exact execSectionStart_leavesQueue
  | phaseWindow => exact execPhaseWindow_leavesQueue
  | mvmDelivery => exact execMvmDelivery_leavesQueue
  | groupClose => exact execGroupClose_leavesQueue
  | footlightCall => exact execFootlightCall_leavesQueue
  | flSettled => exact execFlSettled_leavesQueue
  | flPowerdown => exact execFlPowerdown_leavesQueue
  | statWindowEnd => exact execStatWindowEnd_leavesQueue
  | calTrigger => exact execCalTrigger_leavesQueue
  | calSlot => exact execCalSlot_leavesQueue
  | calRunComplete => exact execCalRunComplete_leavesQueue
  | wingSourceIssue => exact execWingSourceIssue_leavesQueue
  | wingLineReady => exact execWingLineReady_leavesQueue
  | wingReadyTest => exact execWingReadyTest_leavesQueue
  | wingStall => exact execWingStall_leavesQueue
  | stepDescriptorCompletion => exact execStepDescriptorCompletion_leavesQueue
  | sceneForm => exact execSceneForm_leavesQueue
  | sceneChange => exact execSceneChange_leavesQueue
  | emptySceneChange => exact execEmptySceneChange_leavesQueue
  | understudyPrepared => exact execUnderstudyPrepared_leavesQueue
  | understudyArraysReady => exact execUnderstudyArraysReady_leavesQueue
  | faultQuiet => exact execFaultQuiet_leavesQueue
  | fwWatchdog => exact execFwWatchdog_leavesQueue
  | arrayProgrammed => exact execArrayProgrammed_leavesQueue
  | drainTimeout => exact execDrainTimeout_leavesQueue
  | drainComplete => exact execDrainComplete_leavesQueue
  | bootVerify => exact execBootVerify_leavesQueue
  | wearUpdate => exact execWearUpdate_leavesQueue
  | pauseCopyDone => exact execPauseCopyDone_leavesQueue
  | resumeComplete => exact execResumeComplete_leavesQueue
  | greenRoomExpiry => exact execGreenRoomExpiry_leavesQueue
  | fwsPieceCopied => exact execFwsPieceCopied_leavesQueue
  | firmwareVerified => exact execFirmwareVerified_leavesQueue
  | mbxReady => exact execMbxReady_leavesQueue
  | laneSignalDetect => exact execLaneSignalDetect_leavesQueue
  | trainingFrame => exact execTrainingFrame_leavesQueue
  | trainingTimeout => exact execTrainingTimeout_leavesQueue
  | trainingRetry => exact execTrainingRetry_leavesQueue
  | laneLockLoss => exact execLaneLockLoss_leavesQueue
  | chorusFrame => exact execChorusFrame_leavesQueue
  | rocePacket => exact execRocePacket_leavesQueue
  | pfcFrame => exact execPfcFrame_leavesQueue
  | pauseFrame => exact execPauseFrame_leavesQueue
  | hostFrameReceive => exact execHostFrameReceive_leavesQueue
  | pfcXoffRepeat => exact execPfcXoffRepeat_leavesQueue
  | preemptVerify => exact execPreemptVerify_leavesQueue
  | roceAckTimeout => exact execRoceAckTimeout_leavesQueue
  | roceRateIncrease => exact execRoceRateIncrease_leavesQueue
  | chorusStepOpen => exact execChorusStepOpen_leavesQueue
  | chorusRetxTimer => exact execChorusRetxTimer_leavesQueue
  | chorusDeadline => exact execChorusDeadline_leavesQueue
  | lateNotice => exact execLateNotice_leavesQueue
  | chorusFrameRelease => exact execChorusFrameRelease_leavesQueue
  | smbusMessage => exact execSmbusMessage_leavesQueue
  | pldmSensorRefresh => exact execPldmSensorRefresh_leavesQueue
  | dmaCompletion => exact execDmaCompletion_leavesQueue
  | completionPost => exact execCompletionPost_leavesQueue
  | coalTimer => exact execCoalTimer_leavesQueue
  | bwWindowEnd => exact execBwWindowEnd_leavesQueue
  | rehearsalDone => exact execRehearsalDone_leavesQueue
  | rotationStep => exact execRotationStep_leavesQueue
  | patternWriteDone => exact execPatternWriteDone_leavesQueue
  | mgmtRefresh => exact execMgmtRefresh_leavesQueue
  | pcsAlignment => exact execPcsAlignment_leavesQueue
  | pfcPauseExpiry => exact execPfcPauseExpiry_leavesQueue
  | coolantOkRestored => exact execCoolantOkRestored_leavesQueue
  | perstNDeassert => exact execPerstNDeassert_leavesQueue
  | pcieConfigWrite => exact execPcieConfigWrite_leavesQueue
  | pcieLinkError => exact execPcieLinkError_leavesQueue
  | sramScrubAccess => exact execSramScrubAccess_leavesQueue
  | wingOutboundDrain => exact execWingOutboundDrain_leavesQueue
  | counterSaturated => exact execCounterSaturated_leavesQueue
  | hostFrameTransmitted => exact execHostFrameTransmitted_leavesQueue

/-- Settles O5: each command's own lemma says that the state it answers has the queue as it was. -/
theorem execLeavesTheQueue : Obligations.ExecLeavesTheQueue := by
  unfold Obligations.ExecLeavesTheQueue
  exact fun c s => exec_leavesQueue c s

/-- Settles O1: a queue that is not empty is taken apart into its front and its rest. -/
theorem stepRunsTheFrontCommand : Obligations.StepRunsTheFrontCommand := by
  unfold Obligations.StepRunsTheFrontCommand
  intro c rest s queue
  rw [step, queue]

end Sys2Proof.Machine
end

section
/-!
SUPPORT. Rehearsals (R490 to R493): the row of R490 that decides REHEARSE, the tile that a rotation step takes, and the end of a
rehearsal by its result.
-/
namespace Sys2Proof.Machine

theorem exec_rehearse (e : Entry) (s : State) : exec (.rehearse e) s = execRehearse e s := rfl
theorem exec_rehearseRotation (e : Entry) (s : State) : exec (.rehearseRotation e) s = execRehearseRotation e s := rfl
theorem exec_rotationStep (s : State) : exec .rotationStep s = execRotationStep s := rfl
theorem exec_rehearsalDone (found first set : Nat) (digests : Map (List Nat)) (s : State) :
    exec (.rehearsalDone found first set digests) s = execRehearsalDone found first set digests s := rfl

/-- Whether a rehearsal is refused does not depend on the entry that asks for it. -/
@[simp] theorem State.rehearsalRefused_begun (s : State) (e : Entry) (t : Nat) :
    (s.begun e).rehearsalRefused t = s.rehearsalRefused t := rfl

/-! ### REHEARSE -/

section
variable {e : Entry} {s : State} (h : Begins e 0x52 false s) (tile : e.op 8 2 < Config.tiles)
include h tile

/-- A REHEARSE of a tile is no REHEARSE of the rotation, and begins. -/
theorem execRehearse_begins : ∃ body, execRehearse e s = .next (runBody e body (s.begun e)) ∧
    (e.op 12 4 ≠ s.fabric.epoch → body (s.begun e) = done (s.begun e) .staleEpoch []) ∧
    (e.op 12 4 = s.fabric.epoch → ∀ st, s.rehearsalRefused (e.op 8 2) = some st → body (s.begun e) = done (s.begun e) st []) ∧
    (e.op 12 4 = s.fabric.epoch → s.rehearsalRefused (e.op 8 2) = none → body (s.begun e) =
      later (((s.begun e).addJob e.ring e.tag (.rehearse (e.op 8 2))).startRehearsal (e.op 8 2) (some s.mbx.nextJob))) := by
  have other : e.op 8 2 ≠ 0xFFFF := fun q => by
    rw [q] at tile
    exact absurd tile (by decide)
  rw [execRehearse, if_neg (by simp [other]), runCmd_begins _ h (by decide)]
  refine ⟨_, rfl, fun stale => ?_, fun epoch st refused => ?_, fun epoch free => ?_⟩
  · simp [Nat.not_le.2 tile, stale]
  · simp [Nat.not_le.2 tile, epoch, refused]
  · simp [Nat.not_le.2 tile, epoch, free]

end

/-- REHEARSE of 0xFFFF takes the period of the rotation, which completes at once (R490). -/
theorem execRehearseRotation_takes {e : Entry} {s : State} (h : Begins e 0x52 false s) (rotation : e.op 8 2 = 0xFFFF)
    (period : e.op 16 4 ≤ 86400) (epoch : e.op 12 4 = s.fabric.epoch) :
    execRehearseRotation e s = .next (((s.begun e).setReg 0x20014 (e.op 16 4)).complete e .ok [2]) := by
  rw [execRehearseRotation, if_neg (by simp [rotation]), runCmd_begins _ h (by decide)]
  simp [runBody, done, Nat.not_lt.2 period, epoch]

/-! ### The rotation -/

/-- Without a period there is no rotation. -/
theorem execRotationStep_off {s : State} (off : s.reg 0x20014 = 0) : execRotationStep s = .next s := by
  simp [execRotationStep, off]

/-- The rotation takes the first tile after the one it took last that R493 does not skip. -/
theorem execRotationStep_takes {t k : Nat} {s : State} (period : s.reg 0x20014 ≠ 0) (runs : s.firmwareRuns = true)
    (stop : s.integ.fatalStop = false) (idle : s.rehearsalBusy = false) (unit : k < Config.tiles)
    (place : t = (s.integ.lastRotated + 1 + k) % Config.tiles) (serves : (s.tile t).router.fenced = false)
    (row : rowOf t ∉ s.fabric.rowFaults) (free : s.rehearsalRefused t = none)
    (skipped : ∀ i, i < k → (s.tile ((s.integ.lastRotated + 1 + i) % Config.tiles)).router.fenced = true) :
    execRotationStep s = .next (({ s with integ := { s.integ with lastRotated := t } }).startRehearsal t none) := by
  have found : ((List.range Config.tiles).map (fun i => (s.integ.lastRotated + 1 + i) % Config.tiles)).find? (fun t =>
      !(s.tile t).router.fenced && !has s.fabric.rowFaults (rowOf t) && (s.rehearsalRefused t).isNone) = some t := by
    rw [List.find?_map, Option.map_eq_some_iff]
    refine ⟨k, List.find?_range_eq_some.2 ⟨?_, List.mem_range.2 unit, fun i before => ?_⟩, place.symm⟩
    · simpa [← place, serves, free, has] using fun x faulty => by rintro rfl; exact row faulty
    · simp [skipped i before]
  unfold execRotationStep
  rw [if_neg (by simp [period, runs, stop, idle]), found]

/-! ### The end of a rehearsal -/

/-- A rehearsal that firmware still judges ends by its result (R491, R492). -/
theorem execRehearsalDone_ends {found result first set : Nat} {digests : Map (List Nat)} {r : Rehearsal} {s : State}
    (rehearses : s.integ.rehearsal = some r) (judged : r.passed = false) (runs : s.firmwareRuns = true)
    (cut : ∀ c ∈ s.fabric.cutovers, c.rehearse = false) (out : (s.tile r.tile).inReset = 0) (known : found < 3)
    (is : result = if found ≠ 1 ∧ s.readsBack r.tile digests = false then 3 else found) :
    execRehearsalDone found first set digests s = .next (if result = 0 then (s.setField 0x20010 0 8 0).rehearsalPass r
      else (s.setField 0x20010 0 8 result).rehearsalFail r result first set) := by
  have waits : s.fabric.cutovers.any (fun c => c.rehearse) = false := List.any_eq_false.2 fun c mem => by simp [cut c mem]
  have judges : s.rehearsalResult r.tile found digests = result := is.symm
  simp only [execRehearsalDone, rehearses, judged, runs, waits, out, Nat.not_le.2 known, judges]
  by_cases pass : result = 0
  · simp [pass]
  · simp [pass]

/-- An array with a governing record does not read back where neither of its readings gives the record's digest (R318). -/
theorem State.readsBack_eq_false {t a : Nat} {g : JournalSlot} {digests : Map (List Nat)} {s : State} (unit : a < 8)
    (governs : s.gov t a = some g) (complete : g.inProgress = false) (sound : g.failed = false) (valid : g.valid = true)
    (read : Map.getD digests (8 * t + a) [] ≠ []) (differs : g.digest ∉ (Map.getD digests (8 * t + a) []).take 2) :
    s.readsBack t digests = false := by
  have disagrees : g.agrees (Map.getD digests (8 * t + a) []) = false := by
    simpa [JournalSlot.agrees, read] using fun d mem => by rintro rfl; exact differs mem
  refine List.all_eq_false.2 ⟨a, List.mem_range.2 unit, ?_⟩
  simp [governs, complete, sound, valid, disagrees]

/-- Settles O49: the row of R490 that decides a REHEARSE, the rotation's first tile that is not skipped, and an end by its result. -/
theorem rehearsalsByTheirConditions : Obligations.RehearsalsByTheirConditions := by
  unfold Obligations.RehearsalsByTheirConditions
  simp only [exec_rehearse, exec_rehearseRotation, exec_rotationStep, exec_rehearsalDone]
  refine ⟨fun e s h tile => ?_, fun e s => execRehearseRotation_takes, fun t k s => execRotationStep_takes,
    fun s => execRotationStep_off, fun found result first set digests r s => execRehearsalDone_ends,
    fun t a g digests s => State.readsBack_eq_false⟩
  obtain ⟨body, begins, stale, refused, free⟩ := execRehearse_begins h tile
  rw [begins]
  exact ⟨fun old => by rw [runBody_done (stale old)], fun st epoch row => by rw [runBody_done (refused epoch st row)],
    fun epoch row => by rw [runBody_later (free epoch row)]⟩

end Sys2Proof.Machine
end

section
/-!
SUPPORT. A field of a register that the device has set, the fields apart from it, and the other registers.
-/
namespace Sys2Proof.Machine

theorem State.field_setField_same (s : State) (o v : Nat) {lo len : Nat} (word : lo + len ≤ 32) :
    (s.setField o lo len v).field o lo len = v % 2 ^ len := by
  rw [State.field, State.setField, State.reg_setReg_same, bitsOf_mod_word _ word, bitsOf_putBits_same]

theorem State.field_setField_apart (s : State) (o v : Nat) {lo len lo' len' : Nat} (word : lo' + len' ≤ 32)
    (apart : lo' + len' ≤ lo ∨ lo + len ≤ lo') : (s.setField o lo len v).field o lo' len' = s.field o lo' len' := by
  rw [State.field, State.setField, State.reg_setReg_same, bitsOf_mod_word _ word, bitsOf_putBits_apart _ _ apart, State.field]

theorem State.reg_setField_other (s : State) {o p : Nat} (lo len v : Nat) (other : p ≠ o) :
    (s.setField o lo len v).reg p = s.reg p := by
  rw [State.setField, State.reg_setReg, if_neg other.symm]

/-- A bit of a register as a field of it. -/
theorem State.testBit_reg (s : State) (o i : Nat) : Nat.testBit (s.reg o) i = decide (s.field o i 1 = 1) := by
  rw [State.field, bitsOf, Nat.testBit_eq_decide_div_mod_eq, Nat.shiftRight_eq_div_pow, Nat.pow_one]

end Sys2Proof.Machine
end

section
/-!
SUPPORT. Fault policies and quiet periods, the watchdog, and firmware's copy of the fault state, its sensors and what it answers on the
sideband (R402, R403, R410, R415, R481, R485, R489).
-/
namespace Sys2Proof.Machine

theorem exec_faultPolicySet (e : Entry) (s : State) : exec (.faultPolicySet e) s = execFaultPolicySet e s := rfl
theorem exec_faultQuiet (n : Nat) (s : State) : exec (.faultQuiet n) s = execFaultQuiet n s := rfl
theorem exec_fwWatchdog (s : State) : exec .fwWatchdog s = execFwWatchdog s := rfl
theorem exec_mgmtRefresh (s : State) : exec .mgmtRefresh s = execMgmtRefresh s := rfl
theorem exec_pldmSensorRefresh (s : State) : exec .pldmSensorRefresh s = execPldmSensorRefresh s := rfl
theorem exec_smbusMessage (a : Nat) (x : SmbusRequest) (s : State) : exec (.smbusMessage a x) s = execSmbusMessage a x s := rfl

/-! ### FAULT_POLICY_SET -/

section
variable {e : Entry} {s : State} (h : Begins e 0x90 false s)
include h

/-- A policy within R485 replaces the one before, which the completion returns. -/
theorem execFaultPolicySet_takes {x : Nat} (source : Map.get? sourceSeverity (e.op 8 2) = some x) (least : 1 ≤ e.op 12 4)
    (most : e.op 12 4 ≤ 10000) (mask : e.op 11 1 < 32) (block : Nat.testBit (e.op 11 1) 2 = false)
    (free : e.op 8 2 ∉ [57, 64, 70, 71]) (severity : e.op 10 1 ≤ 3) :
    execFaultPolicySet e s = .next (((s.begun e).setReg (0x21000 + 4 * e.op 8 2)
      (e.op 10 1 * 2 ^ 30 + e.op 11 1 * 2 ^ 24 + e.op 12 4)).complete e .ok (leBytes 4 (s.reg (0x21000 + 4 * e.op 8 2)))) := by
  have listed : has [57, 64, 70, 71] (e.op 8 2) = false := by rwa [← Bool.not_eq_true, has_iff]
  have other : (e.op 8 2 == 57) = false := by
    rw [beq_eq_false_iff_ne]
    intro q
    exact free (by simp [q])
  have kept : (s.begun e).policy (e.op 8 2) = s.reg (0x21000 + 4 * e.op 8 2) := rfl
  rw [execFaultPolicySet, runCmd_begins _ h (by decide)]
  simp [runBody, done, source, Nat.not_lt.2 severity, Nat.not_le.2 mask, Nat.not_lt.2 most, Nat.one_le_iff_ne_zero.1 least, block,
    listed, other, kept, Nat.shiftLeft_eq]

/-- The sources that R485 holds at severity 3 take no lower one. -/
theorem execFaultPolicySet_low (held : e.op 8 2 ∈ [57, 64, 70, 71]) (low : e.op 10 1 < 3) :
    execFaultPolicySet e s = .next ((s.begun e).complete e .invalid []) := by
  have listed : has [57, 64, 70, 71] (e.op 8 2) = true := (has_iff _ _).2 held
  rw [execFaultPolicySet, runCmd_begins _ h (by decide)]
  simp [runBody, done, listed, low]

end

/-! ### Quiet periods -/

/-- A quiet period that a source in its fault state passes takes it out of it and counts the recovery (R489). -/
theorem execFaultQuiet_recovers {n : Nat} {s : State} (unit : n < 512) (fault : s.inFault n = true) :
    ∃ t, execFaultQuiet n s = .next t ∧ t.inFault n = false ∧
      t.field (0x21800 + 4 * n) 0 16 = min 0xFFFF (s.field (0x21800 + 4 * n) 0 16 + 1) ∧
      (∀ o, o ≠ 0x21800 + 4 * n → t.reg o = s.reg o) ∧ t.tiles = s.tiles ∧ t.kv = s.kv ∧ t.pwr = s.pwr ∧ t.mbx = s.mbx := by
  unfold execFaultQuiet
  rw [if_neg (Nat.not_le.2 unit), if_neg (by simp [fault])]
  refine ⟨_, rfl, ?_, ?_, fun o other => ?_, by simp, by simp, by simp, by simp⟩
  · rw [State.inFault, State.testBit_reg, State.field_setField_apart _ _ _ (by decide) (by decide),
      State.field_setField_same _ _ _ (by decide)]
    rfl
  · rw [State.field_setField_same _ _ _ (by decide), Nat.mod_eq_of_lt (by simp only [satAdd]; omega), satAdd]
  · rw [State.reg_setField_other _ _ _ _ other, State.reg_setField_other _ _ _ _ other]

/-! ### The sensors and the sideband -/

/-- A temperature in sixteenths of a degree is one of the two whole degrees about it. -/
theorem wholeDegrees_bounds (v : Int) : 16 * wholeDegrees v - 16 < v ∧ v < 16 * wholeDegrees v + 16 := by
  unfold wholeDegrees
  split <;> omega

section
variable {s : State} (runs : s.firmwareRuns = true)
include runs

/-- Firmware that runs answers a request at its address. -/
theorem execSmbusMessage_numericSensor {n : Nat} (least : 1 ≤ n) (most : n ≤ 16) :
    execSmbusMessage s.smbusAddress (.numericSensor n) s = .next (s.send (.sensor n (Map.getD s.integ.sensors n 0))) := by
  simp [execSmbusMessage, runs, least, most]

theorem execSmbusMessage_getPdr {n : Nat} (least : 1 ≤ n) (most : n ≤ 18) :
    execSmbusMessage s.smbusAddress (.getPdr n) s = .next (s.send (pdrOf n)) := by
  simp [execSmbusMessage, runs, least, most]

theorem execSmbusMessage_stateSensor :
    execSmbusMessage s.smbusAddress (.stateSensor 17) s = .next (s.send (.sensor 17 s.integ.firmwareCopy)) ∧
    execSmbusMessage s.smbusAddress (.stateSensor 18) s = .next (s.send (.sensor 18 s.thermalState)) := by
  simp [execSmbusMessage, runs]

/-- The sensors that firmware refreshes, each by its number (R415). -/
theorem execPldmSensorRefresh_spec : ∃ t, execPldmSensorRefresh s = .next t ∧
    Map.getD t.integ.sensors 1 0 = wholeDegrees (s.zoneReading true) ∧
    (∀ i, i < 12 → Map.getD t.integ.sensors (2 + i) 0 = wholeDegrees (Map.getD s.pwr.hbmTemps i 0)) ∧
    Map.getD t.integ.sensors 15 0 = (s.field 0x8000C 16 16 : Int) ∧ Map.getD t.integ.sensors 16 0 = (s.limitInForce : Int) ∧
    t.tiles = s.tiles ∧ t.regs = s.regs ∧ t.pwr = s.pwr ∧ t.kv = s.kv ∧ t.mbx = s.mbx := by
  unfold execPldmSensorRefresh
  rw [if_neg (by simp [runs])]
  refine ⟨_, rfl, rfl, fun i stack => ?_, rfl, rfl, rfl, rfl, rfl, rfl, rfl⟩
  interval_cases i <;> rfl

end

/-- Nothing answers at another address, or while firmware does not run. -/
theorem execSmbusMessage_silent {a : Nat} (x : SmbusRequest) {s : State} (silent : s.firmwareRuns = false ∨ a ≠ s.smbusAddress) :
    execSmbusMessage a x s = .next s := by
  unfold execSmbusMessage
  rw [if_pos (by simpa using silent)]

/-- Settles O50: a policy by R485, the end of a quiet period by the two fields that it sets, and each answer by its request. -/
theorem policiesQuietPeriodsAndSideband : Obligations.PoliciesQuietPeriodsAndSideband := by
  unfold Obligations.PoliciesQuietPeriodsAndSideband
  simp only [exec_faultPolicySet, exec_faultQuiet, exec_fwWatchdog, exec_mgmtRefresh, exec_pldmSensorRefresh, exec_smbusMessage]
  refine ⟨fun e x s h source least most mask block => ⟨execFaultPolicySet_takes h source least most mask block,
      execFaultPolicySet_low h⟩,
    fun n s unit => ⟨fun sound => ?_, execFaultQuiet_recovers unit⟩, fun s powered running => ?_, fun s runs => ?_,
    fun s => execPldmSensorRefresh_spec, fun n s runs => execSmbusMessage_numericSensor runs,
    fun n s runs => execSmbusMessage_getPdr runs, fun s => execSmbusMessage_stateSensor, wholeDegrees_bounds, fun s unset => ?_, fun a x s => execSmbusMessage_silent x⟩
  · simp [execFaultQuiet, Nat.not_le.2 unit, sound]
  · simp [execFwWatchdog, powered, running]
  · rw [execMgmtRefresh, if_pos runs, State.refreshCopy]
  · simp [State.smbusAddress, unset]

end Sys2Proof.Machine
end

section
/-!
SUPPORT. Counters, bandwidth windows and the check-value units (R478, R479, R512, R513, R518): the registers of a window, a value held
in two of them, and what each command leaves in them.
-/
namespace Sys2Proof.Machine

theorem exec_cntClear (v : Word) (s : State) : exec (.cntClear v) s = execCntClear v s := rfl
theorem exec_cntBwCfg (w : Nat) (v : Word) (s : State) : exec (.cntBwCfg w v) s = execCntBwCfg w v s := rfl
theorem exec_bwWindowEnd (w a b : Nat) (s : State) : exec (.bwWindowEnd w a b) s = execBwWindowEnd w a b s := rfl
theorem exec_counterSaturated (i : Nat) (s : State) : exec (.counterSaturated i) s = execCounterSaturated i s := rfl
theorem exec_chkRunWrite (o : Nat) (v : Word) (s : State) : exec (.chkRunWrite o v) s = execChkRunWrite o v s := rfl
theorem exec_chkModeWrite (e : Nat) (v : Word) (s : State) : exec (.chkModeWrite e v) s = execChkModeWrite e v s := rfl

/-! ### Counters -/

/-- The counters of the groups of a mask are zero after it clears them, and no other changes (R513). -/
theorem State.counter_clearGroups (s : State) (mask i : Nat) :
    (s.clearGroups mask).counter i = if Nat.testBit mask (i / 16) then 0 else s.counter i := by
  simp only [State.counter, State.clearGroups, Map.getD, Map.get?_dropKeys]
  split <;> rfl

/-- A source is raised once for the counters that saturated (R512). -/
theorem execCounterSaturated_raises {i : Nat} {s : State} (saturated : i ∈ s.cnt.saturated) : execCounterSaturated i s =
    .next ({ s with cnt := { s.cnt with saturated := without s.cnt.saturated i } }.raise srcCounterSaturated 0 0 []) :=
  if_pos ((has_iff _ _).2 saturated)

theorem execCounterSaturated_ignored {i : Nat} {s : State} (idle : i ∉ s.cnt.saturated) : execCounterSaturated i s = .next s :=
  if_neg fun listed => idle ((has_iff _ _).1 listed)

/-! ### Bandwidth windows -/

/-- A register that is cleared holds its reset value. -/
theorem State.reg_clearRegs (s : State) {p : Nat → Bool} {o : Nat} (cleared : p o = true) :
    (s.clearRegs p).reg o = regReset o := by
  simp [State.reg, State.clearRegs, Map.get?_dropKeys, cleared]

/-- The results and peaks of a window reset to zero. -/
theorem regReset_bwReg : ∀ w < 22, ∀ k < 10, 2 ≤ k → regReset (bwReg w (4 * k)) = 0 := by decide +kernel

/-- A value of 64 bits that two registers hold. -/
theorem State.pair_setPair_same (s : State) (o : Nat) {v : Nat} (long : v < 2 ^ 64) : (s.setPair o v).pair o = v := by
  rw [State.pair, State.setPair, State.reg_setReg_same, State.reg_setReg, if_neg (by omega), State.reg_setReg_same]
  omega

theorem State.reg_setPair_other (s : State) {o p : Nat} (v : Nat) (low : o ≠ p) (high : o + 4 ≠ p) :
    (s.setPair o v).reg p = s.reg p := by
  rw [State.setPair, State.reg_setReg, if_neg high, State.reg_setReg, if_neg low]

/-- A value that two registers hold is left alone where both are. -/
theorem State.pair_congr {s t : State} {o : Nat} (low : t.reg o = s.reg o) (high : t.reg (o + 4) = s.reg (o + 4)) :
    t.pair o = s.pair o := by
  rw [State.pair, State.pair, low, high]

/-- The registers of a window that a result leaves alone. -/
theorem State.reg_latchWindow_other (s : State) {w off p : Nat} (bytes : Nat) (other : p ∉ [off, off + 4, off + 16, off + 20]) :
    (s.latchWindow w off bytes).reg (bwReg w p) = s.reg (bwReg w p) := by
  simp only [List.mem_cons, List.not_mem_nil, or_false, not_or] at other
  unfold State.latchWindow bwReg
  dsimp only
  split
  · rw [State.reg_setPair_other _ _ (by omega) (by omega), State.reg_setPair_other _ _ (by omega) (by omega)]
  · rw [State.reg_setPair_other _ _ (by omega) (by omega)]

theorem State.pair_latchWindow_other (s : State) {w off p : Nat} (bytes : Nat) (low : p ∉ [off, off + 4, off + 16, off + 20])
    (high : p + 4 ∉ [off, off + 4, off + 16, off + 20]) : (s.latchWindow w off bytes).pair (bwReg w p) = s.pair (bwReg w p) :=
  State.pair_congr (s.reg_latchWindow_other bytes low) (s.reg_latchWindow_other bytes high)

/-- The count of a window's ends lies apart from its results and peaks. -/
theorem State.pair_setCount_other (s : State) {w p : Nat} (v : Nat) (results : 8 ≤ p) :
    (s.setField (bwReg w 4) 0 16 v).pair (bwReg w p) = s.pair (bwReg w p) :=
  State.pair_congr (s.reg_setField_other _ _ _ (by unfold bwReg; omega)) (s.reg_setField_other _ _ _ (by unfold bwReg; omega))

section
variable {s : State} {w off bytes : Nat} (long : bytes < 2 ^ 64)
include long

/-- The end of a window latches its result. -/
theorem State.pair_latchWindow_result : (s.latchWindow w off bytes).pair (bwReg w off) = bytes := by
  have kept : ∀ u : State, (u.setPair (bwReg w (off + 16)) bytes).pair (bwReg w off) = u.pair (bwReg w off) := fun u => by
    unfold State.pair bwReg
    rw [State.reg_setPair_other _ _ (by omega) (by omega), State.reg_setPair_other _ _ (by omega) (by omega)]
  unfold State.latchWindow
  rw [Nat.mod_eq_of_lt long]
  dsimp only
  split
  · rw [kept, State.pair_setPair_same _ _ long]
  · rw [State.pair_setPair_same _ _ long]

/-- The peak of a window is the largest of its results. -/
theorem State.pair_latchWindow_peak :
    (s.latchWindow w off bytes).pair (bwReg w (off + 16)) = max bytes (s.pair (bwReg w (off + 16))) := by
  have kept : (s.setPair (bwReg w off) bytes).pair (bwReg w (off + 16)) = s.pair (bwReg w (off + 16)) := by
    unfold State.pair bwReg
    rw [State.reg_setPair_other _ _ (by omega) (by omega), State.reg_setPair_other _ _ (by omega) (by omega)]
  unfold State.latchWindow
  rw [Nat.mod_eq_of_lt long]
  dsimp only
  rw [kept]
  split
  · next above => rw [State.pair_setPair_same _ _ long, Nat.max_eq_left (Nat.le_of_lt above)]
  · next below => rw [kept, Nat.max_eq_right (Nat.not_lt.1 below)]

end

/-- Latching a result changes registers only. -/
@[simp] theorem State.latchWindow_tiles (s : State) (w off bytes : Nat) : (s.latchWindow w off bytes).tiles = s.tiles := by
  simp [State.latchWindow]

@[simp] theorem State.latchWindow_kv (s : State) (w off bytes : Nat) : (s.latchWindow w off bytes).kv = s.kv := by
  simp [State.latchWindow]

/-- The end of a window that runs latches both results and their peaks, and counts the window (R478, R479). -/
theorem execBwWindowEnd_latches {w a b : Nat} {s : State} (unit : w < 22) (runs : s.field (bwReg w 0) 31 1 = 1)
    (longA : a < 2 ^ 64) (longB : b < 2 ^ 64) : ∃ t, execBwWindowEnd w a b s = .next t ∧
      t.pair (bwReg w 0x8) = a ∧ t.pair (bwReg w 0x10) = b ∧ t.pair (bwReg w 0x18) = max a (s.pair (bwReg w 0x18)) ∧
      t.pair (bwReg w 0x20) = max b (s.pair (bwReg w 0x20)) ∧
      t.field (bwReg w 4) 0 16 = (s.field (bwReg w 4) 0 16 + 1) % 65536 ∧ t.tiles = s.tiles ∧ t.kv = s.kv := by
  unfold execBwWindowEnd
  rw [if_neg (Nat.not_le.2 unit), if_neg (by simp [runs])]
  refine ⟨_, rfl, ?_, ?_, ?_, ?_, ?_, by simp, by simp⟩
  · rw [State.pair_setCount_other _ _ (by decide), State.pair_latchWindow_other _ _ (by decide) (by decide),
      State.pair_latchWindow_result longA]
  · rw [State.pair_setCount_other _ _ (by decide), State.pair_latchWindow_result longB]
  · rw [State.pair_setCount_other _ _ (by decide), State.pair_latchWindow_other _ _ (by decide) (by decide)]
    exact State.pair_latchWindow_peak (off := 8) longA
  · rw [State.pair_setCount_other _ _ (by decide)]
    refine (State.pair_latchWindow_peak (off := 0x10) longB).trans (congrArg (max b) ?_)
    exact State.pair_latchWindow_other _ _ (by decide) (by decide)
  · rw [State.field_setField_same _ _ _ (by decide), State.field, State.field,
      State.reg_latchWindow_other _ _ (by decide), State.reg_latchWindow_other _ _ (by decide)]
    rfl

/-- A write of a window's configuration clears its results and peaks (R479). -/
theorem execCntBwCfg_clears {w : Nat} (v : Word) {s : State} (unit : w < 22) : ∃ t, execCntBwCfg w v s = .next t ∧
    (∀ k, 2 ≤ k → k < 10 → t.reg (bwReg w (4 * k)) = 0) ∧ t.tiles = s.tiles ∧ t.kv = s.kv ∧ t.cnt = s.cnt := by
  have written : ∃ u : State, execCntBwCfg w v s =
      .next (u.clearRegs (fun x => decide (bwReg w 8 ≤ x ∧ x < bwReg w 0x28))) ∧ u.tiles = s.tiles ∧ u.kv = s.kv ∧ u.cnt = s.cnt := by
    unfold execCntBwCfg
    rw [if_neg (Nat.not_le.2 unit)]
    refine ⟨_, rfl, ?_⟩
    split <;> simp
  obtain ⟨u, clears, tiles, kv, cnt⟩ := written
  refine ⟨_, clears, fun k least most => ?_, tiles, kv, cnt⟩
  rw [State.reg_clearRegs _ (decide_eq_true (by unfold bwReg; omega)), regReset_bwReg w unit k most least]

/-! ### Check-value units -/

/-- The place of a unit's register in the window of its engine (R518). -/
theorem chkAt_chkReg {e c off : Nat} (engine : e < 24) (unit : c < 4) (within : off ≤ 12) :
    chkAt (chkReg e c off) = some (e, 0xC * c + off) := by
  unfold chkAt chkReg
  rw [if_pos (by omega), Option.some.injEq, Prod.mk.injEq]
  constructor <;> omega

/-- A write of CHK_RUN or CHK_BYTES takes its word. -/
theorem execChkRunWrite_takes {e c off : Nat} (v : Word) (s : State) (engine : e < 24) (unit : c < 4) (value : off = 8 ∨ off = 12) :
    execChkRunWrite (chkReg e c off) v s = .next (s.writeReg (chkReg e c off) v.toNat) := by
  rw [execChkRunWrite, chkAt_chkReg engine unit (by omega)]
  exact congrArg Host.Outcome.next (if_pos (by omega))

/-- With no active cue sheet MODE takes what is written. -/
theorem execChkModeWrite_idle {e : Nat} (v : Word) {s : State} (engine : e < 24) (idle : s.fabric.active = none) :
    execChkModeWrite e v s = .next (s.writeReg (chkReg e 0 0) v.toNat) := by
  simp [execChkModeWrite, Nat.not_le.2 engine, idle]

/-- A word whose top bit is clear is the number of the bits below it. -/
theorem mod_half_of_testBit {v : Nat} (word : v < 2 ^ 32) (clear : Nat.testBit v 31 = false) : v % 2 ^ 31 = v := by
  rw [Nat.testBit_eq_decide_div_mod_eq, decide_eq_false_iff_not] at clear
  omega

/-- With an active cue sheet MODE does not become 1. -/
theorem execChkModeWrite_active {e : Nat} (v : Word) {s : State} (engine : e < 24) (active : s.fabric.active.isSome = true)
    (off : Nat.testBit (s.reg (chkReg e 0 0)) 31 = false) :
    execChkModeWrite e v s = .next (s.writeReg (chkReg e 0 0) (v.toNat % 2 ^ 31)) := by
  cases asked : Nat.testBit v.toNat 31 with
  | true => simp [execChkModeWrite, Nat.not_le.2 engine, active, off, asked]
  | false =>
    rw [mod_half_of_testBit v.isLt asked]
    simp [execChkModeWrite, Nat.not_le.2 engine, asked]

/-- Settles O51: the groups of the mask, the registers of the window one by one, and the words of the check-value units. -/
theorem countersWindowsAndCheckUnits : Obligations.CountersWindowsAndCheckUnits := by
  unfold Obligations.CountersWindowsAndCheckUnits
  simp only [exec_cntClear, exec_cntBwCfg, exec_bwWindowEnd, exec_counterSaturated, exec_chkRunWrite, exec_chkModeWrite]
  refine ⟨fun v i s some_ low => ⟨_, rfl, ?_, rfl, rfl, rfl, rfl⟩, fun v i s all_ low => ⟨_, rfl, ?_⟩,
    fun w v s unit => execCntBwCfg_clears v unit, fun w a b s unit => ⟨fun stopped => ?_, execBwWindowEnd_latches unit⟩,
    fun i s => ⟨execCounterSaturated_ignored, execCounterSaturated_raises⟩,
    fun e c v s engine unit => ⟨execChkRunWrite_takes v s engine unit (.inl rfl), execChkRunWrite_takes v s engine unit (.inr rfl)⟩,
    fun e v s => execChkModeWrite_idle v, fun e v s => execChkModeWrite_active v⟩
  · have group : i / 16 < 15 := by omega
    rw [if_neg (by simp [some_]), State.counter_clearGroups, Nat.testBit_mod_two_pow, decide_eq_true group, Bool.true_and]
  · have group : Nat.testBit 0x7FFF (i / 16) = true := by
      rw [show 0x7FFF = 2 ^ 15 - 1 from rfl, Nat.testBit_two_pow_sub_one, decide_eq_true (by omega)]
    rw [if_pos all_, State.counter_clearGroups, if_pos group]
  · rw [execBwWindowEnd, if_neg (Nat.not_le.2 unit), if_pos stopped]

end Sys2Proof.Machine
end

section
/-!
SUPPORT. The balls of the package (R524 to R527): their indices and positions by arithmetic on the coordinates, and the rows of the
Ethernet lanes by the bands of the grid.
-/
namespace Sys2Proof.Machine

/-! ### Indices and positions -/

/-- The coordinates of a ball (R524). -/
theorem ballPopulated_iff (i j : Nat) :
    ballPopulated i j = true ↔ 1 ≤ i ∧ i ≤ 59 ∧ 1 ≤ j ∧ j ≤ 59 ∧ ¬(41 ≤ i ∧ 41 ≤ j) := by
  simp only [ballPopulated, Bool.and_eq_true, Bool.not_eq_true', decide_eq_true_eq, decide_eq_false_iff_not, and_assoc]

theorem ballIndex_range {i j : Nat} (ball : ballPopulated i j = true) : 1 ≤ ballIndex i j ∧ ballIndex i j ≤ 3120 := by
  rw [ballPopulated_iff] at ball
  unfold ballIndex
  split <;> omega

theorem ballIndex_injective {i j k l : Nat} (ball : ballPopulated i j = true) (other : ballPopulated k l = true)
    (same : ballIndex i j = ballIndex k l) : i = k ∧ j = l := by
  rw [ballPopulated_iff] at ball other
  unfold ballIndex at same
  split at same <;> split at same <;> omega

/-- Rows of 59 balls to row 40, and of 40 balls from row 41. -/
theorem ballIndex_surjective {n : Nat} (least : 1 ≤ n) (most : n ≤ 3120) :
    ∃ i j, ballPopulated i j = true ∧ ballIndex i j = n := by
  by_cases long : n ≤ 2360
  · refine ⟨(n - 1) / 59 + 1, (n - 1) % 59 + 1, (ballPopulated_iff _ _).2 (by omega), ?_⟩
    rw [ballIndex, if_pos (by omega)]
    omega
  · refine ⟨(n - 2361) / 40 + 41, (n - 2361) % 40 + 1, (ballPopulated_iff _ _).2 (by omega), ?_⟩
    rw [ballIndex, if_neg (by omega)]
    omega

/-- The quadrants lie apart: a coordinate beyond 59 is one that its quadrant mirrors. -/
theorem ballPosition_injective {p q : Quadrant} {i j k l : Nat} (ball : ballPopulated i j = true) (other : ballPopulated k l = true)
    (same : ballPosition p i j = ballPosition q k l) : p = q ∧ i = k ∧ j = l := by
  rw [ballPopulated_iff] at ball other
  cases p <;> cases q <;>
    simp only [ballPosition, Prod.mk.injEq, reduceCtorEq, true_and, false_and] at same ⊢ <;> omega

theorem ballPosition_range (q : Quadrant) {i j : Nat} (ball : ballPopulated i j = true) :
    1 ≤ (ballPosition q i j).1 ∧ (ballPosition q i j).1 ≤ 118 ∧ 1 ≤ (ballPosition q i j).2 ∧ (ballPosition q i j).2 ≤ 118 := by
  rw [ballPopulated_iff] at ball
  cases q <;> simp only [ballPosition] <;> omega

/-! ### What a ball carries -/

/-- Every populated ball carries something, and no other. -/
theorem ballAt_eq_none (q : Quadrant) (i j : Nat) : ballAt q i j = none ↔ ballPopulated i j = false := by
  unfold ballAt
  cases ballPopulated i j with
  | false => simp
  | true =>
    simp only [Bool.not_true, Bool.false_eq_true, if_false]
    split
    · simp
    · split <;> simp

/-- A core ball of odd sum is VSS (R526). -/
theorem ballAt_core_odd (q : Quadrant) {i j : Nat} (ball : ballPopulated i j = true) (row : 9 ≤ i) (column : 9 ≤ j)
    (odd : (i + j) % 2 = 1) : ballAt q i j = some .vss := by
  rw [ballAt, ball, if_neg (by decide), if_neg (by omega), if_neg (by omega), coreBall, if_pos odd]

/-- The balls of the Ethernet lanes. -/
def Ball.isEth : Ball → Bool
  | .ethTx _ _ => true
  | .ethRx _ _ => true
  | _ => false

theorem northWestBall_isEth (i j : Nat) : (northWestBall i j).isEth = false := by
  unfold northWestBall
  repeat' split
  all_goals rfl

theorem northEastBall_isEth (i j : Nat) : (northEastBall i j).isEth = false := by
  unfold northEastBall
  repeat' split
  all_goals rfl

theorem pcieBall_isEth (first i j : Nat) : (pcieBall first i j).isEth = false := by
  unfold pcieBall
  repeat' split
  all_goals rfl

theorem rowBall_isEth (q : Quadrant) (i j : Nat) : (rowBall q i j).isEth = false := by
  unfold rowBall
  split
  · rfl
  · split
    · exact northWestBall_isEth i j
    · exact northEastBall_isEth i j
    · split
      · rfl
      · split
        · rfl
        · exact pcieBall_isEth 0 i j
    · exact pcieBall_isEth 8 i j

theorem coreBall_isEth (i j : Nat) : (coreBall i j).isEth = false := by
  unfold coreBall
  repeat' split
  all_goals rfl

/-- The balls of the Ethernet lanes lie in the column band (R527). -/
theorem ballAt_eth {q : Quadrant} {i j : Nat} {b : Ball} (eth : b.isEth = true) :
    ballAt q i j = some b ↔ ballPopulated i j = true ∧ 9 ≤ i ∧ j ≤ 8 ∧ columnBall q i j = b := by
  have row : rowBall q i j ≠ b := fun h => by simp [← h, rowBall_isEth] at eth
  have core : coreBall i j ≠ b := fun h => by simp [← h, coreBall_isEth] at eth
  unfold ballAt
  cases ballPopulated i j with
  | false => simp
  | true =>
    simp only [Bool.not_true, Bool.false_eq_true, if_false, true_and]
    split
    · simp only [Option.some.injEq, row, false_iff]
      omega
    · split
      · simp only [Option.some.injEq]
        exact ⟨fun h => ⟨by omega, by omega, h⟩, fun h => h.2.2⟩
      · simp only [Option.some.injEq, core, false_iff]
        omega

/-- The place of a side of a pair among the six rows of its lane (R527). -/
def pairRow (p : Bool) : Nat := if p then 0 else 1

/-- A ball of an Ethernet lane, of its receiving or its transmitting pair, and its column. -/
def ethBall (rx : Bool) (n : Nat) (p : Bool) : Ball := if rx then .ethRx n p else .ethTx n p

def ethColumn (rx : Bool) : Nat := if rx then 5 else 2

theorem ethBall_isEth (rx : Bool) (n : Nat) (p : Bool) : (ethBall rx n p).isEth = true := by cases rx <;> rfl

theorem columnBall_eq_ethBall (q : Quadrant) (rx : Bool) (n : Nat) (p : Bool) (i j : Nat) : columnBall q i j = ethBall rx n p ↔
    10 ≤ i ∧ i < 58 ∧ n = ethBase q + (i - 10) / 6 ∧ (i - 10) % 6 = pairRow p ∧ j = ethColumn rx := by
  constructor
  · intro h
    unfold columnBall at h
    split at h
    · cases rx <;> cases h
    · dsimp only at h
      cases rx <;> split at h <;> cases h
      all_goals exact ⟨by omega, by omega, rfl, ‹_›, rfl⟩
  · rintro ⟨low, high, rfl, row, rfl⟩
    unfold columnBall
    rw [if_neg (by omega)]
    cases p <;> cases rx <;> simp only [row, pairRow] <;> rfl

/-- The rows of the column band, by lane and side. -/
theorem laneRow_iff (q : Quadrant) (n : Nat) (p : Bool) (i : Nat) :
    (10 ≤ i ∧ i < 58 ∧ n = ethBase q + (i - 10) / 6 ∧ (i - 10) % 6 = pairRow p) ↔
      ∃ k, k < 8 ∧ n = ethBase q + k ∧ i = 10 + 6 * k + pairRow p := by
  have side : pairRow p < 2 := by cases p <;> decide
  constructor
  · rintro ⟨low, high, lane, row⟩
    exact ⟨(i - 10) / 6, by omega, lane, by omega⟩
  · rintro ⟨k, lane, rfl, rfl⟩
    omega

/-- A pair of an Ethernet lane lies on the two rows of its lane, in its column. -/
theorem ballAt_eq_ethBall (q : Quadrant) (rx : Bool) (n : Nat) (p : Bool) (i j : Nat) :
    ballAt q i j = some (ethBall rx n p) ↔ ∃ k, k < 8 ∧ n = ethBase q + k ∧ i = 10 + 6 * k + pairRow p ∧ j = ethColumn rx := by
  have lane := laneRow_iff q n p i
  have column : 1 ≤ ethColumn rx ∧ ethColumn rx ≤ 8 := by cases rx <;> decide
  rw [ballAt_eth (ethBall_isEth rx n p), columnBall_eq_ethBall]
  constructor
  · rintro ⟨-, -, -, low, high, number, row, rfl⟩
    obtain ⟨k, unit, number, row⟩ := lane.1 ⟨low, high, number, row⟩
    exact ⟨k, unit, number, row, rfl⟩
  · rintro ⟨k, unit, number, row, rfl⟩
    obtain ⟨low, high, number, row⟩ := lane.2 ⟨k, unit, number, row⟩
    exact ⟨(ballPopulated_iff i _).2 (by omega), by omega, by omega, low, high, number, row, rfl⟩

/-- Settles O59: indices and positions by the arithmetic of their definitions, and what a ball carries by its band of the grid. -/
theorem ballsByTheirCoordinates : Obligations.BallsByTheirCoordinates := by
  unfold Obligations.BallsByTheirCoordinates
  exact ⟨fun i j => ballIndex_range, fun i j k l => ballIndex_injective, fun n => ballIndex_surjective,
    fun p q i j k l => ballPosition_injective, fun q i j => ballPosition_range q, fun x y => rfl, ballAt_eq_none,
    fun q i j => ballAt_core_odd q, fun q n p i j =>
      ⟨ballAt_eq_ethBall q false n p i j, ballAt_eq_ethBall q true n p i j⟩⟩

end Sys2Proof.Machine
end
